-- ==== Sys2Proof/Word.lean ====
section
/-!
DEFINITION. The words of the Sekvara 2432: bytes and halfwords of the exchange memory and the host port
(chapter 1, section 1.1), and the index types of its numbered things (00_scope, section 5, Identifiers).
-/
namespace Sys2Proof

/-- A byte of the exchange memory. -/
abbrev Byte := BitVec 8

/-- A halfword: what one host access reads or writes (R1). -/
abbrev Half := BitVec 16

/-- Booths 0 to 23. -/
abbrev BoothId := Fin 24
/-- Channels 0 to 31; channel 0 is the floor. -/
abbrev ChannelId := Fin 32
/-- Consoles 1 to 3 of a booth, held as 0 to 2: console number `n` of the manual is `n - 1` here. -/
abbrev ConsoleId := Fin 3
/-- Order slots 0 to 31. -/
abbrev SlotId := Fin 32
/-- Racks 0 to 7. -/
abbrev RackId := Fin 8
/-- Positions 0 to 39 within a rack. -/
abbrev PlaceId := Fin 40
/-- Dock positions by index, rack × 40 + position. -/
abbrev PosId := Fin 320
/-- Receiver entries 0 to 2047. -/
abbrev RecvId := Fin 2048
/-- Hire records 0 to 1023. -/
abbrev HireId := Fin 1024
/-- Account records 0 to 511. -/
abbrev AcctId := Fin 512
/-- Tariff classes 0 to 3. -/
abbrev TariffId := Fin 4

/-- A receiver serial, 24 bits; 0 is not a serial. -/
abbrev Serial := BitVec 24

end Sys2Proof
end

