-- ==== Sys2Proof/Syntax.lean ====
section
/-!
DEFINITION. The commands of the part: one constructor of `Instr` for each row of spec/opcode_table.json, with what the row's event
carries. An order's parameters stand in its order slot (R5, R7), so the order rows carry no operand: each is the order unit's taking of
the slot at the head of the post queue.
-/
namespace Sys2Proof

/-- The two byte enables of a host write (R1): low byte, high byte. -/
structure ByteEnables where
  lo : Bool
  hi : Bool
  deriving DecidableEq, Repr

/-- Both byte enables asserted. -/
abbrev ByteEnables.both (e : ByteEnables) : Bool := e.lo && e.hi

/-- One frame's audio of one voice. The samples are outside the manual (00_scope section 3), so a sound is a token that is moved and
never computed on (log 7). -/
inductive Audio where
  | silence
  | sound (token : Nat)
  deriving DecidableEq, Repr, Inhabited

/-- The three console audio fields of a booth's frame. -/
structure AudioTriple where
  c1 : Audio
  c2 : Audio
  c3 : Audio
  deriving DecidableEq, Repr, Inhabited

/-- The kind of a console event; `unknown` is any kind that is none of the six of R55. -/
inductive EventKind where
  | micOn | micOff | offer | accept | cancel | offerOut | unknown
  deriving DecidableEq, Repr

/-- A console event as the control field carries it: the console number is 0 to 3 on the line, and 0 names no console (R47). -/
structure ConsoleEvent where
  kind : EventKind
  console : Fin 4
  deriving DecidableEq, Repr

/-- The part of an upstream frame in which a symbol stands, from the symbol after the marker to the check value (R43). -/
inductive FramePart where
  | frameType
  | audio (console : ConsoleId)
  | control
  | check
  deriving DecidableEq, Repr

/-- One symbol of a frame that shows at least one of the three errors of R43. -/
structure SymbolFault where
  part : FramePart
  notInTable : Bool
  balance : Bool
  marker : Bool
  deriving DecidableEq, Repr

/-- An upstream AUDIO frame (section 3.1). `inPlace`: its marker came exactly one frame after the last (R34). `faults` lists the
symbols in error; `checkOk` says whether the frame check value passes. -/
structure AudioFrame where
  inPlace : Bool
  audio : AudioTriple
  event : Option ConsoleEvent
  faults : List SymbolFault
  checkOk : Bool
  deriving DecidableEq, Repr

/-- An upstream ANNOUNCE frame: the twelve bytes of section 3.4. -/
structure AnnounceFrame where
  inPlace : Bool
  block : Vector Byte 12
  checkOk : Bool
  deriving DecidableEq, Repr

/-- The reason a receiver gives for a beacon; `unknown` is none of the three (R137). -/
inductive BeaconReason where
  | periodic | channelChange | lowBattery | unknown
  deriving DecidableEq, Repr

/-- A hub message of the return link (section 9.1). -/
structure HubMessage where
  hub : Byte
  serial : Serial
  channel : Byte
  battery : BitVec 4
  sequence : BitVec 4
  reason : BeaconReason
  checkOk : Bool
  deriving DecidableEq, Repr

/-- A change reported by a rack (R105); a position number above 39 is discarded. -/
inductive DockChange where
  | insert (position : Byte) (serial : Serial) (battery : BitVec 4)
  | remove (position : Byte)
  deriving DecidableEq, Repr

/-- A battery report of a rack's answer (R105). -/
structure BatteryReport where
  position : Byte
  level : BitVec 4
  deriving DecidableEq, Repr

/-- A preset result of a rack's answer (R114): DELIVERED or FAILED. -/
structure PresetResult where
  position : Byte
  delivered : Bool
  deriving DecidableEq, Repr

/-- The answer of an ONLINE rack: changes in the order the rack saw them, battery reports, preset results (R105). -/
structure RackAnswer where
  changes : List DockChange
  reports : List BatteryReport
  results : List PresetResult
  deriving DecidableEq, Repr

/-- What an inventory says of one position that is not empty (R107). -/
structure InventoryItem where
  serial : Serial
  battery : BitVec 4
  deriving DecidableEq, Repr

/-- An inventory: each of the 40 positions empty or holding a serial with a battery level (R107). -/
abbrev Inventory := Vector (Option InventoryItem) 40

/-- The commands. -/
inductive Instr where
  /-- RESET_ASSERT (R18). -/
  | resetAssert
  /-- RESET_RELEASE (R22). -/
  | resetRelease
  /-- STARTUP_COMPLETE (R18). -/
  | startupComplete
  /-- EXCHANGE_WRITE (R2): a host write of the halfword at a 17-bit word address. -/
  | exchangeWrite (address : BitVec 17) (data : Half) (enables : ByteEnables)
  /-- HOLDER_WORD_WRITE (R4): a host write of a slot's holder word. -/
  | holderWordWrite (slot : SlotId) (data : Half) (enables : ByteEnables)
  /-- LOG_READ_COUNT_WRITE (R162). -/
  | logReadCountWrite (data : Half) (enables : ByteEnables)
  /-- POST (R6): a host write of the low half of POST. -/
  | post (data : Half) (enables : ByteEnables)
  /-- NOTICE_PENDING_WRITE (R14): a host write of the low half of NOTICE_PENDING. -/
  | noticePendingWrite (data : Half) (enables : ByteEnables)
  /-- NOTICE_ENABLE_WRITE (R15): a host write of the low half of NOTICE_ENABLE. -/
  | noticeEnableWrite (data : Half) (enables : ByteEnables)
  /-- NOTICE_VECTOR_LOW_READ (R16). -/
  | noticeVectorLowRead
  /-- NOTICE_VECTOR_HIGH_READ (R16). -/
  | noticeVectorHighRead
  /-- RESTART (R17, R20): a host write of the low half of PART_CONTROL. `working`: it arrives while the order at the head of the post
  queue is WORKING, rather than between orders. -/
  | restart (data : Half) (enables : ByteEnables) (working : Bool)
  /-- SOFT_RESTART_COMPLETE (R21). -/
  | softRestartComplete
  /-- IGNORED_REGISTER_WRITE (R17): a host write of the halfword at a word address of the port registers. -/
  | ignoredRegisterWrite (address : BitVec 17) (data : Half) (enables : ByteEnables)
  /-- UNKNOWN_ORDER (R7). -/
  | unknownOrder
  /-- SET_NOTICE (R11). -/
  | setNotice
  /-- SET_TIMERS (R12). -/
  | setTimers
  /-- SET_LOG_POLICY (R167). -/
  | setLogPolicy
  /-- CANCEL (R10). -/
  | cancel
  /-- CLEAR_COUNTS_LINKS (R53). -/
  | clearCountsLinks
  /-- CLEAR_COUNTS_DOCKS (R118). -/
  | clearCountsDocks
  /-- SET_CLOCK (R25). -/
  | setClock
  /-- BOOTH_DEFINE (R50). -/
  | boothDefine
  /-- LINK_HOLD (R51). -/
  | linkHold
  /-- LINK_RELEASE (R52). -/
  | linkRelease
  /-- BOOTH_INTAKE (R90). -/
  | boothIntake
  /-- SEAT_ASSIGN (R69). -/
  | seatAssign
  /-- CHANNEL_DEFINE (R74). -/
  | channelDefine
  /-- CHANNEL_CLEAR (R76). -/
  | channelClear
  /-- HANDOVER (R86). -/
  | handover
  /-- SET_DISTRIBUTION (R94). -/
  | setDistribution
  /-- ISSUE (R121). -/
  | issue
  /-- DECLARE_LOST (R134). -/
  | declareLost
  /-- RETIRE_RECEIVER (R116). -/
  | retireReceiver
  /-- RESTORE_RECEIVER (R117). -/
  | restoreReceiver
  /-- SET_TARIFF (R148). -/
  | setTariff
  /-- ACCOUNT_OPEN (R150). -/
  | accountOpen
  /-- ACCOUNT_PAY (R152). -/
  | accountPay
  /-- ACCOUNT_REFUND (R153). -/
  | accountRefund
  /-- ACCOUNT_CLOSE (R154). -/
  | accountClose
  /-- FRAME_BOUNDARY (R78). -/
  | frameBoundary
  /-- SUPERFRAME_BOUNDARY (R97). -/
  | superframeBoundary
  /-- AUDIO_FRAME (R31). -/
  | audioFrame (booth : BoothId) (frame : AudioFrame)
  /-- ANNOUNCE_FRAME (R36). -/
  | announceFrame (booth : BoothId) (frame : AnnounceFrame)
  /-- MISSING_MARKER (R35): a frame period of a link without its marker. -/
  | missingMarker (booth : BoothId)
  /-- MIC_ON (R57) from the console number the control field carries. -/
  | micOn (booth : BoothId) (console : Fin 4)
  /-- MIC_OFF (R58). -/
  | micOff (booth : BoothId) (console : Fin 4)
  /-- OFFER (R62). -/
  | offer (booth : BoothId) (console : Fin 4)
  /-- ACCEPT (R63). -/
  | accept (booth : BoothId) (console : Fin 4)
  /-- CONSOLE_CANCEL (R64). -/
  | consoleCancel (booth : BoothId) (console : Fin 4)
  /-- OFFER_OUT (R64, R83). -/
  | offerOut (booth : BoothId) (console : Fin 4)
  /-- BUSY_DEADLINE_EXPIRY (R59). -/
  | busyDeadlineExpiry (booth : BoothId) (console : ConsoleId)
  /-- OFFER_DEADLINE_EXPIRY (R64). -/
  | offerDeadlineExpiry (booth : BoothId)
  /-- GAP_DEADLINE_EXPIRY (R66). -/
  | gapDeadlineExpiry (booth : BoothId) (console : ConsoleId)
  /-- OUTGOING_OFFER_LAPSE (R85). -/
  | outgoingOfferLapse (channel : ChannelId)
  /-- WARNING_REACHED (R87). -/
  | warningReached (channel : ChannelId)
  /-- TARGET_REACHED (R87). -/
  | targetReached (channel : ChannelId)
  /-- WAIT_DEADLINE_EXPIRY (R88). -/
  | waitDeadlineExpiry (channel : ChannelId)
  /-- FLOOR_FRAME (R80): a floor frame complete and in its place with its audio, or none for a missing or malformed one. -/
  | floorFrame (frame : Option Audio)
  /-- POLL_SEND (R104). -/
  | pollSend
  /-- RACK_ANSWER (R105): the answer of the polled rack. -/
  | rackAnswer (answer : RackAnswer)
  /-- INVENTORY_ANSWER (R107): the polled rack's answer to an inventory request. -/
  | inventoryAnswer (inventory : Inventory)
  /-- ANSWER_WINDOW_EXPIRY (R104). -/
  | answerWindowExpiry
  /-- SETTLE_DEADLINE_EXPIRY (R109). -/
  | settleDeadlineExpiry (position : PosId)
  /-- RESERVE_DEADLINE_EXPIRY (R127). -/
  | reserveDeadlineExpiry (hire : HireId)
  /-- BEACON (R137). -/
  | beacon (message : HubMessage)
  /-- CENSUS_MARK (R28). -/
  | censusMark
  /-- RUN_COUNTER_TICK (R22). -/
  | runCounterTick
  deriving DecidableEq, Repr

end Sys2Proof
end

