-- ==== Sys2Proof/Config.lean ====
section
/-!
DEFINITION. What the spec leaves open and the machine goes on with: constants without a body, applied to the draw counter of State or
to the operand. Nothing can be proved of their values (logs 6, 7 and 40).
-/
namespace Sys2Proof

/-- The run counter after the tick that uses up its 48 bits: the spec says only that no working life of the part reaches it
(section 2.1). A free value (log 6). -/
opaque Config.runCounterAfterEnd : Nat → BitVec 48

/-- The audio of console `console` of booth `booth` in a frame for which the booth link receiver handed no audio, because no upstream
frame was taken (R20, R31). A free value (log 7). -/
opaque Config.boothAudioNotHanded : Nat → BoothId → ConsoleId → Audio

/-- The floor audio of a frame for which no floor frame was taken (R20, R80). A free value (log 7). -/
opaque Config.floorAudioNotTaken : Nat → Audio

/-- The 4-byte span field of a TURN record whose span is more seconds than 4 bytes hold: R67 and section 11.2 state no value. A free value
(log 40). -/
opaque Config.longTurnSpan : Nat → BitVec 32

end Sys2Proof
end

