-- ==== Sys2Proof/Machine/State.lean ====
section
/-!
DEFINITION. The state of the part: every record the manual gives, block by block, with its power-on values, as plain data.

Run ticks, money, minutes and saturating counts are natural numbers (the manual adds, compares and divides them as whole numbers, and
each rule that limits one is written where it is changed); what the host sees wrap (change counters, log counts, plan number) are bit
vectors. Optional fields are `Option`; the manual's sentinel (255, 0xFFFF) is `none`.
-/
namespace Sys2Proof.Machine

/-- The part has no fault: no rule of the spec stops the machine (INVENTORY, Faults). -/
inductive Fault where
  deriving DecidableEq, Repr

/-- Why a step has no meaning. -/
inductive Refusal where
  /-- Raised by an arm of `exec` whose command has no meaning yet; safe. No arm raises it. -/
  | notModelled (mnemonic : String)
  deriving DecidableEq, Repr

/-- The exchange memory's bytes: (address, byte) pairs, addresses strictly rising, no byte 0; an unlisted address reads 0 (R18). -/
abbrev Memory := List Host.Cell

/-! ## Part, header, notices, clock, orders -/

/-- The part's three states (section 1.9), in the order of their codes 0, 1, 2. -/
inductive PartState where
  | starting | ready | restarting
  deriving DecidableEq, Repr

/-- The header fields that no other block holds (section 1.2): change counter, guard counter, post-refused counter, clock snapshot. -/
structure Header where
  changes : Half
  guardHits : Nat
  postRefused : Nat
  snapTicks : Nat
  snapSeconds : Nat
  snapFraction : Nat
  deriving DecidableEq, Repr

/-- The eleven timer settings, in the order of the SET_TIMERS parameters (R12). -/
structure Timers where
  reservation : Nat
  settle : Nat
  freshness : Nat
  silent : Nat
  quietHold : Nat
  lossHold : Nat
  acceptWindow : Nat
  mergeGap : Nat
  relief : Nat
  handoverWait : Nat
  battery : Nat
  deriving DecidableEq, Repr

/-- The defaults of R12. -/
def Timers.default : Timers :=
  { reservation := 45, settle := 500, freshness := 30, silent := 180, quietHold := 8, lossHold := 250, acceptWindow := 15,
    mergeGap := 20, relief := 1800, handoverWait := 30, battery := 12 }

/-- The fifteen notice classes in index order 1 to 15 (section 1.7). -/
inductive Notice where
  | floor | link | fallback | handover | relief | plan | dock | silent | account | log | announce | stray | guard | clock | order
  deriving DecidableEq, Repr

/-- The notice unit: bit n of each set stands for the class of index n (R14, R15); `vectorHigh` is the half kept by the last read of
the low half of NOTICE_VECTOR (R16). -/
structure Notices where
  waiting : Half
  enabled : Half
  base : BitVec 32
  stride : Half
  vectorHigh : Option Half
  deriving DecidableEq, Repr

/-- The hall clock (R22, R24); `markDue` is the model's own: a census mark falls at this tick and has not been taken (log 5). -/
structure Clock where
  run : Nat
  offset : Int
  valid : Bool
  markDue : Bool
  deriving DecidableEq, Repr

/-- What the owning block of a standing order waits for (R9): the reservation of an ISSUE or the scheduled handover of a HANDOVER. -/
inductive StandingOwner where
  | issue (hire : HireId)
  | handover (channel : ChannelId)
  deriving DecidableEq, Repr

/-- A standing order: its slot, what it waits for, and the CLAMPED its result will carry (R8, R122). -/
structure Standing where
  slot : SlotId
  owner : StandingOwner
  clamped : Bool
  deriving DecidableEq, Repr

/-- The order unit's post queue and standing list (R6, R9). -/
structure Orders where
  queue : List SlotId
  standing : List Standing
  deriving DecidableEq, Repr

/-! ## Calendar stamps and tally records -/

/-- A calendar stamp: seconds and fraction (section 2.3). -/
structure Stamp where
  seconds : Nat
  fraction : Nat
  deriving DecidableEq, Repr

/-- The stamp of no calendar, and of a zero record. -/
def Stamp.zero : Stamp := { seconds := 0, fraction := 0 }

/-- Why a hire closed (section 8.1). -/
inductive CloseCause where
  | notClosed | returned | lost
  deriving DecidableEq, Repr

/-- Why a turn ended (R67). -/
inductive TurnEnd where
  | micOff | handover | link | seat
  deriving DecidableEq, Repr

/-- Where a lost receiver was found. -/
inductive FoundWhere where
  | dock | beacon
  deriving DecidableEq, Repr

/-- The body of a HIRE_CLOSED record (R135). -/
structure HireClosed where
  number : BitVec 32
  account : AcctId
  adopted : Bool
  clockSet : Bool
  presetFailed : Bool
  clockUnset : Bool
  holder : BitVec 32
  serial : Serial
  cause : CloseCause
  start : Stamp
  finish : Stamp
  billed : Nat
  charge : Nat
  taken : Nat
  added : Nat
  deriving DecidableEq, Repr

/-- The body of a TURN record (R67, R166). -/
structure TurnRecord where
  booth : BoothId
  console : ConsoleId
  cause : TurnEnd
  channel : Option ChannelId
  interpreter : BitVec 24
  relief : Bool
  clockUnset : Bool
  clockSet : Bool
  start : Stamp
  merged : Nat
  span : Nat
  onMic : Nat
  deriving DecidableEq, Repr

/-- The body of an ACCOUNT_CLOSED record (R154). -/
structure AccountClosed where
  account : AcctId
  holder : BitVec 32
  paid : Nat
  charged : Nat
  refunded : Nat
  refund : Nat
  deriving DecidableEq, Repr

/-- The body of a RECEIVER_FOUND record (R111, R141). -/
structure ReceiverFound where
  serial : Serial
  place : FoundWhere
  hire : BitVec 32
  found : Stamp
  clockUnset : Bool
  deriving DecidableEq, Repr

/-- The body of a RESTART record (R21). -/
structure RestartCounts where
  openHires : Nat
  reservingHires : Nat
  moneyAccounts : Nat
  hiredReceivers : Nat
  deriving DecidableEq, Repr

/-- A tally record without its common part (section 11.2). -/
inductive TallyRecord where
  | hireClosed (r : HireClosed)
  | turn (r : TurnRecord)
  | accountClosed (r : AccountClosed)
  | receiverFound (r : ReceiverFound)
  | restarted (r : RestartCounts)
  deriving DecidableEq, Repr

/-- What a waiting record belongs to (R165). -/
inductive WaitOwner where
  | hire (h : HireId)
  | console (b : BoothId) (n : ConsoleId)
  | receiver (e : RecvId)
  deriving DecidableEq, Repr

/-- An entry of the wait list. -/
structure WaitEntry where
  owner : WaitOwner
  record : TallyRecord
  deriving DecidableEq, Repr

/-- The log policy. -/
inductive LogPolicy where
  | keep | overwrite
  deriving DecidableEq, Repr

/-- The tally log writer (R161). The records themselves stand in the exchange memory, and so does the host's read count. -/
structure TallyLog where
  writeCount : Half
  policy : LogPolicy
  lost : Nat
  waiting : List WaitEntry
  deriving DecidableEq, Repr

/-! ## Booth records -/

/-- A language code: three character codes (00_scope section 5). -/
structure Lang where
  a : Byte
  b : Byte
  c : Byte
  deriving DecidableEq, Repr

/-- The code "---", meaning none. -/
def Lang.unset : Lang := { a := 45, b := 45, c := 45 }

/-- The code "FLR" of channel 0. -/
def Lang.floor : Lang := { a := 70, b := 76, c := 82 }

/-- Audio format of a booth and quality of a channel. -/
inductive Format where
  | standard | wide
  deriving DecidableEq, Repr

/-- Checksum method of a booth definition (R37). -/
inductive SumMethod where
  | bytes | fields
  deriving DecidableEq, Repr

/-- Link states, in the order of their LINK_HOLD codes 0 to 4 (R51). -/
inductive LinkState where
  | held | seeking | announcing | mismatch | live
  deriving DecidableEq, Repr

/-- Last change cause of a link (section 3.3). -/
inductive LinkCause where
  | noCause | hold | release | aligned | up | mismatch | badAnnounce | degraded | lost
  deriving DecidableEq, Repr

/-- Mismatch reason (R39). -/
inductive MismatchReason where
  | noReason | booth | serial | code | consoles | format
  deriving DecidableEq, Repr

/-- A booth definition (R50). -/
structure BoothDef where
  defined : Bool
  lang : Lang
  consoles : Nat
  serial : BitVec 32
  format : Format
  method : SumMethod
  threshold : Nat
  masking : Bool
  deriving DecidableEq, Repr

/-- The fields of the last good announce and the checksums of the last announce taken (R36). -/
structure Announced where
  booth : Byte
  serial : BitVec 32
  lang : Lang
  consoles : Byte
  format : Format
  revision : Byte
  received : Byte
  computed : Byte
  mismatch : MismatchReason
  deriving DecidableEq, Repr

/-- Counts of the three line errors (R43). -/
structure ErrorCounts where
  symbol : Nat
  balance : Nat
  marker : Nat
  deriving DecidableEq, Repr

/-- Lifetime counters of a link (R45). -/
structure LinkCounts where
  errors : ErrorCounts
  entries : Nat
  degraded : Nat
  losses : Nat
  badAnnounces : Nat
  mismatches : Nat
  dropped : Nat
  replaced : Nat
  deriving DecidableEq, Repr

/-- The link fields of a booth record (section 3.2). -/
structure LinkFields where
  state : LinkState
  cause : LinkCause
  changed : Nat
  resync : Bool
  definition : BoothDef
  announced : Announced
  alignRun : Nat
  missingRun : Nat
  badRun : Nat
  heldRun : Nat
  window : ErrorCounts
  counts : LinkCounts
  deriving DecidableEq, Repr

/-- Console lamps (section 4.5). -/
inductive ConsoleLamp where
  | dark | live | onAir | busy | cue | cueOut | warn | relief
  deriving DecidableEq, Repr

/-- Last event of a console. -/
inductive LastEvent where
  | noEvent | micOn | micOff | offer | offerOut | accept | cancel
  deriving DecidableEq, Repr

/-- Last outcome of a console event (R55). -/
inductive EventOutcome where
  | noOutcome | taken | refused | ignored | passed
  deriving DecidableEq, Repr

/-- Turn states (section 4.7). -/
inductive TurnState where
  | idle | running | gap
  deriving DecidableEq, Repr

/-- The console fields kept for each console (section 4.1). The pending turn record is the console's entry of the wait list. -/
structure ConsoleRec where
  interpreter : BitVec 24
  lamp : ConsoleLamp
  busy : Option Nat
  lastEvent : LastEvent
  lastOutcome : EventOutcome
  turn : TurnState
  turnStart : Nat
  turnStamp : Stamp
  turnChannel : Option ChannelId
  turnInterpreter : BitVec 24
  onMic : Nat
  liveSince : Nat
  liveEnd : Nat
  gapDeadline : Nat
  reliefReached : Bool
  clockUnset : Bool
  clockSet : Bool
  deriving DecidableEq, Repr

/-- An internal offer (R62). -/
structure InternalOffer where
  offerer : ConsoleId
  deadline : Nat
  deriving DecidableEq, Repr

/-- The console fields of a booth record (section 4.1). -/
structure ConsoleFields where
  inUse : Nat
  live : Option ConsoleId
  claimed : Option ConsoleId
  quietSince : Nat
  offer : Option InternalOffer
  ignored : Nat
  each : Vector ConsoleRec 3
  deriving DecidableEq, Repr

/-- Role of a booth in a channel, and owner of a channel. -/
inductive Role where
  | primary | partner
  deriving DecidableEq, Repr

/-- The channel-role fields of a booth record (R73). -/
structure RoleFields where
  named : Option ChannelId
  role : Role
  fed : Option ChannelId
  intake : ChannelId
  deriving DecidableEq, Repr

/-- A booth record. -/
structure Booth where
  changes : Half
  link : LinkFields
  cons : ConsoleFields
  role : RoleFields
  deriving DecidableEq, Repr

/-- What a booth's blocks hold outside the record: the last good frame (R46), the audio handed for the coming frame (R31), and whether
the present claim was made by an internal acceptance (R63, log 13). -/
structure BoothInner where
  lastGood : Option AudioTriple
  handed : Option AudioTriple
  accepted : Bool
  deriving DecidableEq, Repr

/-- Link control word of a downstream frame (section 3.1). -/
inductive LinkControl where
  | plain | ack | resync
  deriving DecidableEq, Repr

/-- A downstream frame (R30). -/
structure DownFrame where
  intake : Audio
  lamp1 : ConsoleLamp
  lamp2 : ConsoleLamp
  lamp3 : ConsoleLamp
  control : LinkControl
  deriving DecidableEq, Repr

/-! ## Channels and distribution -/

/-- Source state of a channel (section 5.1). -/
inductive Source where
  | noSource | floor | booth | quietFloor | rescue | fallback
  deriving DecidableEq, Repr

/-- Pairing of a channel. -/
inductive Pairing where
  | unpaired | valid | fault
  deriving DecidableEq, Repr

/-- Fault reason of a pairing, in the order of the HANDOVER codes 0 to 4 (R88). -/
inductive PairFault where
  | noFault | primaryDown | partnerDown | code | format
  deriving DecidableEq, Repr

/-- Phase of a scheduled handover. -/
inductive Phase where
  | planned | warned | waiting
  deriving DecidableEq, Repr

/-- A scheduled handover (R86). -/
structure Schedule where
  slot : SlotId
  target : Role
  targetCal : Nat
  warnCal : Nat
  lead : Nat
  phase : Phase
  waitDeadline : Nat
  deriving DecidableEq, Repr

/-- An outgoing offer (R83). -/
structure OutgoingOffer where
  console : ConsoleId
  deadline : Nat
  deriving DecidableEq, Repr

/-- A channel record (section 5.1). Channel 0's floor state and floor losses stand in `Floor`. -/
structure Channel where
  changes : Half
  defined : Bool
  lang : Lang
  primary : Option BoothId
  partner : Option BoothId
  quality : Format
  rescue : Bool
  owner : Role
  downSince : Nat
  source : Source
  pairing : Pairing
  fault : PairFault
  offer : Option OutgoingOffer
  move : Option Role
  schedule : Option Schedule
  onAir : Bool
  slots : Nat
  first : Nat
  listeners : Nat
  stranded : Bool
  minutes : Nat
  episodes : Nat
  handovers : Nat
  deriving DecidableEq, Repr

/-- The floor input (R80): floor state and losses of channel 0's record, the two internal runs, and the floor frame taken for the
coming frame (none: none was taken). -/
structure Floor where
  locked : Bool
  losses : Nat
  lockRun : Nat
  missRun : Nat
  handed : Option Audio
  deriving DecidableEq, Repr

/-- Distribution modes. -/
inductive DistMode where
  | stopped | hall | reduced
  deriving DecidableEq, Repr

/-- The plan's entry of one channel (section 6.1). -/
structure PlanEntry where
  onAir : Bool
  slots : Nat
  first : Nat
  lang : Lang
  deriving DecidableEq, Repr

/-- A slot plan (section 6.1); its budget is fixed by its mode. -/
structure Plan where
  mode : DistMode
  entries : Vector PlanEntry 32
  used : Nat
  offAir : Nat
  deriving DecidableEq, Repr

/-- An entry of the directory (R99). -/
structure DirEntry where
  channel : ChannelId
  lang : Lang
  first : Nat
  count : Nat
  source : Source
  deriving DecidableEq, Repr

/-- The directory (R99): the superframe of last directory, the plan number it was built under, and its entries. -/
structure Directory where
  planNumber : Half
  superframe : BitVec 32
  entries : List DirEntry
  deriving DecidableEq, Repr

/-- What a slot field carries (R98): standard form, or one of the two parts of wide form. -/
inductive SlotField where
  | silent
  | standard (a : Audio)
  | wide (part : Fin 2) (a : Audio)
  deriving DecidableEq, Repr

/-- A distribution frame (R93): its position, its slot fields, and the sixty-fourth part of the directory that it carries, named by the
directory and the frame's position. -/
structure DistFrame where
  position : Fin 64
  slots : List SlotField
  directory : Directory
  deriving DecidableEq, Repr

/-- The distribution framer (section 6.1) and its record's change counter. `shortage` is the record's shortage mark (R97). `cleared` marks
the channels cleared since the active plan was computed (R98, R99). `frames` counts frame boundaries since release of the reset input; `due`
is the model's own: the present boundary is a superframe boundary not yet worked (log 5). -/
structure Framer where
  changes : Half
  mode : DistMode
  floorQuality : Format
  active : Plan
  staged : Option Plan
  planNumber : Half
  superframes : BitVec 32
  directory : Directory
  shortage : Bool
  strandedCount : Nat
  cleared : Vector Bool 32
  frames : Nat
  due : Bool
  line : Option DistFrame
  deriving DecidableEq, Repr

/-! ## Docks and receivers -/

/-- Dock position states. -/
inductive PosState where
  | empty | occupied | settlingOut | fault
  deriving DecidableEq, Repr

/-- Position lamps (R113). -/
inductive DockLamp where
  | dark | charging | ready | issue | error
  deriving DecidableEq, Repr

/-- A dock position record (section 7.1). -/
structure Position where
  changes : Half
  state : PosState
  entry : Option RecvId
  lamp : DockLamp
  rawRemoval : Nat
  settleDeadline : Nat
  insertions : Nat
  removals : Nat
  deriving DecidableEq, Repr

/-- Rack states. -/
inductive RackState where
  | unknown | online | fault
  deriving DecidableEq, Repr

/-- A rack: its state and its unanswered count (R103). -/
structure Rack where
  state : RackState
  unanswered : Nat
  deriving DecidableEq, Repr

/-- A preset waiting at a position (R114); `sent`: it has gone down in the poll now on the bus. -/
structure Preset where
  entry : RecvId
  channel : ChannelId
  sent : Bool
  deriving DecidableEq, Repr

/-- A poll on the dock bus (R104): what went down to the rack. -/
structure Poll where
  rack : RackId
  inventory : Bool
  lamps : Vector DockLamp 40
  presets : List (PosId × RecvId × ChannelId)
  deriving DecidableEq, Repr

/-- The dock bus: the next rack in turn and the poll awaiting its answer. -/
structure DockBus where
  next : RackId
  poll : Option Poll
  deriving DecidableEq, Repr

/-- Receiver states; `unenrolled` is the zero state of a free entry (log 10). -/
inductive RecvState where
  | unenrolled | docked | reserved | onHire | silent | adrift | lost | retired
  deriving DecidableEq, Repr

/-- Found by. -/
inductive FoundBy where
  | nobody | dock | beacon
  deriving DecidableEq, Repr

/-- A receiver entry (section 7.4); serial 0 is a free entry. -/
structure Receiver where
  changes : Half
  serial : Serial
  state : RecvState
  dock : Option PosId
  battery : BitVec 4
  hire : Option HireId
  lostHire : BitVec 32
  preset : ChannelId
  heard : Option ChannelId
  lastHeard : Nat
  lastSequence : BitVec 4
  counted : Option ChannelId
  foundBy : FoundBy
  foundWaiting : Bool
  hires : Nat
  deriving DecidableEq, Repr

/-! ## Hires, accounts, beacons -/

/-- Hire states. -/
inductive HireState where
  | free | reserving | opened | closedWaiting
  deriving DecidableEq, Repr

/-- A hire record (section 8.1). -/
structure Hire where
  changes : Half
  state : HireState
  number : BitVec 32
  account : AcctId
  receiver : RecvId
  slot : SlotId
  deadline : Nat
  passed : Bool
  tariff : TariffId
  hold : Nat
  startTick : Nat
  start : Stamp
  endTick : Nat
  finish : Stamp
  cause : CloseCause
  adopted : Bool
  clockSet : Bool
  presetFailed : Bool
  clockUnset : Bool
  billed : Nat
  charge : Nat
  taken : Nat
  added : Nat
  deriving DecidableEq, Repr

/-- Account states. -/
inductive AcctState where
  | free | active | held
  deriving DecidableEq, Repr

/-- An account record (section 10.2). -/
structure Account where
  changes : Half
  state : AcctState
  holder : BitVec 32
  tariff : TariffId
  limit : Nat
  deposit : Nat
  holds : Nat
  owed : Nat
  count : Nat
  paid : Nat
  charged : Nat
  refunded : Nat
  deriving DecidableEq, Repr

/-- A tariff entry (section 10.1). -/
structure Tariff where
  changes : Half
  grace : Nat
  baseMinutes : Nat
  baseCharge : Nat
  stepMinutes : Nat
  stepCharge : Nat
  cap : Nat
  hold : Nat
  lossFee : Nat
  deriving DecidableEq, Repr

/-- The fourteen beacon counters of the header (section 9.1). -/
structure BeaconCounts where
  taken : Nat
  malformed : Nat
  duplicates : Nat
  strayUnknown : Nat
  strayDesk : Nat
  strays : Nat
  accepted : Nat
  channelChange : Nat
  lowBattery : Nat
  fromLost : Nat
  madeSilent : Nat
  heardAgain : Nat
  censuses : Nat
  listeners : Nat
  deriving DecidableEq, Repr

/-- The state of the part and the commands that wait. -/
structure State where
  part : PartState
  resetLow : Bool
  hostData : Half
  header : Header
  timers : Timers
  notices : Notices
  clock : Clock
  orders : Orders
  mem : Memory
  log : TallyLog
  booths : Vector Booth 24
  inner : Vector BoothInner 24
  down : Vector (Option DownFrame) 24
  channels : Vector Channel 32
  audio : Vector Audio 32
  floor : Floor
  framer : Framer
  positions : Vector Position 320
  presets : Vector (Option Preset) 320
  racks : Vector Rack 8
  bus : DockBus
  receivers : Vector Receiver 2048
  hires : Vector Hire 1024
  nextHire : BitVec 32
  accounts : Vector Account 512
  tariffs : Vector Tariff 4
  beacons : BeaconCounts
  draws : Nat
  pending : List Instr
  deriving DecidableEq, Repr

/-! ## Power-on values -/

/-- The header after the clearing of R18. -/
def Header.zero : Header := { changes := 0, guardHits := 0, postRefused := 0, snapTicks := 0, snapSeconds := 0, snapFraction := 0 }

/-- The notice unit after R18. -/
def Notices.zero : Notices := { waiting := 0, enabled := 0, base := 0, stride := 0, vectorHigh := none }

/-- No errors. -/
def ErrorCounts.zero : ErrorCounts := { symbol := 0, balance := 0, marker := 0 }

/-- Cleared lifetime counters. -/
def LinkCounts.zero : LinkCounts :=
  { errors := ErrorCounts.zero, entries := 0, degraded := 0, losses := 0, badAnnounces := 0, mismatches := 0, dropped := 0, replaced := 0 }

/-- The link fields of R32's table. -/
def LinkFields.initial : LinkFields :=
  { state := .held, cause := .noCause, changed := 0, resync := false
    definition := { defined := false, lang := Lang.unset, consoles := 1, serial := 0, format := .standard, method := .bytes,
                    threshold := 16, masking := true }
    announced := { booth := 0, serial := 0, lang := Lang.unset, consoles := 0, format := .standard, revision := 0, received := 0,
                   computed := 0, mismatch := .noReason }
    alignRun := 0, missingRun := 0, badRun := 0, heldRun := 0, window := ErrorCounts.zero, counts := LinkCounts.zero }

/-- One console's fields of R54's table. -/
def ConsoleRec.initial : ConsoleRec :=
  { interpreter := 0, lamp := .dark, busy := none, lastEvent := .noEvent, lastOutcome := .noOutcome, turn := .idle, turnStart := 0,
    turnStamp := Stamp.zero, turnChannel := none, turnInterpreter := 0, onMic := 0, liveSince := 0, liveEnd := 0, gapDeadline := 0,
    reliefReached := false, clockUnset := false, clockSet := false }

/-- The console fields of R54's tables. -/
def ConsoleFields.initial : ConsoleFields :=
  { inUse := 1, live := none, claimed := none, quietSince := 0, offer := none, ignored := 0, each := Vector.replicate 3 ConsoleRec.initial }

/-- The channel-role fields of R73's table. -/
def RoleFields.initial : RoleFields := { named := none, role := .primary, fed := none, intake := 0 }

/-- A booth record at power-on. -/
def Booth.initial : Booth :=
  { changes := 0, link := LinkFields.initial, cons := ConsoleFields.initial, role := RoleFields.initial }

/-- A booth's internal holdings at power-on. -/
def BoothInner.initial : BoothInner := { lastGood := none, handed := none, accepted := false }

/-- An undefined channel at power-on (R71). -/
def Channel.initial : Channel :=
  { changes := 0, defined := false, lang := Lang.unset, primary := none, partner := none, quality := .standard, rescue := false,
    owner := .primary, downSince := 0, source := .noSource, pairing := .unpaired, fault := .noFault, offer := none, move := none,
    schedule := none, onAir := false, slots := 0, first := 0, listeners := 0, stranded := false, minutes := 0, episodes := 0,
    handovers := 0 }

/-- Channel 0 at power-on (R71, R72). -/
def Channel.floorInitial : Channel := { Channel.initial with defined := true, lang := Lang.floor, source := .floor }

/-- The channel table at power-on. -/
def Channel.table : Vector Channel 32 := (Vector.replicate 32 Channel.initial).set 0 Channel.floorInitial

/-- The floor input at power-on (R71). -/
def Floor.initial : Floor := { locked := false, losses := 0, lockRun := 0, missRun := 0, handed := none }

/-- The active plan at power-on (section 6.1). The code "---" of its entries, channel 0's too, is the model's choice (log 39). -/
def Plan.initial : Plan :=
  { mode := .stopped, entries := Vector.replicate 32 { onAir := false, slots := 0, first := 0, lang := Lang.unset }, used := 0, offAir := 0 }

/-- The staged plan of the reset values: the floor alone, in mode OFF, without a slot (R92). -/
def Plan.floorOnly : Plan :=
  { Plan.initial with entries := Plan.initial.entries.set 0 { onAir := false, slots := 0, first := 0, lang := Lang.floor } }

/-- The framer at power-on (R92). That its record's change counter is 0 is the model's choice (log 29). -/
def Framer.initial : Framer :=
  { changes := 0, mode := .stopped, floorQuality := .standard, active := Plan.initial, staged := some Plan.floorOnly, planNumber := 0,
    superframes := 0, directory := { planNumber := 0, superframe := 0, entries := [] }, shortage := false, strandedCount := 0,
    cleared := Vector.replicate 32 false, frames := 0, due := false, line := none }

/-- A dock position at power-on (R103). -/
def Position.initial : Position :=
  { changes := 0, state := .empty, entry := none, lamp := .dark, rawRemoval := 0, settleDeadline := 0, insertions := 0, removals := 0 }

/-- A rack at power-on (R103). -/
def Rack.initial : Rack := { state := .unknown, unanswered := 0 }

/-- A free receiver entry: every field zero (R110), an index field of zero being index 0 (log 10). -/
def Receiver.zero : Receiver :=
  { changes := 0, serial := 0, state := .unenrolled, dock := some 0, battery := 0, hire := some 0, lostHire := 0, preset := 0,
    heard := some 0, lastHeard := 0, lastSequence := 0, counted := some 0, foundBy := .nobody, foundWaiting := false, hires := 0 }

/-- A zero hire record: state FREE (R119). -/
def Hire.zero : Hire :=
  { changes := 0, state := .free, number := 0, account := 0, receiver := 0, slot := 0, deadline := 0, passed := false, tariff := 0,
    hold := 0, startTick := 0, start := Stamp.zero, endTick := 0, finish := Stamp.zero, cause := .notClosed, adopted := false,
    clockSet := false, presetFailed := false, clockUnset := false, billed := 0, charge := 0, taken := 0, added := 0 }

/-- A zero account record: state FREE (R149). -/
def Account.zero : Account :=
  { changes := 0, state := .free, holder := 0, tariff := 0, limit := 0, deposit := 0, holds := 0, owed := 0, count := 0, paid := 0,
    charged := 0, refunded := 0 }

/-- A zero tariff entry (R147). -/
def Tariff.zero : Tariff :=
  { changes := 0, grace := 0, baseMinutes := 0, baseCharge := 0, stepMinutes := 0, stepCharge := 0, cap := 0, hold := 0, lossFee := 0 }

/-- Cleared beacon counters (R137). -/
def BeaconCounts.zero : BeaconCounts :=
  { taken := 0, malformed := 0, duplicates := 0, strayUnknown := 0, strayDesk := 0, strays := 0, accepted := 0, channelChange := 0,
    lowBattery := 0, fromLost := 0, madeSilent := 0, heardAgain := 0, censuses := 0, listeners := 0 }

/-- The machine right after reset: the reset input has just been released, the part is STARTING at run tick 0 with its memory cleared
and every block at its power-on values, and STARTUP_COMPLETE is still to come (R18, R22, log 3). -/
def State.reset : State :=
  { part := .starting, resetLow := false, hostData := 0, header := Header.zero, timers := Timers.default, notices := Notices.zero
    clock := { run := 0, offset := 0, valid := false, markDue := false }
    orders := { queue := [], standing := [] }
    mem := []
    log := { writeCount := 0, policy := .keep, lost := 0, waiting := [] }
    booths := Vector.replicate 24 Booth.initial
    inner := Vector.replicate 24 BoothInner.initial
    down := Vector.replicate 24 none
    channels := Channel.table
    audio := Vector.replicate 32 Audio.silence
    floor := Floor.initial
    framer := Framer.initial
    positions := Vector.replicate 320 Position.initial
    presets := Vector.replicate 320 none
    racks := Vector.replicate 8 Rack.initial
    bus := { next := 0, poll := none }
    receivers := Vector.replicate 2048 Receiver.zero
    hires := Vector.replicate 1024 Hire.zero
    nextHire := 1
    accounts := Vector.replicate 512 Account.zero
    tariffs := Vector.replicate 4 Tariff.zero
    beacons := BeaconCounts.zero
    draws := 0
    pending := [] }

end Sys2Proof.Machine
end

