-- ==== Sys2Proof/Machine/Flags.lean ====
section
/-!
DEFINITION. Codes, flags and sets: the notice bits and the interrupt line (section 1.7), the result codes, reasons and flags of an
order slot (section 1.3), and the lamps of consoles (R61) and dock positions (R113).
-/
namespace Sys2Proof.Machine

/-! ## Notices -/

/-- The index of a notice class, 1 to 15 (section 1.7). -/
def Notice.index : Notice → Nat
  | .floor => 1 | .link => 2 | .fallback => 3 | .handover => 4 | .relief => 5 | .plan => 6 | .dock => 7 | .silent => 8
  | .account => 9 | .log => 10 | .announce => 11 | .stray => 12 | .guard => 13 | .clock => 14 | .order => 15

/-- The bit of a notice class in the two sets (R14). -/
def Notice.bit (c : Notice) : Half := 1#16 <<< c.index

/-- Whether a class is pending (R14). -/
def State.isPending (s : State) (c : Notice) : Bool := s.notices.waiting.getLsbD c.index

/-- Raising a class adds it to the pending set (R14). -/
def State.raise (s : State) (c : Notice) : State :=
  { s with notices := { s.notices with waiting := s.notices.waiting ||| c.bit } }

/-- The classes both pending and enabled; bit 0 stands for no class (R14, R15). -/
def Notices.active (n : Notices) : Half := n.waiting &&& n.enabled &&& 0xFFFE

/-- The interrupt line: asserted while a class is both pending and enabled (R15). -/
def State.interruptLine (s : State) : Bool := s.notices.active != 0

/-- The index of the class of highest priority that is pending and enabled, or 0 (R16). -/
def Notices.vectorIndex (n : Notices) : Nat := ((List.range' 1 15).find? (fun i => n.active.getLsbD i)).getD 0

/-- The vector of R16: base plus index shifted left by the stride, modulo 2^32. -/
def Notices.vector (n : Notices) : BitVec 32 := n.base + (BitVec.ofNat 32 n.vectorIndex) <<< n.stride.toNat

/-! ## Order results -/

/-- Result codes 1 to 6 of an order slot. -/
inductive ResultCode where
  | done | refused | expired | cancelled | failed | aborted
  deriving DecidableEq, Repr

/-- The byte of a result code. -/
def ResultCode.code : ResultCode → Byte
  | .done => 1 | .refused => 2 | .expired => 3 | .cancelled => 4 | .failed => 5 | .aborted => 6

/-- Reasons 0 to 17 of an order slot. -/
inductive Reason where
  | noReason | badArgument | notFound | notHeld | state | tableFull | clockUnset | accountHeld | limit | noReceiver | relayConflict
  | pairFault | handoverBusy | logFull | boothTaken | dockFault | channelCleared | waitOver
  deriving DecidableEq, Repr

/-- The byte of a reason. -/
def Reason.code : Reason → Byte
  | .noReason => 0 | .badArgument => 1 | .notFound => 2 | .notHeld => 3 | .state => 4 | .tableFull => 5 | .clockUnset => 6
  | .accountHeld => 7 | .limit => 8 | .noReceiver => 9 | .relayConflict => 10 | .pairFault => 11 | .handoverBusy => 12 | .logFull => 13
  | .boothTaken => 14 | .dockFault => 15 | .channelCleared => 16 | .waitOver => 17

/-- What R8 writes into a slot: result code, reason, flags, and the value bytes the order uses (the rest are written 0). -/
structure Result where
  code : ResultCode
  reason : Reason
  clamped : Bool
  already : Bool
  values : List Byte
  deriving DecidableEq, Repr

/-- The flags halfword: bit 0 CLAMPED, bit 1 ALREADY. -/
def Result.flags (r : Result) : Half := (if r.clamped then 1 else 0) ||| (if r.already then 2 else 0)

/-- DONE with values. -/
def Result.done (values : List Byte) : Result := { code := .done, reason := .noReason, clamped := false, already := false, values := values }

/-- DONE with values, CLAMPED when a setting was brought into range. -/
def Result.doneClamped (clamped : Bool) (values : List Byte) : Result := { Result.done values with clamped := clamped }

/-- DONE with ALREADY. -/
def Result.doneAlready (values : List Byte) : Result := { Result.done values with already := true }

/-- REFUSED with a reason, without values and flags (R8); a refused HANDOVER has values added (R88). -/
def Result.refused (reason : Reason) : Result := { code := .refused, reason := reason, clamped := false, already := false, values := [] }

/-! ## Codes in result values -/

/-- The LINK_HOLD result byte (R51). -/
def LinkState.code : LinkState → Byte
  | .held => 0 | .seeking => 1 | .announcing => 2 | .mismatch => 3 | .live => 4

/-- PRIMARY 0, PARTNER 1 (R86, R88). -/
def Role.code : Role → Byte
  | .primary => 0 | .partner => 1

/-- The fault reason byte of HANDOVER (R88). -/
def PairFault.toByte : PairFault → Byte
  | .noFault => 0 | .primaryDown => 1 | .partnerDown => 2 | .code => 3 | .format => 4

/-- Distribution modes OFF 0, HALL 1, REDUCED 2 (R94). -/
def DistMode.code : DistMode → Byte
  | .stopped => 0 | .hall => 1 | .reduced => 2

/-- STANDARD 0, WIDE 1. -/
def Format.code : Format → Byte
  | .standard => 0 | .wide => 1

/-- KEEP 0, OVERWRITE 1 (R167). -/
def LogPolicy.code : LogPolicy → Byte
  | .keep => 0 | .overwrite => 1

/-- The receiver state codes of result values (section 7.4). -/
def RecvState.code : RecvState → Byte
  | .unenrolled => 0 | .docked => 1 | .reserved => 2 | .onHire => 3 | .silent => 4 | .adrift => 5 | .lost => 6 | .retired => 7

/-- The part state code of PART_CONTROL and the header (R17). -/
def PartState.code : PartState → Nat
  | .starting => 0 | .ready => 1 | .restarting => 2

/-! ## Lamps -/

/-- An open turn is ON or GAP (section 4.7). -/
def ConsoleRec.turnOpen (c : ConsoleRec) : Bool := c.turn != .idle

/-- Whether some console of the booth has an open turn marked relief-reached (R61, R68). -/
def ConsoleFields.relief (f : ConsoleFields) : Bool := f.each.toList.any (fun c => c.turnOpen && c.reliefReached)

/-- The booth of a role of a channel. -/
def Channel.boothOf (c : Channel) : Role → Option BoothId
  | .primary => c.primary
  | .partner => c.partner

/-- The other role. -/
def Role.other : Role → Role
  | .primary => .partner
  | .partner => .primary

/-- The owner booth of a channel (section 5.3). -/
def Channel.ownerBooth (c : Channel) : Option BoothId := c.boothOf c.owner

/-- The standby booth of a channel: the named booth that is not the owner (chapter 5). -/
def Channel.standbyBooth (c : Channel) : Option BoothId := c.boothOf c.owner.other

/-- Whether the router shows a warning of a scheduled handover towards the booth (R61, R87): some channel's scheduled handover, warned
or waiting, targets it. -/
def State.warned (s : State) (b : BoothId) : Bool :=
  s.channels.toList.any (fun c => match c.schedule with
    | some h => h.phase != .planned && c.boothOf h.target == some b
    | none => false)

/-- Whether the router shows an outgoing offer made towards the booth (R61, R83). -/
def State.cuedOut (s : State) (b : BoothId) : Bool :=
  s.channels.toList.any (fun c => c.offer.isSome && c.standbyBooth == some b)

/-- The lamp of console `n` of a booth: the state of highest priority in R61's table whose condition holds. `warn` and `cue` are the
router's two conditions for the booth. -/
def Booth.lampOf (bt : Booth) (warn cue : Bool) (n : ConsoleId) : ConsoleLamp :=
  if bt.link.state ≠ .live ∨ bt.cons.inUse ≤ n.val then .dark
  else if bt.cons.relief then .relief
  else if warn then .warn
  else if cue then .cueOut
  else if bt.cons.offer.any (fun o => o.offerer != n) then .cue
  else if bt.cons.each[n].busy.isSome then .busy
  else if bt.cons.live = some n then (if bt.role.fed.isSome then .onAir else .live)
  else .dark

/-- The booth with all its lamps recomputed (R61). -/
def Booth.relit (bt : Booth) (warn cue : Bool) : Booth :=
  { bt with cons := { bt.cons with each := Vector.ofFn (fun n : ConsoleId => { bt.cons.each[n] with lamp := bt.lampOf warn cue n }) } }

/-- The lamp of a dock position from its state and the entry it holds (R113). -/
def dockLamp (threshold : Nat) (p : PosState) (entry : Option Receiver) : DockLamp :=
  match p, entry with
  | .occupied, none => .error
  | .occupied, some e =>
    match e.state with
    | .docked => if threshold ≤ e.battery.toNat then .ready else .charging
    | .reserved => .issue
    | .retired => .error
    | _ => .dark
  | _, _ => .dark

end Sys2Proof.Machine
end

