-- ==== Sys2Proof/Machine/Ops.lean ====
section
/-!
DEFINITION. The named operations every command is written over: saturating counts and byte order, the exchange memory's bytes, the
change-counter brackets (R3), order slots and completion (R8, R9), ticks and calendar (R23, R24, R27), and the tally log writer
(chapter 11).
-/
namespace Sys2Proof.Machine

/-! ## Counts, bytes, tables -/

/-- A saturating count of `bits` bits gains `k` (00_scope section 5, Counters). -/
def satAdd (bits n k : Nat) : Nat := min (2 ^ bits - 1) (n + k)

/-- The `k` bytes of a number, lowest first. -/
def leBytes : Nat → Nat → List Byte
  | 0, _ => []
  | k + 1, n => BitVec.ofNat 8 n :: leBytes k (n / 256)

/-- The number whose bytes, lowest first, are given. -/
def ofBytes : List Byte → Nat
  | [] => 0
  | b :: bs => b.toNat + 256 * ofBytes bs

/-- The bytes brought to length `k` with zeros. -/
def padTo (k : Nat) (l : List Byte) : List Byte := (l ++ List.replicate k 0).take k

/-- The places, counted from `i`, at which a list's elements satisfy `p`. -/
def placesFrom {α : Type} (p : α → Bool) : Nat → List α → List Nat
  | _, [] => []
  | i, a :: as => if p a then i :: placesFrom p (i + 1) as else placesFrom p (i + 1) as

/-- The indices of a table whose records satisfy `p`, in index order. -/
def tblAll {α : Type} {n : Nat} (v : Vector α n) (p : α → Bool) : List (Fin n) :=
  (placesFrom p 0 v.toList).filterMap (fun i => if h : i < n then some ⟨i, h⟩ else none)

/-- The lowest index of a table whose record satisfies `p`. -/
def tblFind {α : Type} {n : Nat} (v : Vector α n) (p : α → Bool) : Option (Fin n) := (tblAll v p).head?

/-- Works `f` for each index in turn. -/
def State.each {ι : Type} (s : State) (l : List ι) (f : State → ι → State) : State := l.foldl f s

/-! ## The exchange memory -/

/-- A byte of the exchange memory: 0 where nothing is listed (R18). -/
def Memory.read8 : Memory → Nat → Byte
  | [], _ => 0
  | (a, v) :: m, x => if a = x then v else Memory.read8 m x

/-- The memory with one byte written, in canonical form. -/
def Memory.write8 : Memory → Nat → Byte → Memory
  | [], x, v => if v = 0 then [] else [(x, v)]
  | (a, w) :: m, x, v =>
    if x < a then (if v = 0 then (a, w) :: m else (x, v) :: (a, w) :: m)
    else if x = a then (if v = 0 then m else (x, v) :: m)
    else (a, w) :: Memory.write8 m x v

/-- Canonical form: addresses strictly rising from above `low`, no byte 0. -/
def Memory.wfFrom : Nat → Memory → Bool
  | _, [] => true
  | low, (a, v) :: m => decide (low ≤ a) && (v != 0) && Memory.wfFrom (a + 1) m

/-- The memory is in canonical form. -/
def Memory.wf (m : Memory) : Bool := Memory.wfFrom 0 m

/-- Consecutive bytes written from an address up. -/
def Memory.writeBytes : Memory → Nat → List Byte → Memory
  | m, _, [] => m
  | m, a, b :: bs => Memory.writeBytes (Memory.write8 m a b) (a + 1) bs

/-- Consecutive bytes read from an address up. -/
def Memory.readBytes (m : Memory) (a : Nat) : Nat → List Byte
  | 0 => []
  | k + 1 => m.read8 a :: Memory.readBytes m (a + 1) k

/-- A halfword, low byte at the lower address (section 1.1). -/
def Memory.read16 (m : Memory) (a : Nat) : Half := m.read8 (a + 1) ++ m.read8 a

/-- A halfword written, low byte at the lower address. -/
def Memory.write16 (m : Memory) (a : Nat) (v : Half) : Memory :=
  (m.write8 a (v.extractLsb' 0 8)).write8 (a + 1) (v.extractLsb' 8 8)

/-- The bytes of a halfword that the byte enables select (R1). -/
def Memory.writeEnabled (m : Memory) (a : Nat) (v : Half) (e : ByteEnables) : Memory :=
  let m1 := if e.lo then m.write8 a (v.extractLsb' 0 8) else m
  if e.hi then m1.write8 (a + 1) (v.extractLsb' 8 8) else m1

/-! ## Records and their brackets

`upd…` changes a record without a bracket; `write…` changes it inside one bracket, which adds 2 to its change counter (R3); `rewrite…`
opens the bracket only when a field changes. -/

/-- The header's bracket (R3). -/
def State.bumpHeader (s : State) : State := { s with header := { s.header with changes := s.header.changes + 2 } }

/-- The bracket of the active plan and directory record (R100). -/
def State.bumpPlan (s : State) : State := { s with framer := { s.framer with changes := s.framer.changes + 2 } }

/-- A booth record changed. -/
def State.updBooth (s : State) (b : BoothId) (f : Booth → Booth) : State := { s with booths := s.booths.set b (f s.booths[b]) }

/-- A record's bracket. -/
def Booth.bump (r : Booth) : Booth := { r with changes := r.changes + 2 }

/-- A booth record changed in one bracket. -/
def State.writeBooth (s : State) (b : BoothId) (f : Booth → Booth) : State := s.updBooth b (fun r => (f r).bump)

/-- A booth record changed in one bracket if at all. -/
def State.rewriteBooth (s : State) (b : BoothId) (f : Booth → Booth) : State := s.updBooth b (fun r => if f r = r then r else (f r).bump)

/-- A booth's internal holdings changed. -/
def State.updInner (s : State) (b : BoothId) (f : BoothInner → BoothInner) : State := { s with inner := s.inner.set b (f s.inner[b]) }

/-- A channel record changed. -/
def State.updChannel (s : State) (c : ChannelId) (f : Channel → Channel) : State := { s with channels := s.channels.set c (f s.channels[c]) }

/-- A record's bracket. -/
def Channel.bump (r : Channel) : Channel := { r with changes := r.changes + 2 }

/-- A channel record changed in one bracket. -/
def State.writeChannel (s : State) (c : ChannelId) (f : Channel → Channel) : State := s.updChannel c (fun r => (f r).bump)

/-- A channel record changed in one bracket if at all. -/
def State.rewriteChannel (s : State) (c : ChannelId) (f : Channel → Channel) : State :=
  s.updChannel c (fun r => if f r = r then r else (f r).bump)

/-- A dock position record changed. -/
def State.updPosition (s : State) (p : PosId) (f : Position → Position) : State := { s with positions := s.positions.set p (f s.positions[p]) }

/-- A record's bracket. -/
def Position.bump (r : Position) : Position := { r with changes := r.changes + 2 }

/-- A dock position record changed in one bracket. -/
def State.writePosition (s : State) (p : PosId) (f : Position → Position) : State := s.updPosition p (fun r => (f r).bump)

/-- A dock position record changed in one bracket if at all. -/
def State.rewritePosition (s : State) (p : PosId) (f : Position → Position) : State :=
  s.updPosition p (fun r => if f r = r then r else (f r).bump)

/-- A receiver entry changed. -/
def State.updReceiver (s : State) (e : RecvId) (f : Receiver → Receiver) : State := { s with receivers := s.receivers.set e (f s.receivers[e]) }

/-- A record's bracket. -/
def Receiver.bump (r : Receiver) : Receiver := { r with changes := r.changes + 2 }

/-- A receiver entry changed in one bracket. -/
def State.writeReceiver (s : State) (e : RecvId) (f : Receiver → Receiver) : State := s.updReceiver e (fun r => (f r).bump)

/-- A receiver entry changed in one bracket if at all. -/
def State.rewriteReceiver (s : State) (e : RecvId) (f : Receiver → Receiver) : State :=
  s.updReceiver e (fun r => if f r = r then r else (f r).bump)

/-- A hire record changed. -/
def State.updHire (s : State) (h : HireId) (f : Hire → Hire) : State := { s with hires := s.hires.set h (f s.hires[h]) }

/-- A record's bracket. -/
def Hire.bump (r : Hire) : Hire := { r with changes := r.changes + 2 }

/-- A hire record changed in one bracket. -/
def State.writeHire (s : State) (h : HireId) (f : Hire → Hire) : State := s.updHire h (fun r => (f r).bump)

/-- An account record changed. -/
def State.updAccount (s : State) (a : AcctId) (f : Account → Account) : State := { s with accounts := s.accounts.set a (f s.accounts[a]) }

/-- A record's bracket. -/
def Account.bump (r : Account) : Account := { r with changes := r.changes + 2 }

/-- An account record changed in one bracket. -/
def State.writeAccount (s : State) (a : AcctId) (f : Account → Account) : State := s.updAccount a (fun r => (f r).bump)

/-- An account record changed in one bracket if at all. -/
def State.rewriteAccount (s : State) (a : AcctId) (f : Account → Account) : State :=
  s.updAccount a (fun r => if f r = r then r else (f r).bump)

/-- A tariff entry changed in one bracket. -/
def State.writeTariff (s : State) (k : TariffId) (f : Tariff → Tariff) : State :=
  { s with tariffs := s.tariffs.set k { f s.tariffs[k] with changes := s.tariffs[k].changes + 2 } }

/-- A waiting preset set or removed (R114). -/
def State.setPreset (s : State) (p : PosId) (v : Option Preset) : State := { s with presets := s.presets.set p v }

/-- A rack changed. -/
def State.setRack (s : State) (r : RackId) (v : Rack) : State := { s with racks := s.racks.set r v }

/-! ## Guard and refused posts -/

/-- A guard hit: the guard counter gains 1 inside the header's bracket and GUARD is raised (R2). -/
def State.guardHit (s : State) : State :=
  ({ s with header := { s.header with guardHits := satAdd 32 s.header.guardHits 1 } }).bumpHeader.raise .guard

/-- A refused post: the post-refused counter gains 1 and GUARD is raised (R6). -/
def State.postRefusal (s : State) : State :=
  ({ s with header := { s.header with postRefused := satAdd 32 s.header.postRefused 1 } }).bumpHeader.raise .guard

/-! ## Order slots -/

/-- Slot n begins at 0x00200 + 64 × n (section 1.3). -/
def slotBase (n : SlotId) : Nat := 0x200 + 64 * n.val

/-- Holder words (section 1.3). -/
def Holder.empty : Half := 0
/-- POSTED. -/
def Holder.posted : Half := 1
/-- QUEUED. -/
def Holder.queued : Half := 2
/-- WORKING. -/
def Holder.working : Half := 3
/-- STANDING. -/
def Holder.standing : Half := 4
/-- DONE. -/
def Holder.done : Half := 5

/-- The holder word of a slot. -/
def State.holder (s : State) (n : SlotId) : Half := s.mem.read16 (slotBase n)

/-- The holder word of a slot written. -/
def State.setHolder (s : State) (n : SlotId) (v : Half) : State := { s with mem := s.mem.write16 (slotBase n) v }

/-- The result fields of a slot written: code, reason, flags and the twelve value bytes (R8). -/
def State.writeResult (s : State) (n : SlotId) (code reason : Byte) (flags : Half) (values : List Byte) : State :=
  let m := s.mem.writeBytes (slotBase n + 0x06) [code, reason, flags.extractLsb' 0 8, flags.extractLsb' 8 8]
  { s with mem := m.writeBytes (slotBase n + 0x32) (padTo 12 values) }

/-- An order completes: result fields, then DONE, then the ORDER notice (R8). -/
def State.complete (s : State) (n : SlotId) (r : Result) : State :=
  ((s.writeResult n r.code.code r.reason.code r.flags r.values).setHolder n Holder.done).raise .order

/-- An order becomes standing: holder STANDING, appended to the standing list (R9). -/
def State.makeStanding (s : State) (n : SlotId) (owner : StandingOwner) (clamped : Bool) : State :=
  let s1 := s.setHolder n Holder.standing
  { s1 with orders := { s1.orders with standing := s1.orders.standing ++ [{ slot := n, owner := owner, clamped := clamped }] } }

/-- The standing order of an owner, if it still stands. -/
def State.standingOf (s : State) (owner : StandingOwner) : Option Standing := s.orders.standing.find? (fun t => t.owner = owner)

/-- A standing order leaves the standing list, the other entries keeping their order, and completes (R8, R9). The CLAMPED it was given
is carried on its result. -/
def State.endStanding (s : State) (t : Standing) (r : Result) : State :=
  let s1 := { s with orders := { s.orders with standing := s.orders.standing.filter (fun u => u.slot ≠ t.slot) } }
  s1.complete t.slot { r with clamped := t.clamped }

/-- Ends the standing order of an owner, and writes nothing when none stands (R9). -/
def State.endOwner (s : State) (owner : StandingOwner) (r : Result) : State :=
  match s.standingOf owner with
  | some t => s.endStanding t r
  | none => s

/-! ## Ticks and calendar -/

/-- A timer in seconds, in ticks (R23). -/
def secTicks (n : Nat) : Nat := n * 1024

/-- A timer in milliseconds, in ticks rounded up (R23). -/
def msTicks (n : Nat) : Nat := (n * 1024 + 999) / 1000

/-- The calendar at a run tick as R24 gives it, in seconds and fraction; none while the clock is not valid or the sum is below 0. -/
def Clock.calendarAt (c : Clock) (t : Nat) : Option Stamp :=
  if c.valid = false ∨ (t : Int) + c.offset < 0 then none
  else some { seconds := ((t : Int) + c.offset).toNat / 1024 % 2 ^ 32, fraction := ((t : Int) + c.offset).toNat % 1024 }

/-- A calendar stamp for an event at run tick `t`, and whether it carries CLOCK_UNSET (R27). -/
def Clock.stamp (c : Clock) (t : Nat) : Stamp × Bool :=
  match c.calendarAt t with
  | some v => (v, false)
  | none => (Stamp.zero, true)

/-- The calendar has reached a calendar second (R87). -/
def Clock.reached (c : Clock) (target : Nat) : Bool :=
  match c.calendarAt c.run with
  | some v => decide (target ≤ v.seconds)
  | none => false

/-- The header snapshot of R29 at the present tick, in one bracket of the header. -/
def State.snapshot (s : State) : State :=
  let v := (s.clock.calendarAt s.clock.run).getD Stamp.zero
  ({ s with header := { s.header with snapTicks := s.clock.run, snapSeconds := v.seconds, snapFraction := v.fraction } }).bumpHeader

/-! ## The tally log -/

/-- The host's log read count, in the host words (R161). -/
def State.readCount (s : State) : Half := s.mem.read16 0x100

/-- The number of unread records: write count minus read count modulo 65,536 (R161). -/
def State.unread (s : State) : Nat := (s.log.writeCount - s.readCount).toNat

/-- The log has room when fewer than 1024 records are unread, or under OVERWRITE (R161). -/
def State.logRoom (s : State) : Bool := decide (s.unread < 1024) || s.log.policy == .overwrite

/-- A record handed now would wait: KEEP, and the log full or the wait list not empty (R163). -/
def State.logBlocked (s : State) : Bool := s.log.policy == .keep && (!s.logRoom || !s.log.waiting.isEmpty)

/-- The kind byte of a record. -/
def TallyRecord.kind : TallyRecord → Byte
  | .hireClosed _ => 1 | .turn _ => 2 | .accountClosed _ => 3 | .receiverFound _ => 4 | .restarted _ => 5

/-- A flag as the bit `i` of a number. -/
def flagAt (b : Bool) (i : Nat) : Nat := if b then 2 ^ i else 0

/-- The six bytes of a calendar stamp. -/
def Stamp.bytes (v : Stamp) : List Byte := leBytes 4 v.seconds ++ leBytes 2 v.fraction

/-- The byte of a close cause. -/
def CloseCause.code : CloseCause → Nat
  | .notClosed => 0 | .returned => 1 | .lost => 2

/-- The byte of a turn's end cause. -/
def TurnEnd.code : TurnEnd → Nat
  | .micOff => 1 | .handover => 2 | .link => 3 | .seat => 4

/-- The span field of a TURN record (R67): its seconds, or the free value where they exceed the field's 4 bytes (log 40). -/
def TurnRecord.spanField (r : TurnRecord) : Nat := if r.span < 2 ^ 32 then r.span else (Config.longTurnSpan r.span).toNat

/-- The body of a record from offset 0x0C on (section 11.2). -/
def TallyRecord.body : TallyRecord → List Byte
  | .hireClosed r =>
    leBytes 4 r.number.toNat ++ leBytes 2 r.account.val
      ++ leBytes 2 (flagAt r.adopted 0 + flagAt r.clockSet 1 + flagAt r.presetFailed 2 + flagAt r.clockUnset 3)
      ++ leBytes 4 r.holder.toNat ++ leBytes 3 r.serial.toNat ++ leBytes 1 r.cause.code ++ r.start.bytes ++ r.finish.bytes
      ++ leBytes 2 r.billed ++ leBytes 2 0 ++ leBytes 4 r.charge ++ leBytes 4 r.taken ++ leBytes 4 r.added
  | .turn r =>
    leBytes 1 r.booth.val ++ leBytes 1 (r.console.val + 1) ++ leBytes 1 r.cause.code
      ++ leBytes 1 (match r.channel with | some c => c.val | none => 255) ++ leBytes 3 r.interpreter.toNat
      ++ leBytes 1 (flagAt r.relief 0 + flagAt r.clockUnset 1 + flagAt r.clockSet 2) ++ r.start.bytes ++ leBytes 2 r.merged
      ++ leBytes 4 r.spanField ++ leBytes 4 r.onMic
  | .accountClosed r =>
    leBytes 2 r.account.val ++ leBytes 2 0 ++ leBytes 4 r.holder.toNat ++ leBytes 6 r.paid ++ leBytes 6 r.charged
      ++ leBytes 6 r.refunded ++ leBytes 2 0 ++ leBytes 4 r.refund
  | .receiverFound r =>
    leBytes 3 r.serial.toNat ++ leBytes 1 (match r.place with | .dock => 1 | .beacon => 2) ++ leBytes 4 r.hire.toNat ++ r.found.bytes
      ++ leBytes 2 (flagAt r.clockUnset 0)
  | .restarted r => leBytes 2 r.openHires ++ leBytes 2 r.reservingHires ++ leBytes 2 r.moneyAccounts ++ leBytes 2 r.hiredReceivers

/-- The 64 bytes of a written record: change counter, kind, sequence, written run ticks, body, zeros (section 11.2). -/
def tallyBytes (changes sequence : Half) (ticks : Nat) (r : TallyRecord) : List Byte :=
  padTo 64 (leBytes 2 changes.toNat ++ [r.kind, 0] ++ leBytes 2 sequence.toNat ++ leBytes 6 ticks ++ r.body)

/-- The offset of the record at a write count (R161). -/
def tallyBase (count : Half) : Nat := 0x30000 + 64 * (count.toNat % 1024)

/-- Under OVERWRITE with 1024 unread, the oldest unread record makes way: the read count and the lost-record counter gain 1 (R164). -/
def State.makeRoom (s : State) : State :=
  if s.log.policy = .overwrite ∧ 1024 ≤ s.unread then
    ({ s with mem := s.mem.write16 0x100 (s.readCount + 1), log := { s.log with lost := satAdd 32 s.log.lost 1 } }).bumpHeader
  else s

/-- A record is written: room is made, the record's bytes with its bracketed change counter, then the write count in the header's
bracket, and LOG when the unread number goes from 767 to 768 (R163, R168). -/
def State.writeTally (s : State) (r : TallyRecord) : State :=
  let s1 := s.makeRoom
  let base := tallyBase s1.log.writeCount
  let s2 := { s1 with mem := s1.mem.writeBytes base (tallyBytes (s1.mem.read16 base + 2) s1.log.writeCount s1.clock.run r) }
  let s3 := ({ s2 with log := { s2.log with writeCount := s2.log.writeCount + 1 } }).bumpHeader
  if s1.unread = 767 then s3.raise .log else s3

/-- A record joins the tail of the wait list, and LOG is raised when the list was empty (R165, R168). -/
def State.waitTally (s : State) (owner : WaitOwner) (r : TallyRecord) : State :=
  let s1 := { s with log := { s.log with waiting := s.log.waiting ++ [{ owner := owner, record := r }] } }
  if s.log.waiting.isEmpty then s1.raise .log else s1

/-- A record handed to the writer is written at once or waits (R163). -/
def State.handTally (s : State) (owner : WaitOwner) (r : TallyRecord) : State :=
  if s.logBlocked then s.waitTally owner r else s.writeTally r

/-- Writing a waiting record releases what it belonged to, in that record's own bracket (R165). -/
def State.release (s : State) : WaitOwner → State
  | .hire h => s.writeHire h (fun r => { r with state := .free })
  | .console b _ => s.writeBooth b id
  | .receiver e => s.writeReceiver e (fun r => { r with foundWaiting := false })

/-- Waiting records are written from the head, oldest first, while room lasts (R165). -/
def State.drainList : List WaitEntry → State → State
  | [], s => { s with log := { s.log with waiting := [] } }
  | w :: ws, s =>
    if s.logRoom then
      State.drainList ws ((({ s with log := { s.log with waiting := ws } }).writeTally w.record).release w.owner)
    else { s with log := { s.log with waiting := w :: ws } }

/-- The writer's work at an event that may have made room (R165). -/
def State.drain (s : State) : State := State.drainList s.log.waiting s

/-- A pending TURN record takes in a further turn (R166). -/
def TurnRecord.merge (old new : TurnRecord) : TurnRecord :=
  { old with
    cause := new.cause, span := satAdd 32 old.span new.span, onMic := satAdd 32 old.onMic new.onMic,
    relief := old.relief || new.relief, clockUnset := old.clockUnset || new.clockUnset, clockSet := old.clockSet || new.clockSet,
    merged := satAdd 16 old.merged 1 }

/-- The wait list with a further turn merged into the console's pending record, which keeps its place (R166). -/
def mergeWaiting (owner : WaitOwner) (new : TurnRecord) (l : List WaitEntry) : List WaitEntry :=
  l.map (fun w => if w.owner = owner then
    (match w.record with | .turn old => { w with record := .turn (old.merge new) } | _ => w) else w)

/-- The console controller hands a TURN record: merged into the console's pending record when it has one, else handed as new (R166). -/
def State.handTurn (s : State) (r : TurnRecord) : State :=
  let owner := WaitOwner.console r.booth r.console
  if s.log.waiting.any (fun w => w.owner = owner) then
    { s with log := { s.log with waiting := mergeWaiting owner r s.log.waiting } }
  else s.handTally owner (.turn r)

/-! ## Lamps written -/

/-- The lamps of a booth recomputed, without a bracket of their own (R61). -/
def State.relight (s : State) (b : BoothId) : State := s.updBooth b (fun bt => bt.relit (s.warned b) (s.cuedOut b))

/-- The lamps of a booth recomputed in a bracket of the booth record when one changes (R61). -/
def State.relamp (s : State) (b : BoothId) : State := s.rewriteBooth b (fun bt => bt.relit (s.warned b) (s.cuedOut b))

/-- The lamps of an optional booth. -/
def State.relampOpt (s : State) : Option BoothId → State
  | some b => s.relamp b
  | none => s

/-- The lamps of both booths of a channel. -/
def State.relampChannel (s : State) (c : ChannelId) : State :=
  (s.relampOpt s.channels[c].primary).relampOpt s.channels[c].partner

/-- The entry a position holds. -/
def State.heldEntry (s : State) (p : PosId) : Option Receiver := s.positions[p].entry.map (fun e => s.receivers[e])

/-- The lamp of a dock position recomputed, in its own bracket when it changes (R113). -/
def State.relampPos (s : State) (p : PosId) : State :=
  s.rewritePosition p (fun r => { r with lamp := dockLamp s.timers.battery r.state (s.heldEntry p) })

/-- The position that holds a receiver entry, if one does (section 7.1). -/
def State.posHolding (s : State) (e : RecvId) : Option PosId := tblFind s.positions (fun p => p.entry == some e)

end Sys2Proof.Machine
end

