-- ==== Sys2Proof/Machine/Operands.lean ====
section
/-!
DEFINITION. The operands of commands: the parameters of an order in its slot (section 1.3), the codes they carry, and the order unit's
taking of the head of the post queue (R7).
-/
namespace Sys2Proof.Machine

/-- Parameter byte `i` of the order in slot `n`. -/
def State.param8 (s : State) (n : SlotId) (i : Nat) : Nat := (s.mem.read8 (slotBase n + 0x0A + i)).toNat

/-- The `k`-byte parameter at byte `i`, lowest byte first. -/
def State.paramLE (s : State) (n : SlotId) (i k : Nat) : Nat := ofBytes (s.mem.readBytes (slotBase n + 0x0A + i) k)

/-- The order kind in a slot. -/
def State.kindOf (s : State) (n : SlotId) : Nat := (s.mem.read16 (slotBase n + 0x02)).toNat

/-- A number as an index below `k`. -/
def index? (k n : Nat) : Option (Fin k) := if h : n < k then some ⟨n, h⟩ else none

/-- A number brought into a range, and whether it had to be (00_scope section 5, Settings out of range). -/
def clampTo (low high n : Nat) : Nat × Bool := if n < low then (low, true) else if high < n then (high, true) else (n, false)

/-- STANDARD 0 or WIDE 1. -/
def format? : Nat → Option Format
  | 0 => some .standard
  | 1 => some .wide
  | _ => none

/-- BYTES 0 or FIELDS 1. -/
def method? : Nat → Option SumMethod
  | 0 => some .bytes
  | 1 => some .fields
  | _ => none

/-- PRIMARY 0 or PARTNER 1. -/
def role? : Nat → Option Role
  | 0 => some .primary
  | 1 => some .partner
  | _ => none

/-- OFF 0, HALL 1 or REDUCED 2. -/
def distMode? : Nat → Option DistMode
  | 0 => some .stopped
  | 1 => some .hall
  | 2 => some .reduced
  | _ => none

/-- KEEP 0 or OVERWRITE 1. -/
def policy? : Nat → Option LogPolicy
  | 0 => some .keep
  | 1 => some .overwrite
  | _ => none

/-- A character code from A to Z. -/
def isLetter (b : Byte) : Bool := decide (65 ≤ b.toNat) && decide (b.toNat ≤ 90)

/-- A language code of three letters (00_scope section 5). -/
def Lang.letters (l : Lang) : Bool := isLetter l.a && isLetter l.b && isLetter l.c

/-- The language code in parameter bytes `i` to `i + 2`; none when a byte lies outside A to Z. -/
def State.paramLang (s : State) (n : SlotId) (i : Nat) : Option Lang :=
  let l : Lang := { a := s.mem.read8 (slotBase n + 0x0A + i), b := s.mem.read8 (slotBase n + 0x0A + i + 1),
                    c := s.mem.read8 (slotBase n + 0x0A + i + 2) }
  if l.letters then some l else none

/-- The order unit takes a slot: it leaves the queue, its holder word becomes WORKING, and its result fields are written 0 (R7). -/
def State.takeSlot (s : State) (n : SlotId) (rest : List SlotId) : State :=
  (({ s with orders := { s.orders with queue := rest } }).setHolder n Holder.working).writeResult n 0 0 0 []

/-- An order's work leaves either a result to be written or, for an order made standing, none. -/
abbrev Work := State → SlotId → State × Option Result

/-- The order unit writes the result its owning block gives (R8). -/
def finishOrder (n : SlotId) (w : State × Option Result) : State :=
  match w.2 with
  | some r => w.1.complete n r
  | none => w.1

/-- One order worked: in READY, the slot at the head of the post queue, when its order is one that `isMine` names (R7). -/
def State.runOrder (s : State) (isMine : State → SlotId → Bool) (work : Work) : State :=
  match s.orders.queue with
  | [] => s
  | n :: rest => if s.part = .ready ∧ isMine s n = true then finishOrder n (work (s.takeSlot n rest) n) else s

/-- The order in a slot is of a kind of the table of order kinds. -/
def kindIs (k : Nat) (s : State) (n : SlotId) : Bool := s.kindOf n == k

/-- An order refused: no effect but on the slot (R8). -/
def refuse (s : State) (r : Reason) : State × Option Result := (s, some (Result.refused r))

end Sys2Proof.Machine
end

