-- ==== Sys2Proof/Machine/Plan.lean ====
section
/-!
DEFINITION. The distribution framer (chapter 6): the plan computation, the swap, the slots, the directory, stranded channels, and
SET_DISTRIBUTION and SUPERFRAME_BOUNDARY.
-/
namespace Sys2Proof.Machine

/-- The slot budget of a mode (section 6.1). -/
def DistMode.budget : DistMode → Nat
  | .stopped => 0
  | .hall => 40
  | .reduced => 24

/-- The first pass of R96: one slot to each defined channel in turn while `left` remain. -/
def grantFirst : Nat → List Bool → List Nat
  | _, [] => []
  | left, d :: ds => if d && decide (0 < left) then 1 :: grantFirst (left - 1) ds else 0 :: grantFirst left ds

/-- The second pass of R96: a second slot to each granted WIDE channel in turn while `left` remain. -/
def grantSecond : Nat → List (Nat × Bool) → List Nat
  | _, [] => []
  | left, (g, w) :: gs =>
    if w && decide (0 < g) && decide (0 < left) then (g + 1) :: grantSecond (left - 1) gs else g :: grantSecond left gs

/-- Whether a channel counts as WIDE in the computation: channel 0 by the floor quality setting (R96). -/
def planWide (floorQuality : Format) (c : ChannelId) (ch : Channel) : Bool := (if c = 0 then floorQuality else ch.quality) == .wide

/-- The slots granted to each channel (R96). -/
def planGrants (mode : DistMode) (floorQuality : Format) (chs : Vector Channel 32) : List Nat :=
  let one := grantFirst mode.budget (chs.toList.map (fun ch => ch.defined))
  let wide := (Vector.ofFn (fun c : ChannelId => planWide floorQuality c chs[c])).toList
  grantSecond (mode.budget - one.sum) (one.zip wide)

/-- The plan of a mode over the channel table (R96): each on-air channel's first slot is the number of slots before it. -/
def computePlan (mode : DistMode) (floorQuality : Format) (chs : Vector Channel 32) : Plan :=
  let g := planGrants mode floorQuality chs
  { mode := mode
    entries := Vector.ofFn (fun c : ChannelId =>
      let k := g.getD c.val 0
      { onAir := decide (0 < k), slots := k, first := if 0 < k then (g.take c.val).sum else 0, lang := chs[c].lang })
    used := g.sum
    offAir := if mode = .stopped then 0 else (chs.toList.zip g).countP (fun x => x.1.defined && x.2 == 0) }

/-- A staged plan is computed, replacing any not yet swapped, and the plan record is written in one bracket (R95, R100). -/
def State.stagePlan (s : State) : State :=
  ({ s with framer := { s.framer with staged := some (computePlan s.framer.mode s.framer.floorQuality s.channels) } }).bumpPlan

/-- The number of channel records whose stranded flag is set. -/
def strandedIn (chs : Vector Channel 32) : Nat := chs.toList.countP (fun c => c.stranded)

/-- A channel's record at a swap: the on-air fields follow the new plan (R97); with listeners, a channel that leaves the air is
stranded, and one that is on air is not (R101, R102). One bracket when a field changes. -/
def Channel.swapped (old new : PlanEntry) (ch : Channel) : Channel :=
  let ch1 := { ch with
    onAir := new.onAir, slots := new.slots, first := new.first,
    stranded := if new.onAir then false else if old.onAir && decide (0 < ch.listeners) then true else ch.stranded }
  if ch1 = ch then ch else ch1.bump

/-- The shortage mark a swap to a plan writes: the plan is on and leaves a defined channel off the air (R97). -/
def Plan.short (p : Plan) : Bool := p.mode != .stopped && decide (0 < p.offAir)

/-- The swap of R97, without the plan record's bracket. -/
def State.swapPlan (s : State) (p : Plan) : State :=
  let old := s.framer.active
  let chs := Vector.ofFn (fun c : ChannelId => (s.channels[c]).swapped old.entries[c] p.entries[c])
  let dir := if p.mode = .stopped then { s.framer.directory with entries := [] } else s.framer.directory
  ({ s with
     channels := chs
     framer := { s.framer with active := p, staged := none, planNumber := s.framer.planNumber + 1, directory := dir,
                               shortage := p.short, strandedCount := strandedIn chs, cleared := Vector.replicate 32 false } }).raise .plan

/-- The source state a directory entry carries: FLOOR for channel 0, NONE for a channel cleared since the plan was computed (R99). -/
def State.directorySource (s : State) (c : ChannelId) : Source :=
  if c = 0 then .floor else if s.framer.cleared[c] then .noSource else s.channels[c].source

/-- The directory built from the active plan (R99). -/
def State.buildDirectory (s : State) : State :=
  let p := s.framer.active
  let entries := (tblAll p.entries (fun e => e.onAir)).map (fun c : ChannelId =>
    ({ channel := c, lang := p.entries[c].lang, first := p.entries[c].first, count := p.entries[c].slots,
       source := s.directorySource c } : DirEntry))
  { s with framer := { s.framer with
      directory := { planNumber := s.framer.planNumber, superframe := s.framer.superframes, entries := entries } } }

/-- The slot fields of one channel (R98): silence for a channel cleared since the plan was computed; standard form in one slot, wide
form over two. -/
def slotFields (e : PlanEntry) (cleared : Bool) (a : Audio) : List SlotField :=
  if cleared then List.replicate e.slots .silent
  else if e.slots = 2 then [.wide 0 a, .wide 1 a]
  else List.replicate e.slots (.standard a)

/-- The slot fields of a frame: the on-air channels' in slot order, then silence up to the budget (R93, R98). -/
def State.frameSlots (s : State) : List SlotField :=
  let p := s.framer.active
  let l := (tblAll p.entries (fun e => e.onAir)).flatMap (fun c : ChannelId => slotFields p.entries[c] s.framer.cleared[c] s.audio[c])
  (l ++ List.replicate p.mode.budget SlotField.silent).take p.mode.budget

/-- The position in its superframe of the frame that begins at the present boundary (R93). -/
def Framer.position (f : Framer) : Fin 64 := ⟨f.frames % 64, Nat.mod_lt _ (by decide)⟩

/-- The distribution frame of the present boundary: none while the active plan's mode is OFF (R93). -/
def State.distFrame (s : State) : Option DistFrame :=
  if s.framer.active.mode = .stopped then none
  else some { position := s.framer.position, slots := s.frameSlots, directory := s.framer.directory }

/-- The distribution frame sent (R93). -/
def State.sendDist (s : State) : State := { s with framer := { s.framer with line := s.distFrame } }

/-- The framer's work at a superframe boundary taken in READY: the count, the swap, the directory, one bracket of the plan record when
either was written, then the frame (R93, R97, R99, R100). -/
def State.workSuperframe (s : State) : State :=
  let s1 := { s with framer := { s.framer with superframes := s.framer.superframes + 1, due := false } }
  let s2 := match s1.framer.staged with
    | some p => s1.swapPlan p
    | none => s1
  let s3 := if s2.framer.active.mode = .stopped then s2 else s2.buildDirectory
  let s4 := if s1.framer.staged.isSome || s2.framer.active.mode != .stopped then s3.bumpPlan else s3
  s4.sendDist

/-- The stranded flag of a channel changed outside a swap: the flag in the channel's bracket, the stranded count in one bracket of the
plan record (R100, R101, R102). -/
def State.writeStranded (s : State) (c : ChannelId) (v : Bool) : State :=
  let s1 := s.writeChannel c (fun r => { r with stranded := v })
  ({ s1 with framer := { s1.framer with strandedCount := strandedIn s1.channels } }).bumpPlan

/-- A clearing handed to the framer (R98, R101): a channel with listeners is stranded. -/
def State.framerCleared (s : State) (c : ChannelId) : State :=
  let s1 := { s with framer := { s.framer with cleared := s.framer.cleared.set c true } }
  if 0 < s.channels[c].listeners ∧ s.channels[c].stranded = false then s1.writeStranded c true else s1

/-- SUPERFRAME_BOUNDARY (R97): worked once at each superframe boundary; passed without a swap or a directory while RESTARTING, where
the frame of the plan active at entry goes out (R93, log 21), and without a frame in STARTING, where the lines are idle (log 24). -/
def State.superframe (s : State) : State :=
  if s.framer.due = false then s
  else
    let passed := { s with framer := { s.framer with due := false } }
    match s.part with
    | .ready => s.workSuperframe
    | .restarting => passed.sendDist
    | .starting => passed

/-- SUPERFRAME_BOUNDARY. -/
def execSuperframeBoundary (s : State) : Host.Outcome State Fault Refusal := .next s.superframe

/-- SET_DISTRIBUTION worked (R94): the quality is written into channel 0's record in its bracket, the value it held or another. -/
def workSetDistribution : Work := fun s n =>
  match distMode? (s.param8 n 0), format? (s.param8 n 1) with
  | some m, some q =>
    let values := [s.framer.mode.code, s.framer.floorQuality.code]
    if s.framer.mode = m ∧ s.framer.floorQuality = q then (s, some (Result.doneAlready values))
    else
      let s1 := { s with framer := { s.framer with mode := m, floorQuality := q } }
      let s2 := s1.writeChannel 0 (fun c => { c with quality := q })
      (s2.stagePlan, some (Result.done values))
  | _, _ => refuse s .badArgument

/-- SET_DISTRIBUTION. -/
def execSetDistribution (s : State) : Host.Outcome State Fault Refusal := .next (s.runOrder (kindIs 15) workSetDistribution)

/-- The framer's part of a census mark: the stranded flag of each channel whose count is 0 is cleared, and each clearing rewrites the
stranded count, in a bracket of the plan record of its own (R100, R102). -/
def State.clearStranded (s : State) (counts : Vector Nat 32) : State :=
  s.each (List.finRange 32) (fun s c => if s.channels[c].stranded && counts[c] == 0 then s.writeStranded c false else s)

end Sys2Proof.Machine
end

