-- ==== Sys2Proof/Machine/Consoles.lean ====
section
/-!
DEFINITION. The console controller (chapter 4): the duty meter, the consoles of a booth that leaves or enters LIVE, the busy, offer and
gap deadlines, and SEAT_ASSIGN. Console events stand in Events.lean.
-/
namespace Sys2Proof.Machine

/-- The bracket a block closes on a booth record it has worked on since `old` (R3): none when no field changed, even where a rule says
that fields are written (log 8). -/
def State.closeBooth (s old : State) (b : BoothId) : State := s.updBooth b (fun r => if r = old.booths[b] then r else r.bump)

/-- One console's fields changed. -/
def State.updConsole (s : State) (b : BoothId) (n : ConsoleId) (f : ConsoleRec → ConsoleRec) : State :=
  s.updBooth b (fun r => { r with cons := { r.cons with each := r.cons.each.set n (f r.cons.each[n]) } })

/-- The booth's own console fields changed. -/
def State.updCons (s : State) (b : BoothId) (f : ConsoleFields → ConsoleFields) : State :=
  s.updBooth b (fun r => { r with cons := f r.cons })

/-! ## The duty meter -/

/-- The live period of a console closed at a tick (R66). -/
def ConsoleRec.closeLive (c : ConsoleRec) (t : Nat) : ConsoleRec :=
  { c with liveEnd := t, onMic := satAdd 32 c.onMic (t - c.liveSince) }

/-- A turn opened at a tick (R65); `fed` is the channel the booth feeds. -/
def ConsoleRec.opened (c : ConsoleRec) (t : Nat) (stamp : Stamp × Bool) (fed : Option ChannelId) : ConsoleRec :=
  { c with
    turn := .running, turnStart := t, turnStamp := stamp.1, turnChannel := fed, turnInterpreter := c.interpreter, onMic := 0,
    liveSince := t, reliefReached := false, clockUnset := stamp.2, clockSet := false }

/-- The meter of a console that becomes live: a turn opens from IDLE, and goes on from GAP (R65, R66). -/
def ConsoleRec.cameLive (c : ConsoleRec) (t : Nat) (stamp : Stamp × Bool) (fed : Option ChannelId) : ConsoleRec :=
  match c.turn with
  | .idle => c.opened t stamp fed
  | .running | .gap => { c with turn := .running, liveSince := t }

/-- The meter of a console that stops being live: a turn that is ON goes to GAP (R66). -/
def ConsoleRec.wentQuiet (c : ConsoleRec) (t mergeGap : Nat) : ConsoleRec :=
  match c.turn with
  | .running => { c.closeLive t with turn := .gap, gapDeadline := t + secTicks mergeGap }
  | .idle | .gap => c

/-- The meter of a console whose open turn ends: the live period is closed first (R67). The turn fields keep their values, and the
relief-reached mark with them, which then marks no open turn: the model's choice (log 38). -/
def ConsoleRec.ended (c : ConsoleRec) (t : Nat) : ConsoleRec :=
  match c.turn with
  | .running => { c.closeLive t with turn := .idle }
  | .idle | .gap => { c with turn := .idle }

/-- The TURN record of an ended turn (R67). -/
def ConsoleRec.turnRecord (c : ConsoleRec) (b : BoothId) (n : ConsoleId) (cause : TurnEnd) : TurnRecord :=
  { booth := b, console := n, cause := cause, channel := c.turnChannel, interpreter := c.turnInterpreter, relief := c.reliefReached
    clockUnset := c.clockUnset, clockSet := c.clockSet, start := c.turnStamp, merged := 0
    span := (c.liveEnd - c.turnStart) / 1024, onMic := c.onMic / 1024 }

/-- A console's turn, if open, ends and its record is handed to the tally log writer (R67). -/
def State.endTurn (s : State) (b : BoothId) (n : ConsoleId) (cause : TurnEnd) : State :=
  let c := s.booths[b].cons.each[n]
  if c.turnOpen then
    let e := c.ended s.clock.run
    (s.updConsole b n (fun _ => e)).handTurn (e.turnRecord b n cause)
  else s

/-! ## The link and the consoles -/

/-- The three consoles. -/
def consoles : List ConsoleId := [0, 1, 2]

/-- The consoles of a booth that leaves LIVE (R70), in one bracket of the booth record. The TURN records of several open turns are
handed in console order 1, 2, 3: the model's choice (log 34). -/
def State.consolesDown (s : State) (b : BoothId) : State :=
  let s1 := s.each consoles (fun s n => s.endTurn b n .link)
  let s2 := s1.updCons b (fun f =>
    { f with live := none, claimed := none, offer := none, each := f.each.map (fun c => { c with busy := none, lamp := .dark }) })
  (s2.updInner b (fun i => { i with accepted := false })).closeBooth s b

/-- The consoles of a booth that enters LIVE: quiet since this tick, lamps recomputed (R60, R70). -/
def State.consolesUp (s : State) (b : BoothId) : State :=
  ((s.updCons b (fun f => { f with quietSince := s.clock.run })).relight b).closeBooth s b

/-! ## Deadlines -/

/-- The busy deadline of a console expires (R59). -/
def State.busyExpiry (s : State) (b : BoothId) (n : ConsoleId) : State :=
  match s.booths[b].cons.each[n].busy with
  | some d =>
    if s.part = .ready ∧ d ≤ s.clock.run then ((s.updConsole b n (fun c => { c with busy := none })).relight b).closeBooth s b else s
  | none => s

/-- BUSY_DEADLINE_EXPIRY. -/
def execBusyDeadlineExpiry (b : BoothId) (n : ConsoleId) (s : State) : Host.Outcome State Fault Refusal := .next (s.busyExpiry b n)

/-- The internal offer lapses (R64). -/
def State.offerExpiry (s : State) (b : BoothId) : State :=
  match s.booths[b].cons.offer with
  | some o =>
    if s.part = .ready ∧ o.deadline ≤ s.clock.run then ((s.updCons b (fun f => { f with offer := none })).relight b).closeBooth s b else s
  | none => s

/-- OFFER_DEADLINE_EXPIRY. -/
def execOfferDeadlineExpiry (b : BoothId) (s : State) : Host.Outcome State Fault Refusal := .next (s.offerExpiry b)

/-- The merge gap of a turn runs out (R66). -/
def State.gapExpiry (s : State) (b : BoothId) (n : ConsoleId) : State :=
  let c := s.booths[b].cons.each[n]
  if s.part = .ready ∧ c.turn = .gap ∧ c.gapDeadline ≤ s.clock.run then ((s.endTurn b n .micOff).relight b).closeBooth s b else s

/-- GAP_DEADLINE_EXPIRY. -/
def execGapDeadlineExpiry (b : BoothId) (n : ConsoleId) (s : State) : Host.Outcome State Fault Refusal := .next (s.gapExpiry b n)

/-! ## Seats -/

/-- SEAT_ASSIGN of a console to another interpreter (R69). -/
def State.seat (s : State) (b : BoothId) (n : ConsoleId) (who : BitVec 24) : State :=
  let s1 := (s.endTurn b n .seat).updConsole b n (fun c => { c with interpreter := who })
  let s2 := if s.booths[b].cons.live = some n then
    s1.updConsole b n (fun c => c.opened s.clock.run (s.clock.stamp s.clock.run) s.booths[b].role.fed) else s1
  (s2.relight b).closeBooth s b

/-- SEAT_ASSIGN worked (R69). -/
def workSeatAssign : Work := fun s slot =>
  match index? 24 (s.param8 slot 0), index? 3 (s.param8 slot 1 - 1) with
  | some b, some n =>
    let who := BitVec.ofNat 24 (s.paramLE slot 2 3)
    let c := s.booths[b].cons.each[n]
    let was := leBytes 3 c.interpreter.toNat
    if s.param8 slot 1 = 0 then refuse s .badArgument
    else if s.booths[b].link.definition.defined = false ∨ s.booths[b].cons.inUse ≤ n.val then refuse s .notFound
    else if who = c.interpreter then (s, some (Result.doneAlready (was ++ [0])))
    else (s.seat b n who, some (Result.done (was ++ [if c.turnOpen then 1 else 0])))
  | _, _ => refuse s .badArgument

/-- SEAT_ASSIGN. -/
def execSeatAssign (s : State) : Host.Outcome State Fault Refusal := .next (s.runOrder (kindIs 11) workSeatAssign)

end Sys2Proof.Machine
end

