-- ==== Sys2Proof/Machine/Channels.lean ====
section
/-!
DEFINITION. The channel router (chapter 5): the relay law, the pairing check, outgoing offers, scheduled handovers and their deadlines,
and BOOTH_INTAKE, CHANNEL_DEFINE, CHANNEL_CLEAR and HANDOVER. The source choice of each frame stands in Boundary.lean.
-/
namespace Sys2Proof.Machine

/-- The bracket a block closes on a channel record it has worked on since `old` (R3): none when no field changed. -/
def State.closeChannel (s old : State) (c : ChannelId) : State :=
  s.updChannel c (fun r => if r = old.channels[c] then r else r.bump)

/-- Channels 1 to 31, in order. -/
def spokenChannels : List ChannelId := (List.finRange 32).drop 1

/-! ## Relay -/

/-- The booths of an optional booth. -/
def optBooth : Option BoothId → List BoothId
  | some b => [b]
  | none => []

/-- The booths a channel names. -/
def Channel.named (c : Channel) : List BoothId := optBooth c.primary ++ optBooth c.partner

/-- The edges of the relay graph out of a booth, by its intake (R89). -/
def relayNext (chs : Vector Channel 32) (intakes : Vector ChannelId 24) (x : BoothId) : List BoothId :=
  let i := intakes[x]
  if i ≠ 0 ∧ chs[i].defined = true then chs[i].named else []

/-- The relay law (R89): no walk of three edges, which rules out every path of more than two edges and every cycle. -/
def relayLaw (chs : Vector Channel 32) (intakes : Vector ChannelId 24) : Bool :=
  (List.finRange 24).all (fun x => (relayNext chs intakes x).all (fun y =>
    (relayNext chs intakes y).all (fun z => (relayNext chs intakes z).isEmpty)))

/-- The intakes of all booths. -/
def State.intakes (s : State) : Vector ChannelId 24 := s.booths.map (fun b => b.role.intake)

/-- BOOTH_INTAKE worked (R90). -/
def workBoothIntake : Work := fun s n =>
  match index? 24 (s.param8 n 0), index? 32 (s.param8 n 1) with
  | some b, some i =>
    let was := s.booths[b].role.intake
    let values := leBytes 1 was.val
    if i ≠ 0 ∧ s.channels[i].defined = false then refuse s .notFound
    else if i = was then (s, some (Result.doneAlready values))
    else if relayLaw s.channels (s.intakes.set b i) = false then refuse s .relayConflict
    else (s.writeBooth b (fun r => { r with role := { r.role with intake := i } }), some (Result.done values))
  | _, _ => refuse s .badArgument

/-- BOOTH_INTAKE. -/
def execBoothIntake (s : State) : Host.Outcome State Fault Refusal := .next (s.runOrder (kindIs 10) workBoothIntake)

/-! ## Pairing -/

/-- The link of a booth is LIVE. -/
def State.isLive (s : State) (b : BoothId) : Bool := s.booths[b].link.state == .live

/-- The result of the pairing check of a channel (R81). -/
def State.pairingOf (s : State) (c : Channel) : Pairing × PairFault :=
  match c.primary, c.partner with
  | some p, some q =>
    let x := s.booths[p].link.announced
    let y := s.booths[q].link.announced
    if s.isLive p = false then (.fault, .primaryDown)
    else if s.isLive q = false then (.fault, .partnerDown)
    else if x.lang ≠ c.lang ∨ y.lang ≠ c.lang then (.fault, .code)
    else if x.format ≠ y.format then (.fault, .format)
    else (.valid, .noFault)
  | _, _ => (.unpaired, .noFault)

/-- A channel's record after a pairing check: a fault clears the outgoing offer and the pending move (R81). -/
def Channel.paired (c : Channel) (p : Pairing × PairFault) : Channel :=
  { c with
    pairing := p.1, fault := p.2
    offer := if p.1 = .fault then none else c.offer
    move := if p.1 = .fault then none else c.move }

/-- The pairing check of a channel (R81), without a bracket or lamps. -/
def State.checkPairing (s : State) (c : ChannelId) : State := s.updChannel c (fun r => r.paired (s.pairingOf r))

/-- The router learns that a booth has entered LIVE (R48, R77). -/
def State.routerUp (s : State) (b : BoothId) : State :=
  match s.booths[b].role.named with
  | some c => ((s.checkPairing c).closeChannel s c).relampChannel c
  | none => s

/-- The router learns that a booth has left LIVE: the loss hold of a channel it owns starts, and the pairing check is run (R77). -/
def State.routerDown (s : State) (b : BoothId) : State :=
  match s.booths[b].role.named with
  | some c =>
    let s1 := s.updChannel c (fun r => if r.defined ∧ r.ownerBooth = some b then { r with downSince := s.clock.run } else r)
    ((s1.checkPairing c).closeChannel s c).relampChannel c
  | none => s

/-! ## Outgoing offers -/

/-- The outgoing offer of a channel lapses (R85). -/
def State.outgoingLapse (s : State) (c : ChannelId) : State :=
  match s.channels[c].offer with
  | some o =>
    if s.part = .ready ∧ o.deadline ≤ s.clock.run then (s.writeChannel c (fun r => { r with offer := none })).relampChannel c else s
  | none => s

/-- OUTGOING_OFFER_LAPSE. -/
def execOutgoingOfferLapse (c : ChannelId) (s : State) : Host.Outcome State Fault Refusal := .next (s.outgoingLapse c)

/-! ## Scheduled handovers -/

/-- The result values of every completion of HANDOVER (R88): the tick of the move or 0, the owner, the fault reason. -/
def Channel.handoverValues (c : Channel) (tick : Nat) : List Byte := leBytes 6 tick ++ [c.owner.code, c.fault.toByte]

/-- The scheduled handover of a channel ends with a result for its order; the WARN lamps are the caller's (R87, R88). -/
def State.endSchedule (s : State) (c : ChannelId) (code : ResultCode) (reason : Reason) (already : Bool) (tick : Nat) : State :=
  let values := s.channels[c].handoverValues tick
  let r : Result := { code := code, reason := reason, clamped := false, already := already, values := values }
  (s.updChannel c (fun ch => { ch with schedule := none })).endOwner (.handover c) r

/-- The scheduled handover changed in its phase (R87). -/
def State.setPhase (s : State) (c : ChannelId) (h : Schedule) : State := s.updChannel c (fun ch => { ch with schedule := some h })

/-- Warning reached (R87), without a bracket or lamps. -/
def State.warn (s : State) (c : ChannelId) : State :=
  match s.channels[c].schedule with
  | some h => if h.phase = .planned then s.setPhase c { h with phase := .warned } else s
  | none => s

/-- Target reached (R87), without a bracket or lamps: the warning first, then the order ends DONE with ALREADY or waits. -/
def State.target (s : State) (c : ChannelId) : State :=
  match s.channels[c].schedule with
  | some h =>
    if h.phase = .waiting then s
    else if s.channels[c].owner = h.target then s.endSchedule c .done .noReason true 0
    else s.setPhase c { h with phase := .waiting, waitDeadline := s.clock.run + secTicks s.timers.handoverWait }
  | none => s

/-- The calendar compared with a channel's scheduled handover (R26, R87), without a bracket or lamps. -/
def State.compareSchedule (s : State) (c : ChannelId) : State :=
  match s.channels[c].schedule with
  | some h =>
    if h.phase = .waiting then s
    else
      let s1 := if s.clock.reached h.warnCal ∨ s.clock.reached h.targetCal then s.warn c else s
      if s.clock.reached h.targetCal then s1.target c else s1
  | none => s

/-- The brackets and lamps that follow work on a channel's scheduled handover (R61). -/
def State.settleChannel (s old : State) (c : ChannelId) : State := (s.closeChannel old c).relampChannel c

/-- Warning reached (R87). -/
def State.warningReached (s : State) (c : ChannelId) : State :=
  match s.channels[c].schedule with
  | some h => if s.part = .ready ∧ s.clock.reached h.warnCal = true then (s.warn c).settleChannel s c else s
  | none => s

/-- WARNING_REACHED. -/
def execWarningReached (c : ChannelId) (s : State) : Host.Outcome State Fault Refusal := .next (s.warningReached c)

/-- Target reached (R87). -/
def State.targetReached (s : State) (c : ChannelId) : State :=
  match s.channels[c].schedule with
  | some h => if s.part = .ready ∧ s.clock.reached h.targetCal = true then ((s.warn c).target c).settleChannel s c else s
  | none => s

/-- TARGET_REACHED. -/
def execTargetReached (c : ChannelId) (s : State) : Host.Outcome State Fault Refusal := .next (s.targetReached c)

/-- The handover wait runs out (R88). -/
def State.waitExpiry (s : State) (c : ChannelId) : State :=
  match s.channels[c].schedule with
  | some h =>
    if s.part = .ready ∧ h.phase = .waiting ∧ h.waitDeadline ≤ s.clock.run then
      (s.endSchedule c .failed .waitOver false 0).settleChannel s c
    else s
  | none => s

/-- WAIT_DEADLINE_EXPIRY. -/
def execWaitDeadlineExpiry (c : ChannelId) (s : State) : Host.Outcome State Fault Refusal := .next (s.waitExpiry c)

/-- A CANCEL of a standing HANDOVER (R88). -/
def State.cancelHandover (s : State) (c : ChannelId) : State := (s.endSchedule c .cancelled .noReason false 0).settleChannel s c

/-- The scheduled handover a HANDOVER order writes (R86). Its wait deadline is set when the target is reached (R87); the 0 it holds until
then is the model's choice (log 35). -/
def newSchedule (slot : SlotId) (target : Role) (now : Bool) (seconds lead : Nat) : Schedule :=
  { slot := slot, target := target, targetCal := if now then 0 else seconds, warnCal := if now then 0 else seconds - lead
    lead := lead, phase := .planned, waitDeadline := 0 }

/-- A HANDOVER that has passed its checks: the scheduled handover, the standing order, and R87 at once where it is reached (R86). -/
def State.schedule (s : State) (slot : SlotId) (c : ChannelId) (h : Schedule) (now clamped : Bool) : State :=
  let s1 := (s.setPhase c h).makeStanding slot (.handover c) clamped
  let s2 := if now then (s1.warn c).target c else s1.compareSchedule c
  s2.settleChannel s c

/-- A HANDOVER refused: its result values are written as at every completion (R88), from the channel it names; one that names none
above 31 carries 0 (log 37). -/
def State.refuseHandover (s : State) (c : ChannelId) (r : Reason) : State × Option Result :=
  (s, some { Result.refused r with values := s.channels[c].handoverValues 0 })

/-- HANDOVER worked (R86). -/
def workHandover : Work := fun s n =>
  match index? 32 (s.param8 n 0), role? (s.param8 n 1) with
  | some c, some target =>
    let ch := s.channels[c]
    let now := s.param8 n 6 == 1
    let lead := clampTo 0 120 (s.paramLE n 8 2)
    if c = 0 ∨ 1 < s.param8 n 6 then s.refuseHandover c .badArgument
    else if ch.defined = false ∨ ch.partner = none then s.refuseHandover c .notFound
    else if ch.offer.isSome ∨ ch.move.isSome ∨ ch.schedule.isSome then s.refuseHandover c .handoverBusy
    else if now = false ∧ s.clock.valid = false then s.refuseHandover c .clockUnset
    else (s.schedule n c (newSchedule n target now (s.paramLE n 2 4) lead.1) now lead.2, none)
  | some c, none => s.refuseHandover c .badArgument
  | none, _ => refuse s .badArgument

/-- HANDOVER. -/
def execHandover (s : State) : Host.Outcome State Fault Refusal := .next (s.runOrder (kindIs 14) workHandover)

/-! ## Definitions -/

/-- What a CHANNEL_DEFINE carries (R74). -/
structure ChannelParams where
  primary : BoothId
  partner : Option BoothId
  lang : Lang
  quality : Format
  rescue : Bool
  deriving DecidableEq, Repr

/-- A booth byte, 255 for none. -/
def partner? (n : Nat) : Option (Option BoothId) := if n = 255 then some none else (index? 24 n).map some

/-- The parameters of CHANNEL_DEFINE, or none where the first check of R74 fails. -/
def State.channelParams (s : State) (n : SlotId) : Option ChannelParams :=
  match index? 24 (s.param8 n 1), partner? (s.param8 n 2), s.paramLang n 3, format? (s.param8 n 6) with
  | some p, some q, some l, some f =>
    if q = some p ∨ 1 < s.param8 n 7 then none
    else some { primary := p, partner := q, lang := l, quality := f, rescue := s.param8 n 7 == 1 }
  | _, _, _, _ => none

/-- A booth is the named channel of another channel (R73, R74). -/
def State.takenBy (s : State) (c : ChannelId) (b : BoothId) : Bool :=
  match s.booths[b].role.named with
  | some d => d != c
  | none => false

/-- A channel record with its definition written (R75). -/
def Channel.define (c : Channel) (p : ChannelParams) : Channel :=
  { c with
    defined := true, lang := p.lang, primary := some p.primary, partner := p.partner, quality := p.quality, rescue := p.rescue
    owner := .primary, offer := none, move := none }

/-- A booth's channel-role fields under the naming of channel `c` (R75). -/
def RoleFields.naming (r : RoleFields) (c : ChannelId) (primary partner : Bool) : RoleFields :=
  if primary then { r with named := some c, role := .primary }
  else if partner then { r with named := some c, role := .partner }
  else if r.named = some c then { r with named := none }
  else r

/-- Every booth record's naming rewritten for channel `c`, each in its own bracket where it changes (R75, R76). The intake that a clearing
resets and the lamps are brackets of their own on the same record: the model's choice (log 8). -/
def State.rename (s : State) (c : ChannelId) (primary partner : Option BoothId) : State :=
  s.each (List.finRange 24) (fun s b =>
    s.rewriteBooth b (fun r => { r with role := r.role.naming c (primary == some b) (partner == some b) }))

/-- A CHANNEL_DEFINE that passes its checks (R75). -/
def State.defineChannel (s : State) (c : ChannelId) (p : ChannelParams) : State :=
  let s1 := s.updChannel c (fun r => r.define p)
  let s2 := if s.isLive p.primary then s1 else s1.updChannel c (fun r => { r with downSince := s.clock.run })
  let s3 := (s2.checkPairing c).updChannel c Channel.bump
  let s4 := (s3.rename c (some p.primary) p.partner).relampChannel c
  ((s4.relampOpt s.channels[c].primary).relampOpt s.channels[c].partner).stagePlan

/-- CHANNEL_DEFINE worked (R74, R75). -/
def workChannelDefine : Work := fun s n =>
  match index? 32 (s.param8 n 0), s.channelParams n with
  | some c, some p =>
    if c = 0 then refuse s .badArgument
    else if s.takenBy c p.primary = true ∨ p.partner.any (s.takenBy c) = true then refuse s .boothTaken
    else if relayLaw (s.channels.set c (s.channels[c].define p)) s.intakes = false then refuse s .relayConflict
    else if s.channels[c].schedule.isSome then refuse s .handoverBusy
    else (s.defineChannel c p, some (Result.done [if s.channels[c].defined then 1 else 0]))
  | _, _ => refuse s .badArgument

/-- CHANNEL_DEFINE. -/
def execChannelDefine (s : State) : Host.Outcome State Fault Refusal := .next (s.runOrder (kindIs 12) workChannelDefine)

/-- A channel record cleared (R76). -/
def Channel.cleared (c : Channel) : Channel :=
  { c with
    defined := false, lang := Lang.unset, primary := none, partner := none, owner := .primary, source := .noSource
    pairing := .unpaired, fault := .noFault, offer := none, move := none }

/-- The clearing of a defined channel (R76): the standing HANDOVER first, the namings, the intakes, the record, the plan. -/
def State.clearChannel (s : State) (c : ChannelId) : State :=
  let s1 := if s.channels[c].schedule.isSome then s.endSchedule c .failed .channelCleared false 0 else s
  let s2 := (s1.updChannel c Channel.cleared).updChannel c Channel.bump
  let s3 := s2.rename c none none
  let s4 := s3.each (List.finRange 24) (fun s b =>
    s.rewriteBooth b (fun r => if r.role.intake = c then { r with role := { r.role with intake := 0 } } else r))
  let s5 := (s4.relampOpt s.channels[c].primary).relampOpt s.channels[c].partner
  (s5.framerCleared c).stagePlan

/-- CHANNEL_CLEAR worked (R76). -/
def workChannelClear : Work := fun s n =>
  match index? 32 (s.param8 n 0) with
  | some c =>
    if c = 0 then refuse s .badArgument
    else if s.channels[c].defined = false then (s, some (Result.doneAlready [0]))
    else (s.clearChannel c, some (Result.done (leBytes 1 (s.intakes.toList.count c))))
  | none => refuse s .badArgument

/-- CHANNEL_CLEAR. -/
def execChannelClear (s : State) : Host.Outcome State Fault Refusal := .next (s.runOrder (kindIs 13) workChannelClear)

end Sys2Proof.Machine
end

