-- ==== Sys2Proof/Machine/Events.lean ====
section
/-!
DEFINITION. Console events (sections 4.2, 4.3, 4.6, 5.7): the interlock, the internal offer, and the keys passed to the channel router.
Every event is judged against the claimed console (R56).
-/
namespace Sys2Proof.Machine

/-- How an event ended: the state of its booth and channel, and the console's last outcome (R55). -/
abbrev EventWork := State × EventOutcome

/-- A refused event sets the console's busy deadline, 2048 ticks on (R59). -/
def State.refuseKey (s : State) (b : BoothId) (n : ConsoleId) : EventWork :=
  (s.updConsole b n (fun c => { c with busy := some (s.clock.run + 2048) }), .refused)

/-- MIC_ON (R57). -/
def State.keyMicOn (s : State) (b : BoothId) (n : ConsoleId) : EventWork :=
  match s.booths[b].cons.claimed with
  | none => ((s.updCons b (fun f => { f with claimed := some n })).updInner b (fun i => { i with accepted := false }), .taken)
  | some m => if m = n then (s, .ignored) else s.refuseKey b n

/-- The internal offer without the offer of console `n` (R58, R64). -/
def ConsoleFields.withdraw (f : ConsoleFields) (n : ConsoleId) : ConsoleFields :=
  { f with offer := if f.offer.any (fun o => o.offerer == n) then none else f.offer }

/-- MIC_OFF (R58). -/
def State.keyMicOff (s : State) (b : BoothId) (n : ConsoleId) : EventWork :=
  if s.booths[b].cons.claimed = some n then
    ((s.updCons b (fun f => { f.withdraw n with claimed := none })).updInner b (fun i => { i with accepted := false }), .taken)
  else (s, .ignored)

/-- OFFER (R62). -/
def State.keyOffer (s : State) (b : BoothId) (n : ConsoleId) : EventWork :=
  if s.booths[b].cons.claimed = some n ∧ s.booths[b].cons.offer = none then
    (s.updCons b (fun f =>
      { f with offer := some { offerer := n, deadline := s.clock.run + secTicks s.timers.acceptWindow } }), .taken)
  else s.refuseKey b n

/-- The channel with an outgoing offer towards booth `p` (R84). -/
def State.offeredTo (s : State) (p : BoothId) : Option ChannelId :=
  tblFind s.channels (fun c => c.offer.isSome && c.standbyBooth == some p)

/-- The channel with an outgoing offer that booth `b` holds as its owner (R85). -/
def State.offeredBy (s : State) (b : BoothId) : Option ChannelId :=
  tblFind s.channels (fun c => c.offer.isSome && c.ownerBooth == some b)

/-- The router's acceptance of an outgoing offer: the offer closes and the move to the standby role is pending (R84). -/
def Channel.acceptOffer (c : Channel) : Channel := { c with offer := none, move := some c.owner.other }

/-- ACCEPT (R63, R84). -/
def State.keyAccept (s : State) (b : BoothId) (n : ConsoleId) : EventWork :=
  if s.booths[b].cons.claimed = some n then
    match s.offeredTo b with
    | some c => (s.writeChannel c Channel.acceptOffer, .passed)
    | none => s.keyMicOn b n
  else if s.booths[b].cons.offer.any (fun o => o.offerer != n) then
    ((s.updCons b (fun f => { f with offer := none, claimed := some n })).updInner b (fun i => { i with accepted := true }), .taken)
  else s.keyMicOn b n

/-- CANCEL (R64, R85). -/
def State.keyCancel (s : State) (b : BoothId) (n : ConsoleId) : EventWork :=
  if s.booths[b].cons.offer.any (fun o => o.offerer == n) then (s.updCons b (fun f => f.withdraw n), .taken)
  else if s.booths[b].cons.claimed = some n then
    match s.offeredBy b with
    | some c => ((s.writeChannel c (fun r => { r with offer := none })).relampOpt s.channels[c].standbyBooth, .passed)
    | none => (s, .ignored)
  else (s, .ignored)

/-- The router takes an OFFER_OUT of booth `b` on channel `c` (R83). -/
def State.canOfferOut (s : State) (b : BoothId) (c : ChannelId) : Bool :=
  let r := s.channels[c]
  r.ownerBooth == some b && r.pairing == .valid && r.schedule.isNone && r.offer.isNone && r.move.isNone

/-- OFFER_OUT (R64, R83). -/
def State.keyOfferOut (s : State) (b : BoothId) (n : ConsoleId) : EventWork :=
  if s.booths[b].cons.claimed = some n ∧ s.booths[b].cons.offer = none then
    match s.booths[b].role.named with
    | some c =>
      if s.canOfferOut b c then
        let o : OutgoingOffer := { console := n, deadline := s.clock.run + secTicks s.timers.acceptWindow }
        ((s.writeChannel c (fun r => { r with offer := some o })).relampOpt s.channels[c].standbyBooth, .passed)
      else s.refuseKey b n
    | none => s.refuseKey b n
  else s.refuseKey b n

/-- The event's name in the last-event field (R55). -/
def lastEventOf : EventKind → LastEvent
  | .micOn => .micOn | .micOff => .micOff | .offer => .offer | .accept => .accept | .cancel => .cancel | .offerOut => .offerOut
  | .unknown => .noEvent

/-- An event dispatched by its kind (R55); an unknown kind is dropped before it comes here (R47). -/
def State.keyWork (s : State) (b : BoothId) (n : ConsoleId) : EventKind → EventWork
  | .micOn => s.keyMicOn b n
  | .micOff => s.keyMicOff b n
  | .offer => s.keyOffer b n
  | .accept => s.keyAccept b n
  | .cancel => s.keyCancel b n
  | .offerOut => s.keyOfferOut b n
  | .unknown => (s, .ignored)

/-- A console event taken by the console controller (R55): ignored and counted above the count in use, else worked, with the console's
last event and outcome and the booth's lamps in one bracket; an event that leaves every field as it was opens none (log 8). -/
def State.takeEvent (s : State) (b : BoothId) (k : EventKind) (n : ConsoleId) : State :=
  if s.booths[b].cons.inUse ≤ n.val then
    s.writeBooth b (fun r => { r with cons := { r.cons with ignored := satAdd 16 r.cons.ignored 1 } })
  else
    let w := s.keyWork b n k
    let s1 := w.1.updConsole b n (fun c => { c with lastEvent := lastEventOf k, lastOutcome := w.2 })
    (s1.relight b).closeBooth s b

/-- A dropped event is counted (R47). -/
def State.dropEvent (s : State) (b : BoothId) : State :=
  s.updBooth b (fun r => { r with link := { r.link with
    counts := { r.link.counts with dropped := satAdd 16 r.link.counts.dropped 1 } } })

/-- The console a number on the line names: 1 to 3, and none for 0 (R47). -/
def console? (n : Fin 4) : Option ConsoleId := index? 3 (n.val - 1) >>= fun c => if n = 0 then none else some c

/-- A console event of a row of the table: delivered on a LIVE booth in READY; console number 0 is dropped and counted (R47). -/
def State.deliver (s : State) (b : BoothId) (k : EventKind) (n : Fin 4) : State :=
  if s.part = .ready ∧ s.isLive b = true then
    match console? n with
    | some c => s.takeEvent b k c
    | none => (s.dropEvent b).closeBooth s b
  else s

/-- MIC_ON. -/
def execMicOn (b : BoothId) (n : Fin 4) (s : State) : Host.Outcome State Fault Refusal := .next (s.deliver b .micOn n)

/-- MIC_OFF. -/
def execMicOff (b : BoothId) (n : Fin 4) (s : State) : Host.Outcome State Fault Refusal := .next (s.deliver b .micOff n)

/-- OFFER. -/
def execOffer (b : BoothId) (n : Fin 4) (s : State) : Host.Outcome State Fault Refusal := .next (s.deliver b .offer n)

/-- ACCEPT. -/
def execAccept (b : BoothId) (n : Fin 4) (s : State) : Host.Outcome State Fault Refusal := .next (s.deliver b .accept n)

/-- CONSOLE_CANCEL. -/
def execConsoleCancel (b : BoothId) (n : Fin 4) (s : State) : Host.Outcome State Fault Refusal := .next (s.deliver b .cancel n)

/-- OFFER_OUT. -/
def execOfferOut (b : BoothId) (n : Fin 4) (s : State) : Host.Outcome State Fault Refusal := .next (s.deliver b .offerOut n)

end Sys2Proof.Machine
end

