-- ==== Sys2Proof/Machine/Links.lean ====
section
/-!
DEFINITION. The booth link receivers (chapter 3): alignment, announces, line errors, errored frames, entering and leaving LIVE, and
BOOTH_DEFINE, LINK_HOLD, LINK_RELEASE and the booth group of CLEAR_COUNTS.
-/
namespace Sys2Proof

/-- Silence in all three console audio fields. -/
def AudioTriple.silent : AudioTriple := { c1 := .silence, c2 := .silence, c3 := .silence }

/-- Whether a symbol's BALANCE error is counted under the masking option (R43). -/
def SymbolFault.balanceCounts (masking : Bool) (f : SymbolFault) : Bool := f.balance && !(masking && f.notInTable)

/-- Whether a symbol carries a counted error (R43). -/
def SymbolFault.counts (masking : Bool) (f : SymbolFault) : Bool := f.notInTable || f.balanceCounts masking || f.marker

/-- The symbol lies in a console audio field. -/
def SymbolFault.inAudio (f : SymbolFault) : Bool := match f.part with
  | .audio _ => true
  | .frameType | .control | .check => false

/-- The symbol lies in the control field. -/
def SymbolFault.inControl (f : SymbolFault) : Bool := match f.part with
  | .control => true
  | .frameType | .audio _ | .check => false

/-- An AUDIO frame is errored (R46). -/
def AudioFrame.errored (masking : Bool) (a : AudioFrame) : Bool :=
  !a.checkOk || a.faults.any (fun f => f.inAudio && f.counts masking)

end Sys2Proof

namespace Sys2Proof.Machine

/-- A booth's link fields changed. -/
def State.updLink (s : State) (b : BoothId) (f : LinkFields → LinkFields) : State :=
  s.updBooth b (fun r => { r with link := f r.link })

/-- The lifetime counters of a link changed. -/
def LinkFields.count (f : LinkFields) (g : LinkCounts → LinkCounts) : LinkFields := { f with counts := g f.counts }

/-- A change of link state: state, cause and run tick (section 3.3). -/
def LinkFields.moved (f : LinkFields) (state : LinkState) (cause : LinkCause) (t : Nat) : LinkFields :=
  { f with state := state, cause := cause, changed := t }

/-! ## Entering and leaving LIVE -/

/-- Entry to SEEKING (R34). -/
def LinkFields.seek (f : LinkFields) (cause : LinkCause) (resync : Bool) (t : Nat) : LinkFields :=
  { f.moved .seeking cause t with resync := resync, alignRun := 0, missingRun := 0, badRun := 0, heldRun := 0 }

/-- What the other blocks do when a link leaves LIVE (R49): the consoles go down and the router learns of it. -/
def State.linkDown (s : State) (b : BoothId) : State := (s.consolesDown b).routerDown b

/-- A link put in another state than LIVE, in one bracket, with the hand-over of R49 when it was LIVE in `old`. -/
def State.leave (s old : State) (b : BoothId) : State :=
  let s1 := s.closeBooth old b
  if old.isLive b then s1.linkDown b else s1

/-- Entry to LIVE (R48) in one bracket, with the hand-overs to the console controller and the router. -/
def State.enterLive (s old : State) (b : BoothId) : State :=
  let s1 := s.updLink b (fun f =>
    { (f.moved .live .up s.clock.run).count (fun c => { c with entries := satAdd 16 c.entries 1 }) with
      window := ErrorCounts.zero, heldRun := 0, missingRun := 0 })
  let s2 := (s1.updInner b (fun i => { i with lastGood := none })).closeBooth old b
  ((s2.raise .link).consolesUp b).routerUp b

/-! ## Audio handed -/

/-- A good frame's audio is handed and becomes the last good frame (R46). -/
def State.handGood (s : State) (b : BoothId) (a : AudioTriple) : State :=
  (s.updLink b (fun f => { f with heldRun := 0 })).updInner b (fun i => { i with lastGood := some a, handed := some a })

/-- The replacement of an errored frame is handed: the last good frame at most twice in a row, then silence (R46). -/
def State.handReplacement (s : State) (b : BoothId) : State :=
  let held := s.booths[b].link.heldRun
  let audio := if held < 2 then s.inner[b].lastGood.getD AudioTriple.silent else AudioTriple.silent
  let s1 := s.updLink b (fun f =>
    { f.count (fun c => { c with replaced := satAdd 32 c.replaced 1 }) with heldRun := if held < 2 then held + 1 else held })
  s1.updInner b (fun i => { i with handed := some audio })

/-! ## Markers -/

/-- A frame marker taken in SEEKING (R34): the run of markers each exactly one frame after the last, 16 of which align the link. -/
def LinkFields.align (f : LinkFields) (inPlace : Bool) (t : Nat) : LinkFields :=
  let run := if inPlace ∧ 0 < f.alignRun then f.alignRun + 1 else 1
  if run = 16 then { f.moved .announcing .aligned t with alignRun := 16, resync := false, missingRun := 0, badRun := 0 }
  else { f with alignRun := run }

/-- The markers have stopped: the fourth missing in a row takes the link to SEEKING with cause LOST (R35). -/
def State.lose (s old : State) (b : BoothId) : State :=
  let s1 := s.updLink b (fun f =>
    (f.seek .lost false s.clock.run).count (fun c => { c with losses := satAdd 16 c.losses 1 }))
  (s1.leave old b).raise .link

/-- MISSING_MARKER (R34, R35). In RESTARTING no upstream frame is taken (R20), and a frame period without its marker, which R20 does not
name, changes nothing either: the model's choice (log 33). -/
def State.missMarker (s : State) (b : BoothId) : State :=
  if s.part ≠ .ready then s
  else match s.booths[b].link.state with
    | .held => s
    | .seeking => (s.updLink b (fun f => { f with alignRun := 0 })).closeBooth s b
    | .announcing | .mismatch =>
      let s1 := s.updLink b (fun f => { f with missingRun := f.missingRun + 1 })
      if 4 ≤ s1.booths[b].link.missingRun then s1.lose s b else s1.closeBooth s b
    | .live =>
      let s1 := s.updLink b (fun f => { f with missingRun := f.missingRun + 1 })
      if 4 ≤ s1.booths[b].link.missingRun then s1.lose s b else (s1.handReplacement b).closeBooth s b

/-- MISSING_MARKER. -/
def execMissingMarker (b : BoothId) (s : State) : Host.Outcome State Fault Refusal := .next (s.missMarker b)

/-! ## AUDIO frames -/

/-- The errors of a frame added to counts that saturate at `bits` bits (R43). -/
def ErrorCounts.add (bits : Nat) (masking : Bool) (faults : List SymbolFault) (c : ErrorCounts) : ErrorCounts :=
  { symbol := satAdd bits c.symbol (faults.countP (fun f => f.notInTable))
    balance := satAdd bits c.balance (faults.countP (SymbolFault.balanceCounts masking))
    marker := satAdd bits c.marker (faults.countP (fun f => f.marker)) }

/-- A frame's errors counted in the window and lifetime counters (R43). -/
def LinkFields.countErrors (f : LinkFields) (faults : List SymbolFault) : LinkFields :=
  { f.count (fun c => { c with errors := c.errors.add 16 f.definition.masking faults }) with
    window := f.window.add 8 f.definition.masking faults }

/-- The event a frame delivers, if it carries one that survives (R47); `some none` is a dropped event. -/
def delivery (masking : Bool) (a : AudioFrame) : Option (Option (EventKind × ConsoleId)) :=
  match a.event with
  | none => none
  | some e =>
    if !a.checkOk || a.faults.any (fun f => f.inControl && f.counts masking) || e.kind == .unknown then some none
    else some ((console? e.console).map (fun n => (e.kind, n)))

/-- A window counter stands at the threshold (R44). -/
def LinkFields.degraded (f : LinkFields) : Bool :=
  decide (f.definition.threshold ≤ f.window.symbol) || decide (f.definition.threshold ≤ f.window.balance)
    || decide (f.definition.threshold ≤ f.window.marker)

/-- The threshold takes a LIVE link to SEEKING with cause DEGRADED (R44), in a bracket of the booth record beside the one of the frame's
counts: the model's choice (log 8). -/
def State.degrade (s : State) (b : BoothId) : State :=
  let s1 := s.updLink b (fun f =>
    (f.seek .degraded true s.clock.run).count (fun c => { c with degraded := satAdd 16 c.degraded 1 }))
  (s1.leave s b).raise .link

/-- An AUDIO frame taken in LIVE (R31, R43, R44, R46, R47): errors counted, audio handed, event delivered or dropped, then the
threshold. The link receiver's counts, the console event and the threshold's change of state are a bracket of the booth record each: the
model's choice (log 8). -/
def State.takeLiveFrame (s : State) (b : BoothId) (a : AudioFrame) : State :=
  let masking := s.booths[b].link.definition.masking
  let s1 := s.updLink b (fun f => { f.countErrors a.faults with missingRun := 0 })
  let s2 := if a.errored masking then s1.handReplacement b else s1.handGood b a.audio
  let s3 := match delivery masking a with
    | none => s2.closeBooth s b
    | some none => (s2.dropEvent b).closeBooth s b
    | some (some (k, n)) => (s2.closeBooth s b).takeEvent b k n
  if s3.booths[b].link.degraded then s3.degrade b else s3

/-- AUDIO_FRAME (R31). -/
def State.takeAudioFrame (s : State) (b : BoothId) (a : AudioFrame) : State :=
  if s.part ≠ .ready then s
  else match s.booths[b].link.state with
    | .held => s
    | .seeking => (s.updLink b (fun f => f.align a.inPlace s.clock.run)).closeBooth s b
    | .announcing | .mismatch => (s.updLink b (fun f => { f with missingRun := 0 })).closeBooth s b
    | .live => s.takeLiveFrame b a

/-- AUDIO_FRAME. -/
def execAudioFrame (b : BoothId) (a : AudioFrame) (s : State) : Host.Outcome State Fault Refusal := .next (s.takeAudioFrame b a)

/-! ## Announces -/

/-- An announce block's twelve bytes. -/
abbrev AnnounceBlock := Vector Byte 12

/-- The checksum of bytes 0 to 10 by a method (R37): FIELDS leaves the unit revision out. -/
def AnnounceBlock.sum (a : AnnounceBlock) : SumMethod → Byte
  | .bytes => (a.toList.take 11).sum
  | .fields => (a.toList.take 10).sum

/-- The serial of an announce, lowest byte first. -/
def AnnounceBlock.serial (a : AnnounceBlock) : BitVec 32 := a[4] ++ a[3] ++ a[2] ++ a[1]

/-- The language code of an announce. -/
def AnnounceBlock.lang (a : AnnounceBlock) : Lang := { a := a[5], b := a[6], c := a[7] }

/-- Every field of an announce lies in its range (R36). -/
def AnnounceBlock.inRange (a : AnnounceBlock) : Bool :=
  decide (a[0].toNat ≤ 23) && decide (1 ≤ a[8].toNat) && decide (a[8].toNat ≤ 3) && decide (a[9].toNat ≤ 1) && a.lang.letters

/-- An announce is good (R36). -/
def goodFrame (f : AnnounceFrame) (m : SumMethod) : Bool :=
  f.block[11] == AnnounceBlock.sum f.block m && f.checkOk && AnnounceBlock.inRange f.block

/-- The mismatch reason of a good announce against a definition: the first condition that fails (R39). -/
def announceTest (b : BoothId) (d : BoothDef) (a : AnnounceBlock) : MismatchReason :=
  if a[0].toNat ≠ b.val then .booth
  else if d.serial ≠ 0 ∧ a.serial ≠ d.serial then .serial
  else if a.lang ≠ d.lang then .code
  else if a[8].toNat < d.consoles then .consoles
  else if (a[9] == 1) ≠ (d.format == .wide) then .format
  else .noReason

/-- The two checksums written with every announce taken (R36). -/
def Announced.sums (x : Announced) (received computed : Byte) : Announced := { x with received := received, computed := computed }

/-- The announced fields of a good announce (R36, R39). -/
def Announced.good (x : Announced) (a : AnnounceBlock) (reason : MismatchReason) : Announced :=
  { x with
    booth := a[0], serial := a.serial, lang := a.lang, consoles := a[8], format := if a[9] = 1 then .wide else .standard
    revision := a[10], mismatch := reason }

/-- A bad announce (R38); the fourth in a row takes the link to SEEKING. -/
def State.badAnnounce (s old : State) (b : BoothId) : State :=
  let s1 := s.updLink b (fun f =>
    { f.count (fun c => { c with badAnnounces := satAdd 16 c.badAnnounces 1 }) with badRun := f.badRun + 1 })
  if 4 ≤ s1.booths[b].link.badRun then
    ((s1.updLink b (fun f => f.seek .badAnnounce true s.clock.run)).leave old b).raise .announce
  else s1.closeBooth old b

/-- Entry to MISMATCH (R40, R42). -/
def State.enterMismatch (s old : State) (b : BoothId) : State :=
  let s1 := s.updLink b (fun f =>
    (f.moved .mismatch .mismatch s.clock.run).count (fun c => { c with mismatches := satAdd 16 c.mismatches 1 }))
  (s1.leave old b).raise .announce

/-- The effect of a good announce by the link state it is taken in (R40, R41, R42). One that rewrites the values the record holds opens
no bracket: the model's choice (log 8). -/
def State.goodAnnounce (s old : State) (b : BoothId) (reason : MismatchReason) : State :=
  match old.booths[b].link.state, reason with
  | .live, .noReason => s.closeBooth old b
  | _, .noReason => s.enterLive old b
  | .mismatch, _ => s.closeBooth old b
  | _, _ => s.enterMismatch old b

/-- An announce checked against the link's definition (R36). -/
def State.checkAnnounce (s : State) (b : BoothId) (f : AnnounceFrame) : State :=
  let d := s.booths[b].link.definition
  let s1 := s.updLink b (fun l =>
    { l with missingRun := 0, announced := l.announced.sums f.block[11] (AnnounceBlock.sum f.block d.method) })
  let s2 := if s.isLive b then s1.handReplacement b else s1
  if goodFrame f d.method then
    let reason := announceTest b d f.block
    (s2.updLink b (fun l => { l with badRun := 0, announced := l.announced.good f.block reason })).goodAnnounce s b reason
  else s2.badAnnounce s b

/-- ANNOUNCE_FRAME (R34, R36). -/
def State.takeAnnounce (s : State) (b : BoothId) (f : AnnounceFrame) : State :=
  if s.part ≠ .ready then s
  else match s.booths[b].link.state with
    | .held => s
    | .seeking => (s.updLink b (fun l => l.align f.inPlace s.clock.run)).closeBooth s b
    | .announcing | .mismatch | .live => s.checkAnnounce b f

/-- ANNOUNCE_FRAME. -/
def execAnnounceFrame (b : BoothId) (f : AnnounceFrame) (s : State) : Host.Outcome State Fault Refusal := .next (s.takeAnnounce b f)

/-! ## Link orders -/

/-- The definition a BOOTH_DEFINE carries and whether a setting was brought into range; none where it is refused BAD_ARGUMENT (R50). -/
def State.boothParams (s : State) (n : SlotId) : Option (BoothDef × Bool) :=
  match s.paramLang n 6, format? (s.param8 n 9), method? (s.param8 n 10) with
  | some l, some f, some m =>
    let count := clampTo 1 3 (s.param8 n 1)
    let given := s.paramLE n 12 2
    let threshold := if given = 0 then (16, false) else clampTo 1 255 given
    if 1 < s.param8 n 11 then none
    else some ({ defined := true, lang := l, consoles := count.1, serial := BitVec.ofNat 32 (s.paramLE n 2 4), format := f, method := m
                 threshold := threshold.1, masking := s.param8 n 11 == 0 }, count.2 || threshold.2)
  | _, _, _ => none

/-- A booth record with a definition written: the console count in use follows it and seats above it are emptied (R50, R54). -/
def Booth.define (r : Booth) (d : BoothDef) : Booth :=
  { r with
    link := { r.link with definition := d }
    cons := { r.cons with
      inUse := d.consoles
      each := Vector.ofFn (fun n : ConsoleId =>
        if d.consoles ≤ n.val then { r.cons.each[n] with interpreter := 0 } else r.cons.each[n]) } }

/-- BOOTH_DEFINE worked (R50). -/
def workBoothDefine : Work := fun s n =>
  match index? 24 (s.param8 n 0), s.boothParams n with
  | some b, some (d, clamped) =>
    if s.booths[b].link.state ≠ .held then refuse s .notHeld
    else (s.writeBooth b (fun r => r.define d), some (Result.doneClamped clamped []))
  | _, _ => refuse s .badArgument

/-- BOOTH_DEFINE. -/
def execBoothDefine (s : State) : Host.Outcome State Fault Refusal := .next (s.runOrder (kindIs 7) workBoothDefine)

/-- Entry to HELD (R51). -/
def LinkFields.hold (f : LinkFields) (t : Nat) : LinkFields :=
  { f.moved .held .hold t with resync := false, alignRun := 0, missingRun := 0, badRun := 0, heldRun := 0 }

/-- LINK_HOLD worked (R51). -/
def workLinkHold : Work := fun s n =>
  match index? 24 (s.param8 n 0) with
  | some b =>
    let was := s.booths[b].link.state
    if was = .held then (s, some (Result.doneAlready [was.code]))
    else ((s.updLink b (fun f => f.hold s.clock.run)).leave s b, some (Result.done [was.code]))
  | none => refuse s .badArgument

/-- LINK_HOLD. -/
def execLinkHold (s : State) : Host.Outcome State Fault Refusal := .next (s.runOrder (kindIs 8) workLinkHold)

/-- LINK_RELEASE worked (R52). -/
def workLinkRelease : Work := fun s n =>
  match index? 24 (s.param8 n 0) with
  | some b =>
    if s.booths[b].link.state ≠ .held then refuse s .state
    else if s.booths[b].link.definition.defined = false then refuse s .notFound
    else (s.writeBooth b (fun r => { r with link := r.link.seek .release false s.clock.run }), some (Result.done []))
  | none => refuse s .badArgument

/-- LINK_RELEASE. -/
def execLinkRelease (s : State) : Host.Outcome State Fault Refusal := .next (s.runOrder (kindIs 9) workLinkRelease)

/-- The counts of one booth cleared (R53, R55): the link's in one bracket, the ignored events in the console controller's. -/
def State.clearBooth (s : State) (b : BoothId) : State :=
  let s1 := s.writeBooth b (fun r => { r with link := r.link.count (fun _ => LinkCounts.zero) })
  s1.writeBooth b (fun r => { r with cons := { r.cons with ignored := 0 } })

/-- CLEAR_COUNTS of any group but the docks', worked (R53). -/
def workClearLinks : Work := fun s n =>
  if s.param8 n 0 ≠ 1 then refuse s .badArgument
  else if s.param8 n 1 = 255 then (s.each (List.finRange 24) State.clearBooth, some (Result.done []))
  else match index? 24 (s.param8 n 1) with
    | some b => (s.clearBooth b, some (Result.done []))
    | none => refuse s .badArgument

/-- The order at the head is a CLEAR_COUNTS for the docks (group 2). -/
def clearsDocks (s : State) (n : SlotId) : Bool := s.kindOf n == 5 && s.param8 n 0 == 2

/-- The order at the head is a CLEAR_COUNTS for the booth links, or of no group. -/
def clearsLinks (s : State) (n : SlotId) : Bool := s.kindOf n == 5 && s.param8 n 0 != 2

/-- CLEAR_COUNTS_LINKS. -/
def execClearCountsLinks (s : State) : Host.Outcome State Fault Refusal := .next (s.runOrder clearsLinks workClearLinks)

end Sys2Proof.Machine
end

