-- ==== Sys2Proof/Machine/Boundary.lean ====
section
/-!
DEFINITION. The frame boundary (R30, R56, R65 to R68, R78, R79, R82, R91, R93) and the floor input (R80).
-/
namespace Sys2Proof.Machine

/-! ## Live consoles -/

/-- What a booth's live console leaves: its turn ends HANDOVER where the claim was made by an internal acceptance, and goes to GAP else
(R56, R63, R66, R67). Where keys before the boundary have made the offerer another console than the one still live, it is the live
console's turn that ends so: the model's choice (log 13). -/
def State.quitLive (s : State) (b : BoothId) : State :=
  match s.booths[b].cons.live with
  | some m =>
    if s.inner[b].accepted then s.endTurn b m .handover
    else s.updConsole b m (fun c => c.wentQuiet s.clock.run s.timers.mergeGap)
  | none => s

/-- A booth that goes quiet at the boundary: quiet since this tick, and the outgoing offer it holds as an owner ends (R60, R85). -/
def State.goQuiet (s : State) (b : BoothId) : State :=
  let s1 := s.updCons b (fun f => { f with quietSince := s.clock.run })
  match s.offeredBy b with
  | some c => s1.updChannel c (fun r => { r with offer := none })
  | none => s1

/-- The console that becomes live: a turn in GAP goes on; one that is IDLE opens once the fed channels are known (R65, R66). -/
def ConsoleRec.resume (c : ConsoleRec) (t : Nat) : ConsoleRec :=
  { c with liveSince := t, turn := if c.turn = .gap then .running else c.turn }

/-- The live console of a booth becomes the claimed console (R56), without a bracket or lamps; one that becomes live by an internal
acceptance raises HANDOVER, whether or not another was live before it (R63). -/
def State.changeLive (s : State) (b : BoothId) : State :=
  let f := s.booths[b].cons
  let s1 := if f.live = f.claimed then s else
    let s2 := (s.quitLive b).updCons b (fun g => { g with live := f.claimed })
    match f.claimed with
    | some n =>
      let s3 := s2.updConsole b n (fun c => c.resume s.clock.run)
      if s.inner[b].accepted then s3.raise .handover else s3
    | none => s2.goQuiet b
  s1.updInner b (fun i => { i with accepted := false })

/-- A turn opens at the console of a booth that became live at this boundary with its meter IDLE (R65). -/
def State.openTurn (s old : State) (b : BoothId) : State :=
  match s.booths[b].cons.live with
  | some n =>
    if old.booths[b].cons.live ≠ some n ∧ s.booths[b].cons.each[n].turn = .idle then
      s.updConsole b n (fun c => c.opened s.clock.run (s.clock.stamp s.clock.run) s.booths[b].role.fed)
    else s
  | none => s

/-- A turn that is ON with no channel takes the channel its booth feeds (R65). -/
def ConsoleRec.takeFed (c : ConsoleRec) (fed : Option ChannelId) : ConsoleRec :=
  if c.turn = .running ∧ c.turnChannel = none then { c with turnChannel := fed } else c

/-- A console's open turn is marked relief-reached at this boundary (R68). -/
def ConsoleRec.reliefDue (c : ConsoleRec) (t limit : Nat) : Bool :=
  c.turnOpen && !c.reliefReached && decide (limit ≠ 0) && decide (secTicks limit ≤ t - c.turnStart)

/-- The relief check of a LIVE booth (R68). -/
def State.checkRelief (s : State) (b : BoothId) : State :=
  let due := fun c : ConsoleRec => c.reliefDue s.clock.run s.timers.relief
  if s.isLive b = true ∧ s.booths[b].cons.each.toList.any due = true then
    (s.updCons b (fun f => { f with each := f.each.map (fun c => if due c then { c with reliefReached := true } else c) })).raise .relief
  else s

/-- The bracket the console controller closes on a booth record: the channel-role fields are the router's. -/
def State.closeCons (s old : State) (b : BoothId) : State :=
  s.updBooth b (fun r => if r = { old.booths[b] with role := r.role, changes := r.changes } then r else r.bump)

/-- The console controller's part of a boundary after the router's report, for one booth: the turn of a console that became live,
channels for open turns, relief (R65, R68). -/
def State.meterBooth (old s : State) (b : BoothId) : State :=
  let fed := s.booths[b].role.fed
  let s1 := (s.openTurn old b).updCons b (fun f => { f with each := f.each.map (fun c => c.takeFed fed) })
  s1.checkRelief b

/-! ## Sources -/

/-- The live console of an optional booth, when its link is LIVE. -/
def State.liveOf (s : State) : Option BoothId → Option (BoothId × ConsoleId)
  | some b => if s.isLive b then s.booths[b].cons.live.map (fun n => (b, n)) else none
  | none => none

/-- The source state of a defined channel at a boundary (the table of R78). -/
def State.sourceOf (s : State) (ch : Channel) : Source :=
  let t := s.clock.run
  match ch.ownerBooth with
  | some b =>
    if s.isLive b then
      if s.booths[b].cons.live.isSome then .booth
      else if s.timers.quietHold = 0 ∨ t - s.booths[b].cons.quietSince < secTicks s.timers.quietHold then .booth
      else .quietFloor
    else if t - ch.downSince < msTicks s.timers.lossHold then .booth
    else if ch.rescue ∧ (s.liveOf ch.standbyBooth).isSome then .rescue
    else .fallback
  | none => .fallback

/-- The role to which ownership of a channel moves at this boundary: a pending move, or a WAITING scheduled handover whose two
conditions hold (R84, R87). -/
def State.moveOf (s : State) (c : ChannelId) : Option Role :=
  let ch := s.channels[c]
  match ch.move, ch.schedule with
  | some r, _ => some r
  | none, some h =>
    if h.phase = .waiting ∧ ch.pairing = .valid ∧ (s.liveOf (ch.boothOf h.target)).isSome then some h.target else none
  | none, none => none

/-- A channel record after a move of ownership (R82). -/
def Channel.movedTo (c : Channel) (r : Role) : Channel :=
  { c with owner := r, offer := none, move := none, handovers := satAdd 16 c.handovers 1 }

/-- The move of ownership of a channel, when one is due (R82, R87), without a bracket. -/
def State.moveOwner (s : State) (c : ChannelId) : State :=
  match s.moveOf c with
  | some r =>
    let s1 := (s.updChannel c (fun ch => ch.movedTo r)).raise .handover
    if s.channels[c].move = none then s1.endSchedule c .done .noReason false s.clock.run else s1
  | none => s

/-- A source that counts as a fallback (R79). -/
def Source.fellBack (x : Source) : Bool := x == .fallback || x == .rescue

/-- The source state of a channel chosen and written, with the episodes and the FALLBACK notice of R79, without a bracket. After a move to a
booth that has been quiet for the quiet hold or longer, it is R78's QUIET_FLOOR, not the BOOTH of R82: the model's choice (log 41). -/
def State.chooseSource (s : State) (c : ChannelId) : State :=
  let ch := s.channels[c]
  let new := s.sourceOf ch
  let enters := new.fellBack && new != ch.source
  let s1 := s.updChannel c (fun r => { r with source := new, episodes := if enters then satAdd 16 r.episodes 1 else r.episodes })
  if enters || (ch.source.fellBack && !new.fellBack) then s1.raise .fallback else s1

/-- One channel of 1 to 31 at a boundary: the move, then the source (R78, R82). -/
def State.routeChannel (s : State) (c : ChannelId) : State :=
  if s.channels[c].defined then (s.moveOwner c).chooseSource c else s

/-- The channel a booth feeds: as owner with source BOOTH and its link LIVE, or as standby booth with source RESCUE (R79). -/
def State.fedOf (s : State) (b : BoothId) : Option ChannelId :=
  match s.booths[b].role.named with
  | some c =>
    let ch := s.channels[c]
    if ch.defined ∧ ((ch.ownerBooth = some b ∧ s.isLive b = true ∧ ch.source = .booth) ∨ (ch.standbyBooth = some b ∧ ch.source = .rescue))
    then some c else none
  | none => none

/-- The fed channel written where it changes (R79). -/
def State.writeFed (s : State) (b : BoothId) : State :=
  s.rewriteBooth b (fun r => { r with role := { r.role with fed := s.fedOf b } })

/-- The turn that ends in the former owner booth of a channel whose ownership moved: its live console's (R67, R82). -/
def State.endFormer (before s : State) (c : ChannelId) : State :=
  if before.channels[c].defined ∧ (before.moveOf c).isSome then
    match s.liveOf before.channels[c].ownerBooth with
    | some (b, n) => s.endTurn b n .handover
    | none => s
  else s

/-! ## Audio -/

/-- The floor audio of the frame: silence while LOST (R80), the frame handed, or the free value where none was taken (log 7). -/
def State.floorAudio (s : State) : Audio :=
  if s.floor.locked then s.floor.handed.getD (Config.floorAudioNotTaken s.draws) else .silence

/-- A console's field of a booth's audio (R78), or the free value where the booth handed none for the frame (log 7). -/
def State.voice (s : State) (b : BoothId) (n : ConsoleId) : Audio :=
  match s.inner[b].handed with
  | some a => if n = 0 then a.c1 else if n = 1 then a.c2 else a.c3
  | none => Config.boothAudioNotHanded s.draws b n

/-- The live console's audio of an optional LIVE booth, silence else (R78). -/
def State.voiceOf (s : State) (b : Option BoothId) : Audio :=
  match s.liveOf b with
  | some (b, n) => s.voice b n
  | none => .silence

/-- The audio of a channel for the frame that begins at the boundary (R72, R78). -/
def State.channelAudio (s : State) (c : ChannelId) : Audio :=
  let ch := s.channels[c]
  if c = 0 then s.floorAudio
  else if ch.defined = false then .silence
  else match ch.source with
    | .booth => s.voiceOf ch.ownerBooth
    | .rescue => s.voiceOf ch.standbyBooth
    | .quietFloor | .fallback | .floor => s.floorAudio
    | .noSource => .silence

/-- The audio of every channel for the frame (R78). -/
def State.routeAudio (s : State) : State := { s with audio := Vector.ofFn s.channelAudio }

/-- The downstream frame of a booth link at a boundary (R30, R91): none while HELD. -/
def State.downFrame (s : State) (b : BoothId) : Option DownFrame :=
  let bt := s.booths[b]
  match bt.link.state with
  | .held => none
  | .live => some { intake := s.audio[bt.role.intake], lamp1 := bt.cons.each[0].lamp, lamp2 := bt.cons.each[1].lamp
                    lamp3 := bt.cons.each[2].lamp, control := .ack }
  | .seeking | .announcing | .mismatch =>
    some { intake := .silence, lamp1 := .dark, lamp2 := .dark, lamp3 := .dark, control := if bt.link.resync then .resync else .plain }

/-- What goes out at a boundary: channel audio, downstream frames, and the audio handed for the frame used up. -/
def State.sendFrames (s : State) : State :=
  let s1 := s.routeAudio
  { s1 with
    down := Vector.ofFn s1.downFrame
    inner := s1.inner.map (fun i => { i with handed := none })
    floor := { s1.floor with handed := none }
    draws := s1.draws + 1 }

/-- The distribution frame of a boundary: sent here, or left to SUPERFRAME_BOUNDARY where one falls in READY (R93, log 5). -/
def State.sendOrDue (s : State) : State :=
  if s.framer.position = 0 then { s with framer := { s.framer with due := true } } else s.sendDist

/-! ## The boundary -/

/-- All booths, in order. -/
def boothList : List BoothId := List.finRange 24

/-- The boundary worked in READY. The order of its parts, and the order in which booths and channels are worked, so that in which the TURN
records of one boundary are handed, are the model's choice (log 14). -/
def State.workBoundary (s : State) : State :=
  let s1 := s.each boothList State.changeLive
  let s2 := s1.each spokenChannels State.routeChannel
  let s3 := s2.each spokenChannels (fun x c => x.closeChannel s c)
  let s4 := s3.each boothList State.writeFed
  let s5 := s4.each boothList (State.meterBooth s)
  let s6 := s5.each spokenChannels (State.endFormer s1)
  let s7 := s6.each boothList (fun x b => (x.relight b).closeCons s b)
  s7.sendFrames.sendOrDue

/-- A frame boundary counted (R93). -/
def State.countFrame (s : State) : State := { s with framer := { s.framer with frames := s.framer.frames + 1 } }

/-- FRAME_BOUNDARY (R20, R78): worked in READY; in RESTARTING the frames go out and everything else stands; in STARTING the lines are
idle (log 24). -/
def State.frameBoundary (s : State) : State :=
  match s.part with
  | .ready => s.countFrame.workBoundary
  | .restarting => s.countFrame.sendFrames.sendDist
  | .starting => if s.resetLow then s else s.countFrame

/-- FRAME_BOUNDARY. -/
def execFrameBoundary (s : State) : Host.Outcome State Fault Refusal := .next s.frameBoundary

/-! ## The floor -/

/-- The floor input's runs and state with a floor frame or its absence (R80). -/
def Floor.take (f : Floor) : Option Audio → Floor
  | some a =>
    if f.locked then { f with missRun := 0, handed := some a }
    else if 32 ≤ f.lockRun + 1 then { f with locked := true, lockRun := 0, missRun := 0, handed := some a }
    else { f with lockRun := f.lockRun + 1, handed := some a }
  | none =>
    if f.locked then
      if 8 ≤ f.missRun + 1 then
        { f with locked := false, losses := satAdd 16 f.losses 1, lockRun := 0, missRun := 0, handed := some .silence }
      else { f with missRun := f.missRun + 1, handed := some .silence }
    else { f with lockRun := 0, handed := some .silence }

/-- FLOOR_FRAME (R20, R80): the floor state stands in channel 0's record, written in its bracket, and FLOOR is raised when it
changes. -/
def State.floorFrame (s : State) (a : Option Audio) : State :=
  if s.part ≠ .ready then s
  else
    let f := s.floor.take a
    let s1 := { s with floor := f }
    if f.locked = s.floor.locked then s1 else (s1.writeChannel 0 id).raise .floor

/-- FLOOR_FRAME. -/
def execFloorFrame (a : Option Audio) (s : State) : Host.Outcome State Fault Refusal := .next (s.floorFrame a)

end Sys2Proof.Machine
end

