-- ==== Sys2Proof/Machine/Accounts.lean ====
section
/-!
DEFINITION. The account unit (chapter 10): tariffs, the charge, the division of a charge, and SET_TARIFF and the four account orders.
The settlement of a closing hire stands with the hire in Hire.lean.
-/
namespace Sys2Proof.Machine

/-- The largest amount a 32-bit field of cents holds. -/
def maxCents : Nat := 2 ^ 32 - 1

/-- The deposit less the holds (section 10.2). -/
def Account.free (a : Account) : Nat := a.deposit - a.holds

/-! ## The charge -/

/-- The billed minutes of a duration in ticks (R155). -/
def billedMinutes (ticks : Nat) : Nat := min 65535 ((ticks / 1024 + 59) / 60)

/-- The charge of a day of `m` minutes (R156). -/
def Tariff.day (t : Tariff) (m : Nat) : Nat :=
  let step := max 1 t.stepMinutes
  let f := if m ≤ t.baseMinutes then t.baseCharge else t.baseCharge + t.stepCharge * ((m - t.baseMinutes + (step - 1)) / step)
  if 0 < t.cap ∧ t.cap < f then t.cap else f

/-- The duration charge of `m` billed minutes (R155, R156). -/
def Tariff.duration (t : Tariff) (m : Nat) : Nat :=
  if m ≤ t.grace then 0 else m / 1440 * t.day 1440 + (if 0 < m % 1440 then t.day (m % 1440) else 0)

/-- The charge of `m` billed minutes with a close cause (R156). -/
def Tariff.charge (t : Tariff) (m : Nat) (cause : CloseCause) : Nat :=
  t.duration m + (if cause = .lost then t.lossFee else 0)

/-- What a charge takes from the deposit: at most the free deposit (R158). -/
def Account.takes (a : Account) (charge : Nat) : Nat := min charge a.free

/-- What a charge adds to owed: the rest, as far as owed has room (R158). -/
def Account.adds (a : Account) (charge : Nat) : Nat := min (charge - a.takes charge) (maxCents - a.owed)

/-- The account with a charge divided between deposit and owed; an ACTIVE account left owing becomes HELD (R158, R159). -/
def Account.settle (a : Account) (charge : Nat) : Account :=
  { a with
    deposit := a.deposit - a.takes charge, owed := a.owed + a.adds charge
    charged := satAdd 48 a.charged (a.takes charge + a.adds charge)
    state := if a.state = .active ∧ 0 < a.owed + a.adds charge then .held else a.state }

/-- A hold reserved for a hire that is created (R151). -/
def Account.reserve (a : Account) (hold : Nat) : Account := { a with holds := a.holds + hold, count := a.count + 1 }

/-- A hire's hold released (R151). -/
def Account.release (a : Account) (hold : Nat) : Account := { a with holds := a.holds - hold, count := a.count - 1 }

/-! ## Tariffs -/

/-- The tariff entry a SET_TARIFF carries, each value brought into its range, and whether one had to be (R148). -/
def State.tariffParams (s : State) (n : SlotId) : Tariff × Bool :=
  let v := fun i => s.paramLE n (2 + 2 * i) 2
  let grace := clampTo 0 60 (v 0)
  let base := clampTo 1 1440 (v 1)
  let step := clampTo 1 240 (v 3)
  ({ changes := 0, grace := grace.1, baseMinutes := base.1, baseCharge := v 2, stepMinutes := step.1, stepCharge := v 4, cap := v 5
     hold := v 6, lossFee := v 7 }, grace.2 || base.2 || step.2)

/-- SET_TARIFF worked (R148). -/
def workSetTariff : Work := fun s n =>
  match index? 4 (s.param8 n 0) with
  | some k => (s.writeTariff k (fun _ => (s.tariffParams n).1), some (Result.doneClamped (s.tariffParams n).2 []))
  | none => refuse s .badArgument

/-- SET_TARIFF. -/
def execSetTariff (s : State) : Host.Outcome State Fault Refusal := .next (s.runOrder (kindIs 20) workSetTariff)

/-! ## Account orders -/

/-- The account an order names in parameter bytes 0 and 1. -/
def State.paramAccount (s : State) (n : SlotId) : Option AcctId := index? 512 (s.paramLE n 0 2)

/-- The record an ACCOUNT_OPEN writes (R150). -/
def Account.opened (a : Account) (holder : BitVec 32) (tariff : TariffId) (limit payment : Nat) : Account :=
  { changes := a.changes, state := .active, holder := holder, tariff := tariff, limit := limit, deposit := payment, holds := 0, owed := 0
    count := 0, paid := payment, charged := 0, refunded := 0 }

/-- ACCOUNT_OPEN worked (R150). -/
def workAccountOpen : Work := fun s n =>
  match s.paramAccount n, index? 4 (s.param8 n 6) with
  | some a, some k =>
    let limit := if s.param8 n 7 = 0 then (2, false) else clampTo 1 8 (s.param8 n 7)
    if s.accounts[a].state ≠ .free then refuse s .state
    else
      (s.writeAccount a (fun r => r.opened (BitVec.ofNat 32 (s.paramLE n 2 4)) k limit.1 (s.paramLE n 8 4)),
       some (Result.doneClamped limit.2 (leBytes 1 limit.1)))
  | _, _ => refuse s .badArgument

/-- ACCOUNT_OPEN. -/
def execAccountOpen (s : State) : Host.Outcome State Fault Refusal := .next (s.runOrder (kindIs 21) workAccountOpen)

/-- The part of a payment that goes to owed (R152). -/
def Account.toOwed (a : Account) (amount : Nat) : Nat := min amount a.owed

/-- The part of a payment that goes to the deposit (R152). -/
def Account.toDeposit (a : Account) (amount : Nat) : Nat := min (amount - a.toOwed amount) (maxCents - a.deposit)

/-- The account after a payment (R152). -/
def Account.pay (a : Account) (amount : Nat) : Account :=
  { a with
    owed := a.owed - a.toOwed amount, deposit := a.deposit + a.toDeposit amount
    paid := satAdd 48 a.paid (a.toOwed amount + a.toDeposit amount)
    state := if a.state = .held ∧ 0 < a.owed ∧ a.owed - a.toOwed amount = 0 then .active else a.state }

/-- ACCOUNT_PAY worked (R152). -/
def workAccountPay : Work := fun s n =>
  match s.paramAccount n with
  | some a =>
    let r := s.accounts[a]
    let amount := s.paramLE n 2 4
    if r.state = .free then refuse s .notFound
    else
      (s.rewriteAccount a (fun r => r.pay amount),
       some (Result.doneClamped (decide (r.toDeposit amount < amount - r.toOwed amount))
         (leBytes 4 (r.toOwed amount) ++ leBytes 4 (r.toDeposit amount) ++ leBytes 4 (r.owed - r.toOwed amount))))
  | none => refuse s .badArgument

/-- ACCOUNT_PAY. -/
def execAccountPay (s : State) : Host.Outcome State Fault Refusal := .next (s.runOrder (kindIs 22) workAccountPay)

/-- The account after an amount is paid out (R153). -/
def Account.refund (a : Account) (paidOut : Nat) : Account :=
  { a with deposit := a.deposit - paidOut, refunded := satAdd 48 a.refunded paidOut }

/-- ACCOUNT_REFUND worked (R153). -/
def workAccountRefund : Work := fun s n =>
  match s.paramAccount n with
  | some a =>
    let r := s.accounts[a]
    let amount := s.paramLE n 2 4
    let out := min amount r.free
    if r.state = .free then refuse s .notFound
    else if r.state = .held then refuse s .accountHeld
    else
      (s.rewriteAccount a (fun r => r.refund out),
       some (Result.doneClamped (decide (r.free < amount)) (leBytes 4 out ++ leBytes 4 (r.deposit - out))))
  | none => refuse s .badArgument

/-- ACCOUNT_REFUND. -/
def execAccountRefund (s : State) : Host.Outcome State Fault Refusal := .next (s.runOrder (kindIs 23) workAccountRefund)

/-- The account after ACCOUNT_CLOSE: the whole deposit refunded, and FREE (R154). -/
def Account.closed (a : Account) : Account := { a.refund a.deposit with state := .free }

/-- The ACCOUNT_CLOSED record of an account about to close (R154). -/
def Account.closeRecord (r : Account) (a : AcctId) : AccountClosed :=
  { account := a, holder := r.holder, paid := r.paid, charged := r.charged, refunded := satAdd 48 r.refunded r.deposit
    refund := r.deposit }

/-- ACCOUNT_CLOSE worked (R154). -/
def workAccountClose : Work := fun s n =>
  match s.paramAccount n with
  | some a =>
    let r := s.accounts[a]
    if r.state = .free then refuse s .notFound
    else if 0 < r.count ∨ 0 < r.owed then refuse s .state
    else if s.logBlocked then refuse s .logFull
    else
      ((s.writeAccount a Account.closed).writeTally (.accountClosed (r.closeRecord a)), some (Result.done (leBytes 4 r.deposit)))
  | none => refuse s .badArgument

/-- ACCOUNT_CLOSE. -/
def execAccountClose (s : State) : Host.Outcome State Fault Refusal := .next (s.runOrder (kindIs 24) workAccountClose)

end Sys2Proof.Machine
end

