-- ==== Sys2Proof/Machine/Hire.lean ====
section
/-!
DEFINITION. The hire unit (chapter 8) and the settlement of a closing hire (section 10.7): ISSUE, reservations and their ends, openings,
returns, and DECLARE_LOST.
-/
namespace Sys2Proof.Machine

/-- The bracket closed on an account record worked on since `old` (R3). -/
def State.closeAccount (s old : State) (a : AcctId) : State :=
  s.updAccount a (fun r => if r = old.accounts[a] then r else r.bump)

/-- The result values of an ISSUE that passed its checks (R122). -/
def State.issueValues (s : State) (h : HireId) : List Byte :=
  let e := s.hires[h].receiver
  leBytes 4 s.hires[h].number.toNat ++ leBytes 2 h.val ++ leBytes 3 s.receivers[e].serial.toNat
    ++ leBytes 1 s.receivers[e].preset.val ++ leBytes 2 e.val

/-- A result of an ISSUE that passed its checks (R122). -/
def State.issueResult (s : State) (h : HireId) (code : ResultCode) (reason : Reason) : Result :=
  { code := code, reason := reason, clamped := false, already := false, values := s.issueValues h }

/-! ## The ends of a reservation -/

/-- The preset that waits at a position is dropped; one that has gone down in the poll on the bus is not (R114, log 18). -/
def State.dropWaiting (s : State) (p : PosId) : State := s.setPreset p (s.presets[p].filter (fun x => x.sent))

/-- The preset waiting at the position of an entry is withdrawn (R114, R125); one that is down in the outstanding poll stays, and waits
again if that poll goes unanswered (log 18). -/
def State.withdrawPreset (s : State) (e : RecvId) : State :=
  match s.posHolding e with
  | some p => s.dropWaiting p
  | none => s

/-- The lamp of the position that holds an entry recomputed (R113). -/
def State.relampHolder (s : State) (e : RecvId) : State :=
  match s.posHolding e with
  | some p => s.relampPos p
  | none => s

/-- The piece of work that ends a reservation without opening (R125); the account's bracket is the caller's. -/
def State.dropReservation (s : State) (h : HireId) (code : ResultCode) (reason : Reason) : State :=
  let r := s.hires[h]
  let s1 := (s.updAccount r.account (fun a => a.release r.hold)).withdrawPreset r.receiver
  let s2 := s1.writeReceiver r.receiver (fun e => { e with state := .docked, hire := none })
  let s3 := (s2.relampHolder r.receiver).writeHire h (fun x => { x with state := .free })
  s3.endOwner (.issue h) (s3.issueResult h code reason)

/-- A reservation ended without opening (R125). -/
def State.endReservation (s : State) (h : HireId) (code : ResultCode) (reason : Reason) : State :=
  (s.dropReservation h code reason).closeAccount s s.hires[h].account

/-- The RESERVING hires of an account end REFUSED with ACCOUNT_HELD, in index order; the account's bracket is the caller's
(R130, R159). -/
def State.dropReservations (s : State) (a : AcctId) : State :=
  s.each (tblAll s.hires (fun r => r.state == .reserving && r.account == a))
    (fun s h => s.dropReservation h .refused .accountHeld)

/-! ## Opening and closing -/

/-- The effective removal, dated `t`, of a RESERVED entry opens its hire (R126). -/
def State.openHire (s : State) (e : RecvId) (t : Nat) : State :=
  match s.receivers[e].hire with
  | some h =>
    let stamp := s.clock.stamp t
    let s1 := s.writeHire h (fun r => { r with state := .opened, startTick := t, start := stamp.1, clockUnset := stamp.2 })
    let s2 := s1.writeReceiver e (fun r =>
      { r with state := .onHire, lastHeard := t, heard := none, counted := none, hires := satAdd 16 r.hires 1 })
    s2.endOwner (.issue h) (s2.issueResult h .done .noReason)
  | none => s

/-- The HIRE_CLOSED record of a settled hire (R135). -/
def State.hireRecord (s : State) (h : HireId) : HireClosed :=
  let r := s.hires[h]
  { number := r.number, account := r.account, adopted := r.adopted, clockSet := r.clockSet, presetFailed := r.presetFailed
    clockUnset := r.clockUnset, holder := s.accounts[r.account].holder, serial := s.receivers[r.receiver].serial, cause := r.cause
    start := r.start, finish := r.finish, billed := r.billed, charge := r.charge, taken := r.taken, added := r.added }

/-- The account unit's settlement of a closed hire (R157). -/
def State.settleHire (s : State) (h : HireId) : State :=
  let r := s.hires[h]
  let s1 := s.updAccount r.account (fun a => a.release r.hold)
  let a := s1.accounts[r.account]
  let minutes := billedMinutes (r.endTick - r.startTick)
  let charge := s.tariffs[r.tariff].charge minutes r.cause
  let s2 := s1.updAccount r.account (fun a => a.settle charge)
  let s3 := if a.state = .active ∧ 0 < a.owed + a.adds charge then s2.dropReservations r.account else s2
  let s4 := (s3.updAccount r.account Account.bump).writeHire h (fun x =>
    { x with billed := minutes, charge := charge, taken := a.takes charge, added := a.adds charge })
  let s5 := if 0 < a.adds charge then s4.raise .account else s4
  s5.handTally (.hire h) (.hireClosed (s5.hireRecord h))

/-- An OPEN hire closes at run tick `t` (R133, R134, R135): its end fields and state in the hire unit's bracket, then the settlement. -/
def State.closeHire (s : State) (h : HireId) (t : Nat) (cause : CloseCause) : State :=
  let stamp := s.clock.stamp t
  let s1 := s.writeHire h (fun r =>
    { r with
      state := if s.logBlocked then .closedWaiting else .free, endTick := t, finish := stamp.1, cause := cause
      clockUnset := r.clockUnset || stamp.2 })
  s1.settleHire h

/-- The hire of a receiver put back into a rack closes RETURNED (R133). -/
def State.returnHire (s : State) (h : Option HireId) (t : Nat) : State :=
  match h with
  | some h => if s.hires[h].state = .opened then s.closeHire h t .returned else s
  | none => s

/-! ## ISSUE -/

/-- An ISSUE's parameters (R121). -/
structure IssueParams where
  account : AcctId
  serial : Serial
  preset : ChannelId
  deriving DecidableEq, Repr

/-- The parameters of ISSUE, or none where it is refused BAD_ARGUMENT (R121). -/
def State.issueParams (s : State) (n : SlotId) : Option IssueParams :=
  match s.paramAccount n, index? 32 (s.param8 n 5) with
  | some a, some c => some { account := a, serial := BitVec.ofNat 24 (s.paramLE n 2 3), preset := c }
  | _, _ => none

/-- The entry that holds a serial (R110). -/
def State.entryOf (s : State) (serial : Serial) : Option RecvId :=
  if serial = 0 then none else tblFind s.receivers (fun r => r.serial == serial)

/-- The battery of the qualifying receiver at a position, if it holds one (R115). -/
def State.qualifies (s : State) (p : PosId) : Option (Nat × RecvId) :=
  match s.positions[p].state, s.positions[p].entry with
  | .occupied, some e =>
    let r := s.receivers[e]
    if r.state = .docked ∧ s.timers.battery ≤ r.battery.toNat then some (r.battery.toNat, e) else none
  | _, _ => none

/-- The first of a list with the greatest battery. -/
def bestOf : List (Nat × RecvId) → Option (Nat × RecvId)
  | [] => none
  | x :: xs => match bestOf xs with
    | some y => if x.1 < y.1 then some y else some x
    | none => some x

/-- The dock interface's choice of a receiver: the highest battery, and of several the lowest position index (R115). -/
def State.chooseReceiver (s : State) : Option RecvId :=
  (bestOf ((List.finRange 320).filterMap s.qualifies)).map Prod.snd

/-- A named receiver passes the check of R121. -/
def State.issuable (s : State) (e : RecvId) : Bool :=
  let r := s.receivers[e]
  r.state == .adrift ||
    (r.state == .docked && decide (s.timers.battery ≤ r.battery.toNat)
      && (match s.posHolding e with | some p => s.positions[p].state != .fault | none => true))

/-- The receiver an ISSUE gets, or none for NO_RECEIVER (R121, R122). -/
def State.issueReceiver (s : State) (serial : Serial) : Option RecvId :=
  if serial = 0 then s.chooseReceiver
  else match s.entryOf serial with
    | some e => if s.issuable e then some e else none
    | none => none

/-- The settled preset channel: one that is not defined or not on air is replaced by 0 (R122). -/
def State.settlePreset (s : State) (c : ChannelId) : ChannelId × Bool :=
  if c = 0 then (0, false)
  else if s.channels[c].defined && s.channels[c].onAir then (c, false) else (0, true)

/-- The number after a hire number (R119). -/
def nextHireNumber (n : BitVec 32) : BitVec 32 := if n = 0xFFFFFFFF then 1 else n + 1

/-- The fields every new hire record has (R123, R124). That deadline passed is clear and the settlement fields are 0 R123 states of a
reservation; for an adoption they are the model's choice (log 42). -/
def Hire.created (number : BitVec 32) (a : AcctId) (e : RecvId) (tariff : TariffId) (hold : Nat) : Hire :=
  { Hire.zero with number := number, account := a, receiver := e, tariff := tariff, hold := hold }

/-- The hire record, its number and the account's hold taken for a hire that is created (R119, R122, R151). -/
def State.createHire (s : State) (h : HireId) (x : Hire) : State :=
  let s1 := s.writeHire h (fun r => { x with changes := r.changes })
  let s2 := { s1 with nextHire := nextHireNumber s.nextHire }
  s2.writeAccount x.account (fun a => a.reserve x.hold)

/-- A preset requested for the position that holds an entry (R114). -/
def State.requestPreset (s : State) (e : RecvId) (c : ChannelId) : State :=
  match s.posHolding e with
  | some p => s.setPreset p (some { entry := e, channel := c, sent := false })
  | none => s

/-- A reservation (R123): the hire RESERVING, the entry RESERVED, the lamp, the preset, and the ISSUE standing. -/
def State.reserve (s : State) (n : SlotId) (h : HireId) (x : Hire) (preset : ChannelId) (clamped : Bool) : State :=
  let s1 := s.createHire h { x with
    state := .reserving, slot := n, deadline := s.clock.run + secTicks s.timers.reservation }
  let s2 := s1.writeReceiver x.receiver (fun r => { r with state := .reserved, hire := some h, preset := preset })
  ((s2.relampHolder x.receiver).requestPreset x.receiver preset).makeStanding n (.issue h) clamped

/-- An adoption (R124): the hire OPEN at once, the entry ON_HIRE. -/
def State.adopt (s : State) (h : HireId) (x : Hire) (preset : ChannelId) : State :=
  let stamp := s.clock.stamp s.clock.run
  let s1 := s.createHire h { x with
    state := .opened, startTick := s.clock.run, start := stamp.1, adopted := true, clockUnset := stamp.2 }
  s1.writeReceiver x.receiver (fun r =>
    { r with state := .onHire, hire := some h, preset := preset, lastHeard := s.clock.run, hires := satAdd 16 r.hires 1 })

/-- An ISSUE that passes its checks (R122). -/
def State.issue (s : State) (n : SlotId) (p : IssueParams) (h : HireId) (e : RecvId) : State × Option Result :=
  let a := s.accounts[p.account]
  let x := Hire.created s.nextHire p.account e a.tariff s.tariffs[a.tariff].hold
  let preset := s.settlePreset p.preset
  if s.receivers[e].state = .adrift then
    let s1 := s.adopt h x preset.1
    (s1, some { s1.issueResult h .done .noReason with clamped := preset.2 })
  else (s.reserve n h x preset.1 preset.2, none)

/-- ISSUE worked (R121, R122). -/
def workIssue : Work := fun s n =>
  match s.issueParams n with
  | none => refuse s .badArgument
  | some p =>
    let a := s.accounts[p.account]
    if s.clock.valid = false then refuse s .clockUnset
    else if a.state = .free then refuse s .notFound
    else if a.state = .held then refuse s .accountHeld
    else if a.count = a.limit then refuse s .limit
    else if a.free < s.tariffs[a.tariff].hold then refuse s .limit
    else match tblFind s.hires (fun r => r.state == .free), s.issueReceiver p.serial with
      | none, _ => refuse s .tableFull
      | some _, none => refuse s .noReceiver
      | some h, some e => s.issue n p h e

/-- ISSUE. -/
def execIssue (s : State) : Host.Outcome State Fault Refusal := .next (s.runOrder (kindIs 16) workIssue)

/-! ## DECLARE_LOST and the reserve deadline -/

/-- The record, not FREE, that holds a hire number (R134). After the counter has gone round (R119) two may hold one number; the lowest
record index is then the model's choice (log 36). -/
def State.hireOf (s : State) (number : BitVec 32) : Option HireId :=
  tblFind s.hires (fun r => r.state != .free && r.number == number)

/-- An OPEN hire declared lost (R134). -/
def State.declareLost (s : State) (h : HireId) : State :=
  let r := s.hires[h]
  let s1 := s.writeReceiver r.receiver (fun e =>
    { e with state := .lost, hire := none, lostHire := r.number, foundBy := .nobody, counted := none })
  s1.closeHire h s.clock.run .lost

/-- DECLARE_LOST worked (R134). -/
def workDeclareLost : Work := fun s n =>
  let number := BitVec.ofNat 32 (s.paramLE n 0 4)
  if number = 0 then refuse s .badArgument
  else match s.hireOf number with
    | none => refuse s .notFound
    | some h =>
      if s.hires[h].state ≠ .opened then refuse s .state
      else
        let s1 := s.declareLost h
        let r := s1.hires[h]
        (s1, some (Result.done (leBytes 4 r.charge ++ leBytes 4 r.taken ++ leBytes 4 r.added)))

/-- DECLARE_LOST. -/
def execDeclareLost (s : State) : Host.Outcome State Fault Refusal := .next (s.runOrder (kindIs 17) workDeclareLost)

/-- The position that holds an entry is SETTLING_OUT (R127). -/
def State.settling (s : State) (e : RecvId) : Bool :=
  match s.posHolding e with
  | some p => s.positions[p].state == .settlingOut
  | none => false

/-- The reserve deadline of a RESERVING hire expires (R127). -/
def State.reserveExpiry (s : State) (h : HireId) : State :=
  let r := s.hires[h]
  if s.part = .ready ∧ r.state = .reserving ∧ r.passed = false ∧ r.deadline ≤ s.clock.run then
    if s.settling r.receiver then s.writeHire h (fun x => { x with passed := true }) else s.endReservation h .expired .noReason
  else s

/-- RESERVE_DEADLINE_EXPIRY. -/
def execReserveDeadlineExpiry (h : HireId) (s : State) : Host.Outcome State Fault Refusal := .next (s.reserveExpiry h)

end Sys2Proof.Machine
end

