-- ==== Sys2Proof/Machine/Docks.lean ====
section
/-!
DEFINITION. The dock interface and the receiver table unit (chapter 7): removals, insertions, the settle filter, the poll cycle, rack
faults and inventories, RETIRE_RECEIVER, RESTORE_RECEIVER and the docks' group of CLEAR_COUNTS.
-/
namespace Sys2Proof.Machine

/-- The index of a position: rack × 40 + position (section 7.1). -/
def posIndex (r : RackId) (k : PlaceId) : PosId := ⟨r.val * 40 + k.val, by omega⟩

/-- The rack a position stands in. -/
def rackOf (p : PosId) : RackId := ⟨p.val / 40, by omega⟩

/-- The 40 positions of a rack, in order. -/
def rackPositions (r : RackId) : List PosId := (List.finRange 40).map (posIndex r)

/-! ## Removals -/

/-- A removal of what position `p` holds takes effect, dated `t` (R112); a preset still waiting there is dropped (R114). `keepFault`: a
FAULT position stays FAULT (R111 step 2). -/
def State.removal (s : State) (p : PosId) (t : Nat) (keepFault : Bool) : State :=
  let pos := s.positions[p]
  let s1 := (s.writePosition p (fun r =>
    { r with
      state := if keepFault && r.state == .fault then .fault else .empty, entry := none, lamp := .dark
      removals := satAdd 16 r.removals 1 })).dropWaiting p
  match pos.entry with
  | none => s1
  | some e =>
    match s.receivers[e].state with
    | .docked => (s1.writeReceiver e (fun r => { r with state := .adrift })).raise .dock
    | .reserved => s1.openHire e t
    | .retired => s1.writeReceiver e (fun r => { r with dock := none })
    | .unenrolled | .onHire | .silent | .adrift | .lost => s1

/-- A REMOVE taken at a position (R108). -/
def State.takeRemove (s : State) (p : PosId) : State :=
  let t := s.clock.run
  let pos := s.positions[p]
  match pos.state, pos.entry with
  | .occupied, some _ =>
    let s1 := s.writePosition p (fun r =>
      { r with state := .settlingOut, rawRemoval := t, settleDeadline := t + msTicks s.timers.settle, lamp := .dark })
    if s.timers.settle = 0 then s1.removal p t false else s1
  | .occupied, none =>
    s.writePosition p (fun r => { r with state := .empty, lamp := .dark, removals := satAdd 16 r.removals 1 })
  | _, _ => s

/-- The settle deadline of a position expires (R109). -/
def State.settleExpiry (s : State) (p : PosId) : State :=
  let pos := s.positions[p]
  if s.part = .ready ∧ pos.state = .settlingOut ∧ pos.settleDeadline ≤ s.clock.run then s.removal p pos.rawRemoval false else s

/-- SETTLE_DEADLINE_EXPIRY. -/
def execSettleDeadlineExpiry (p : PosId) (s : State) : Host.Outcome State Fault Refusal := .next (s.settleExpiry p)

/-! ## Insertions -/

/-- A battery level written into an entry, and the lamp of its position recomputed (R105, R109, R111). -/
def State.writeBattery (s : State) (p : PosId) (e : RecvId) (battery : BitVec 4) : State :=
  (s.rewriteReceiver e (fun r => { r with battery := battery })).relampPos p

/-- A reseat (R109): the position is OCCUPIED again; a reservation whose deadline has passed ends EXPIRED (R127). The lamp is recomputed at
both, so that of a reservation that ends is ISSUE between: with its brackets the model's choice (log 8). -/
def State.reseat (s : State) (p : PosId) (e : RecvId) (battery : BitVec 4) : State :=
  let s1 := (s.writePosition p (fun r => { r with state := .occupied })).writeBattery p e battery
  match s1.receivers[e].hire with
  | some h =>
    if s1.receivers[e].state = .reserved ∧ s1.hires[h].state = .reserving ∧ s1.hires[h].passed = true then
      s1.endReservation h .expired .noReason
    else s1
  | none => s1

/-- The RECEIVER_FOUND record of an entry (R111, R141). -/
def State.foundRecord (s : State) (e : RecvId) (place : FoundWhere) : ReceiverFound :=
  let stamp := s.clock.stamp s.clock.run
  { serial := s.receivers[e].serial, place := place, hire := s.receivers[e].lostHire, found := stamp.1, clockUnset := stamp.2 }

/-- A finding of a LOST entry reported: a record is handed unless an earlier one still waits, and found-pending is set while the new one
waits (R111, R141, R165). `wasWaiting` is the flag before the finding. -/
def State.handFound (s : State) (e : RecvId) (place : FoundWhere) (wasWaiting : Bool) : State :=
  if wasWaiting then s else s.handTally (.receiver e) (.receiverFound (s.foundRecord e place))

/-- The entry of a receiver taken in at a position (R111 step 3). -/
def Receiver.inserted (r : Receiver) (p : PosId) (battery : BitVec 4) (waits : Bool) : Receiver :=
  let r1 := { r with dock := some p, battery := battery }
  match r.state with
  | .adrift => { r1 with state := .docked, heard := none, counted := none }
  | .onHire | .silent => { r1 with state := .docked, heard := none, counted := none, hire := none }
  | .lost => { r1 with
      state := .docked, heard := none, counted := none, foundBy := .dock, foundWaiting := r.foundWaiting || waits }
  | .unenrolled | .docked | .reserved | .retired => r1

/-- What follows the insertion of an entry in the state it had before: a return, or a finding (R111 step 3, R133). -/
def State.afterInsertion (s : State) (e : RecvId) (was : Receiver) : State :=
  match was.state with
  | .onHire | .silent => s.returnHire was.hire s.clock.run
  | .lost => (s.raise .dock).handFound e .dock was.foundWaiting
  | .unenrolled | .docked | .reserved | .adrift | .retired => s

/-- The entry an enrolment writes (R110). -/
def Receiver.enrolled (r : Receiver) (serial : Serial) (p : PosId) (battery : BitVec 4) : Receiver :=
  { changes := r.changes, serial := serial, state := .docked, dock := some p, battery := battery, hire := none, lostHire := 0, preset := 0
    heard := none, lastHeard := 0, lastSequence := 0, counted := none, foundBy := .nobody, foundWaiting := false, hires := 0 }

/-- Position `p` becomes OCCUPIED with an insertion counted (R111 step 3). -/
def State.occupy (s : State) (p : PosId) (entry : Option RecvId) : State :=
  s.writePosition p (fun r =>
    { r with
      state := .occupied, entry := entry, insertions := satAdd 16 r.insertions 1
      lamp := if entry.isNone then .error else r.lamp })

/-- The insertion taken at a cleared position (R111 step 3, R110). The entry's bracket opens where no field of it changes too (a RETIRED one
back at its last position with the same battery): the model's choice (log 8). -/
def State.takeInsertion (s : State) (p : PosId) (serial : Serial) (battery : BitVec 4) : State :=
  match s.entryOf serial with
  | some e =>
    let was := s.receivers[e]
    let s1 := (s.occupy p (some e)).writeReceiver e (fun r => r.inserted p battery s.logBlocked)
    (s1.afterInsertion e was).relampPos p
  | none =>
    match tblFind s.receivers (fun r => r.serial == 0) with
    | some e => ((s.occupy p (some e)).writeReceiver e (fun r => r.enrolled serial p battery)).relampPos p
    | none => (s.occupy p none).raise .dock

/-- The entry's receiver has appeared at `p` before another position reported it gone (R111 step 2). -/
def State.clearElsewhere (s : State) (serial : Serial) : State :=
  match (s.entryOf serial).bind s.posHolding with
  | some q =>
    let pos := s.positions[q]
    s.removal q (if pos.state = .settlingOut then pos.rawRemoval else s.clock.run) true
  | none => s

/-- Steps 2 and 3 of R111. -/
def State.insertAt (s : State) (p : PosId) (serial : Serial) (battery : BitVec 4) : State :=
  (s.clearElsewhere serial).takeInsertion p serial battery

/-- An INSERT taken at a position (R109, R111). -/
def State.takeInsert (s : State) (p : PosId) (serial : Serial) (battery : BitVec 4) : State :=
  let pos := s.positions[p]
  match pos.state, pos.entry with
  | .settlingOut, some e =>
    if s.receivers[e].serial = serial then s.reseat p e battery
    else (s.removal p pos.rawRemoval false).insertAt p serial battery
  | .occupied, some e =>
    if s.receivers[e].serial = serial then s.writeBattery p e battery
    else (s.removal p s.clock.run false).insertAt p serial battery
  | .occupied, none =>
    (s.writePosition p (fun r => { r with removals := satAdd 16 r.removals 1 })).insertAt p serial battery
  | _, _ => s.insertAt p serial battery

/-! ## The poll cycle -/

/-- The presets waiting at a rack's positions (R114). -/
def State.presetsOf (s : State) (r : RackId) : List (PosId × RecvId × ChannelId) :=
  (rackPositions r).filterMap (fun p => s.presets[p].map (fun x => (p, x.entry, x.channel)))

/-- The presets waiting at a rack's positions, changed. -/
def State.updPresets (s : State) (r : RackId) (f : Preset → Option Preset) : State :=
  s.each (rackPositions r) (fun s p => s.setPreset p (s.presets[p].bind f))

/-- POLL_SEND (R104): the next rack in turn is polled, when the bus is free. -/
def State.sendPoll (s : State) : State :=
  if s.part = .ready ∧ s.bus.poll = none then
    let r := s.bus.next
    let poll : Poll := { rack := r, inventory := s.racks[r].state != .online
                         lamps := Vector.ofFn (fun k : PlaceId => s.positions[posIndex r k].lamp), presets := s.presetsOf r }
    ({ s with bus := { next := r + 1, poll := some poll } }).updPresets r (fun x => some { x with sent := true })
  else s

/-- POLL_SEND. -/
def execPollSend (s : State) : Host.Outcome State Fault Refusal := .next s.sendPoll

/-- The bus is free again. -/
def State.endPoll (s : State) : State := { s with bus := { s.bus with poll := none } }

/-- One change of an answer (R105); a position above 39 or a serial of 0 is discarded. -/
def State.takeChange (r : RackId) (s : State) : DockChange → State
  | .insert k serial battery =>
    match index? 40 k.toNat with
    | some k => if serial = 0 then s else s.takeInsert (posIndex r k) serial battery
    | none => s
  | .remove k =>
    match index? 40 k.toNat with
    | some k => s.takeRemove (posIndex r k)
    | none => s

/-- One battery report of an answer (R105). -/
def State.takeReport (r : RackId) (s : State) (x : BatteryReport) : State :=
  match index? 40 x.position.toNat with
  | some k =>
    let p := posIndex r k
    match s.positions[p].state, s.positions[p].entry with
    | .occupied, some e => s.writeBattery p e x.level
    | _, _ => s
  | none => s

/-- A preset result handed to the hire unit, naming the entry (R132). -/
def State.presetResult (s : State) (e : RecvId) (delivered : Bool) : State :=
  match s.receivers[e].hire with
  | some h =>
    if delivered = false ∧ (s.hires[h].state = .reserving ∨ s.hires[h].state = .opened) then
      s.writeHire h (fun r => { r with presetFailed := true })
    else s
  | none => s

/-- One preset result of an answer: it belongs to a preset that went down in the poll, or is discarded (R114, log 18). -/
def State.takeResult (poll : Poll) (s : State) (x : PresetResult) : State :=
  match index? 40 x.position.toNat with
  | some k =>
    match poll.presets.find? (fun y => y.1 = posIndex poll.rack k) with
    | some y => s.presetResult y.2.1 x.delivered
    | none => s
  | none => s

/-- The answer of an ONLINE rack worked: changes, battery reports, preset results, in order (R104, R105). -/
def State.workAnswer (s : State) (poll : Poll) (a : RackAnswer) : State :=
  let s1 := s.endPoll.setRack poll.rack { state := .online, unanswered := 0 }
  let s2 := s1.updPresets poll.rack (fun x => if x.sent then none else some x)
  let s3 := a.changes.foldl (State.takeChange poll.rack) s2
  let s4 := a.reports.foldl (State.takeReport poll.rack) s3
  a.results.foldl (State.takeResult poll) s4

/-- RACK_ANSWER (R104, R105): the answer of the ONLINE rack whose poll is outstanding. -/
def State.rackAnswer (s : State) (a : RackAnswer) : State :=
  match s.bus.poll with
  | some poll => if s.part = .ready ∧ poll.inventory = false then s.workAnswer poll a else s
  | none => s

/-- RACK_ANSWER. -/
def execRackAnswer (a : RackAnswer) (s : State) : Host.Outcome State Fault Refusal := .next (s.rackAnswer a)

/-- An inventory's item with a serial of 0 is read as empty (R107). -/
def readItem : Option InventoryItem → Option InventoryItem
  | some i => if i.serial = 0 then none else some i
  | none => none

/-- One position reconciled with an inventory (the table of R107). -/
def State.reconcile (s : State) (p : PosId) (item : Option InventoryItem) : State :=
  let pos := s.positions[p]
  match pos.state, pos.entry, readItem item with
  | .fault, some e, some i =>
    if s.receivers[e].serial = i.serial then
      (s.writePosition p (fun r => { r with state := .occupied })).writeBattery p e i.battery
    else (s.removal p s.clock.run false).insertAt p i.serial i.battery
  | .fault, some _, none => s.removal p s.clock.run false
  | .fault, none, none => s.writePosition p (fun r => { r with state := .empty })
  | _, _, some i => s.takeInsert p i.serial i.battery
  | _, _, none => s

/-- An inventory worked: the positions in order, then the rack ONLINE, and DOCK for one that was FAULT (R107). -/
def State.workInventory (s : State) (poll : Poll) (inv : Inventory) : State :=
  let was := s.racks[poll.rack].state
  let s1 := s.endPoll.updPresets poll.rack (fun x => if x.sent then none else some x)
  let s2 := s1.each (List.finRange 40) (fun s k => s.reconcile (posIndex poll.rack k) inv[k])
  let s3 := s2.setRack poll.rack { state := .online, unanswered := 0 }
  if was = .fault then s3.raise .dock else s3

/-- INVENTORY_ANSWER (R104, R107): the answer to the outstanding poll that asked for an inventory. -/
def State.inventoryAnswer (s : State) (inv : Inventory) : State :=
  match s.bus.poll with
  | some poll => if s.part = .ready ∧ poll.inventory = true then s.workInventory poll inv else s
  | none => s

/-- INVENTORY_ANSWER. -/
def execInventoryAnswer (inv : Inventory) (s : State) : Host.Outcome State Fault Refusal := .next (s.inventoryAnswer inv)

/-- The reservation of the entry a failed rack's position holds ends FAILED (R106, R129). -/
def State.failReservation (s : State) (p : PosId) : State :=
  match s.positions[p].entry with
  | some e =>
    match s.receivers[e].state, s.receivers[e].hire with
    | .reserved, some h => s.endReservation h .failed .dockFault
    | _, _ => s
  | none => s

/-- An ONLINE rack fails (R106): its positions, its presets, DOCK, then its reservations. -/
def State.rackFault (s : State) (r : RackId) : State :=
  let s1 := (s.setRack r { state := .fault, unanswered := 3 }).each (rackPositions r) (fun s p =>
    (s.writePosition p (fun x => { x with state := .fault, lamp := .dark })).setPreset p none)
  (s1.raise .dock).each (rackPositions r) State.failReservation

/-- An unanswered poll counted (R104). -/
def State.unanswered (s : State) (r : RackId) : State :=
  let k := s.racks[r].unanswered + 1
  if s.racks[r].state ≠ .online then s
  else if 3 ≤ k then s.rackFault r
  else s.setRack r { state := .online, unanswered := k }

/-- ANSWER_WINDOW_EXPIRY (R104): the outstanding poll stays unanswered; its presets wait for the rack's next poll (R114). -/
def State.answerExpiry (s : State) : State :=
  match s.bus.poll with
  | some poll =>
    if s.part = .ready then (s.endPoll.updPresets poll.rack (fun x => some { x with sent := false })).unanswered poll.rack else s
  | none => s

/-- ANSWER_WINDOW_EXPIRY. -/
def execAnswerWindowExpiry (s : State) : Host.Outcome State Fault Refusal := .next s.answerExpiry

/-! ## Retiring, restoring, counters -/

/-- The serial an order names in parameter bytes 0 to 2. -/
def State.paramSerial (s : State) (n : SlotId) : Serial := BitVec.ofNat 24 (s.paramLE n 0 3)

/-- An entry may be retired from a state (R116). -/
def RecvState.retirable : RecvState → Bool
  | .docked | .adrift | .lost => true
  | .unenrolled | .reserved | .onHire | .silent | .retired => false

/-- RETIRE_RECEIVER worked (R116). -/
def workRetireReceiver : Work := fun s n =>
  if s.paramSerial n = 0 then refuse s .badArgument
  else match s.entryOf (s.paramSerial n) with
    | none => refuse s .notFound
    | some e =>
      let was := s.receivers[e].state
      if was.retirable = false then refuse s .state
      else
        ((s.writeReceiver e (fun r => { r with state := .retired })).relampHolder e,
         some (Result.done (leBytes 2 e.val ++ [was.code])))

/-- RETIRE_RECEIVER. -/
def execRetireReceiver (s : State) : Host.Outcome State Fault Refusal := .next (s.runOrder (kindIs 18) workRetireReceiver)

/-- RESTORE_RECEIVER worked (R117). -/
def workRestoreReceiver : Work := fun s n =>
  if s.paramSerial n = 0 then refuse s .badArgument
  else match s.entryOf (s.paramSerial n) with
    | none => refuse s .notFound
    | some e =>
      let new : RecvState := if (s.posHolding e).isSome then .docked else .adrift
      if s.receivers[e].state ≠ .retired then refuse s .state
      else
        ((s.writeReceiver e (fun r => { r with state := new })).relampHolder e,
         some (Result.done (leBytes 2 e.val ++ [new.code])))

/-- RESTORE_RECEIVER. -/
def execRestoreReceiver (s : State) : Host.Outcome State Fault Refusal := .next (s.runOrder (kindIs 19) workRestoreReceiver)

/-- The counts of a rack's positions cleared (R118). -/
def State.clearRack (s : State) (r : RackId) : State :=
  s.each (rackPositions r) (fun s p => s.writePosition p (fun x => { x with insertions := 0, removals := 0 }))

/-- CLEAR_COUNTS of group 2, worked (R118). -/
def workClearDocks : Work := fun s n =>
  if s.param8 n 1 = 255 then (s.each (List.finRange 8) State.clearRack, some (Result.done []))
  else match index? 8 (s.param8 n 1) with
    | some r => (s.clearRack r, some (Result.done []))
    | none => refuse s .badArgument

/-- CLEAR_COUNTS_DOCKS. -/
def execClearCountsDocks (s : State) : Host.Outcome State Fault Refusal := .next (s.runOrder clearsDocks workClearDocks)

end Sys2Proof.Machine
end

