-- ==== Sys2Proof/Machine/Beacons.lean ====
section
/-!
DEFINITION. The return link receiver and the census (chapter 9): BEACON and CENSUS_MARK.
-/
namespace Sys2Proof.Machine

/-- The beacon counters changed, in the header's bracket (section 9.1). The bracket opens with every counter at its maximum too: the model's
choice (log 8). -/
def State.countBeacon (s : State) (f : BeaconCounts → BeaconCounts) : State := ({ s with beacons := f s.beacons }).bumpHeader

/-- A hub message is malformed (R137). -/
def malformed (m : HubMessage) : Bool :=
  !m.checkOk || decide (15 < m.hub.toNat) || m.serial == 0 || decide (31 < m.channel.toNat) || m.reason == .unknown

/-- The counters of a stray: unknown serial, or a receiver at the desk (R138). -/
def BeaconCounts.stray (k : BeaconCounts) (atDesk : Bool) : BeaconCounts :=
  { k with
    taken := satAdd 32 k.taken 1, strays := satAdd 32 k.strays 1
    strayUnknown := if atDesk then k.strayUnknown else satAdd 32 k.strayUnknown 1
    strayDesk := if atDesk then satAdd 32 k.strayDesk 1 else k.strayDesk }

/-- A stray is counted, and STRAY raised when the total comes to a multiple of 64 (R138). -/
def State.stray (s : State) (atDesk : Bool) : State :=
  let s1 := s.countBeacon (fun k => k.stray atDesk)
  if s1.beacons.strays ≠ s.beacons.strays ∧ s1.beacons.strays % 64 = 0 then s1.raise .stray else s1

/-- A beacon repeats the last one of its entry within the duplicate window of 4096 ticks (R139). -/
def Receiver.duplicate (r : Receiver) (m : HubMessage) (t : Nat) : Bool :=
  r.heard.isSome && m.sequence == r.lastSequence && decide (t - r.lastHeard < 4096)

/-- The counters of an accepted beacon (R140, R141). -/
def BeaconCounts.accept (k : BeaconCounts) (reason : BeaconReason) (was : RecvState) : BeaconCounts :=
  { k with
    taken := satAdd 32 k.taken 1, accepted := satAdd 32 k.accepted 1
    channelChange := if reason = .channelChange then satAdd 32 k.channelChange 1 else k.channelChange
    lowBattery := if reason = .lowBattery then satAdd 32 k.lowBattery 1 else k.lowBattery
    fromLost := if was = .lost then satAdd 32 k.fromLost 1 else k.fromLost
    heardAgain := if was = .silent then satAdd 32 k.heardAgain 1 else k.heardAgain }

/-- A finding by beacon: the entry is LOST and not yet found since (R141). -/
def Receiver.newlyFound (r : Receiver) : Bool := r.state == .lost && r.foundBy == .nobody

/-- The entry after an accepted beacon at run tick `t` (R140, R141); `waits`: a RECEIVER_FOUND record handed now waits. -/
def Receiver.heardFrom (r : Receiver) (m : HubMessage) (t : Nat) (waits : Bool) : Receiver :=
  { r with
    heard := index? 32 m.channel.toNat, battery := m.battery, lastHeard := t, lastSequence := m.sequence
    state := if r.state = .silent then .onHire else r.state
    foundBy := if r.newlyFound then .beacon else r.foundBy
    foundWaiting := r.foundWaiting || (r.newlyFound && waits) }

/-- A beacon accepted (R140, R141). -/
def State.acceptBeacon (s : State) (e : RecvId) (m : HubMessage) : State :=
  let r := s.receivers[e]
  let s1 := s.countBeacon (fun k => k.accept m.reason r.state)
  let s2 := s1.writeReceiver e (fun x => x.heardFrom m s.clock.run s.logBlocked)
  if r.newlyFound then (s2.raise .dock).handFound e .beacon r.foundWaiting else s2

/-- A beacon of an entry worked by the entry's state (R138, R139). -/
def State.workBeacon (s : State) (e : RecvId) (m : HubMessage) : State :=
  match s.receivers[e].state with
  | .unenrolled | .docked | .reserved | .retired => s.stray true
  | .onHire | .silent | .adrift | .lost =>
    if (s.receivers[e]).duplicate m s.clock.run then
      s.countBeacon (fun k => { k with taken := satAdd 32 k.taken 1, duplicates := satAdd 32 k.duplicates 1 })
    else s.acceptBeacon e m

/-- BEACON (R137): taken in READY. -/
def State.beacon (s : State) (m : HubMessage) : State :=
  if s.part ≠ .ready then s
  else if malformed m then
    s.countBeacon (fun k => { k with taken := satAdd 32 k.taken 1, malformed := satAdd 32 k.malformed 1 })
  else match s.entryOf m.serial with
    | some e => s.workBeacon e m
    | none => s.stray false

/-- BEACON. -/
def execBeacon (m : HubMessage) (s : State) : Host.Outcome State Fault Refusal := .next (s.beacon m)

/-! ## The census -/

/-- An entry is fresh at a census (R142). -/
def Receiver.fresh (r : Receiver) (t : Timers) (now : Nat) : Bool := decide (now - r.lastHeard ≤ secTicks t.freshness)

/-- The entry takes part in the census (R142). -/
def Receiver.inCensus (r : Receiver) : Bool := r.state == .onHire || r.state == .silent

/-- An ON_HIRE entry has not been heard for longer than the silent limit (R142). -/
def Receiver.goesSilent (r : Receiver) (t : Timers) (now : Nat) : Bool :=
  r.state == .onHire && decide (secTicks t.silent < now - r.lastHeard)

/-- The channel an entry is counted for at a census: only an ON_HIRE entry that is fresh and does not go SILENT (R142, R143, log 31). -/
def Receiver.countedAt (r : Receiver) (t : Timers) (now : Nat) : Option ChannelId :=
  if r.state == .onHire && r.fresh t now && !r.goesSilent t now then r.heard else none

/-- An entry's record after a census, in one bracket where its counted channel or state changes (R142). -/
def Receiver.censused (t : Timers) (now : Nat) (r : Receiver) : Receiver :=
  if r.inCensus then
    let r1 := { r with counted := r.countedAt t now, state := if r.goesSilent t now then .silent else r.state }
    if r1 = r then r else r1.bump
  else r

/-- The number of entries counted for each channel (R143). -/
def State.census (s : State) : Vector Nat 32 :=
  let l := s.receivers.toList.map (fun r => r.countedAt s.timers s.clock.run)
  Vector.ofFn (fun c : ChannelId => l.count (some c))

/-- The channel records with the listener counts of a census written, each in one bracket where its count changes (R143). -/
def State.writeListeners (s : State) (counts : Vector Nat 32) : State :=
  { s with channels := Vector.ofFn (fun c : ChannelId =>
      if (s.channels[c]).listeners = counts[c] then s.channels[c] else ({ s.channels[c] with listeners := counts[c] }).bump) }

/-- The census's work on the receiver table, the channel records and the beacon counters (R142, R143). -/
def State.takeCensus (s : State) (counts : Vector Nat 32) : State :=
  let silent := s.receivers.toList.countP (fun r => r.goesSilent s.timers s.clock.run)
  let s1 := ({ s with receivers := s.receivers.map (Receiver.censused s.timers s.clock.run) }).writeListeners counts
  let s2 := s1.countBeacon (fun k =>
    { k with madeSilent := satAdd 32 k.madeSilent silent, censuses := satAdd 32 k.censuses 1, listeners := counts.toList.sum })
  if 0 < silent then s2.raise .silent else s2

/-- Listener-minutes credited at a minute mark, each record with a count above 0 in its own bracket (R144). -/
def State.creditMinutes (s : State) : State :=
  { s with channels := s.channels.map (fun r =>
      if r.listeners = 0 then r else ({ r with minutes := satAdd 32 r.minutes r.listeners }).bump) }

/-- A census mark taken in READY (R28): census, stranded flags, minutes at a minute mark, snapshot. A channel record
has a bracket of its own for the listener count, the stranded flag and the minutes each (section 5.1, R143, R144); that the header has one
for the beacon counters beside the snapshot's (R29) is the model's choice (log 8). -/
def State.workCensusMark (s : State) : State :=
  let counts := s.census
  let s1 := (s.takeCensus counts).clearStranded counts
  let s2 := if s.clock.run % 61440 = 0 then s1.creditMinutes else s1
  s2.snapshot

/-- CENSUS_MARK (R28): worked in READY at the mark that is due, passed in the other states. -/
def State.censusMark (s : State) : State :=
  if s.clock.markDue = false then s
  else
    let s1 := { s with clock := { s.clock with markDue := false } }
    if s.part = .ready then s1.workCensusMark else s1

/-- CENSUS_MARK. -/
def execCensusMark (s : State) : Host.Outcome State Fault Refusal := .next s.censusMark

end Sys2Proof.Machine
end

