-- ==== Sys2Proof/Machine/Settings.lean ====
section
/-!
DEFINITION. The orders of the order unit, the notice unit, the hall clock and the tally log writer: UNKNOWN_ORDER, SET_NOTICE,
SET_TIMERS, SET_LOG_POLICY, CANCEL and SET_CLOCK.
-/
namespace Sys2Proof.Machine

/-- The order's kind is not in the table of order kinds (R7). -/
def unknownKind (s : State) (n : SlotId) : Bool := s.kindOf n == 0 || decide (24 < s.kindOf n)

/-- UNKNOWN_ORDER worked (R7). -/
def workUnknown : Work := fun s _ => refuse s .badArgument

/-- UNKNOWN_ORDER. -/
def execUnknownOrder (s : State) : Host.Outcome State Fault Refusal := .next (s.runOrder unknownKind workUnknown)

/-- SET_NOTICE worked (R11). -/
def workSetNotice : Work := fun s n =>
  let stride := clampTo 0 16 (s.paramLE n 4 2)
  let notices := { s.notices with base := BitVec.ofNat 32 (s.paramLE n 0 4), stride := BitVec.ofNat 16 stride.1 }
  (({ s with notices := notices }).bumpHeader, some (Result.doneClamped stride.2 []))

/-- SET_NOTICE. -/
def execSetNotice (s : State) : Host.Outcome State Fault Refusal := .next (s.runOrder (kindIs 1) workSetNotice)

/-- The relief limit brought into its range: 0, or 300 to 7200 (R12). -/
def clampRelief (n : Nat) : Nat × Bool := if n = 0 then (0, false) else clampTo 300 7200 n

/-- The silent limit brought into its range, then raised to the freshness window plus 10 s (R12). -/
def clampSilent (freshness n : Nat) : Nat × Bool :=
  let v := clampTo 60 3600 n
  if v.1 < freshness + 10 then (freshness + 10, true) else v

/-- The settings a SET_TIMERS carries, each brought into its range, and whether one had to be (R12). -/
def State.timerParams (s : State) (n : SlotId) : Timers × Bool :=
  let v := fun i => s.paramLE n (2 * i) 2
  let reservation := clampTo 10 300 (v 0)
  let settle := clampTo 0 2000 (v 1)
  let freshness := clampTo 10 120 (v 2)
  let silent := clampSilent freshness.1 (v 3)
  let quiet := clampTo 0 60 (v 4)
  let loss := clampTo 0 5000 (v 5)
  let accept := clampTo 3 60 (v 6)
  let merge := clampTo 0 120 (v 7)
  let relief := clampRelief (v 8)
  let wait := clampTo 5 120 (v 9)
  let battery := clampTo 0 15 (v 10)
  ({ reservation := reservation.1, settle := settle.1, freshness := freshness.1, silent := silent.1, quietHold := quiet.1
     lossHold := loss.1, acceptWindow := accept.1, mergeGap := merge.1, relief := relief.1, handoverWait := wait.1, battery := battery.1 },
   reservation.2 || settle.2 || freshness.2 || silent.2 || quiet.2 || loss.2 || accept.2 || merge.2 || relief.2 || wait.2 || battery.2)

/-- The lamps that show READY or CHARGING recomputed after the threshold changes (R13). -/
def State.relampCharged (s : State) : State :=
  s.each (tblAll s.positions (fun p => p.lamp == .ready || p.lamp == .charging)) State.relampPos

/-- SET_TIMERS worked (R12, R13). -/
def workSetTimers : Work := fun s n =>
  ((({ s with timers := (s.timerParams n).1 }).bumpHeader).relampCharged, some (Result.doneClamped (s.timerParams n).2 []))

/-- SET_TIMERS. -/
def execSetTimers (s : State) : Host.Outcome State Fault Refusal := .next (s.runOrder (kindIs 2) workSetTimers)

/-- SET_LOG_POLICY worked (R167). -/
def workSetLogPolicy : Work := fun s n =>
  match policy? (s.param8 n 0) with
  | some p =>
    if p = s.log.policy then (s, some (Result.doneAlready [s.log.policy.code, 0, 0]))
    else
      let s1 := ({ s with log := { s.log with policy := p } }).bumpHeader
      let k := if p = .overwrite then s.log.waiting.length else 0
      (if p = .overwrite then s1.drain else s1, some (Result.done (s.log.policy.code :: leBytes 2 k)))
  | none => refuse s .badArgument

/-- SET_LOG_POLICY. -/
def execSetLogPolicy (s : State) : Host.Outcome State Fault Refusal := .next (s.runOrder (kindIs 3) workSetLogPolicy)

/-- The owning block ends what a standing order waits for, and the order completes CANCELLED (R10, R88, R128). -/
def State.cancelStanding (s : State) : StandingOwner → State
  | .issue h => s.endReservation h .cancelled .noReason
  | .handover c => s.cancelHandover c

/-- A queued slot is removed from the post queue and completed CANCELLED without being worked (R10). -/
def State.cancelQueued (s : State) (t : SlotId) : State :=
  let s1 := { s with orders := { s.orders with queue := s.orders.queue.filter (fun u => u ≠ t) } }
  s1.complete t { code := .cancelled, reason := .noReason, clamped := false, already := false, values := [] }

/-- CANCEL worked (R10). -/
def workCancel : Work := fun s n =>
  match index? 32 (s.paramLE n 0 2) with
  | some t =>
    match s.orders.standing.find? (fun u => u.slot = t) with
    | some u => (s.cancelStanding u.owner, some (Result.done []))
    | none => if s.holder t = Holder.queued then (s.cancelQueued t, some (Result.done [])) else refuse s .state
  | none => refuse s .badArgument

/-- CANCEL. -/
def execCancel (s : State) : Host.Outcome State Fault Refusal := .next (s.runOrder (kindIs 4) workCancel)

/-- The open hires and open turns marked CLOCK_SET_DURING (R26). Each OPEN hire's record is bracketed, one already marked too; a booth
record whose turns are marked has a bracket for the marks, and another where the comparison then changes its WARN lamps: the model's choices
(log 8). -/
def State.markClockSet (s : State) : State :=
  let s1 := s.each (tblAll s.hires (fun r => r.state == .opened)) (fun s h => s.writeHire h (fun r => { r with clockSet := true }))
  s1.each boothList (fun s b => s.rewriteBooth b (fun r =>
    { r with cons := { r.cons with each := r.cons.each.map (fun c => if c.turnOpen then { c with clockSet := true } else c) } }))

/-- Every scheduled handover compared afresh with the calendar (R26). The WARN lamps it changes are a bracket of the booth record of their
own, beside the one that marked the booth's open turns: the model's choice (log 8). -/
def State.compareSchedules (s : State) : State :=
  s.each spokenChannels (fun s c => (s.compareSchedule c).settleChannel s c)

/-- The calendar set so that it reads `ticks` calendar ticks now, and the clock valid (R25). -/
def State.setCalendar (s : State) (ticks : Nat) : State :=
  { s with clock := { s.clock with offset := (ticks : Int) - s.clock.run, valid := true } }

/-- SET_CLOCK worked (R25, R26). -/
def workSetClock : Work := fun s n =>
  let fraction := clampTo 0 1023 (s.paramLE n 4 2)
  let was := (s.clock.calendarAt s.clock.run).getD Stamp.zero
  let values := leBytes 6 s.clock.run ++ was.bytes
  let s1 := s.setCalendar (s.paramLE n 0 4 * 1024 + fraction.1)
  let s2 := if s.clock.valid then s1.markClockSet.compareSchedules.raise .clock else s1
  (s2.snapshot, some (Result.doneClamped fraction.2 values))

/-- SET_CLOCK. -/
def execSetClock (s : State) : Host.Outcome State Fault Refusal := .next (s.runOrder (kindIs 6) workSetClock)

end Sys2Proof.Machine
end

