-- ==== Sys2Proof/WellFormed.lean ====
section
/-!
DEFINITION. Which terms of `Instr` are commands as their rows name them. The machine gives a meaning to every term; these checks keep
the rows of the table apart and hold the operands to the manual's limits.
-/
namespace Sys2Proof

/-- The byte offset of the halfword at a word address. -/
def byteOffset (address : BitVec 17) : Nat := 2 * address.toNat

/-- The halfwords that have a row of their own: the log read count and the holder words (R1). -/
def isSpecialHalf (offset : Nat) : Bool :=
  offset == 0x100 || (decide (0x200 ≤ offset) && decide (offset < 0xA00) && (offset - 0x200) % 64 == 0)

/-- A port register half whose write carries something (section 1.8): the low halves of POST, NOTICE_PENDING, NOTICE_ENABLE and, for
the value 1, PART_CONTROL, each with both byte enables. -/
def portWriteCarries (offset : Nat) (data : Half) (enables : ByteEnables) : Bool :=
  enables.both && (offset == 0x00 || offset == 0x08 || offset == 0x0C || (offset == 0x10 && data == 1))

/-- A symbol listed as faulty shows one of the three errors of R43. -/
def SymbolFault.wellFormed (f : SymbolFault) : Bool := f.notInTable || f.balance || f.marker

/-- The check of each command. -/
def Instr.wellFormed : Instr → Bool
  | .exchangeWrite a _ _ => !isSpecialHalf (byteOffset a)
  | .ignoredRegisterWrite a d e => !portWriteCarries (byteOffset a) d e
  | .restart d e _ => portWriteCarries 0x10 d e
  | .audioFrame _ f => f.faults.all SymbolFault.wellFormed
  | .rackAnswer a => decide (a.changes.length ≤ 8)
  | .resetAssert | .resetRelease | .startupComplete | .holderWordWrite .. | .logReadCountWrite .. | .post .. | .noticePendingWrite ..
  | .noticeEnableWrite .. | .noticeVectorLowRead | .noticeVectorHighRead | .softRestartComplete | .unknownOrder | .setNotice
  | .setTimers | .setLogPolicy | .cancel | .clearCountsLinks | .clearCountsDocks | .setClock | .boothDefine | .linkHold | .linkRelease
  | .boothIntake | .seatAssign | .channelDefine | .channelClear | .handover | .setDistribution | .issue | .declareLost
  | .retireReceiver | .restoreReceiver | .setTariff | .accountOpen | .accountPay | .accountRefund | .accountClose | .frameBoundary
  | .superframeBoundary | .announceFrame .. | .missingMarker .. | .micOn .. | .micOff .. | .offer .. | .accept .. | .consoleCancel ..
  | .offerOut .. | .busyDeadlineExpiry .. | .offerDeadlineExpiry .. | .gapDeadlineExpiry .. | .outgoingOfferLapse ..
  | .warningReached .. | .targetReached .. | .waitDeadlineExpiry .. | .floorFrame .. | .pollSend | .inventoryAnswer ..
  | .answerWindowExpiry | .settleDeadlineExpiry .. | .reserveDeadlineExpiry .. | .beacon .. | .censusMark | .runCounterTick => true

end Sys2Proof
end

