-- ==== Sys2Proof/Machine/Port.lean ====
section
/-!
DEFINITION. The parallel memory port (chapter 1): host writes to the exchange memory (R1, R2, R4, R5, R19, R162), the port registers
(R6, R14 to R17), and the views a host read gives.
-/
namespace Sys2Proof.Machine

/-! ## Host writes to the exchange memory -/

/-- The slot whose 64 bytes hold a byte offset, and the offset in it. -/
def slotAt (offset : Nat) : Option (SlotId × Nat) :=
  if 0x200 ≤ offset then (index? 32 ((offset - 0x200) / 64)).map (fun n => (n, (offset - 0x200) % 64)) else none

/-- A host write of a holder word (R4). -/
def State.writeHolder (s : State) (n : SlotId) (v : Half) (e : ByteEnables) : State :=
  if e.both = true ∧ s.holder n = Holder.empty ∧ v = Holder.posted then s.setHolder n Holder.posted
  else if e.both = true ∧ s.holder n = Holder.done ∧ v = Holder.empty then s.setHolder n Holder.empty
  else s.guardHit

/-- The host may write the kind, the tag and the parameters of a slot now (R5). -/
def State.slotOpen (s : State) (n : SlotId) : Bool :=
  s.holder n == Holder.empty || s.holder n == Holder.posted || s.holder n == Holder.done

/-- An offset in a slot lies in the kind, the tag or the parameters (R5). -/
def hostsField (k : Nat) : Bool := k == 2 || k == 4 || (decide (0x0A ≤ k) && decide (k < 0x32))

/-- A host write in an order slot (R4, R5). -/
def State.writeSlot (s : State) (n : SlotId) (k : Nat) (v : Half) (e : ByteEnables) : State :=
  if k = 0 then s.writeHolder n v e
  else if hostsField k = true ∧ s.slotOpen n = true then { s with mem := s.mem.writeEnabled (slotBase n + k) v e }
  else s.guardHit

/-- A host write of the log read count (R162); an accepted advance lets waiting records be written (R165). -/
def State.writeReadCount (s : State) (v : Half) (e : ByteEnables) : State :=
  if e.both = true ∧ (s.log.writeCount - v).toNat ≤ 1024 then
    if v = s.readCount then s else ({ s with mem := s.mem.write16 0x100 v }).drain
  else s.guardHit

/-- A host write of the halfword at a byte offset (R2), discarded without a count outside READY (R19). -/
def State.hostWrite (s : State) (offset : Nat) (v : Half) (e : ByteEnables) : State :=
  if s.part ≠ .ready then s
  else if offset = 0x100 then s.writeReadCount v e
  else if 0x100 ≤ offset ∧ offset < 0x200 then { s with mem := s.mem.writeEnabled offset v e }
  else match slotAt offset with
    | some (n, k) => s.writeSlot n k v e
    | none => s.guardHit

/-- EXCHANGE_WRITE. -/
def execExchangeWrite (address : BitVec 17) (v : Half) (e : ByteEnables) (s : State) : Host.Outcome State Fault Refusal :=
  .next (s.hostWrite (byteOffset address) v e)

/-- HOLDER_WORD_WRITE. -/
def execHolderWordWrite (n : SlotId) (v : Half) (e : ByteEnables) (s : State) : Host.Outcome State Fault Refusal :=
  .next (s.hostWrite (slotBase n) v e)

/-- LOG_READ_COUNT_WRITE. -/
def execLogReadCountWrite (v : Half) (e : ByteEnables) (s : State) : Host.Outcome State Fault Refusal :=
  .next (s.hostWrite 0x100 v e)

/-! ## Port registers -/

/-- A post of the slot number a write of POST carries (R6); one made with one byte enable is ignored. -/
def State.post (s : State) (v : Half) (e : ByteEnables) : State :=
  if e.both = false then s
  else match index? 32 v.toNat with
    | some n =>
      if s.part = .ready ∧ s.holder n = Holder.posted then
        let s1 := s.setHolder n Holder.queued
        { s1 with orders := { s1.orders with queue := s1.orders.queue ++ [n] } }
      else s.postRefusal
    | none => s.postRefusal

/-- POST. -/
def execPost (v : Half) (e : ByteEnables) (s : State) : Host.Outcome State Fault Refusal := .next (s.post v e)

/-- A write of NOTICE_PENDING clears the classes whose bits are 1; bit 0 has no effect (R14). -/
def State.clearPending (s : State) (v : Half) (e : ByteEnables) : State :=
  if e.both then { s with notices := { s.notices with waiting := s.notices.waiting &&& ~~~(v &&& 0xFFFE) } } else s

/-- NOTICE_PENDING_WRITE. -/
def execNoticePendingWrite (v : Half) (e : ByteEnables) (s : State) : Host.Outcome State Fault Refusal := .next (s.clearPending v e)

/-- A write of NOTICE_ENABLE replaces the enable set; bit 0 is ignored (R15). -/
def State.setEnabled (s : State) (v : Half) (e : ByteEnables) : State :=
  if e.both then { s with notices := { s.notices with enabled := v &&& 0xFFFE } } else s

/-- NOTICE_ENABLE_WRITE. -/
def execNoticeEnableWrite (v : Half) (e : ByteEnables) (s : State) : Host.Outcome State Fault Refusal := .next (s.setEnabled v e)

/-- A read of the low half of NOTICE_VECTOR returns the low bits and keeps the high ones (R16). -/
def State.readVectorLow (s : State) : State :=
  { s with
    hostData := s.notices.vector.extractLsb' 0 16
    notices := { s.notices with vectorHigh := some (s.notices.vector.extractLsb' 16 16) } }

/-- NOTICE_VECTOR_LOW_READ. -/
def execNoticeVectorLowRead (s : State) : Host.Outcome State Fault Refusal := .next s.readVectorLow

/-- A read of the high half of NOTICE_VECTOR returns the kept bits, or those of the vector at this moment (R16). -/
def State.readVectorHigh (s : State) : State :=
  { s with
    hostData := s.notices.vectorHigh.getD (s.notices.vector.extractLsb' 16 16)
    notices := { s.notices with vectorHigh := none } }

/-- NOTICE_VECTOR_HIGH_READ. -/
def execNoticeVectorHighRead (s : State) : Host.Outcome State Fault Refusal := .next s.readVectorHigh

/-! ## What a host read gives -/

/-- A halfword's two bytes. -/
def halfBytes (v : Half) : List Byte := leBytes 2 v.toNat

/-- The eleven timer settings in order (R12). -/
def Timers.list (t : Timers) : List Nat :=
  [t.reservation, t.settle, t.freshness, t.silent, t.quietHold, t.lossHold, t.acceptWindow, t.mergeGap, t.relief, t.handoverWait, t.battery]

/-- The fourteen beacon counters in order (section 9.1). -/
def BeaconCounts.list (k : BeaconCounts) : List Nat :=
  [k.taken, k.malformed, k.duplicates, k.strayUnknown, k.strayDesk, k.strays, k.accepted, k.channelChange, k.lowBattery, k.fromLost,
   k.madeSilent, k.heardAgain, k.censuses, k.listeners]

/-- The 256 bytes of the header (section 1.2). -/
def State.headerBytes (s : State) : List Byte :=
  padTo 256 (halfBytes s.header.changes ++ leBytes 2 0x2432 ++ leBytes 2 1 ++ leBytes 2 s.part.code
    ++ leBytes 6 s.header.snapTicks ++ leBytes 2 (if s.clock.valid then 1 else 0) ++ leBytes 4 s.header.snapSeconds
    ++ leBytes 2 s.header.snapFraction ++ leBytes 2 0 ++ leBytes 4 s.header.postRefused ++ leBytes 4 s.header.guardHits
    ++ halfBytes s.log.writeCount ++ leBytes 2 s.log.policy.code.toNat ++ leBytes 4 s.log.lost ++ leBytes 4 s.notices.base.toNat
    ++ halfBytes s.notices.stride ++ leBytes 2 0 ++ s.timers.list.flatMap (leBytes 2) ++ leBytes 2 0
    ++ s.beacons.list.flatMap (leBytes 4))

/-- The change counter of the record of a table whose first halfword stands at a byte offset (R3). -/
def counterAt {k : Nat} (offset base size : Nat) (counters : Fin k → Half) : Option Half :=
  if base ≤ offset ∧ (offset - base) % size = 0 then (index? k ((offset - base) / size)).map counters else none

/-- The change counters of the records that are given by their fields (R3; log 9). -/
def State.counterRead (s : State) (o : Nat) : Option Half :=
  counterAt o 0x1000 512 (fun b : BoothId => s.booths[b].changes)
    <|> counterAt o 0x4000 64 (fun c : ChannelId => s.channels[c].changes)
    <|> counterAt o 0x4800 1024 (fun _ : Fin 1 => s.framer.changes)
    <|> counterAt o 0x4C00 64 (fun k : TariffId => s.tariffs[k].changes)
    <|> counterAt o 0x5000 32 (fun p : PosId => s.positions[p].changes)
    <|> counterAt o 0x8000 64 (fun a : AcctId => s.accounts[a].changes)
    <|> counterAt o 0x10000 64 (fun h : HireId => s.hires[h].changes)
    <|> counterAt o 0x20000 32 (fun e : RecvId => s.receivers[e].changes)

/-- A byte offset outside all regions of the exchange memory map (section 1.2). -/
def outsideRegions (o : Nat) : Bool :=
  (decide (0xA00 ≤ o) && decide (o < 0x1000)) || (decide (0x4D00 ≤ o) && decide (o < 0x5000))
    || (decide (0x7800 ≤ o) && decide (o < 0x8000))

/-- A region whose bytes the memory list holds: host words, order slots, tally log. -/
def heldAsBytes (o : Nat) : Bool := (decide (0x100 ≤ o) && decide (o < 0xA00)) || decide (0x30000 ≤ o)

/-- A host read of a halfword of the exchange memory (R1); none where the manual gives the field no place in its record (log 9). -/
def State.exchangeRead (s : State) (address : BitVec 17) : Option Half :=
  let o := byteOffset address
  if o < 0x100 then some (s.headerBytes.getD (o + 1) 0 ++ s.headerBytes.getD o 0)
  else if outsideRegions o then some 0
  else if heldAsBytes o then some (s.mem.read16 o)
  else s.counterRead o

/-- A host read of a halfword of the port registers (section 1.8). NOTICE_VECTOR's reads change state and are commands; this view is what
they would return. -/
def State.portRead (s : State) (address : BitVec 17) : Half :=
  match byteOffset address with
  | 0x04 => s.notices.vector.extractLsb' 0 16
  | 0x06 => s.notices.vectorHigh.getD (s.notices.vector.extractLsb' 16 16)
  | 0x08 => s.notices.waiting &&& 0xFFFE
  | 0x0C => s.notices.enabled
  | 0x10 => BitVec.ofNat 16 (s.part.code + (if s.clock.valid then 4 else 0) + 256 * s.orders.queue.length)
  | _ => 0

end Sys2Proof.Machine
end

