-- ==== Sys2Proof/Machine/Restart.lean ====
section
/-!
DEFINITION. Start-up and the soft restart (section 1.9), the run counter (R22), and the writes of PART_CONTROL and of registers that
ignore them (R17).
-/
namespace Sys2Proof.Machine

/-! ## The reset input and the run counter -/

/-- RESET_ASSERT (R18, R22, R24): STARTING from the beginning, the header snapshot reading 0 until the entry to READY (R29). The booth
links' and the distribution line go idle at once, and a superframe boundary left due is dropped: the model's choice (log 24). The header's
bracket opens at a second assertion too, where no field changes: the model's choice (log 8). -/
def State.assertReset (s : State) : State :=
  ({ s with
     part := .starting, resetLow := true
     header := { s.header with guardHits := 0, postRefused := 0, snapTicks := 0, snapSeconds := 0, snapFraction := 0 }
     notices := Notices.zero
     clock := { s.clock with offset := 0, valid := false, markDue := false }
     down := Vector.replicate 24 none
     framer := { s.framer with due := false, line := none } }).bumpHeader

/-- RESET_ASSERT. -/
def execResetAssert (s : State) : Host.Outcome State Fault Refusal := .next s.assertReset

/-- RESET_RELEASE (R22, R93): the run counter and the count of frame boundaries start from 0. -/
def State.releaseReset (s : State) : State :=
  if s.resetLow then
    { s with
      resetLow := false, clock := { s.clock with run := 0, markDue := false }, framer := { s.framer with frames := 0, due := false } }
  else s

/-- RESET_RELEASE. -/
def execResetRelease (s : State) : Host.Outcome State Fault Refusal := .next s.releaseReset

/-- RUN_COUNTER_TICK (R22, R28): the counter stops only while the reset input is asserted; a census mark falls at each positive multiple
of 1024. After its 48 bits are used up its value is free (log 6). -/
def State.tick (s : State) : State :=
  if s.resetLow then s
  else
    let past := 2 ^ 48 ≤ s.clock.run + 1
    let run := if past then (Config.runCounterAfterEnd s.draws).toNat else s.clock.run + 1
    { s with
      clock := { s.clock with run := run, markDue := decide (0 < run) && decide (run % 1024 = 0) }
      draws := if past then s.draws + 1 else s.draws }

/-- RUN_COUNTER_TICK. -/
def execRunCounterTick (s : State) : Host.Outcome State Fault Refusal := .next s.tick

/-! ## Entry to READY -/

/-- The part enters READY (R18, R21, R29): part state and snapshot in the header, and CLOCK when the clock is not valid. -/
def State.becomeReady (s : State) : State :=
  let s1 := ({ s with part := .ready }).bumpHeader.snapshot
  if s.clock.valid then s1 else s1.raise .clock

/-- Every block at its power-on values and the exchange memory cleared, except what STARTING has counted and set since its entry (R18). A
census mark that fell at this tick stays due (log 5), and the plan record's change counter is 0 (R3, log 29): the model's choices. -/
def State.powerOn (s : State) : State :=
  { State.reset with
    hostData := s.hostData
    header := { Header.zero with guardHits := s.header.guardHits, postRefused := s.header.postRefused }
    notices := s.notices
    clock := { s.clock with offset := 0, valid := false }
    framer := { Framer.initial with frames := s.framer.frames }
    draws := s.draws
    pending := s.pending }

/-- STARTUP_COMPLETE (R18): once the reset input is released. -/
def State.completeStartup (s : State) : State :=
  if s.part = .starting ∧ s.resetLow = false then s.powerOn.becomeReady else s

/-- STARTUP_COMPLETE. -/
def execStartupComplete (s : State) : Host.Outcome State Fault Refusal := .next s.completeStartup

/-! ## The soft restart -/

/-- The work of each order kind (the table of order kinds). -/
def orderWork (s : State) (n : SlotId) : Work :=
  match s.kindOf n with
  | 1 => workSetNotice | 2 => workSetTimers | 3 => workSetLogPolicy | 4 => workCancel
  | 5 => if clearsDocks s n then workClearDocks else workClearLinks
  | 6 => workSetClock | 7 => workBoothDefine | 8 => workLinkHold | 9 => workLinkRelease | 10 => workBoothIntake | 11 => workSeatAssign
  | 12 => workChannelDefine | 13 => workChannelClear | 14 => workHandover | 15 => workSetDistribution | 16 => workIssue
  | 17 => workDeclareLost | 18 => workRetireReceiver | 19 => workRestoreReceiver | 20 => workSetTariff | 21 => workAccountOpen
  | 22 => workAccountPay | 23 => workAccountRefund | 24 => workAccountClose
  | _ => workUnknown

/-- The result a slot shows, aborted: an order that its block has completed within its own work (R17; logs 17, 32). -/
def State.shownAborted (s : State) (n : SlotId) : Result :=
  { code := .aborted, reason := .noReason, clamped := (s.mem.read8 (slotBase n + 0x08)).getLsbD 0
    already := (s.mem.read8 (slotBase n + 0x08)).getLsbD 1, values := s.mem.readBytes (slotBase n + 0x32) 12 }

/-- What an order found WORKING is aborted with once its block has finished: nothing here when it now stands (R17). -/
def State.workingResult (s : State) (n : SlotId) : Option Result → Option (SlotId × Result)
  | some r => some (n, { r with code := .aborted, reason := .noReason })
  | none => if s.orders.standing.any (fun t => t.slot = n) then none else some (n, s.shownAborted n)

/-- The order found WORKING finished by its owning block, its own result not written (R17). -/
def State.finishWorking (s : State) : State × Option (SlotId × Result) :=
  match s.orders.queue with
  | [] => (s, none)
  | n :: rest =>
    let w := orderWork s n (s.takeSlot n rest) n
    (w.1, w.1.workingResult n w.2)

/-- Entry to RESTARTING (R20). -/
def State.enterRestarting (s : State) : State :=
  ({ s with
     part := .restarting
     header := { s.header with guardHits := 0, postRefused := 0 }
     notices := { s.notices with waiting := 0, enabled := 0, base := 0, stride := 0 } }).bumpHeader

/-- The ABORTED result of a standing order (R88, R131). -/
def State.abortResult (s : State) (t : Standing) : Result :=
  match t.owner with
  | .issue h => { s.issueResult h .aborted .noReason with clamped := t.clamped }
  | .handover c =>
    { code := .aborted, reason := .noReason, clamped := t.clamped, already := false, values := s.channels[c].handoverValues 0 }

/-- One standing order aborted: its block ends the wait without further effect (R20, R71, R119). -/
def State.abortStanding (s : State) (t : Standing) : State :=
  let s1 := match t.owner with
    | .issue _ => s
    | .handover c => s.writeChannel c (fun ch => { ch with schedule := none })
  s1.complete t.slot (s.abortResult t)

/-- One queued slot aborted (R20). A HANDOVER was never taken by its block, and carries no values: the model's choice (log 37). -/
def State.abortQueued (s : State) (n : SlotId) : State :=
  s.complete n { code := .aborted, reason := .noReason, clamped := false, already := false, values := [] }

/-- The order that was WORKING aborted (R17, R20). -/
def State.abortWorking (s : State) : Option (SlotId × Result) → State
  | some (n, r) => s.complete n r
  | none => s

/-- The orders in hand completed ABORTED in turn: the WORKING one, the standing ones, the queued ones (R20). -/
def State.abortOrders (s : State) (working : Option (SlotId × Result)) : State :=
  let s1 := (s.abortWorking working).each s.orders.standing State.abortStanding
  let s2 := s1.each s.orders.queue State.abortQueued
  { s2 with orders := { queue := [], standing := [] } }

/-- A RESTART write taken in READY (R17, R20); `working`: it arrived while the order at the head was WORKING. -/
def State.beginRestart (s : State) (working : Bool) : State :=
  let w := if working then s.finishWorking else (s, none)
  w.1.enterRestarting.abortOrders w.2

/-- RESTART (R17): any write of PART_CONTROL but the value 1 with both byte enables is ignored, and so is one outside READY. -/
def State.restart (s : State) (v : Half) (e : ByteEnables) (working : Bool) : State :=
  if s.part = .ready ∧ v = 1 ∧ e.both = true then s.beginRestart working else s

/-- RESTART. -/
def execRestart (v : Half) (e : ByteEnables) (working : Bool) (s : State) : Host.Outcome State Fault Refusal :=
  .next (s.restart v e working)

/-- A write of a halfword of the port registers by its address (section 1.8): those that carry something act as their own commands, every
other one is ignored (R17). -/
def State.portWrite (s : State) (address : BitVec 17) (v : Half) (e : ByteEnables) : State :=
  match byteOffset address with
  | 0x00 => s.post v e
  | 0x08 => s.clearPending v e
  | 0x0C => s.setEnabled v e
  | 0x10 => s.restart v e false
  | _ => s

/-- IGNORED_REGISTER_WRITE. -/
def execIgnoredRegisterWrite (address : BitVec 17) (v : Half) (e : ByteEnables) (s : State) : Host.Outcome State Fault Refusal :=
  .next (s.portWrite address v e)

/-- The four counts of the RESTART record (R21). -/
def State.restartCounts (s : State) : RestartCounts :=
  { openHires := s.hires.toList.countP (fun r => r.state == .opened)
    reservingHires := s.hires.toList.countP (fun r => r.state == .reserving)
    moneyAccounts := s.accounts.toList.countP (fun r => decide (0 < r.deposit) || decide (0 < r.owed))
    hiredReceivers := s.receivers.toList.countP (fun r => r.state == .onHire || r.state == .silent) }

/-- The RESTART record written, or lost and counted where it would have to wait (R21, R169). -/
def State.restartTally (s : State) : State :=
  if s.logBlocked then ({ s with log := { s.log with lost := satAdd 32 s.log.lost 1 } }).bumpHeader
  else s.writeTally (.restarted s.restartCounts)

/-- The wait list emptied, each record counted as lost (R169). The counts open no header bracket of their own but share the soft reset's:
the model's choice (log 8). -/
def State.loseWaiting (s : State) : State :=
  { s with log := { s.log with lost := satAdd 32 s.log.lost s.log.waiting.length, waiting := [] } }

/-- Every block at its soft-restart values, each record in a bracket of its own, with what R21 keeps. A census mark that fell at this tick
stays due: the model's choice (log 5). -/
def State.softReset (s : State) : State :=
  ({ State.reset with
     part := s.part, resetLow := s.resetLow, hostData := s.hostData, header := s.header
     notices := { s.notices with vectorHigh := none }
     clock := s.clock, mem := s.mem, log := s.log, nextHire := s.nextHire, draws := s.draws, pending := s.pending
     booths := s.booths.map (fun r : Booth => { Booth.initial with changes := r.changes + 2 })
     down := s.down, audio := s.audio
     channels := Vector.ofFn (fun c : ChannelId => { Channel.table[c] with changes := s.channels[c].changes + 2 })
     framer := { Framer.initial with changes := s.framer.changes + 2, frames := s.framer.frames, line := s.framer.line }
     positions := s.positions.map (fun r : Position => { Position.initial with changes := r.changes + 2 })
     receivers := s.receivers.map (fun r : Receiver => { Receiver.zero with changes := r.changes + 2 })
     hires := s.hires.map (fun r : Hire => { Hire.zero with changes := r.changes + 2 })
     accounts := s.accounts.map (fun r : Account => { Account.zero with changes := r.changes + 2 })
     tariffs := s.tariffs.map (fun r : Tariff => { Tariff.zero with changes := r.changes + 2 }) }).bumpHeader

/-- SOFT_RESTART_COMPLETE (R21). -/
def State.completeRestart (s : State) : State :=
  if s.part = .restarting then s.restartTally.loseWaiting.softReset.becomeReady else s

/-- SOFT_RESTART_COMPLETE. -/
def execSoftRestartComplete (s : State) : Host.Outcome State Fault Refusal := .next s.completeRestart

end Sys2Proof.Machine
end

