-- ==== Sys2Proof/Machine/Dispatch.lean ====
section
/-!
DEFINITION. What each command does to everything but the queue: one arm per row of the table, one direct call of its meaning.
-/
namespace Sys2Proof.Machine

def exec (i : Instr) (s : State) : Host.Outcome State Fault Refusal :=
  match i with
  | .resetAssert => Sys2Proof.Machine.execResetAssert s
  | .resetRelease => Sys2Proof.Machine.execResetRelease s
  | .startupComplete => Sys2Proof.Machine.execStartupComplete s
  | .exchangeWrite address data enables => Sys2Proof.Machine.execExchangeWrite address data enables s
  | .holderWordWrite slot data enables => Sys2Proof.Machine.execHolderWordWrite slot data enables s
  | .logReadCountWrite data enables => Sys2Proof.Machine.execLogReadCountWrite data enables s
  | .post data enables => Sys2Proof.Machine.execPost data enables s
  | .noticePendingWrite data enables => Sys2Proof.Machine.execNoticePendingWrite data enables s
  | .noticeEnableWrite data enables => Sys2Proof.Machine.execNoticeEnableWrite data enables s
  | .noticeVectorLowRead => Sys2Proof.Machine.execNoticeVectorLowRead s
  | .noticeVectorHighRead => Sys2Proof.Machine.execNoticeVectorHighRead s
  | .restart data enables working => Sys2Proof.Machine.execRestart data enables working s
  | .softRestartComplete => Sys2Proof.Machine.execSoftRestartComplete s
  | .ignoredRegisterWrite address data enables => Sys2Proof.Machine.execIgnoredRegisterWrite address data enables s
  | .unknownOrder => Sys2Proof.Machine.execUnknownOrder s
  | .setNotice => Sys2Proof.Machine.execSetNotice s
  | .setTimers => Sys2Proof.Machine.execSetTimers s
  | .setLogPolicy => Sys2Proof.Machine.execSetLogPolicy s
  | .cancel => Sys2Proof.Machine.execCancel s
  | .clearCountsLinks => Sys2Proof.Machine.execClearCountsLinks s
  | .clearCountsDocks => Sys2Proof.Machine.execClearCountsDocks s
  | .setClock => Sys2Proof.Machine.execSetClock s
  | .boothDefine => Sys2Proof.Machine.execBoothDefine s
  | .linkHold => Sys2Proof.Machine.execLinkHold s
  | .linkRelease => Sys2Proof.Machine.execLinkRelease s
  | .boothIntake => Sys2Proof.Machine.execBoothIntake s
  | .seatAssign => Sys2Proof.Machine.execSeatAssign s
  | .channelDefine => Sys2Proof.Machine.execChannelDefine s
  | .channelClear => Sys2Proof.Machine.execChannelClear s
  | .handover => Sys2Proof.Machine.execHandover s
  | .setDistribution => Sys2Proof.Machine.execSetDistribution s
  | .issue => Sys2Proof.Machine.execIssue s
  | .declareLost => Sys2Proof.Machine.execDeclareLost s
  | .retireReceiver => Sys2Proof.Machine.execRetireReceiver s
  | .restoreReceiver => Sys2Proof.Machine.execRestoreReceiver s
  | .setTariff => Sys2Proof.Machine.execSetTariff s
  | .accountOpen => Sys2Proof.Machine.execAccountOpen s
  | .accountPay => Sys2Proof.Machine.execAccountPay s
  | .accountRefund => Sys2Proof.Machine.execAccountRefund s
  | .accountClose => Sys2Proof.Machine.execAccountClose s
  | .frameBoundary => Sys2Proof.Machine.execFrameBoundary s
  | .superframeBoundary => Sys2Proof.Machine.execSuperframeBoundary s
  | .audioFrame booth frame => Sys2Proof.Machine.execAudioFrame booth frame s
  | .announceFrame booth frame => Sys2Proof.Machine.execAnnounceFrame booth frame s
  | .missingMarker booth => Sys2Proof.Machine.execMissingMarker booth s
  | .micOn booth console => Sys2Proof.Machine.execMicOn booth console s
  | .micOff booth console => Sys2Proof.Machine.execMicOff booth console s
  | .offer booth console => Sys2Proof.Machine.execOffer booth console s
  | .accept booth console => Sys2Proof.Machine.execAccept booth console s
  | .consoleCancel booth console => Sys2Proof.Machine.execConsoleCancel booth console s
  | .offerOut booth console => Sys2Proof.Machine.execOfferOut booth console s
  | .busyDeadlineExpiry booth console => Sys2Proof.Machine.execBusyDeadlineExpiry booth console s
  | .offerDeadlineExpiry booth => Sys2Proof.Machine.execOfferDeadlineExpiry booth s
  | .gapDeadlineExpiry booth console => Sys2Proof.Machine.execGapDeadlineExpiry booth console s
  | .outgoingOfferLapse channel => Sys2Proof.Machine.execOutgoingOfferLapse channel s
  | .warningReached channel => Sys2Proof.Machine.execWarningReached channel s
  | .targetReached channel => Sys2Proof.Machine.execTargetReached channel s
  | .waitDeadlineExpiry channel => Sys2Proof.Machine.execWaitDeadlineExpiry channel s
  | .floorFrame frame => Sys2Proof.Machine.execFloorFrame frame s
  | .pollSend => Sys2Proof.Machine.execPollSend s
  | .rackAnswer answer => Sys2Proof.Machine.execRackAnswer answer s
  | .inventoryAnswer inventory => Sys2Proof.Machine.execInventoryAnswer inventory s
  | .answerWindowExpiry => Sys2Proof.Machine.execAnswerWindowExpiry s
  | .settleDeadlineExpiry position => Sys2Proof.Machine.execSettleDeadlineExpiry position s
  | .reserveDeadlineExpiry hire => Sys2Proof.Machine.execReserveDeadlineExpiry hire s
  | .beacon message => Sys2Proof.Machine.execBeacon message s
  | .censusMark => Sys2Proof.Machine.execCensusMark s
  | .runCounterTick => Sys2Proof.Machine.execRunCounterTick s

end Sys2Proof.Machine
end

