-- ==== Sys2Proof/Safety.lean ====
section
/-!
DEFINITION. What counts as a sound state of the part, and the words claims are made in: the laws of the device that hold between steps,
and what it is for an order to complete.
-/
namespace Sys2Proof.Machine

/-! ## Records by their numbers -/

/-- Booth record `b`. -/
abbrev State.booth (s : State) (b : BoothId) : Booth := s.booths[b]
/-- What booth `b`'s blocks hold outside its record. -/
abbrev State.inside (s : State) (b : BoothId) : BoothInner := s.inner[b]
/-- Channel record `c`. -/
abbrev State.channel (s : State) (c : ChannelId) : Channel := s.channels[c]
/-- Dock position record `p`. -/
abbrev State.position (s : State) (p : PosId) : Position := s.positions[p]
/-- Receiver entry `e`. -/
abbrev State.receiver (s : State) (e : RecvId) : Receiver := s.receivers[e]
/-- Hire record `h`. -/
abbrev State.hire (s : State) (h : HireId) : Hire := s.hires[h]
/-- Account record `a`. -/
abbrev State.account (s : State) (a : AcctId) : Account := s.accounts[a]
/-- The fields of console `k`. -/
abbrev ConsoleFields.console (f : ConsoleFields) (k : ConsoleId) : ConsoleRec := f.each[k]

/-! ## Laws of the device -/

/-- The exchange memory's list is in its canonical form. -/
def State.memOk (s : State) : Prop := s.mem.wf = true

/-- The relay law of R89 holds of the intakes and definitions. -/
def State.relayOk (s : State) : Prop := relayLaw s.channels s.intakes = true

/-- The notice stride lies in its range (R11). -/
def State.strideOk (s : State) : Prop := s.notices.stride.toNat ≤ 16

/-- The hire-number counter never holds 0 (R119). -/
def State.hireNumberOk (s : State) : Prop := s.nextHire ≠ 0

/-- The tally log's law (R161, R163, R169): at most 1024 records are unread, and records wait only under KEEP with the log full. -/
def State.logOk (s : State) : Prop :=
  s.memOk ∧ s.unread ≤ 1024 ∧ (s.log.waiting ≠ [] → s.log.policy = .keep ∧ s.unread = 1024)

/-- The order unit's lists and the holder words agree (R6, R9): a slot is in the post queue, once, exactly when it is QUEUED, in the
standing list, once, exactly when it is STANDING, and no slot is WORKING between orders; a RESTARTING part has no order in hand (R20). -/
def State.slotsOk (s : State) : Prop :=
  s.memOk ∧ s.orders.queue.Nodup ∧ (s.orders.standing.map (fun t => t.slot)).Nodup
    ∧ (∀ n : SlotId, n ∈ s.orders.queue ↔ s.holder n = Holder.queued)
    ∧ (∀ n : SlotId, n ∈ s.orders.standing.map (fun t => t.slot) ↔ s.holder n = Holder.standing)
    ∧ (∀ n : SlotId, s.holder n ≠ Holder.working)
    ∧ (s.part = .restarting → s.orders.queue = [] ∧ s.orders.standing = [])

/-- Channels and booths name one another (R71 to R73): a booth is the primary, or the partner, of the channel it records and of no other;
channel 0 is defined and names none, and neither does an undefined channel. -/
def State.namingOk (s : State) : Prop :=
  (s.channel 0).defined = true ∧ (s.channel 0).primary = none ∧ (s.channel 0).partner = none
    ∧ (∀ c : ChannelId, (s.channel c).defined = false → (s.channel c).primary = none ∧ (s.channel c).partner = none)
    ∧ ∀ (b : BoothId) (c : ChannelId),
        ((s.channel c).primary = some b ↔ (s.booth b).role.named = some c ∧ (s.booth b).role.role = .primary)
        ∧ ((s.channel c).partner = some b ↔ (s.booth b).role.named = some c ∧ (s.booth b).role.role = .partner)

/-- The interlock's law in every booth (R54, R56, R70): off LIVE no console is live or claimed and no offer stands; the live, the claimed
and the offering console are among those in use, of which there are 1 to 3; and only the live console's turn is ON. -/
def State.consolesOk (s : State) : Prop :=
  ∀ b : BoothId,
    let f := (s.booth b).cons
    1 ≤ f.inUse ∧ f.inUse ≤ 3
      ∧ ((s.booth b).link.state ≠ .live → f.live = none ∧ f.claimed = none ∧ f.offer = none)
      ∧ (∀ n : ConsoleId, (f.live = some n ∨ f.claimed = some n ∨ ∃ o : InternalOffer, f.offer = some o ∧ o.offerer = n) → n.val < f.inUse)
      ∧ ∀ n : ConsoleId, (f.console n).turn = .running → f.live = some n

/-- The hire record whose HIRE_CLOSED record an entry of the wait list is. -/
def WaitEntry.hire? (w : WaitEntry) : Option HireId :=
  match w.owner with
  | .hire h => some h
  | .console _ _ | .receiver _ => none

/-- The hire law (R120): receiver entries and hire records name one another in matching states, and an entry in no hire names none. With
it, what makes it last: an ISSUE that stands waits for a RESERVING hire and a HANDOVER for a scheduled one, each once (R9); a hire is
CLOSED_PENDING exactly while its record waits (R136). -/
def State.hiresOk (s : State) : Prop :=
  (∀ e : RecvId, (s.receiver e).serial = 0 ↔ (s.receiver e).state = .unenrolled)
    ∧ (∀ h : HireId, (s.hire h).state = .reserving →
        (s.receiver (s.hire h).receiver).state = .reserved ∧ (s.receiver (s.hire h).receiver).hire = some h)
    ∧ (∀ h : HireId, (s.hire h).state = .opened →
        ((s.receiver (s.hire h).receiver).state = .onHire ∨ (s.receiver (s.hire h).receiver).state = .silent)
        ∧ (s.receiver (s.hire h).receiver).hire = some h)
    ∧ (∀ e : RecvId, (s.receiver e).state = .reserved → ∃ h : HireId,
        (s.receiver e).hire = some h ∧ (s.hire h).state = .reserving ∧ (s.hire h).receiver = e)
    ∧ (∀ e : RecvId, ((s.receiver e).state = .onHire ∨ (s.receiver e).state = .silent) → ∃ h : HireId,
        (s.receiver e).hire = some h ∧ (s.hire h).state = .opened ∧ (s.hire h).receiver = e)
    ∧ (∀ e : RecvId, ((s.receiver e).state = .docked ∨ (s.receiver e).state = .adrift ∨ (s.receiver e).state = .lost
        ∨ (s.receiver e).state = .retired) → (s.receiver e).hire = none)
    ∧ (s.orders.standing.map (fun t => t.owner)).Nodup
    ∧ (∀ t ∈ s.orders.standing, match t.owner with
        | .issue h => (s.hire h).state = .reserving
        | .handover c => (s.channel c).schedule.isSome = true)
    ∧ (s.log.waiting.filterMap WaitEntry.hire?).Nodup
    ∧ ∀ h : HireId, (s.hire h).state = .closedWaiting ↔ h ∈ s.log.waiting.filterMap WaitEntry.hire?

/-- The racks' law (the table of rack states of section 7.1; R103, R104, R106, R107): the positions of an UNKNOWN rack are EMPTY, and a
position is FAULT exactly when its rack is; the poll on the bus asks for an inventory exactly when its rack is not ONLINE. -/
def State.racksOk (s : State) : Prop :=
  (∀ p : PosId,
      ((s.racks.get (rackOf p)).state = .unknown → (s.position p).state = .empty)
      ∧ ((s.position p).state = .fault ↔ (s.racks.get (rackOf p)).state = .fault))
    ∧ ∀ x : Poll, s.bus.poll = some x → (x.inventory = true ↔ (s.racks.get x.rack).state ≠ .online)

/-- The docks' law (R103, R110, R111): a serial stands in one entry, an entry at one position; a position that holds an entry holds a
DOCKED, RESERVED or RETIRED one, and every DOCKED or RESERVED entry is held; an EMPTY position holds none and a SETTLING_OUT one does. -/
def State.docksOk (s : State) : Prop :=
  (∀ e d : RecvId, (s.receiver e).serial ≠ 0 → (s.receiver e).serial = (s.receiver d).serial → e = d)
    ∧ (∀ (p q : PosId) (e : RecvId), (s.position p).entry = some e → (s.position q).entry = some e → p = q)
    ∧ (∀ (p : PosId) (e : RecvId), (s.position p).entry = some e →
        (s.receiver e).state = .docked ∨ (s.receiver e).state = .reserved ∨ (s.receiver e).state = .retired)
    ∧ (∀ e : RecvId, ((s.receiver e).state = .docked ∨ (s.receiver e).state = .reserved) →
        ∃ p : PosId, (s.position p).entry = some e)
    ∧ ∀ p : PosId, ((s.position p).state = .empty → (s.position p).entry = none)
        ∧ ((s.position p).state = .settlingOut → (s.position p).entry ≠ none)

/-- A RESERVING or OPEN hire set against account `a`. -/
def Hire.runsOn (r : Hire) (a : AcctId) : Bool := (r.state == .reserving || r.state == .opened) && r.account == a

/-- The account law (R151, R159): the holds and the count of an account are those of its RESERVING and OPEN hires, within the deposit and
the hire limit; it is HELD exactly while it owes, and then has no RESERVING hire; a FREE account has no hire. -/
def State.accountsOk (s : State) : Prop :=
  ∀ a : AcctId,
    (s.account a).count = s.hires.toList.countP (fun r => r.runsOn a)
      ∧ (s.account a).holds = ((s.hires.toList.filter (fun r => r.runsOn a)).map (fun r => r.hold)).sum
      ∧ (s.account a).holds ≤ (s.account a).deposit ∧ (s.account a).count ≤ (s.account a).limit
      ∧ (s.account a).deposit ≤ maxCents ∧ (s.account a).owed ≤ maxCents
      ∧ ((s.account a).state = .held ↔ 0 < (s.account a).owed)
      ∧ ((s.account a).state = .held → ∀ h : HireId, (s.hire h).state = .reserving → (s.hire h).account ≠ a)
      ∧ ((s.account a).state = .free → (s.account a).count = 0)

/-- A total has reached 281,474,976,710,655 and no longer changes (R160). -/
def Account.saturated (a : Account) : Prop :=
  a.paid = 2 ^ 48 - 1 ∨ a.charged = 2 ^ 48 - 1 ∨ a.refunded = 2 ^ 48 - 1

/-- The money law (R160): paid − refunded = deposit + charged − owed, until a total saturates. -/
def State.moneyOk (s : State) : Prop :=
  ∀ a : AcctId, (s.account a).saturated
    ∨ (s.account a).paid + (s.account a).owed = (s.account a).deposit + (s.account a).charged + (s.account a).refunded

/-! ## Relay, as the manual words it -/

/-- A booth hears another through its intake: an edge of the relay graph (R89). -/
def State.hears (s : State) (x y : BoothId) : Prop :=
  (s.booth x).role.intake ≠ 0 ∧ ((s.channel ((s.booth x).role.intake))).defined = true
    ∧ y ∈ ((s.channel ((s.booth x).role.intake))).named

/-! ## Orders -/

/-- A READY part whose post queue has slot `n` at its head with an order of kind `k`: the order unit takes it next (R7). -/
def State.takes (s : State) (k : Nat) (n : SlotId) (rest : List SlotId) : Prop :=
  s.part = .ready ∧ s.orders.queue = n :: rest ∧ s.kindOf n = k ∧ s.memOk

/-- The bytes of slot `n` that taking and completing its order write: the holder word, the result code, reason and flags, and the
result values (R7, R8). -/
def resultByte (n : SlotId) (a : Nat) : Prop :=
  (slotBase n ≤ a ∧ a < slotBase n + 2) ∨ (slotBase n + 0x06 ≤ a ∧ a < slotBase n + 0x0A)
    ∨ (slotBase n + 0x32 ≤ a ∧ a < slotBase n + 0x3E)

/-- Slot `n` shows DONE with the result `r`, unused value bytes 0 (R8). -/
def Memory.shows (m : Memory) (n : SlotId) (r : Result) : Prop :=
  m.read16 (slotBase n) = Holder.done ∧ m.read8 (slotBase n + 0x06) = r.code.code ∧ m.read8 (slotBase n + 0x07) = r.reason.code
    ∧ m.read16 (slotBase n + 0x08) = r.flags
    ∧ ∀ i : Nat, i < 12 → m.read8 (slotBase n + 0x32 + i) = r.values.getD i 0

/-- The memory `m` shows the result of slot `n` and is elsewhere as `before`. -/
def Memory.answers (m before : Memory) (n : SlotId) (r : Result) : Prop :=
  m.shows n r ∧ ∀ a : Nat, ¬ resultByte n a → m.read8 a = before.read8 a

/-- A state once an order has left the post queue and completed: the memory with its result, and ORDER raised (R7, R8). -/
def State.answered (s : State) (rest : List SlotId) (m : Memory) : State :=
  ({ s with mem := m, orders := { s.orders with queue := rest } }).raise .order

/-- The command `i`, an order row, works the order in slot `n` to the result `r`: what the order leaves is `after`, but for the post
queue, the slot's own result bytes and the ORDER notice. -/
def State.completes (s : State) (i : Instr) (n : SlotId) (rest : List SlotId) (after : State) (r : Result) : Prop :=
  ∃ m : Memory, exec i s = .next (after.answered rest m) ∧ m.answers after.mem n r

/-- The command `i` refuses the order in slot `n`: no state but the slot's own has changed (R8). -/
def State.refuses (s : State) (i : Instr) (n : SlotId) (rest : List SlotId) (r : Reason) : Prop :=
  s.completes i n rest s (Result.refused r)

/-- The order rows of the table. -/
def orderRows : List Instr :=
  [.unknownOrder, .setNotice, .setTimers, .setLogPolicy, .cancel, .clearCountsLinks, .clearCountsDocks, .setClock, .boothDefine, .linkHold,
   .linkRelease, .boothIntake, .seatAssign, .channelDefine, .channelClear, .handover, .setDistribution, .issue, .declareLost,
   .retireReceiver, .restoreReceiver, .setTariff, .accountOpen, .accountPay, .accountRefund, .accountClose]

/-! ## Booths -/

/-- The console controller takes events of a booth: the part is READY and the booth's link LIVE. -/
def State.boothUp (s : State) (b : BoothId) : Prop := s.part = .ready ∧ (s.booth b).link.state = .live

/-- The six rows of console events of one console number of a booth. -/
def keyRows (b : BoothId) (k : Fin 4) : List Instr :=
  [.micOn b k, .micOff b k, .offer b k, .accept b k, .consoleCancel b k, .offerOut b k]

/-- The row of the table that is a console event of a kind, from a console number of a booth; an unknown kind has none (R47, R55). -/
def eventRow? (b : BoothId) (k : Fin 4) : EventKind → Option Instr
  | .micOn => some (.micOn b k)
  | .micOff => some (.micOff b k)
  | .offer => some (.offer b k)
  | .accept => some (.accept b k)
  | .cancel => some (.consoleCancel b k)
  | .offerOut => some (.offerOut b k)
  | .unknown => none

/-- What every event taken from console `n` of booth `b` does and leaves (R55, R61): the console's last event and outcome, the lamps by
R61's table, and at most the booth's claimed console and internal offer, the console's busy deadline, the channels, and in other booths the
lamps. -/
def State.keyed (s t : State) (b : BoothId) (n : ConsoleId) (e : LastEvent) (o : EventOutcome) : Prop :=
  t = { s with booths := t.booths, inner := t.inner, channels := t.channels }
    ∧ (t.booth b).link = (s.booth b).link ∧ (t.booth b).role = (s.booth b).role
    ∧ (t.booth b).cons = { (s.booth b).cons with
        claimed := (t.booth b).cons.claimed, offer := (t.booth b).cons.offer, each := (t.booth b).cons.each }
    ∧ (∀ k : ConsoleId, k ≠ n → ((t.booth b).cons.console k) = { ((s.booth b).cons.console k) with lamp := ((t.booth b).cons.console k).lamp })
    ∧ ((t.booth b).cons.console n) = { ((s.booth b).cons.console n) with
        lamp := ((t.booth b).cons.console n).lamp, busy := ((t.booth b).cons.console n).busy, lastEvent := e, lastOutcome := o }
    ∧ (∀ k : ConsoleId, ((t.booth b).cons.console k).lamp = (t.booth b).lampOf (t.warned b) (t.cuedOut b) k)
    ∧ ∀ d : BoothId, d ≠ b → (t.booth d).link = (s.booth d).link ∧ (t.booth d).role = (s.booth d).role ∧ t.inside d = s.inside d
        ∧ (t.booth d).cons = { (s.booth d).cons with each := (t.booth d).cons.each }
        ∧ ∀ k : ConsoleId, ((t.booth d).cons.console k) = { ((s.booth d).cons.console k) with lamp := ((t.booth d).cons.console k).lamp }

/-! ## Turns, pairings, links -/

/-- The TURN record of an open turn of console `k` of booth `b` that ends at tick `t` (R67): a turn that is ON closes its live period
first. -/
def ConsoleRec.finalRecord (c : ConsoleRec) (b : BoothId) (k : ConsoleId) (cause : TurnEnd) (t : Nat) : TurnRecord :=
  let stop := if c.turn = .running then t else c.liveEnd
  let mic := if c.turn = .running then min (2 ^ 32 - 1) (c.onMic + (t - c.liveSince)) else c.onMic
  { booth := b, console := k, cause := cause, channel := c.turnChannel, interpreter := c.turnInterpreter, relief := c.reliefReached
    clockUnset := c.clockUnset, clockSet := c.clockSet, start := c.turnStamp, merged := 0
    span := (stop - c.turnStart) / 1024, onMic := mic / 1024 }

/-- The state once the records of every open turn of booth `b`, ended now, have been handed to the tally log writer (R67), in console order
(log 34). -/
def State.turnsHanded (s : State) (b : BoothId) (cause : TurnEnd) : State :=
  ([0, 1, 2] : List ConsoleId).foldl (fun x k =>
    let c := (s.booth b).cons.console k
    if c.turn = .idle then x else x.handTurn (c.finalRecord b k cause s.clock.run)) s

/-- Ownership of a channel is due to move at the next frame boundary (R82, R84, R87): a move is pending, or a handover waits with the
pairing VALID and a claimed console in a LIVE target booth. -/
def State.moveDue (s : State) (c : ChannelId) : Bool :=
  let ch := s.channel c
  ch.move.isSome || ch.schedule.any (fun h => h.phase == .waiting && ch.pairing == .valid
    && (ch.boothOf h.target).any (fun x => (s.booth x).link.state == .live && (s.booth x).cons.claimed.isSome))

/-- The TURN records of the turns that end with cause HANDOVER at a frame boundary that leads from `s` to `t` (R63, R67): in booth order,
those of live consoles whose microphone passes by an internal acceptance; then, in channel order, those of the live consoles of owner
booths that lose their channel, with what the boundary left in the turn's fields (the order: log 14). -/
def State.handedOver (s t : State) : List TurnRecord :=
  let passed := (List.finRange 24).filterMap (fun b =>
    (s.booth b).cons.live.bind (fun m =>
      if (s.booth b).cons.claimed ≠ some m ∧ (s.inside b).accepted = true ∧ ((s.booth b).cons.console m).turn ≠ .idle
      then some (((s.booth b).cons.console m).finalRecord b m .handover s.clock.run) else none))
  let moved := (List.finRange 32).filterMap (fun c =>
    (s.channel c).ownerBooth.bind (fun b => (s.booth b).cons.claimed.bind (fun n =>
      if c ≠ 0 ∧ (s.channel c).defined = true ∧ s.moveDue c = true ∧ (s.booth b).link.state = .live
        ∧ ((s.booth b).cons.live ≠ some n ∨ ((s.booth b).cons.console n).turn ≠ .idle)
      then some (((t.booth b).cons.console n).finalRecord b n .handover s.clock.run) else none)))
  passed ++ moved

/-- The pairing of a channel record with primary `p` and partner `q` is what R81's conditions give of the two links: the first that fails
names the fault, and a fault leaves no outgoing offer and no pending move. -/
def State.pairedBy (t : State) (p q : BoothId) (c : Channel) : Prop :=
  let x := (t.booth p).link
  let y := (t.booth q).link
  (x.state ≠ .live → c.pairing = .fault ∧ c.fault = .primaryDown)
    ∧ (x.state = .live → y.state ≠ .live → c.pairing = .fault ∧ c.fault = .partnerDown)
    ∧ (x.state = .live → y.state = .live → (x.announced.lang ≠ c.lang ∨ y.announced.lang ≠ c.lang) →
        c.pairing = .fault ∧ c.fault = .code)
    ∧ (x.state = .live → y.state = .live → x.announced.lang = c.lang → y.announced.lang = c.lang →
        (x.announced.format ≠ y.announced.format → c.pairing = .fault ∧ c.fault = .format)
        ∧ (x.announced.format = y.announced.format → c.pairing = .valid ∧ c.fault = .noFault))
    ∧ (c.pairing = .fault → c.offer = none ∧ c.move = none)

/-- A channel record names a booth, as its primary or its partner. -/
def Channel.names (c : Channel) (b : BoothId) : Prop := c.primary = some b ∨ c.partner = some b

/-- What the channel router's check for booth `b` does (R77, R81): the channel that names it has its pairing anew, may lose its offer and
its move, and has no other field changed but owner down since; the lamps of its booths show it; no other channel changes. -/
def State.rechecked (s t : State) (b : BoothId) : Prop :=
  ∀ c : ChannelId,
    let old := s.channel c
    let new := t.channel c
    (¬ old.names b → new = old)
    ∧ (old.names b →
      (old.partner = none → new.pairing = .unpaired ∧ new.fault = .noFault)
      ∧ (∀ p q : BoothId, old.primary = some p → old.partner = some q → t.pairedBy p q new)
      ∧ new = { old with
          changes := new.changes, downSince := new.downSince, pairing := new.pairing, fault := new.fault, offer := new.offer
          move := new.move }
      ∧ ∀ d : BoothId, old.names d → ∀ k : ConsoleId,
          ((t.booth d).cons.console k).lamp = (t.booth d).lampOf (t.warned d) (t.cuedOut d) k)

/-- What the other blocks do when booth `b` leaves LIVE (R49, R70, R77): no console is live or claimed and no offer stands, every open turn
has ended with cause LINK and its record is handed, lamps and busy deadlines are out, and the router has made its check and started the
loss hold of a channel the booth owns. -/
def State.wentDown (s t : State) (b : BoothId) : Prop :=
  let x := s.turnsHanded b .link
  t.log = x.log ∧ t.mem = x.mem ∧ t.header = x.header
    ∧ (t.booth b).cons.live = none ∧ (t.booth b).cons.claimed = none ∧ (t.booth b).cons.offer = none
    ∧ (∀ k : ConsoleId, ((t.booth b).cons.console k).turn = .idle ∧ ((t.booth b).cons.console k).lamp = .dark
        ∧ ((t.booth b).cons.console k).busy = none)
    ∧ (s.namingOk → s.rechecked t b ∧ ∀ c : ChannelId, (s.channel c).names b →
        (t.channel c).downSince = if (s.channel c).ownerBooth = some b then s.clock.run else (s.channel c).downSince)

/-- What the other blocks do when booth `b` enters LIVE (R48, R60, R77): it is quiet since this tick, its lamps show R61's table, and the
router has made its check, which leaves offer and move where it finds no fault. -/
def State.cameUp (s t : State) (b : BoothId) : Prop :=
  (t.booth b).cons.quietSince = s.clock.run ∧ t.log = s.log ∧ t.mem = s.mem ∧ t.header = s.header
    ∧ (s.namingOk → s.rechecked t b
      ∧ (∀ c : ChannelId, (s.channel c).names b → (t.channel c).downSince = (s.channel c).downSince
          ∧ ((t.channel c).pairing ≠ .fault → (t.channel c).offer = (s.channel c).offer ∧ (t.channel c).move = (s.channel c).move))
      ∧ ∀ k : ConsoleId, ((t.booth b).cons.console k).lamp = (t.booth b).lampOf (t.warned b) (t.cuedOut b) k)

/-! ## The distribution frame -/

/-- The slots of a distribution frame carry what R98 gives them, by the active plan and the channels' audio: each on-air channel's stand
behind those of the on-air channels before it, in wide form over two or in standard form in one, silent for a channel cleared since the
plan was computed; and every slot beyond those used is silent. -/
def State.filled (t : State) (f : DistFrame) : Prop :=
  let p := t.framer.active
  let held := fun c : ChannelId => if (p.entries.get c).onAir then (p.entries.get c).slots else 0
  let before := fun c : ChannelId => (((List.finRange 32).filter (fun d => d < c)).map held).sum
  f.slots.length = p.mode.budget
    ∧ (∀ (c : ChannelId) (i : Nat), i < held c → before c + i < p.mode.budget →
        f.slots[before c + i]? = some (
          if t.framer.cleared.get c then .silent
          else if (p.entries.get c).slots = 2 then .wide (if i = 0 then 0 else 1) (t.audio.get c)
          else .standard (t.audio.get c)))
    ∧ ∀ i : Nat, ((List.finRange 32).map held).sum ≤ i → i < p.mode.budget → f.slots[i]? = some .silent

/-! ## Settlement -/

/-- The OPEN hire `h` has closed now with a cause (R130, R133 to R135, R155 to R159): its end fields; its hold released; its charge taken
from the free deposit, the rest owed; an account left owing HELD, with ACCOUNT, its reservations ended REFUSED with ACCOUNT_HELD; and the
HIRE_CLOSED record written, or waiting with the hire CLOSED_PENDING. -/
def State.settled (s t : State) (h : HireId) (cause : CloseCause) : Prop :=
  let old := s.hire h
  let acct := s.account old.account
  let minutes := min 65535 (((s.clock.run - old.startTick) / 1024 + 59) / 60)
  let charge := (s.tariffs.get old.tariff).charge minutes cause
  let taken := min charge (acct.deposit - (acct.holds - old.hold))
  let added := min (charge - taken) (4294967295 - acct.owed)
  let held := acct.state = .active ∧ 0 < acct.owed + added
  let ends := (List.finRange 1024).filter (fun k => (s.hire k).state == .reserving && (s.hire k).account == old.account)
  let stamp := s.clock.stamp s.clock.run
  let record : HireClosed :=
    { number := old.number, account := old.account, adopted := old.adopted, clockSet := old.clockSet, presetFailed := old.presetFailed
      clockUnset := old.clockUnset || stamp.2, holder := acct.holder, serial := (s.receiver old.receiver).serial, cause := cause
      start := old.start, finish := stamp.1, billed := minutes, charge := charge, taken := taken, added := added }
  t.hire h = { old with
      changes := (t.hire h).changes, state := if s.logBlocked then .closedWaiting else .free, endTick := s.clock.run
      finish := stamp.1, clockUnset := old.clockUnset || stamp.2, cause := cause
      billed := minutes, charge := charge, taken := taken, added := added }
    ∧ t.account old.account = { acct with
        changes := acct.changes + 2, deposit := acct.deposit - taken, owed := acct.owed + added
        charged := min (2 ^ 48 - 1) (acct.charged + (taken + added)), state := if held then .held else acct.state
        holds := (t.account old.account).holds, count := (t.account old.account).count }
    ∧ (¬ held → (t.account old.account).holds = acct.holds - old.hold ∧ (t.account old.account).count = acct.count - 1
        ∧ ∀ k : HireId, k ≠ h → t.hire k = s.hire k)
    ∧ (held → (t.account old.account).holds = acct.holds - old.hold - (ends.map (fun k => (s.hire k).hold)).sum
        ∧ (t.account old.account).count = acct.count - 1 - ends.length
        ∧ (∀ k : HireId, k ≠ h → t.hire k =
            if (s.hire k).state = .reserving ∧ (s.hire k).account = old.account
            then { s.hire k with state := .free, changes := (s.hire k).changes + 2 } else s.hire k)
        ∧ ∀ k ∈ ends,
            (t.receiver (s.hire k).receiver).state = .docked ∧ (t.receiver (s.hire k).receiver).hire = none
            ∧ (s.slotsOk → ∀ y : Standing, s.standingOf (.issue k) = some y → y ∉ t.orders.standing
              ∧ t.mem.shows y.slot { code := .refused, reason := .accountHeld, clamped := y.clamped, already := false
                                     values := s.issueValues k }))
    ∧ (∀ b : AcctId, b ≠ old.account → t.account b = s.account b)
    ∧ (0 < added → t.isPending .account = true)
    ∧ (s.logBlocked = true → t.log = { s.log with waiting := s.log.waiting ++ [{ owner := .hire h, record := .hireClosed record }] })
    ∧ (s.logBlocked = false → t.log.waiting = s.log.waiting ∧ t.log.writeCount = s.log.writeCount + 1
        ∧ t.mem.read8 (tallyBase s.log.writeCount + 2) = 1
        ∧ t.mem.readBytes (tallyBase s.log.writeCount + 0x0C) 44 = (TallyRecord.hireClosed record).body)

/-! ## Docks -/

/-- The receiver of entry `e` has gone from its position, dated `k` (R112, R126): a DOCKED one is ADRIFT, with DOCK; a RESERVED one has
opened its hire at `k`, and its ISSUE is DONE; a RETIRED one keeps no dock position. -/
def State.takenOut (s t : State) (e : RecvId) (k : Nat) : Prop :=
  let r := s.receiver e
  (r.state = .docked → t.receiver e = { r with state := .adrift, changes := r.changes + 2 } ∧ t.isPending .dock = true ∧ t.hires = s.hires)
    ∧ (∀ h : HireId, r.state = .reserved → r.hire = some h →
        t.hire h = { s.hire h with
          state := .opened, startTick := k, start := (s.clock.stamp k).1, clockUnset := (s.clock.stamp k).2
          changes := (s.hire h).changes + 2 }
        ∧ t.receiver e = { r with
            state := .onHire, lastHeard := k, heard := none, counted := none, hires := min 65535 (r.hires + 1), changes := r.changes + 2 }
        ∧ ∀ x : Standing, s.standingOf (.issue h) = some x → s.memOk →
            t.orders.standing = s.orders.standing.filter (fun y => y.slot ≠ x.slot)
            ∧ t.mem.shows x.slot { code := .done, reason := .noReason, clamped := x.clamped, already := false, values := s.issueValues h })
    ∧ (r.state = .retired → t.receiver e = { r with dock := none, changes := r.changes + 2 })

/-- A removal at position `p` has taken effect, dated `k` (R112, R114): the position holds nothing and has counted it, EMPTY, or FAULT
still where `stays` and it was; a preset is left there only if it is down in the poll on the bus; and what it held is taken out. -/
def State.removed (s t : State) (p : PosId) (k : Nat) (stays : Bool) : Prop :=
  t = { s with mem := t.mem, orders := t.orders, notices := t.notices, positions := t.positions, presets := t.presets
               receivers := t.receivers, hires := t.hires }
    ∧ t.position p = { s.position p with
        state := if stays = true ∧ (s.position p).state = .fault then .fault else .empty, entry := none, lamp := .dark
        removals := min 65535 ((s.position p).removals + 1), changes := (s.position p).changes + 2 }
    ∧ (∀ q : PosId, q ≠ p → t.position q = s.position q)
    ∧ (∀ q : PosId, t.presets.get q = if q = p then (s.presets.get p).filter (fun x => x.sent) else s.presets.get q)
    ∧ (∀ e : RecvId, (s.position p).entry = some e → s.takenOut t e k)
    ∧ ((s.position p).entry = none → t.receivers = s.receivers ∧ t.hires = s.hires ∧ t.notices = s.notices)

/-! ## The port -/

/-- The host owns the halfword at a byte offset now: a spare host word, or the kind, the tag or a parameter of a slot that is EMPTY,
POSTED or DONE (R2, R5). -/
def State.hostMay (s : State) (o : Nat) : Prop :=
  (0x102 ≤ o ∧ o < 0x200)
    ∨ ∃ (n : SlotId) (k : Nat), o = slotBase n + k ∧ (k = 2 ∨ k = 4 ∨ (0x0A ≤ k ∧ k < 0x32))
        ∧ (s.holder n = Holder.empty ∨ s.holder n = Holder.posted ∨ s.holder n = Holder.done)

/-- A discarded host write counted: one guard hit in one bracket of the header, and GUARD raised (R2). -/
def State.guarded (s : State) : State :=
  { s with
    header := { s.header with changes := s.header.changes + 2, guardHits := min (2 ^ 32 - 1) (s.header.guardHits + 1) }
    notices := { s.notices with waiting := s.notices.waiting ||| Notice.guard.bit } }

/-- A refused post counted in one bracket of the header, and GUARD raised (R6). -/
def State.postCounted (s : State) : State :=
  { s with
    header := { s.header with changes := s.header.changes + 2, postRefused := min (2 ^ 32 - 1) (s.header.postRefused + 1) }
    notices := { s.notices with waiting := s.notices.waiting ||| Notice.guard.bit } }

end Sys2Proof.Machine
end

