-- ==== Sys2Proof/Certificates/Slice0/Obligations.lean ====
section
/-!
DEFINITION. The statements for the provers: what the commands do, by the rules of the spec, family by family.
-/
open Sys2Proof Sys2Proof.Machine

/-! ## The queue, reset, the port -/

/-- A step runs the command at the front of the queue with the queue's rest. One command runs at a time, in
the order given (log 1); on an empty queue the part idles (log 2), and no word spells a command, since no row of the table has bits. -/
def Obligations.StepRunsFrontCommand : Prop :=
  (∀ (c : Instr) (rest : List Instr) (s : State), step { s with pending := c :: rest } = exec c { s with pending := rest })
    ∧ (∀ s : State, s.pending = [] → step s = .next s)
    ∧ ∀ (s : State) (nbits w : Nat), decodeTableWord nbits w = none ∧ s.withFetchWord nbits w = s

/-- What State.reset holds of the values the spec gives: STARTING, the sets and counts empty, the clock not valid, every slot EMPTY, the
timers of R12, KEEP, and every table at the power-on values of its chapter, the staged plan of R92 with it. That reset stands at the
release of the reset input, that no high half of the vector is kept at it, that a free receiver entry's index fields read index 0, that
polling starts with rack 0, and the language codes of the reset active plan, are the model's choices (logs 3, 11, 10, 23, 39). -/
def Obligations.ResetLeavesPowerOnValues : Prop :=
  State.reset.part = .starting ∧ State.reset.clock = { run := 0, offset := 0, valid := false, markDue := false }
    ∧ State.reset.notices = { waiting := 0, enabled := 0, base := 0, stride := 0, vectorHigh := none }
    ∧ State.reset.header = { changes := 0, guardHits := 0, postRefused := 0, snapTicks := 0, snapSeconds := 0, snapFraction := 0 }
    ∧ State.reset.timers.list = [45, 500, 30, 180, 8, 250, 15, 20, 1800, 30, 12]
    ∧ (∀ a : Nat, State.reset.mem.read8 a = 0) ∧ State.reset.orders = { queue := [], standing := [] }
    ∧ State.reset.log = { writeCount := 0, policy := .keep, lost := 0, waiting := [] }
    ∧ (∀ b : BoothId, State.reset.booth b = {
        changes := 0
        link := {
          state := .held, cause := .noCause, changed := 0, resync := false
          definition := { defined := false, lang := ⟨45, 45, 45⟩, consoles := 1, serial := 0, format := .standard, method := .bytes
                          threshold := 16, masking := true }
          announced := { booth := 0, serial := 0, lang := ⟨45, 45, 45⟩, consoles := 0, format := .standard, revision := 0, received := 0
                         computed := 0, mismatch := .noReason }
          alignRun := 0, missingRun := 0, badRun := 0, heldRun := 0, window := ⟨0, 0, 0⟩
          counts := { errors := ⟨0, 0, 0⟩, entries := 0, degraded := 0, losses := 0, badAnnounces := 0, mismatches := 0, dropped := 0
                      replaced := 0 } }
        cons := {
          inUse := 1, live := none, claimed := none, quietSince := 0, offer := none, ignored := 0
          each := Vector.replicate 3 {
            interpreter := 0, lamp := .dark, busy := none, lastEvent := .noEvent, lastOutcome := .noOutcome, turn := .idle, turnStart := 0
            turnStamp := ⟨0, 0⟩, turnChannel := none, turnInterpreter := 0, onMic := 0, liveSince := 0, liveEnd := 0, gapDeadline := 0
            reliefReached := false, clockUnset := false, clockSet := false } }
        role := { named := none, role := .primary, fed := none, intake := 0 } }
      ∧ State.reset.inside b = { lastGood := none, handed := none, accepted := false } ∧ State.reset.down.get b = none)
    ∧ (∀ c : ChannelId, State.reset.channel c = {
        changes := 0, defined := decide (c = 0), lang := if c = 0 then ⟨70, 76, 82⟩ else ⟨45, 45, 45⟩, primary := none, partner := none
        quality := .standard, rescue := false, owner := .primary, downSince := 0, source := if c = 0 then .floor else .noSource
        pairing := .unpaired, fault := .noFault, offer := none, move := none, schedule := none, onAir := false, slots := 0, first := 0
        listeners := 0, stranded := false, minutes := 0, episodes := 0, handovers := 0 })
    ∧ State.reset.floor = { locked := false, losses := 0, lockRun := 0, missRun := 0, handed := none }
    ∧ State.reset.framer = {
        changes := 0, mode := .stopped, floorQuality := .standard
        active := { mode := .stopped, entries := Vector.replicate 32 { onAir := false, slots := 0, first := 0, lang := ⟨45, 45, 45⟩ }
                    used := 0, offAir := 0 }
        staged := some (computePlan .stopped .standard State.reset.channels), planNumber := 0, superframes := 0
        directory := { planNumber := 0, superframe := 0, entries := [] }, shortage := false, strandedCount := 0
        cleared := Vector.replicate 32 false, frames := 0, due := false, line := none }
    ∧ (∀ p : PosId, State.reset.position p = {
        changes := 0, state := .empty, entry := none, lamp := .dark, rawRemoval := 0, settleDeadline := 0, insertions := 0, removals := 0 }
      ∧ State.reset.presets.get p = none)
    ∧ (∀ r : RackId, State.reset.racks.get r = { state := .unknown, unanswered := 0 }) ∧ State.reset.bus = { next := 0, poll := none }
    ∧ (∀ e : RecvId, State.reset.receiver e = {
        changes := 0, serial := 0, state := .unenrolled, dock := some 0, battery := 0, hire := some 0, lostHire := 0, preset := 0
        heard := some 0, lastHeard := 0, lastSequence := 0, counted := some 0, foundBy := .nobody, foundWaiting := false, hires := 0 })
    ∧ (∀ h : HireId, State.reset.hire h = {
        changes := 0, state := .free, number := 0, account := 0, receiver := 0, slot := 0, deadline := 0, passed := false, tariff := 0
        hold := 0, startTick := 0, start := ⟨0, 0⟩, endTick := 0, finish := ⟨0, 0⟩, cause := .notClosed, adopted := false
        clockSet := false, presetFailed := false, clockUnset := false, billed := 0, charge := 0, taken := 0, added := 0 })
    ∧ State.reset.nextHire = 1
    ∧ (∀ a : AcctId, State.reset.account a = {
        changes := 0, state := .free, holder := 0, tariff := 0, limit := 0, deposit := 0, holds := 0, owed := 0, count := 0, paid := 0
        charged := 0, refunded := 0 })
    ∧ (∀ k : TariffId, State.reset.tariffs.get k = {
        changes := 0, grace := 0, baseMinutes := 0, baseCharge := 0, stepMinutes := 0, stepCharge := 0, cap := 0, hold := 0, lossFee := 0 })
    ∧ State.reset.beacons.list = List.replicate 14 0

/-- The laws the steps keep hold at reset. -/
def Obligations.ResetIsLawful : Prop :=
  State.reset.logOk ∧ State.reset.strideOk ∧ State.reset.hireNumberOk ∧ State.reset.slotsOk ∧ State.reset.relayOk
    ∧ State.reset.namingOk ∧ State.reset.consolesOk ∧ State.reset.hiresOk ∧ State.reset.racksOk ∧ State.reset.docksOk
    ∧ State.reset.accountsOk ∧ State.reset.moneyOk

/-- EXCHANGE_WRITE: discarded without a count outside READY (R19); the enabled bytes of a halfword the host owns are written and no other
byte; anywhere else one guard hit, whatever the byte enables (R1, R2, R5). And what a host read gives in any part state (R1, R3): zero
outside all regions, the bytes of the host words, the order slots and the tally log, the header by its table (section 1.2, and 9.1 for the
beacon counters), and every other record's change counter at its start; the other fields of those records have no place the spec gives (log
9). That a guard hit brackets the header with the counter at its maximum too is the model's count (log 8). -/
def Obligations.ExchangeWriteObeysOwnership : Prop :=
  (∀ (a : BitVec 17) (v : Half) (e : ByteEnables) (s : State), (Instr.exchangeWrite a v e).wellFormed = true → s.memOk →
    (s.part ≠ .ready → exec (.exchangeWrite a v e) s = .next s)
    ∧ (s.part = .ready → s.hostMay (byteOffset a) →
        ∃ m : Memory, exec (.exchangeWrite a v e) s = .next { s with mem := m }
          ∧ ∀ x : Nat, m.read8 x =
              if x = byteOffset a ∧ e.lo = true then v.extractLsb' 0 8
              else if x = byteOffset a + 1 ∧ e.hi = true then v.extractLsb' 8 8 else s.mem.read8 x)
    ∧ (s.part = .ready → ¬ s.hostMay (byteOffset a) → exec (.exchangeWrite a v e) s = .next s.guarded))
    ∧ (∀ (a : BitVec 17) (s : State),
      let o := byteOffset a
      let reads := fun (start size k : Nat) (v : Half) => o = start + size * k → s.exchangeRead a = some v
      (((0xA00 ≤ o ∧ o < 0x1000) ∨ (0x4D00 ≤ o ∧ o < 0x5000) ∨ (0x7800 ≤ o ∧ o < 0x8000)) → s.exchangeRead a = some 0)
      ∧ (((0x100 ≤ o ∧ o < 0xA00) ∨ 0x30000 ≤ o) → s.exchangeRead a = some (s.mem.read16 o))
      ∧ (∀ b : BoothId, reads 0x1000 512 b.val (s.booth b).changes) ∧ (∀ c : ChannelId, reads 0x4000 64 c.val (s.channel c).changes)
      ∧ reads 0x4800 0 0 s.framer.changes ∧ (∀ k : TariffId, reads 0x4C00 64 k.val (s.tariffs.get k).changes)
      ∧ (∀ p : PosId, reads 0x5000 32 p.val (s.position p).changes) ∧ (∀ k : AcctId, reads 0x8000 64 k.val (s.account k).changes)
      ∧ (∀ h : HireId, reads 0x10000 64 h.val (s.hire h).changes) ∧ ∀ d : RecvId, reads 0x20000 32 d.val (s.receiver d).changes)
    ∧ ∀ s : State,
      let field := fun o k v : Nat => ∀ j : Nat, j < k →
        s.exchangeRead (BitVec.ofNat 17 (o / 2 + j)) = some (BitVec.ofNat 16 (v / 65536 ^ j))
      field 0x00 1 s.header.changes.toNat ∧ field 0x02 1 0x2432 ∧ field 0x04 1 1 ∧ field 0x06 1 s.part.code
      ∧ field 0x08 3 s.header.snapTicks ∧ field 0x0E 1 (if s.clock.valid then 1 else 0) ∧ field 0x10 2 s.header.snapSeconds
      ∧ field 0x14 1 s.header.snapFraction ∧ field 0x18 2 s.header.postRefused ∧ field 0x1C 2 s.header.guardHits
      ∧ field 0x20 1 s.log.writeCount.toNat ∧ field 0x22 1 (if s.log.policy = .keep then 0 else 1) ∧ field 0x24 2 s.log.lost
      ∧ field 0x28 2 s.notices.base.toNat ∧ field 0x2C 1 s.notices.stride.toNat
      ∧ (∀ (i v : Nat), s.timers.list[i]? = some v → field (0x30 + 2 * i) 1 v)
      ∧ (∀ (i v : Nat), s.beacons.list[i]? = some v → field (0x48 + 4 * i) 2 v) ∧ field 0x80 64 0

/-- HOLDER_WORD_WRITE: outside READY discarded without a count (R19). In READY (R4): POSTED over EMPTY and EMPTY over DONE, with both byte
enables, and a guard hit for every other write; the test uses the holder word at the moment the write is taken, so a completion taken first
lets EMPTY through, and one taken after a discarded write shows DONE. That a count at its maximum is bracketed too is the model's (log 8). -/
def Obligations.HolderWordCycle : Prop :=
  (∀ (n : SlotId) (v : Half) (e : ByteEnables) (s : State), s.part ≠ .ready → exec (.holderWordWrite n v e) s = .next s)
    ∧ ∀ (n : SlotId) (v : Half) (e : ByteEnables) (s : State), s.part = .ready → s.memOk →
    ((e.both = true ∧ ((s.holder n = Holder.empty ∧ v = Holder.posted) ∨ (s.holder n = Holder.done ∧ v = Holder.empty))) →
        ∃ m : Memory, exec (.holderWordWrite n v e) s = .next { s with mem := m } ∧ m.read16 (slotBase n) = v
          ∧ ∀ x : Nat, x ≠ slotBase n → x ≠ slotBase n + 1 → m.read8 x = s.mem.read8 x)
    ∧ (¬ (e.both = true ∧ ((s.holder n = Holder.empty ∧ v = Holder.posted) ∨ (s.holder n = Holder.done ∧ v = Holder.empty))) →
        exec (.holderWordWrite n v e) s = .next s.guarded)
    ∧ (∀ r : Result, e.both = true → v = Holder.empty →
        ∃ t : State, exec (.holderWordWrite n v e) (s.complete n r) = .next t ∧ t.holder n = Holder.empty)
    ∧ (∀ r : Result, (s.holder n = Holder.standing ∨ s.holder n = Holder.working) →
        ∃ t : State, exec (.holderWordWrite n v e) s = .next t ∧ (t.complete n r).holder n = Holder.done)

/-- POST (R6): one byte enable is ignored; a post of a POSTED slot in READY queues it at the tail; every other post is counted,
in a bracket with the count at its maximum too (log 8). -/
def Obligations.PostQueuesPostedSlots : Prop :=
  ∀ (v : Half) (e : ByteEnables) (s : State), s.memOk →
    (e.both = false → exec (.post v e) s = .next s)
    ∧ (∀ n : SlotId, e.both = true → s.part = .ready → v.toNat = n.val → s.holder n = Holder.posted →
        ∃ m : Memory, exec (.post v e) s = .next { s with mem := m, orders := { s.orders with queue := s.orders.queue ++ [n] } }
          ∧ m.read16 (slotBase n) = Holder.queued ∧ ∀ x : Nat, x ≠ slotBase n → x ≠ slotBase n + 1 → m.read8 x = s.mem.read8 x)
    ∧ (e.both = true → (s.part ≠ .ready ∨ ∀ n : SlotId, v.toNat = n.val → s.holder n ≠ Holder.posted) →
        exec (.post v e) s = .next s.postCounted)

/-- NOTICE_PENDING (R14): raising adds a class and changes nothing when it is pending; a write with both byte enables removes the classes
whose bits 1 to 15 are 1; a read returns bits 1 to 15 and clears nothing; the orders of a raise and a clear; empty at power-on and at the
entry of a soft restart. -/
def Obligations.NoticePendingSet : Prop :=
  (∀ (s : State) (c d : Notice), (s.raise c).isPending d = (s.isPending d || c == d) ∧ (s.isPending c = true → s.raise c = s))
    ∧ (∀ (s : State) (v : Half) (e : ByteEnables), ∃ t : State, exec (.noticePendingWrite v e) s = .next t
        ∧ t = { s with notices := { s.notices with waiting := t.notices.waiting } }
        ∧ (e.both = true → ∀ i : Nat, t.notices.waiting.getLsbD i = (s.notices.waiting.getLsbD i && (i == 0 || !v.getLsbD i)))
        ∧ (e.both = false → t = s)
        ∧ ∀ c : Notice, e.both = true → v.getLsbD c.index = true → t.isPending c = false ∧ (t.raise c).isPending c = true)
    ∧ (∀ s : State, ∀ i : Nat, (s.portRead 4).getLsbD i = (decide (1 ≤ i) && s.notices.waiting.getLsbD i) ∧ s.portRead 5 = 0)
    ∧ (∀ (v : Half) (e : ByteEnables) (s : State), exec (.ignoredRegisterWrite 5 v e) s = .next s)
    ∧ State.reset.notices.waiting = 0
    ∧ ∀ s : State, s.part = .ready → s.orders.queue = [] → s.orders.standing = [] →
        ∃ t : State, exec (.restart 1 ⟨true, true⟩ false) s = .next t ∧ t.notices.waiting = 0

/-- NOTICE_ENABLE and the interrupt line (R15). -/
def Obligations.NoticeEnableAndLine : Prop :=
  (∀ (s : State) (v : Half) (e : ByteEnables), e.both = true →
      exec (.noticeEnableWrite v e) s = .next { s with notices := { s.notices with enabled := v &&& 0xFFFE } })
    ∧ (∀ (s : State) (v : Half) (e : ByteEnables), e.both = false → exec (.noticeEnableWrite v e) s = .next s)
    ∧ (∀ (v : Half) (e : ByteEnables) (s : State), exec (.ignoredRegisterWrite 7 v e) s = .next s)
    ∧ (∀ s : State, s.portRead 6 = s.notices.enabled)
    ∧ (∀ s : State, s.interruptLine = true ↔ ∃ c : Notice, s.isPending c = true ∧ s.notices.enabled.getLsbD c.index = true)
    ∧ State.reset.notices.enabled = 0
    ∧ ∀ s : State, s.part = .ready →
        ∃ t : State, exec (.restart 1 ⟨true, true⟩ false) s = .next t ∧ t.notices.enabled = 0 ∧ t.interruptLine = false

/-- NOTICE_VECTOR (R16). -/
def Obligations.NoticeVectorReads : Prop :=
  (∀ n : Notices, (∀ i : Nat, 1 ≤ i → i ≤ 15 → n.active.getLsbD i = true → (∀ j : Nat, 1 ≤ j → j < i → n.active.getLsbD j = false) →
        n.vectorIndex = i) ∧ (n.active = 0 → n.vectorIndex = 0)
      ∧ n.vector.toNat = (n.base.toNat + n.vectorIndex * 2 ^ n.stride.toNat) % 2 ^ 32)
    ∧ (∀ s : State, exec .noticeVectorLowRead s = .next { s with
        hostData := s.notices.vector.extractLsb' 0 16
        notices := { s.notices with vectorHigh := some (s.notices.vector.extractLsb' 16 16) } })
    ∧ (∀ (s : State) (h : Half), s.notices.vectorHigh = some h →
        exec .noticeVectorHighRead s = .next { s with hostData := h, notices := { s.notices with vectorHigh := none } })
    ∧ (∀ s : State, s.notices.vectorHigh = none → exec .noticeVectorHighRead s = .next { s with
        hostData := s.notices.vector.extractLsb' 16 16, notices := { s.notices with vectorHigh := none } })
    ∧ (∀ (a : BitVec 17) (v : Half) (e : ByteEnables) (s : State), (a = 2 ∨ a = 3) → exec (.ignoredRegisterWrite a v e) s = .next s)
    ∧ ∀ n : Notices, n.base = 0x00400000 → n.stride = 4 →
        (n.active = Notice.account.bit → n.vector = 0x00400090) ∧ (n.active = 0 → n.vector = 0x00400000)

/-! ## The reset input, start-up, the soft restart -/

/-- RESET_ASSERT, RESET_RELEASE, RUN_COUNTER_TICK and STARTUP_COMPLETE (R18, R22, R28, R29). The header snapshot reads 0 from the assertion
to READY. At the end of the 48 bits the counter's value is free (log 6). At STARTUP_COMPLETE the memory and every table stand at their
power-on values but for the guard and post-refused counters and the notice unit's registers, the part is READY with the header snapshot of
this run tick, and CLOCK is raised, because the clock is not valid. That the clearing falls at this command, what waits at a reset, that the
header's bracket is closed twice, that an assertion brackets the header, that the reset leaves no high half of the vector and idles the
lines, and the marks of a census and of a superframe boundary that are due, are the model's choices (logs 3, 27, 29, 8, 11, 24, 5, 21). -/
def Obligations.ResetInputAndStartup : Prop :=
  (∀ s : State, exec .resetAssert s = .next { s with
      part := .starting, resetLow := true
      header := { s.header with
        guardHits := 0, postRefused := 0, snapTicks := 0, snapSeconds := 0, snapFraction := 0, changes := s.header.changes + 2 }
      notices := { waiting := 0, enabled := 0, base := 0, stride := 0, vectorHigh := none }
      clock := { run := s.clock.run, offset := 0, valid := false, markDue := false }
      down := Vector.replicate 24 none, framer := { s.framer with due := false, line := none } })
    ∧ (∀ s : State, s.resetLow = true → exec .resetRelease s = .next { s with
        resetLow := false, clock := { s.clock with run := 0, markDue := false }, framer := { s.framer with frames := 0, due := false } })
    ∧ (∀ s : State, s.resetLow = false → exec .resetRelease s = .next s)
    ∧ (∀ s : State, s.resetLow = true → exec .runCounterTick s = .next s)
    ∧ (∀ s : State, s.resetLow = false → s.clock.run + 1 < 2 ^ 48 → exec .runCounterTick s = .next { s with
        clock := { s.clock with run := s.clock.run + 1, markDue := decide ((s.clock.run + 1) % 1024 = 0) } })
    ∧ (∀ s : State, s.resetLow = false → 2 ^ 48 ≤ s.clock.run + 1 → ∃ (v : BitVec 48) (due : Bool),
        exec .runCounterTick s = .next { s with clock := { s.clock with run := v.toNat, markDue := due }, draws := s.draws + 1 })
    ∧ (∀ s : State, s.part = .starting → s.resetLow = false → exec .startupComplete s = .next { State.reset with
      part := .ready, hostData := s.hostData
      header := { changes := 4, guardHits := s.header.guardHits, postRefused := s.header.postRefused, snapTicks := s.clock.run
                  snapSeconds := 0, snapFraction := 0 }
      notices := { s.notices with waiting := s.notices.waiting ||| Notice.clock.bit }
      clock := { s.clock with offset := 0, valid := false }, framer := { Framer.initial with frames := s.framer.frames }
      draws := s.draws, pending := s.pending })
    ∧ ∀ s : State, (s.part ≠ .starting ∨ s.resetLow = true) → exec .startupComplete s = .next s

/-- PART_CONTROL and IGNORED_REGISTER_WRITE (R17, R20). A read of PART_CONTROL gives the part state, the clock-valid flag and the number
of slots in the post queue, at most 32. A RESTART taken between orders: the counters, sets, base and stride of R20, every standing and
queued slot DONE with ABORTED, every other slot and byte as it was, both lists empty, and ORDER pending when an order was aborted. Taken
while an order is WORKING: that order's slot, too, ends DONE with ABORTED. That the command says whether an order was WORKING (log 1), and
that ABORTED stands over a result its block had already written (log 32), are the model's. -/
def Obligations.RestartAbortsOrders : Prop :=
  (∀ s : State, s.orders.queue.length ≤ 32 → (s.portRead 8).extractLsb' 0 2 = BitVec.ofNat 2 s.part.code
      ∧ (s.portRead 8).getLsbD 2 = s.clock.valid ∧ (s.portRead 8).extractLsb' 3 5 = 0
      ∧ ((s.portRead 8).extractLsb' 8 8).toNat = s.orders.queue.length ∧ s.portRead 9 = 0)
    ∧ (∀ (v : Half) (e : ByteEnables) (w : Bool) (s : State), (s.part ≠ .ready ∨ v ≠ 1 ∨ e.both = false) →
      exec (.restart v e w) s = .next s)
    ∧ (∀ (e : ByteEnables) (s : State), s.part = .ready → e.both = true → s.memOk → ∃ t : State, exec (.restart 1 e false) s = .next t
        ∧ t = { s with
            part := .restarting, orders := { queue := [], standing := [] }, mem := t.mem, channels := t.channels
            header := { s.header with guardHits := 0, postRefused := 0, changes := s.header.changes + 2 }
            notices := { s.notices with
              enabled := 0, base := 0, stride := 0
              waiting := if s.orders.queue = [] ∧ s.orders.standing = [] then 0 else Notice.order.bit } }
        ∧ (∀ n : SlotId, (n ∈ s.orders.queue ∨ n ∈ s.orders.standing.map (fun x => x.slot)) →
            t.holder n = Holder.done ∧ t.mem.read8 (slotBase n + 6) = ResultCode.aborted.code ∧ t.mem.read8 (slotBase n + 7) = 0)
        ∧ (∀ a : Nat, (∀ n : SlotId, (n ∈ s.orders.queue ∨ n ∈ s.orders.standing.map (fun x => x.slot)) → ¬ resultByte n a) →
            t.mem.read8 a = s.mem.read8 a)
        ∧ ∀ c : ChannelId,
            ((∃ x ∈ s.orders.standing, x.owner = .handover c) →
              t.channel c = { s.channel c with schedule := none, changes := (t.channel c).changes })
            ∧ ((¬ ∃ x ∈ s.orders.standing, x.owner = .handover c) → t.channel c = s.channel c))
    ∧ (∀ (e : ByteEnables) (s : State) (n : SlotId) (rest : List SlotId), s.part = .ready → e.both = true → s.memOk →
        s.orders.queue = n :: rest → ∃ t : State, exec (.restart 1 e true) s = .next t ∧ t.part = .restarting
          ∧ t.orders.queue = [] ∧ t.orders.standing = [] ∧ t.holder n = Holder.done
          ∧ t.mem.read8 (slotBase n + 6) = ResultCode.aborted.code ∧ t.mem.read8 (slotBase n + 7) = 0)
    ∧ ∀ (a : BitVec 17) (v : Half) (e : ByteEnables) (s : State), (Instr.ignoredRegisterWrite a v e).wellFormed = true →
        exec (.ignoredRegisterWrite a v e) s = .next s

/-- SOFT_RESTART_COMPLETE (R21): the RESTART record written, or lost and counted where it would wait, with the waiting records lost
(R169); what R21 keeps, the host words, the slots and the tally records with it; every table, setting and block at its power-on values,
each record in a bracket (R3); READY with a fresh snapshot (R29), and CLOCK when the clock is not valid. That no high half of the vector
stays kept, and that polling starts with rack 0, are the model's (logs 11, 23); a census mark due at this tick stays due (log 5). -/
def Obligations.SoftRestartClears : Prop :=
  (∀ s : State, s.part ≠ .restarting → exec .softRestartComplete s = .next s)
    ∧ ∀ s : State, s.part = .restarting → s.memOk → ∃ t : State, exec .softRestartComplete s = .next t
      ∧ t = { State.reset with
          part := .ready, resetLow := s.resetLow, hostData := s.hostData, header := t.header, clock := s.clock, mem := t.mem
          notices := { s.notices with waiting := t.notices.waiting, vectorHigh := none }
          log := { t.log with policy := s.log.policy, waiting := [] }, nextHire := s.nextHire, draws := s.draws, pending := s.pending
          booths := t.booths, channels := t.channels, down := s.down, audio := s.audio
          framer := { State.reset.framer with
            changes := s.framer.changes + 2, frames := s.framer.frames, line := s.framer.line }
          positions := t.positions, receivers := t.receivers, hires := t.hires, accounts := t.accounts, tariffs := t.tariffs }
      ∧ (∀ b : BoothId, t.booth b = { State.reset.booth b with changes := (s.booth b).changes + 2 })
      ∧ (∀ c : ChannelId, t.channel c = { State.reset.channel c with changes := (s.channel c).changes + 2 })
      ∧ (∀ p : PosId, t.position p = { State.reset.position p with changes := (s.position p).changes + 2 })
      ∧ (∀ e : RecvId, t.receiver e = { State.reset.receiver e with changes := (s.receiver e).changes + 2 })
      ∧ (∀ h : HireId, t.hire h = { State.reset.hire h with changes := (s.hire h).changes + 2 })
      ∧ (∀ a : AcctId, t.account a = { State.reset.account a with changes := (s.account a).changes + 2 })
      ∧ (∀ k : TariffId, t.tariffs.get k = { State.reset.tariffs.get k with changes := (s.tariffs.get k).changes + 2 })
      ∧ t.header.guardHits = s.header.guardHits ∧ t.header.postRefused = s.header.postRefused ∧ t.header.snapTicks = s.clock.run
      ∧ ({ seconds := t.header.snapSeconds, fraction := t.header.snapFraction } : Stamp) = (s.clock.calendarAt s.clock.run).getD Stamp.zero
      ∧ (∀ n : Notice, t.isPending n = (s.isPending n || (n == .clock && !s.clock.valid)
          || (n == .log && !s.logBlocked && decide (s.unread = 767))))
      ∧ (∀ a : Nat, 0x102 ≤ a → a < 0xA00 → t.mem.read8 a = s.mem.read8 a)
      ∧ (s.logBlocked = true → t.mem = s.mem ∧ t.log.writeCount = s.log.writeCount
          ∧ t.log.lost = min (2 ^ 32 - 1) (min (2 ^ 32 - 1) (s.log.lost + 1) + s.log.waiting.length))
      ∧ (s.logBlocked = false →
          let full := s.log.policy = .overwrite ∧ 1024 ≤ s.unread
          t.log.writeCount = s.log.writeCount + 1
          ∧ t.log.lost = min (2 ^ 32 - 1) ((if full then min (2 ^ 32 - 1) (s.log.lost + 1) else s.log.lost) + s.log.waiting.length)
          ∧ t.readCount = (if full then s.readCount + 1 else s.readCount)
          ∧ (∀ a : Nat, a ≠ 0x100 → a ≠ 0x101 → (a < tallyBase s.log.writeCount ∨ tallyBase s.log.writeCount + 64 ≤ a) →
              t.mem.read8 a = s.mem.read8 a)
          ∧ t.mem.read8 (tallyBase s.log.writeCount + 2) = 5
          ∧ t.mem.readBytes (tallyBase s.log.writeCount + 0x0C) 8 =
              leBytes 2 (s.hires.toList.countP (fun r => r.state == .opened))
              ++ leBytes 2 (s.hires.toList.countP (fun r => r.state == .reserving))
              ++ leBytes 2 (s.accounts.toList.countP (fun r => decide (0 < r.deposit) || decide (0 < r.owed)))
              ++ leBytes 2 (s.receivers.toList.countP (fun r => r.state == .onHire || r.state == .silent)))

/-! ## Orders of the order unit, the notice unit and the log writer -/

/-- UNKNOWN_ORDER (R7): a kind outside the table of order kinds is refused BAD_ARGUMENT. And whatever the order: one refused when its
block takes it has had no effect on any state of the part apart from the slot itself (R8); where the slot then shows REFUSED, only the
slot's result bytes, the post queue and the ORDER notice differ. A refused HANDOVER alone carries result values (R88). -/
def Obligations.RefusedOrderChangesOnlyItsSlot : Prop :=
  (∀ (s : State) (k : Nat) (n : SlotId) (rest : List SlotId), s.takes k n rest → (k = 0 ∨ 24 < k) →
      s.refuses .unknownOrder n rest .badArgument)
    ∧ ∀ i ∈ orderRows, ∀ (s t : State) (k : Nat) (n : SlotId) (rest : List SlotId), s.takes k n rest → exec i s = .next t →
      t.orders.queue = rest → t.mem.read8 (slotBase n + 6) = ResultCode.refused.code →
      ∃ (r : Reason) (v : List Byte), t = s.answered rest t.mem ∧ t.mem.answers s.mem n { Result.refused r with values := v }
        ∧ (k ≠ 14 → v = [])

/-- SET_NOTICE and SET_TIMERS (R11, R12, R13): the settings brought into their ranges, CLAMPED when one had to be, one bracket of the
header, and the READY and CHARGING lamps compared with the new threshold. That a position whose lamp comes out the same keeps its change
counter is the model's count (log 8). -/
def Obligations.NoticeAndTimerSettings : Prop :=
  (∀ (s : State) (n : SlotId) (rest : List SlotId), s.takes 1 n rest →
      s.completes .setNotice n rest { s with
        header := { s.header with changes := s.header.changes + 2 }
        notices := { s.notices with
          base := BitVec.ofNat 32 (s.paramLE n 0 4), stride := BitVec.ofNat 16 (min 16 (s.paramLE n 4 2)) } }
        { code := .done, reason := .noReason, clamped := decide (16 < s.paramLE n 4 2), already := false, values := [] })
    ∧ ∀ (s : State) (n : SlotId) (rest : List SlotId), s.takes 2 n rest → ∃ (x : Timers) (lamps : Vector Position 320),
      s.completes .setTimers n rest { s with
        header := { s.header with changes := s.header.changes + 2 }, timers := x, positions := lamps }
        { code := .done, reason := .noReason, clamped := decide (x.list ≠ (List.range 11).map (fun i => s.paramLE n (2 * i) 2))
          already := false, values := [] }
      ∧ x.reservation = max 10 (min 300 (s.paramLE n 0 2)) ∧ x.settle = min 2000 (s.paramLE n 2 2)
      ∧ x.freshness = max 10 (min 120 (s.paramLE n 4 2))
      ∧ x.silent = max (x.freshness + 10) (max 60 (min 3600 (s.paramLE n 6 2)))
      ∧ x.quietHold = min 60 (s.paramLE n 8 2) ∧ x.lossHold = min 5000 (s.paramLE n 10 2)
      ∧ x.acceptWindow = max 3 (min 60 (s.paramLE n 12 2)) ∧ x.mergeGap = min 120 (s.paramLE n 14 2)
      ∧ x.relief = (if s.paramLE n 16 2 = 0 then 0 else max 300 (min 7200 (s.paramLE n 16 2)))
      ∧ x.handoverWait = max 5 (min 120 (s.paramLE n 18 2)) ∧ x.battery = min 15 (s.paramLE n 20 2)
      ∧ ∀ p : PosId,
          (((s.position p).lamp = .ready ∨ (s.position p).lamp = .charging) →
            lamps[p].lamp = dockLamp x.battery (s.position p).state (s.heldEntry p)
            ∧ lamps[p] = { s.position p with lamp := lamps[p].lamp, changes := lamps[p].changes }
            ∧ (lamps[p].lamp = (s.position p).lamp → lamps[p] = s.position p))
          ∧ (¬ ((s.position p).lamp = .ready ∨ (s.position p).lamp = .charging) → lamps[p] = s.position p)

/-- SET_LOG_POLICY (R165, R167): a policy above 1 is refused; the policy in force again is ALREADY; a change to KEEP moves the policy
alone; a change to OVERWRITE writes every waiting record at once, oldest first, so that the last 1024 of them stand in the log, releases
what each belonged to, and the result tells the previous policy and how many were written. That an ALREADY result carries its values too
is the model's reading (log 15). -/
def Obligations.LogPolicySet : Prop :=
  ∀ (s : State) (n : SlotId) (rest : List SlotId), s.takes 3 n rest →
    (1 < s.param8 n 0 → s.refuses .setLogPolicy n rest .badArgument)
    ∧ (∀ p : LogPolicy, s.param8 n 0 = p.code.toNat → p = s.log.policy →
        s.completes .setLogPolicy n rest s (Result.doneAlready [p.code, 0, 0]))
    ∧ (s.param8 n 0 = 0 → s.log.policy = .overwrite →
        s.completes .setLogPolicy n rest { s with
          header := { s.header with changes := s.header.changes + 2 }, log := { s.log with policy := .keep } } (Result.done [1, 0, 0]))
    ∧ (s.param8 n 0 = 1 → s.log.policy = .keep → ∃ u : State,
        s.completes .setLogPolicy n rest u (Result.done (0 :: leBytes 2 s.log.waiting.length))
        ∧ u.log.policy = .overwrite ∧ u.log.waiting = []
        ∧ u.log.writeCount = s.log.writeCount + BitVec.ofNat 16 s.log.waiting.length
        ∧ (∀ (i : Nat) (w : WaitEntry), s.log.waiting[i]? = some w →
            (s.log.waiting.length ≤ i + 1024 →
              let base := tallyBase (s.log.writeCount + BitVec.ofNat 16 i)
              u.mem.read8 (base + 2) = w.record.kind ∧ u.mem.read16 (base + 4) = s.log.writeCount + BitVec.ofNat 16 i
              ∧ u.mem.readBytes (base + 6) 6 = leBytes 6 s.clock.run
              ∧ u.mem.readBytes (base + 0x0C) w.record.body.length = w.record.body)
            ∧ (∀ h : HireId, w.owner = .hire h → (u.hire h).state = .free)
            ∧ (∀ d : RecvId, w.owner = .receiver d → (u.receiver d).foundWaiting = false))
        ∧ (∀ h : HireId, (∀ w ∈ s.log.waiting, w.owner ≠ .hire h) → u.hire h = s.hire h)
        ∧ (∀ d : RecvId, (∀ w ∈ s.log.waiting, w.owner ≠ .receiver d) → u.receiver d = s.receiver d)
        ∧ (∀ a : Nat, a < 0x30000 → a ≠ 0x100 → a ≠ 0x101 → u.mem.read8 a = s.mem.read8 a)
        ∧ u = { s with
            mem := u.mem, log := u.log, header := u.header, notices := u.notices, hires := u.hires, booths := u.booths
            receivers := u.receivers })

/-- CANCEL (R10): a target above 31 is refused BAD_ARGUMENT; a standing target is ended by its block and completed CANCELLED; a queued one
leaves the queue, the others keeping their order, and is completed CANCELLED unworked; in every other holder state STATE. That a queued
HANDOVER cancelled so carries no result values, though R88 gives every completion of one values, is the model's (log 37). -/
def Obligations.CancelEndsStandingAndQueued : Prop :=
  ∀ (s : State) (n : SlotId) (rest : List SlotId), s.takes 4 n rest →
    (31 < s.paramLE n 0 2 → s.refuses .cancel n rest .badArgument)
    ∧ (∀ k : SlotId, s.paramLE n 0 2 = k.val → k ≠ n →
      (∀ x : Standing, s.orders.standing.find? (fun u => u.slot = k) = some x → s.standingOf x.owner = some x →
        ∃ t : State, exec .cancel s = .next t ∧ t.orders.queue = rest ∧ t.orders.standing = s.orders.standing.filter (fun u => u.slot ≠ k)
          ∧ t.mem.shows n (Result.done []) ∧ t.holder k = Holder.done
          ∧ t.mem.read8 (slotBase k + 6) = ResultCode.cancelled.code ∧ t.mem.read8 (slotBase k + 7) = 0
          ∧ (∀ a : Nat, ¬ resultByte n a → ¬ resultByte k a → t.mem.read8 a = s.mem.read8 a)
          ∧ (∀ h : HireId, x.owner = .issue h → (t.hire h).state = .free ∧ (t.receiver (s.hire h).receiver).state = .docked
              ∧ (t.account (s.hire h).account).holds = (s.account (s.hire h).account).holds - (s.hire h).hold)
          ∧ (∀ c : ChannelId, x.owner = .handover c → (t.channel c).schedule = none)
          ∧ t.log = s.log ∧ t.clock = s.clock ∧ t.timers = s.timers ∧ t.framer = s.framer)
      ∧ (s.orders.standing.find? (fun u => u.slot = k) = none → s.holder k = Holder.queued →
        ∃ m : Memory, exec .cancel s = .next (s.answered (rest.filter (fun u => u ≠ k)) m) ∧ m.shows n (Result.done [])
          ∧ m.shows k { code := .cancelled, reason := .noReason, clamped := false, already := false, values := [] }
          ∧ ∀ a : Nat, ¬ resultByte n a → ¬ resultByte k a → m.read8 a = s.mem.read8 a)
      ∧ (s.orders.standing.find? (fun u => u.slot = k) = none → s.holder k ≠ Holder.queued → s.refuses .cancel n rest .state))
    ∧ (s.paramLE n 0 2 = n.val → s.orders.standing.find? (fun u => u.slot = n) = none → s.refuses .cancel n rest .state)

/-- CLEAR_COUNTS (R53, R55, R118): group 1 clears the lifetime counters, and in a bracket of its own the ignored events (R55), of one
booth or of all, group 2 the insertions
and removals of one rack's positions or of all, and nothing else; any other group, booth or rack is refused BAD_ARGUMENT. That group 1
opens its two brackets over counts that are 0 already is the model's count (log 8). -/
def Obligations.ClearCountsGroups : Prop :=
  ∀ (s : State) (n : SlotId) (rest : List SlotId), s.takes 5 n rest →
    (s.param8 n 0 = 1 → (s.param8 n 1 < 24 ∨ s.param8 n 1 = 255) → ∃ v : Vector Booth 24,
        s.completes .clearCountsLinks n rest { s with booths := v } (Result.done [])
        ∧ ∀ b : BoothId, v[b] = if s.param8 n 1 = b.val ∨ s.param8 n 1 = 255 then
            { s.booth b with
              changes := (s.booth b).changes + 4, link := { (s.booth b).link with counts := LinkCounts.zero }
              cons := { (s.booth b).cons with ignored := 0 } } else (s.booth b))
    ∧ (s.param8 n 0 = 2 → (s.param8 n 1 < 8 ∨ s.param8 n 1 = 255) → ∃ v : Vector Position 320,
        s.completes .clearCountsDocks n rest { s with positions := v } (Result.done [])
        ∧ ∀ p : PosId, v[p] = if s.param8 n 1 = p.val / 40 ∨ s.param8 n 1 = 255 then
            { s.position p with changes := (s.position p).changes + 2, insertions := 0, removals := 0 } else (s.position p))
    ∧ (s.param8 n 0 = 1 → 24 ≤ s.param8 n 1 → s.param8 n 1 ≠ 255 → s.refuses .clearCountsLinks n rest .badArgument)
    ∧ (s.param8 n 0 = 2 → 8 ≤ s.param8 n 1 → s.param8 n 1 ≠ 255 → s.refuses .clearCountsDocks n rest .badArgument)
    ∧ (s.param8 n 0 ≠ 1 → s.param8 n 0 ≠ 2 → s.refuses .clearCountsLinks n rest .badArgument)

/-- SET_CLOCK (R25, R26, R29): the calendar at this tick is exactly the value given, the fraction at most 1023; the clock is valid, the
snapshot is rewritten, and the result tells the tick and the calendar that held just before. On a valid clock CLOCK is raised, the open
hires and open turns are marked, and every standing HANDOVER is compared afresh with the new calendar: one not yet waiting is warned, or
waits, or is done ALREADY, as the calendar has reached its warning or its target (R87), and one that waits is left; on a clock not valid
nothing else changes. -/
def Obligations.ClockSet : Prop :=
  ∀ (s : State) (n : SlotId) (rest : List SlotId), s.takes 6 n rest → ∃ u : State,
    s.completes .setClock n rest u
      { code := .done, reason := .noReason, clamped := decide (1023 < s.paramLE n 4 2), already := false
        values := leBytes 6 s.clock.run ++ ((s.clock.calendarAt s.clock.run).getD Stamp.zero).bytes }
    ∧ u.clock.run = s.clock.run ∧ u.clock.valid = true
    ∧ u.clock.calendarAt u.clock.run = some { seconds := s.paramLE n 0 4, fraction := min 1023 (s.paramLE n 4 2) }
    ∧ u.header.snapTicks = s.clock.run ∧ u.header.snapSeconds = s.paramLE n 0 4 ∧ u.header.snapFraction = min 1023 (s.paramLE n 4 2)
    ∧ (s.clock.valid = false → u = { s with clock := u.clock, header := u.header })
    ∧ (s.clock.valid = true → u.isPending .clock = true
        ∧ (∀ h : HireId, (u.hire h).clockSet = ((s.hire h).clockSet || (s.hire h).state == .opened))
        ∧ (∀ (b : BoothId) (k : ConsoleId), ((u.booth b).cons.console k).clockSet =
            (((s.booth b).cons.console k).clockSet || ((s.booth b).cons.console k).turnOpen))
        ∧ (s.slotsOk → ∀ c : ChannelId, c ≠ 0 →
          let old := s.channel c
          let new := u.channel c
          new = { old with schedule := new.schedule, changes := new.changes }
          ∧ (old.schedule = none → new = old)
          ∧ ∀ h : Schedule, old.schedule = some h →
            let warn := u.clock.reached h.warnCal = true
            let due := u.clock.reached h.targetCal = true
            ((h.phase = .waiting ∨ (¬ due ∧ ¬ warn)) → new = old)
            ∧ (h.phase ≠ .waiting → ¬ due → warn → new.schedule = some { h with phase := .warned })
            ∧ (h.phase ≠ .waiting → due → old.owner ≠ h.target →
                new.schedule = some { h with phase := .waiting, waitDeadline := s.clock.run + s.timers.handoverWait * 1024 })
            ∧ (h.phase ≠ .waiting → due → old.owner = h.target → new.schedule = none ∧
                ∀ x : Standing, s.standingOf (.handover c) = some x → x ∉ u.orders.standing
                  ∧ u.mem.shows x.slot { code := .done, reason := .noReason, clamped := x.clamped, already := true
                                         values := leBytes 6 0 ++ [old.owner.code, old.fault.toByte] }))
        ∧ u.accounts = s.accounts ∧ u.receivers = s.receivers ∧ u.positions = s.positions ∧ u.timers = s.timers ∧ u.log = s.log)

/-! ## Booth links -/

/-- The definition a BOOTH_DEFINE writes (R50): the console count and the threshold brought into their ranges, a threshold of 0 being 16; in
the same bracket the console count in use, and no interpreter above it (R54); an argument out of range is refused BAD_ARGUMENT, and then a
link that is not HELD is refused NOT_HELD. -/
def Obligations.BoothDefineWritesDefinition : Prop :=
  ∀ (s : State) (n : SlotId) (rest : List SlotId), s.takes 7 n rest →
    let wrong := 23 < s.param8 n 0 ∨ s.paramLang n 6 = none ∨ 1 < s.param8 n 9 ∨ 1 < s.param8 n 10 ∨ 1 < s.param8 n 11
    (wrong → s.refuses .boothDefine n rest .badArgument)
    ∧ ∀ b : BoothId, ¬ wrong → s.param8 n 0 = b.val →
      ((s.booth b).link.state ≠ .held → s.refuses .boothDefine n rest .notHeld)
      ∧ ((s.booth b).link.state = .held → ∃ (r : Booth) (l : Lang), s.paramLang n 6 = some l
        ∧ s.completes .boothDefine n rest { s with booths := s.booths.set b r }
            { code := .done, reason := .noReason, already := false, values := []
              clamped := decide (s.param8 n 1 = 0 ∨ 3 < s.param8 n 1 ∨ 255 < s.paramLE n 12 2) }
        ∧ r.link = { (s.booth b).link with definition :=
            { defined := true, lang := l, consoles := max 1 (min 3 (s.param8 n 1)), serial := BitVec.ofNat 32 (s.paramLE n 2 4)
              format := if s.param8 n 9 = 1 then .wide else .standard, method := if s.param8 n 10 = 1 then .fields else .bytes
              threshold := if s.paramLE n 12 2 = 0 then 16 else min 255 (s.paramLE n 12 2), masking := decide (s.param8 n 11 = 0) } }
        ∧ r.changes = (s.booth b).changes + 2 ∧ r.role = (s.booth b).role
        ∧ r.cons = { (s.booth b).cons with inUse := max 1 (min 3 (s.param8 n 1)), each := r.cons.each }
        ∧ ∀ k : ConsoleId, (r.cons.console k) = { (s.booth b).cons.console k with
            interpreter := if k.val < max 1 (min 3 (s.param8 n 1)) then ((s.booth b).cons.console k).interpreter else 0 })

/-- LINK_HOLD and LINK_RELEASE (R51, R52). A hold from LIVE makes the hand-over of R49: the consoles go down, every open turn's record
handed with cause LINK (R70), and the channel router makes its check, owner down since set and offer and move cleared by the fault (R77,
R81), with no notice of its own; from any other state it touches that one record. The order of those records is the model's (log 34). -/
def Obligations.LinkHoldAndRelease : Prop :=
  (∀ (s : State) (n : SlotId) (rest : List SlotId), s.takes 8 n rest →
      (23 < s.param8 n 0 → s.refuses .linkHold n rest .badArgument)
      ∧ ∀ b : BoothId, s.param8 n 0 = b.val →
        ((s.booth b).link.state = .held → s.completes .linkHold n rest s (Result.doneAlready [0]))
        ∧ ((s.booth b).link.state ≠ .held → ∃ u : State,
          s.completes .linkHold n rest u (Result.done [(s.booth b).link.state.code])
          ∧ (u.booth b).link = { (s.booth b).link with
              state := .held, cause := .hold, changed := s.clock.run, resync := false, alignRun := 0, missingRun := 0, badRun := 0
              heldRun := 0 }
          ∧ ((s.booth b).link.state ≠ .live → u = { s with
              booths := s.booths.set b { s.booth b with link := (u.booth b).link, changes := (s.booth b).changes + 2 } })
          ∧ ((s.booth b).link.state = .live → s.wentDown u b ∧ u.notices = (s.turnsHanded b .link).notices
              ∧ (∀ d : BoothId, d ≠ b → (u.booth d).link = (s.booth d).link ∧ (u.booth d).role = (s.booth d).role)
              ∧ u = { s with
                  booths := u.booths, inner := u.inner, channels := u.channels, log := u.log, mem := u.mem, header := u.header
                  notices := u.notices })))
    ∧ ∀ (s : State) (n : SlotId) (rest : List SlotId), s.takes 9 n rest →
      (23 < s.param8 n 0 → s.refuses .linkRelease n rest .badArgument)
      ∧ ∀ b : BoothId, s.param8 n 0 = b.val →
        ((s.booth b).link.state ≠ .held → s.refuses .linkRelease n rest .state)
        ∧ ((s.booth b).link.state = .held → (s.booth b).link.definition.defined = false → s.refuses .linkRelease n rest .notFound)
        ∧ ((s.booth b).link.state = .held → (s.booth b).link.definition.defined = true →
          s.completes .linkRelease n rest { s with
            booths := s.booths.set b { s.booth b with
              changes := (s.booth b).changes + 2
              link := { (s.booth b).link with
                state := .seeking, cause := .release, changed := s.clock.run, resync := false, alignRun := 0, missingRun := 0, badRun := 0
                heldRun := 0 } } } (Result.done []))

/-- Frames and gaps outside the content of LIVE (R31, R33 to R35, R46). A frame is not taken outside READY or in HELD; in SEEKING only its
marker counts, the sixteenth in place aligning the link, and a missing one starts the hunt again; an AUDIO frame in ANNOUNCING or MISMATCH
only ends a run of missing markers. In an aligned state a missing marker makes the run grow, a LIVE period is filled as an errored frame,
and the fourth takes the link to SEEKING with cause LOST, from LIVE with the hand-over of R49 (R70, R77, R81). That the fourth is itself
not filled, that a frame out of its place counts as arriving once the link is aligned, that the held run grows with no last good frame too,
that in SEEKING link fields that come out the same leave the change counter, that a missing marker in RESTARTING changes nothing, and the
order of the TURN records, are the model's (logs 20, 26, 19, 8, 33, 34). -/
def Obligations.FramesAndMarkers : Prop :=
  (∀ (b : BoothId) (a : AudioFrame) (f : AnnounceFrame) (s : State),
    ((s.part ≠ .ready ∨ (s.booth b).link.state = .held) →
      exec (.audioFrame b a) s = .next s ∧ exec (.announceFrame b f) s = .next s)
    ∧ (∀ (i : Instr) (p : Bool), s.part = .ready → (s.booth b).link.state = .seeking →
        ((i = .audioFrame b a ∧ p = a.inPlace) ∨ (i = .announceFrame b f ∧ p = f.inPlace)) →
        ∃ r : Booth, exec i s = .next { s with booths := s.booths.set b r }
          ∧ r = { s.booth b with link := r.link, changes := if r.link = (s.booth b).link then (s.booth b).changes else (s.booth b).changes + 2 }
          ∧ (∀ k : Nat, k = (if p = true ∧ 0 < (s.booth b).link.alignRun then (s.booth b).link.alignRun + 1 else 1) →
              r.link = if k = 16 then { (s.booth b).link with
                  state := .announcing, cause := .aligned, changed := s.clock.run, resync := false, alignRun := 16, missingRun := 0
                  badRun := 0 } else { (s.booth b).link with alignRun := k }))
    ∧ (s.part = .ready → ((s.booth b).link.state = .announcing ∨ (s.booth b).link.state = .mismatch) →
        ∃ r : Booth, exec (.audioFrame b a) s = .next { s with booths := s.booths.set b r }
          ∧ r.link = { (s.booth b).link with missingRun := 0 } ∧ r.cons = (s.booth b).cons ∧ r.role = (s.booth b).role))
    ∧ ∀ (b : BoothId) (s : State),
    ((s.part ≠ .ready ∨ (s.booth b).link.state = .held) → exec (.missingMarker b) s = .next s)
    ∧ (s.part = .ready → (s.booth b).link.state = .seeking → ∃ r : Booth,
        exec (.missingMarker b) s = .next { s with booths := s.booths.set b r }
        ∧ r = { s.booth b with
            link := { (s.booth b).link with alignRun := 0 }
            changes := if (s.booth b).link.alignRun = 0 then (s.booth b).changes else (s.booth b).changes + 2 })
    ∧ (s.part = .ready → ((s.booth b).link.state = .announcing ∨ (s.booth b).link.state = .mismatch ∨ (s.booth b).link.state = .live) →
        ∃ t : State, exec (.missingMarker b) s = .next t ∧
        let old := (s.booth b).link
        let new := (t.booth b).link
        (old.missingRun < 3 → new.state = old.state ∧ new.missingRun = old.missingRun + 1 ∧ t.notices = s.notices
            ∧ (t.booth b).cons = (s.booth b).cons ∧ t = { s with booths := t.booths, inner := t.inner }
            ∧ (old.state = .live → new.counts.replaced = min (2 ^ 32 - 1) (old.counts.replaced + 1)
                ∧ (t.inside b).handed = some (if old.heldRun < 2 then (s.inside b).lastGood.getD AudioTriple.silent else AudioTriple.silent)
                ∧ new.heldRun = (if old.heldRun < 2 then old.heldRun + 1 else old.heldRun)))
        ∧ (3 ≤ old.missingRun → new.state = .seeking ∧ new.cause = .lost ∧ new.resync = false ∧ new.missingRun = 0 ∧ new.alignRun = 0
            ∧ new.changed = s.clock.run ∧ new.counts.losses = min 65535 (old.counts.losses + 1) ∧ t.isPending .link = true
            ∧ (old.state = .live → s.wentDown t b ∧ t.notices = ((s.turnsHanded b .link).raise .link).notices)
            ∧ (old.state ≠ .live → t = { s with booths := t.booths, notices := (s.raise .link).notices }
                ∧ (t.booth b).cons = (s.booth b).cons))
        ∧ ∀ d : BoothId, d ≠ b → (t.booth d).link = (s.booth d).link ∧ t.inside d = s.inside d)

/-- An AUDIO frame taken in LIVE (R31, R43, R44, R46, R47): errors counted, the frame's own audio or its replacement handed, a surviving
event delivered, with the effect of its own row on the booth with the frame worked, and any other dropped and counted; a window counter at
the threshold takes the link to SEEKING, with the hand-over of R49 (R70, R77, R81), else it stays LIVE, its run of missing markers ended
(R35). That a frame out of its place in LIVE is taken so too, and the order of the TURN records, are the model's (logs 26, 34). -/
def Obligations.LiveAudioFrame : Prop :=
  ∀ (b : BoothId) (a : AudioFrame) (s : State), s.boothUp b → ∃ t : State, exec (.audioFrame b a) s = .next t ∧
    let old := (s.booth b).link
    let new := (t.booth b).link
    let masked := fun f : SymbolFault => f.balance && !(old.definition.masking && f.notInTable)
    let counted := fun f : SymbolFault => f.notInTable || f.marker || masked f
    let bad := !a.checkOk || a.faults.any (fun f => f.inAudio && counted f)
    let lost := !a.checkOk || a.faults.any (fun f => f.inControl && counted f)
    new.window = { symbol := min 255 (old.window.symbol + a.faults.countP (fun f => f.notInTable))
                   balance := min 255 (old.window.balance + a.faults.countP masked)
                   marker := min 255 (old.window.marker + a.faults.countP (fun f => f.marker)) }
    ∧ new.counts.errors = { symbol := min 65535 (old.counts.errors.symbol + a.faults.countP (fun f => f.notInTable))
                            balance := min 65535 (old.counts.errors.balance + a.faults.countP masked)
                            marker := min 65535 (old.counts.errors.marker + a.faults.countP (fun f => f.marker)) }
    ∧ (bad = false → (t.inside b).handed = some a.audio ∧ (t.inside b).lastGood = some a.audio ∧ new.counts.replaced = old.counts.replaced)
    ∧ (bad = true → new.counts.replaced = min (2 ^ 32 - 1) (old.counts.replaced + 1) ∧ (t.inside b).lastGood = (s.inside b).lastGood
        ∧ (t.inside b).handed = some (if old.heldRun < 2 then (s.inside b).lastGood.getD AudioTriple.silent else AudioTriple.silent))
    ∧ ((∃ e : ConsoleEvent, a.event = some e ∧ (lost = true ∨ e.kind = .unknown ∨ e.console = 0)) →
        new.counts.dropped = min 65535 (old.counts.dropped + 1))
    ∧ ((¬ ∃ e : ConsoleEvent, a.event = some e ∧ (lost = true ∨ e.kind = .unknown ∨ e.console = 0)) →
        new.counts.dropped = old.counts.dropped)
    ∧ ((old.definition.threshold ≤ new.window.symbol ∨ old.definition.threshold ≤ new.window.balance
          ∨ old.definition.threshold ≤ new.window.marker) →
        new.state = .seeking ∧ new.cause = .degraded ∧ new.resync = true ∧ new.changed = s.clock.run ∧ new.alignRun = 0
        ∧ new.counts.degraded = min 65535 (old.counts.degraded + 1) ∧ t.isPending .link = true
        ∧ s.wentDown t b ∧ t.notices = ((s.turnsHanded b .link).raise .link).notices)
    ∧ ((new.window.symbol < old.definition.threshold ∧ new.window.balance < old.definition.threshold
          ∧ new.window.marker < old.definition.threshold) → new.state = .live ∧ new.missingRun = 0
        ∧ t = { s with booths := t.booths, inner := t.inner, channels := t.channels }
        ∧ (∀ (e : ConsoleEvent) (k : ConsoleId), a.event = some e → lost = false → e.kind ≠ .unknown → e.console.val = k.val + 1 →
            k.val < (s.booth b).cons.inUse → ((t.booth b).cons.console k).lastEvent = lastEventOf e.kind)
        ∧ ((¬ ∃ e : ConsoleEvent, a.event = some e ∧ lost = false ∧ e.kind ≠ .unknown ∧ e.console ≠ 0) →
            (t.booth b).cons = (s.booth b).cons ∧ (t.booth b).role = (s.booth b).role ∧ t.channels = s.channels
            ∧ ∀ d : BoothId, d ≠ b → t.booth d = s.booth d))
    ∧ (∀ (e : ConsoleEvent) (i : Instr), a.event = some e → lost = false → e.console ≠ 0 → eventRow? b e.console e.kind = some i →
        ∃ u v : State,
          u = { s with
            booths := s.booths.set b { s.booth b with link := (u.booth b).link, changes := (u.booth b).changes }
            inner := s.inner.set b { s.inside b with lastGood := (t.inside b).lastGood, handed := (t.inside b).handed } }
          ∧ (u.booth b).link.state = .live ∧ exec i u = .next v
          ∧ (new.state = .live → v = t ∧ (u.booth b).link = new)
          ∧ (t.booth b).cons.ignored = (v.booth b).cons.ignored
          ∧ ∀ k : ConsoleId, ((t.booth b).cons.console k).lastEvent = ((v.booth b).cons.console k).lastEvent
              ∧ ((t.booth b).cons.console k).lastOutcome = ((v.booth b).cons.console k).lastOutcome)
    ∧ ∀ d : BoothId, d ≠ b → (t.booth d).link = (s.booth d).link ∧ t.inside d = s.inside d

/-- The checksum of an announce (R37): BYTES sums bytes 0 to 10 modulo 256, FIELDS leaves the unit revision, byte 10, out; the two agree
exactly when it is 0, so a nonzero revision passes only under the method its booth unit uses; the computed value is written whatever the
other fields hold. That an announce out of its place is checked so too is the model's (log 26). -/
def Obligations.AnnounceChecksum : Prop :=
  (∀ a : AnnounceBlock,
      a.sum .bytes = a[0] + a[1] + a[2] + a[3] + a[4] + a[5] + a[6] + a[7] + a[8] + a[9] + a[10]
      ∧ a.sum .fields = a[0] + (a[1] + a[2] + a[3] + a[4]) + (a[5] + a[6] + a[7]) + a[8] + a[9]
      ∧ (a.sum .bytes = a.sum .fields ↔ a[10] = 0)
      ∧ ∀ m k : SumMethod, m ≠ k → a[10] ≠ 0 → a[11] = a.sum m → a[11] ≠ a.sum k)
    ∧ (∀ (f : AnnounceFrame) (m : SumMethod), f.block[11] ≠ AnnounceBlock.sum f.block m → goodFrame f m = false)
    ∧ ∀ (b : BoothId) (f : AnnounceFrame) (s : State), s.part = .ready →
      ((s.booth b).link.state = .announcing ∨ (s.booth b).link.state = .mismatch ∨ (s.booth b).link.state = .live) →
      ∃ t : State, exec (.announceFrame b f) s = .next t ∧ (t.booth b).link.announced.received = f.block[11]
        ∧ (t.booth b).link.announced.computed = AnnounceBlock.sum f.block (s.booth b).link.definition.method

/-- An announce checked in ANNOUNCING, MISMATCH or LIVE (R36, R38 to R42, R48): a good one writes the announced fields and the first of
R39's conditions that fails; one that matches leaves the link LIVE, one that does not in MISMATCH; a bad one is counted, and the fourth in a
row takes the link to SEEKING; in LIVE its period is replaced. At the entry to LIVE the booth is quiet since this tick (R60) and the router
makes its check; at a departure the hand-over of R49 is made (R70, R77, R81). That an announce out of its place is checked so too, and the
order of the TURN records, are the model's (logs 26, 34). -/
def Obligations.AnnounceMovesTheLink : Prop :=
  ∀ (b : BoothId) (f : AnnounceFrame) (s : State), s.part = .ready →
    ((s.booth b).link.state = .announcing ∨ (s.booth b).link.state = .mismatch ∨ (s.booth b).link.state = .live) →
    ∃ t : State, exec (.announceFrame b f) s = .next t ∧
      let old := (s.booth b).link
      let new := (t.booth b).link
      let good := f.checkOk = true ∧ f.block[11] = AnnounceBlock.sum f.block old.definition.method
        ∧ AnnounceBlock.inRange f.block = true
      let met := f.block[0].toNat = b.val ∧ (old.definition.serial = 0 ∨ AnnounceBlock.serial f.block = old.definition.serial)
        ∧ AnnounceBlock.lang f.block = old.definition.lang ∧ old.definition.consoles ≤ f.block[8].toNat
        ∧ (f.block[9] = 1 ↔ old.definition.format = .wide)
      (good → met → new.state = .live ∧ new.badRun = 0 ∧ new.announced.mismatch = .noReason
          ∧ (old.state ≠ .live → new.cause = .up ∧ new.changed = s.clock.run ∧ new.window = ErrorCounts.zero ∧ new.heldRun = 0
              ∧ new.counts.entries = min 65535 (old.counts.entries + 1) ∧ (t.inside b).lastGood = none ∧ t.notices = (s.raise .link).notices
              ∧ s.cameUp t b)
          ∧ (old.state = .live → new.changed = old.changed ∧ new.counts.entries = old.counts.entries ∧ t.notices = s.notices))
      ∧ (good → ¬ met → new.state = .mismatch ∧ new.badRun = 0 ∧ new.announced.mismatch ≠ .noReason
          ∧ (old.state ≠ .mismatch → new.cause = .mismatch ∧ new.changed = s.clock.run ∧ t.isPending .announce = true
              ∧ new.counts.mismatches = min 65535 (old.counts.mismatches + 1))
          ∧ (old.state = .mismatch → new.changed = old.changed ∧ new.counts.mismatches = old.counts.mismatches ∧ t.notices = s.notices))
      ∧ (good → new.announced.serial = AnnounceBlock.serial f.block ∧ new.announced.lang = AnnounceBlock.lang f.block
          ∧ new.announced.booth = f.block[0] ∧ new.announced.consoles = f.block[8] ∧ new.announced.revision = f.block[10]
          ∧ new.announced.format = (if f.block[9] = 1 then .wide else .standard)
          ∧ new.announced.mismatch =
            if f.block[0].toNat ≠ b.val then .booth
            else if old.definition.serial ≠ 0 ∧ AnnounceBlock.serial f.block ≠ old.definition.serial then .serial
            else if AnnounceBlock.lang f.block ≠ old.definition.lang then .code
            else if f.block[8].toNat < old.definition.consoles then .consoles
            else if ¬ (f.block[9] = 1 ↔ old.definition.format = .wide) then .format else .noReason)
      ∧ (¬ good → new.counts.badAnnounces = min 65535 (old.counts.badAnnounces + 1) ∧ new.announced.serial = old.announced.serial
          ∧ new.announced.mismatch = old.announced.mismatch
          ∧ (old.badRun < 3 → new.state = old.state ∧ new.badRun = old.badRun + 1)
          ∧ (3 ≤ old.badRun → new.state = .seeking ∧ new.cause = .badAnnounce ∧ new.resync = true ∧ new.badRun = 0
              ∧ t.isPending .announce = true))
      ∧ (old.state = .live → new.counts.replaced = min (2 ^ 32 - 1) (old.counts.replaced + 1))
      ∧ (old.state = .live → new.state ≠ .live → s.wentDown t b ∧ t.notices = ((s.turnsHanded b .link).raise .announce).notices)
      ∧ ((old.state = .live ↔ new.state = .live) →
          t = { s with booths := t.booths, inner := t.inner, notices := t.notices } ∧ (t.booth b).cons = (s.booth b).cons)
      ∧ ∀ d : BoothId, d ≠ b → (t.booth d).link = (s.booth d).link ∧ t.inside d = s.inside d

/-! ## Consoles -/

/-- Where a console event is taken (R47, R55): nowhere but on a LIVE booth in READY; console number 0 is dropped and counted; a console
above the count in use is ignored and counted, and no console field changes. Then MIC_ON and MIC_OFF (R57, R58, R59), judged against the
claimed console. That the ignored count at its maximum is bracketed too is the model's (log 8). -/
def Obligations.MicrophoneInterlock : Prop :=
  (∀ (b : BoothId) (k : Fin 4) (s : State), ∀ i ∈ keyRows b k,
    (¬ s.boothUp b → exec i s = .next s)
    ∧ (s.boothUp b → k = 0 → ∃ r : Booth, exec i s = .next { s with booths := s.booths.set b r }
        ∧ r.link = { (s.booth b).link with counts := { (s.booth b).link.counts with
            dropped := min 65535 ((s.booth b).link.counts.dropped + 1) } } ∧ r.cons = (s.booth b).cons ∧ r.role = (s.booth b).role)
    ∧ (s.boothUp b → k ≠ 0 → (s.booth b).cons.inUse < k.val → exec i s = .next { s with booths := s.booths.set b { s.booth b with
        changes := (s.booth b).changes + 2
        cons := { (s.booth b).cons with ignored := min 65535 ((s.booth b).cons.ignored + 1) } } }))
    ∧ ∀ (b : BoothId) (k : Fin 4) (n : ConsoleId) (s : State), s.boothUp b → k.val = n.val + 1 → n.val < (s.booth b).cons.inUse →
    let old := (s.booth b).cons
    (∃ t : State, exec (.micOn b k) s = .next t ∧ t.channels = s.channels ∧ (t.booth b).cons.offer = old.offer ∧
      let new := (t.booth b).cons
      (old.claimed = none → s.keyed t b n .micOn .taken ∧ new.claimed = some n ∧ (new.console n).busy = (old.console n).busy)
      ∧ (old.claimed = some n → s.keyed t b n .micOn .ignored ∧ new.claimed = some n ∧ (new.console n).busy = (old.console n).busy)
      ∧ (∀ m : ConsoleId, old.claimed = some m → m ≠ n → s.keyed t b n .micOn .refused ∧ new.claimed = some m
          ∧ (new.console n).busy = some (s.clock.run + 2048)))
    ∧ ∃ t : State, exec (.micOff b k) s = .next t ∧ t.channels = s.channels ∧
      let new := (t.booth b).cons
      (new.console n).busy = (old.console n).busy
      ∧ (old.claimed = some n → s.keyed t b n .micOff .taken ∧ new.claimed = none
          ∧ new.offer = (if old.offer.any (fun o => o.offerer == n) then none else old.offer))
      ∧ (old.claimed ≠ some n → s.keyed t b n .micOff .ignored ∧ new.claimed = old.claimed ∧ new.offer = old.offer)

/-- OFFER, ACCEPT, CANCEL and OFFER_OUT (R62, R63, R64, R83, R84, R85), judged against the claimed console, the booth's internal offer and
the channel's outgoing offer. That the booth's blocks keep whether a claim came by an acceptance is the model's (log 13). -/
def Obligations.OffersWithinAndBetweenBooths : Prop :=
  ∀ (b : BoothId) (k : Fin 4) (n : ConsoleId) (s : State), s.boothUp b → k.val = n.val + 1 → n.val < (s.booth b).cons.inUse →
    let old := (s.booth b).cons
    (∃ t : State, exec (.offer b k) s = .next t ∧ t.channels = s.channels ∧ (t.booth b).cons.claimed = old.claimed ∧
      ((old.claimed = some n ∧ old.offer = none) → s.keyed t b n .offer .taken
          ∧ (t.booth b).cons.offer = some { offerer := n, deadline := s.clock.run + s.timers.acceptWindow * 1024 })
      ∧ (¬ (old.claimed = some n ∧ old.offer = none) → s.keyed t b n .offer .refused ∧ (t.booth b).cons.offer = old.offer
          ∧ ((t.booth b).cons.console n).busy = some (s.clock.run + 2048)))
    ∧ (∃ t : State, exec (.accept b k) s = .next t ∧
      let new := (t.booth b).cons
      (∀ c : ChannelId, old.claimed = some n → s.offeredTo b = some c → s.keyed t b n .accept .passed ∧ new.claimed = some n
          ∧ t.channels = s.channels.set c { s.channel c with
              offer := none, move := some (s.channel c).owner.other, changes := (s.channel c).changes + 2 })
      ∧ (old.claimed = some n → s.offeredTo b = none → s.keyed t b n .accept .ignored ∧ new.claimed = some n ∧ t.channels = s.channels)
      ∧ (∀ o : InternalOffer, old.claimed ≠ some n → old.offer = some o → o.offerer ≠ n → s.keyed t b n .accept .taken
          ∧ new.claimed = some n ∧ new.offer = none ∧ (t.inside b).accepted = true ∧ t.channels = s.channels)
      ∧ (old.claimed = none → (∀ o : InternalOffer, old.offer = some o → o.offerer = n) → s.keyed t b n .accept .taken ∧ new.claimed = some n ∧ t.channels = s.channels)
      ∧ (∀ m : ConsoleId, old.claimed = some m → m ≠ n → (∀ o : InternalOffer, old.offer = some o → o.offerer = n) →
          s.keyed t b n .accept .refused ∧ new.claimed = some m
          ∧ (new.console n).busy = some (s.clock.run + 2048) ∧ t.channels = s.channels))
    ∧ (∃ t : State, exec (.consoleCancel b k) s = .next t ∧
      let new := (t.booth b).cons
      let mine := old.offer.any (fun o => o.offerer == n)
      new.claimed = old.claimed
      ∧ (mine = true → s.keyed t b n .cancel .taken ∧ new.offer = none ∧ t.channels = s.channels)
      ∧ (∀ c : ChannelId, mine = false → old.claimed = some n → s.offeredBy b = some c → s.keyed t b n .cancel .passed
          ∧ new.offer = old.offer
          ∧ t.channels = s.channels.set c { s.channel c with offer := none, changes := (s.channel c).changes + 2 })
      ∧ ((mine = false ∧ (old.claimed ≠ some n ∨ s.offeredBy b = none)) → s.keyed t b n .cancel .ignored ∧ new.offer = old.offer
          ∧ t.channels = s.channels))
    ∧ (let may := fun c : ChannelId => old.claimed = some n ∧ old.offer = none ∧ (s.booth b).role.named = some c
      ∧ (s.channel c).ownerBooth = some b ∧ (s.channel c).pairing = .valid ∧ (s.channel c).schedule = none
      ∧ (s.channel c).offer = none ∧ (s.channel c).move = none
      ∃ t : State, exec (.offerOut b k) s = .next t ∧ (t.booth b).cons.claimed = old.claimed ∧ (t.booth b).cons.offer = old.offer
      ∧ (∀ c : ChannelId, may c → s.keyed t b n .offerOut .passed
          ∧ t.channels = s.channels.set c { s.channel c with
              offer := some { console := n, deadline := s.clock.run + s.timers.acceptWindow * 1024 }
              changes := (s.channel c).changes + 2 })
      ∧ ((¬ ∃ c : ChannelId, may c) → s.keyed t b n .offerOut .refused ∧ t.channels = s.channels
          ∧ ((t.booth b).cons.console n).busy = some (s.clock.run + 2048)))

/-- The busy, offer and gap deadlines of a booth (R59, R64, R66, R67): each takes effect in READY once the run counter has reached it, and
finds nothing else; the turn whose gap runs out ends MIC_OFF and its record is handed to the log writer. That an expiry
may come later than its tick is the model's (log 4). -/
def Obligations.ConsoleDeadlines : Prop :=
  ∀ (b : BoothId) (n : ConsoleId) (s : State),
    let old := (s.booth b).cons
    (∀ d : Nat, s.part = .ready → (old.console n).busy = some d → d ≤ s.clock.run → ∃ r : Booth,
        exec (.busyDeadlineExpiry b n) s = .next { s with booths := s.booths.set b r } ∧ (r.cons.console n).busy = none
        ∧ r.link = (s.booth b).link ∧ r.role = (s.booth b).role ∧ r.cons = { old with each := r.cons.each }
        ∧ ∀ k : ConsoleId, (r.cons.console k).lamp = r.lampOf (s.warned b) (s.cuedOut b) k)
    ∧ ((s.part ≠ .ready ∨ (∀ d : Nat, (old.console n).busy = some d → s.clock.run < d)) → exec (.busyDeadlineExpiry b n) s = .next s)
    ∧ (∀ o : InternalOffer, s.part = .ready → old.offer = some o → o.deadline ≤ s.clock.run → ∃ r : Booth,
        exec (.offerDeadlineExpiry b) s = .next { s with booths := s.booths.set b r }
        ∧ r.link = (s.booth b).link ∧ r.role = (s.booth b).role ∧ r.cons = { old with offer := none, each := r.cons.each }
        ∧ ∀ k : ConsoleId, (r.cons.console k).lamp = r.lampOf (s.warned b) (s.cuedOut b) k)
    ∧ ((s.part ≠ .ready ∨ (∀ o : InternalOffer, old.offer = some o → s.clock.run < o.deadline)) →
        exec (.offerDeadlineExpiry b) s = .next s)
    ∧ (s.part = .ready → (old.console n).turn = .gap → (old.console n).gapDeadline ≤ s.clock.run → ∃ t : State,
        exec (.gapDeadlineExpiry b n) s = .next t ∧ ((t.booth b).cons.console n).turn = .idle
        ∧ (t.booth b).cons = { old with each := (t.booth b).cons.each }
        ∧ (let x := s.handTurn
             { booth := b, console := n, cause := .micOff, channel := (old.console n).turnChannel
               interpreter := (old.console n).turnInterpreter, relief := (old.console n).reliefReached
               clockUnset := (old.console n).clockUnset, clockSet := (old.console n).clockSet, start := (old.console n).turnStamp, merged := 0
               span := ((old.console n).liveEnd - (old.console n).turnStart) / 1024, onMic := (old.console n).onMic / 1024 }
           t = { x with booths := t.booths })
        ∧ ∀ d : BoothId, d ≠ b → t.booth d = s.booth d)
    ∧ ((s.part ≠ .ready ∨ (old.console n).turn ≠ .gap ∨ s.clock.run < (old.console n).gapDeadline) →
        exec (.gapDeadlineExpiry b n) s = .next s)

/-- SEAT_ASSIGN (R69): the open turn ends with cause SEAT, the new interpreter is written, and a live console opens a new turn at once;
the result tells the previous interpreter and whether a turn was ended, in an ALREADY result too (log 15). -/
def Obligations.SeatAssignEndsTheTurn : Prop :=
  ∀ (s : State) (m : SlotId) (rest : List SlotId), s.takes 11 m rest →
    ((23 < s.param8 m 0 ∨ s.param8 m 1 = 0 ∨ 3 < s.param8 m 1) → s.refuses .seatAssign m rest .badArgument)
    ∧ ∀ (b : BoothId) (n : ConsoleId), s.param8 m 0 = b.val → s.param8 m 1 = n.val + 1 →
      let old := ((s.booth b).cons.console n)
      let who := BitVec.ofNat 24 (s.paramLE m 2 3)
      let known := (s.booth b).link.definition.defined = true ∧ n.val < (s.booth b).cons.inUse
      (¬ known → s.refuses .seatAssign m rest .notFound)
      ∧ (known → who = old.interpreter → s.completes .seatAssign m rest s (Result.doneAlready (leBytes 3 who.toNat ++ [0])))
      ∧ (known → who ≠ old.interpreter → ∃ u : State,
        s.completes .seatAssign m rest u (Result.done (leBytes 3 old.interpreter.toNat ++ [if old.turn = .idle then 0 else 1]))
        ∧ ((u.booth b).cons.console n).interpreter = who
        ∧ ((s.booth b).cons.live ≠ some n → ((u.booth b).cons.console n).turn = .idle)
        ∧ ((s.booth b).cons.live = some n → ((u.booth b).cons.console n).turn = .running
            ∧ ((u.booth b).cons.console n).turnStart = s.clock.run ∧ ((u.booth b).cons.console n).liveSince = s.clock.run
            ∧ ((u.booth b).cons.console n).turnInterpreter = who ∧ ((u.booth b).cons.console n).onMic = 0
            ∧ ((u.booth b).cons.console n).turnChannel = (s.booth b).role.fed)
        ∧ (let end_ := if old.turn = .running then s.clock.run else old.liveEnd
           let mic := if old.turn = .running then min (2 ^ 32 - 1) (old.onMic + (s.clock.run - old.liveSince)) else old.onMic
           let x := if old.turn = .idle then s else s.handTurn
             { booth := b, console := n, cause := .seat, channel := old.turnChannel, interpreter := old.turnInterpreter
               relief := old.reliefReached, clockUnset := old.clockUnset, clockSet := old.clockSet, start := old.turnStamp, merged := 0
               span := (end_ - old.turnStart) / 1024, onMic := mic / 1024 }
           u = { x with booths := u.booths })
        ∧ (∀ k : ConsoleId, k ≠ n → ((u.booth b).cons.console k) =
            { (s.booth b).cons.console k with lamp := ((u.booth b).cons.console k).lamp })
        ∧ (u.booth b).link = (s.booth b).link ∧ (u.booth b).role = (s.booth b).role
        ∧ (u.booth b).cons = { (s.booth b).cons with each := (u.booth b).cons.each }
        ∧ ∀ d : BoothId, d ≠ b → u.booth d = s.booth d)

/-! ## Channels, relay, handover -/

/-- The relay law in the manual's words (R89): what the channel router checks holds exactly when the relay graph has no cycle and no path of
more than two edges. -/
def Obligations.RelayLawMeansNoCycleNoLongPath : Prop :=
  ∀ s : State, s.relayOk ↔
    (∀ x : BoothId, ¬ Relation.TransGen s.hears x x)
    ∧ ¬ ∃ x y z w : BoothId, [x, y, z, w].Nodup ∧ s.hears x y ∧ s.hears y z ∧ s.hears z w

/-- BOOTH_INTAKE (R90, R89): the checks in their order; the intake written where the relay law holds with it. That an ALREADY result
carries the present intake is the model's reading (log 15). -/
def Obligations.BoothIntakeKeepsTheLaw : Prop :=
  ∀ (s : State) (n : SlotId) (rest : List SlotId), s.takes 10 n rest →
    ((23 < s.param8 n 0 ∨ 31 < s.param8 n 1) → s.refuses .boothIntake n rest .badArgument)
    ∧ ∀ (b : BoothId) (i : ChannelId), s.param8 n 0 = b.val → s.param8 n 1 = i.val →
      let was := (s.booth b).role.intake
      let after := { s with booths := s.booths.set b { s.booth b with
        changes := (s.booth b).changes + 2, role := { (s.booth b).role with intake := i } } }
      (i ≠ 0 → (s.channel i).defined = false → s.refuses .boothIntake n rest .notFound)
      ∧ ((i = 0 ∨ (s.channel i).defined = true) → i = was →
          s.completes .boothIntake n rest s (Result.doneAlready [BitVec.ofNat 8 was.val]))
      ∧ ((i = 0 ∨ (s.channel i).defined = true) → i ≠ was → ¬ after.relayOk → s.refuses .boothIntake n rest .relayConflict)
      ∧ ((i = 0 ∨ (s.channel i).defined = true) → i ≠ was → after.relayOk →
          s.completes .boothIntake n rest after (Result.done [BitVec.ofNat 8 was.val]))

/-- CHANNEL_DEFINE (R74, R75, R81): the checks in their order; then the definition, the owner PRIMARY, the pairing with the fault that the
first failing condition names, the namings of booths, and a staged plan over the new channel table. -/
def Obligations.ChannelDefineWritesDefinition : Prop :=
  ∀ (s : State) (n : SlotId) (rest : List SlotId), s.takes 12 n rest →
    let wrong := s.param8 n 0 = 0 ∨ 31 < s.param8 n 0 ∨ 23 < s.param8 n 1 ∨ (23 < s.param8 n 2 ∧ s.param8 n 2 ≠ 255)
      ∨ s.param8 n 1 = s.param8 n 2 ∨ s.paramLang n 3 = none ∨ 1 < s.param8 n 6 ∨ 1 < s.param8 n 7
    (wrong → s.refuses .channelDefine n rest .badArgument)
    ∧ ∀ (c : ChannelId) (p : BoothId) (q : Option BoothId) (l : Lang), ¬ wrong → s.param8 n 0 = c.val → s.param8 n 1 = p.val →
      s.param8 n 2 = (match q with | some b => b.val | none => 255) → s.paramLang n 3 = some l →
      let d : Channel := { s.channel c with
        defined := true, lang := l, primary := some p, partner := q, quality := if s.param8 n 6 = 1 then .wide else .standard
        rescue := decide (s.param8 n 7 = 1), owner := .primary, offer := none, move := none }
      let taken := ∃ (b : BoothId) (e : ChannelId), (b = p ∨ q = some b) ∧ (s.booth b).role.named = some e ∧ e ≠ c
      let lawful := relayLaw (s.channels.set c d) s.intakes = true
      (taken → s.refuses .channelDefine n rest .boothTaken)
      ∧ (¬ taken → ¬ lawful → s.refuses .channelDefine n rest .relayConflict)
      ∧ (¬ taken → lawful → (s.channel c).schedule ≠ none → s.refuses .channelDefine n rest .handoverBusy)
      ∧ (¬ taken → lawful → (s.channel c).schedule = none → ∃ u : State,
        s.completes .channelDefine n rest u (Result.done [if (s.channel c).defined then 1 else 0])
        ∧ u.channel c = { d with
            changes := (s.channel c).changes + 2, pairing := (u.channel c).pairing, fault := (u.channel c).fault
            downSince := if (s.booth p).link.state = .live then (s.channel c).downSince else s.clock.run }
        ∧ (q = none → (u.channel c).pairing = .unpaired ∧ (u.channel c).fault = .noFault)
        ∧ (∀ b : BoothId, q = some b → s.pairedBy p b (u.channel c))
        ∧ (∀ e : ChannelId, e ≠ c → u.channel e = s.channel e)
        ∧ (∀ b : BoothId, (u.booth b).role = { (s.booth b).role with
              named := if b = p ∨ q = some b then some c else if (s.booth b).role.named = some c then none else (s.booth b).role.named
              role := if b = p then .primary else if q = some b then .partner else (s.booth b).role.role }
            ∧ (u.booth b).link = (s.booth b).link ∧ (u.booth b).cons = { (s.booth b).cons with each := (u.booth b).cons.each })
        ∧ u.framer = { s.framer with
            staged := some (computePlan s.framer.mode s.framer.floorQuality u.channels), changes := s.framer.changes + 2 }
        ∧ u = { s with channels := u.channels, booths := u.booths, framer := u.framer })

/-- CHANNEL_CLEAR (R76): the standing HANDOVER ends FAILED with CHANNEL_CLEARED, the namings and the intakes go, the record is cleared but
for its counters, its listener and on-air fields, and a plan without the channel, newly computed, is staged (R95, R96); the result tells how
many intakes were set to FLOOR, and carries 0 with ALREADY (log 15). -/
def Obligations.ChannelClearTakesItAway : Prop :=
  ∀ (s : State) (n : SlotId) (rest : List SlotId), s.takes 13 n rest →
    ((s.param8 n 0 = 0 ∨ 31 < s.param8 n 0) → s.refuses .channelClear n rest .badArgument)
    ∧ ∀ c : ChannelId, c ≠ 0 → s.param8 n 0 = c.val →
      let old := s.channel c
      (old.defined = false → s.completes .channelClear n rest s (Result.doneAlready [0]))
      ∧ (old.defined = true → ∃ u : State,
        s.completes .channelClear n rest u (Result.done [BitVec.ofNat 8 ((List.finRange 24).countP (fun b => (s.booth b).role.intake = c))])
        ∧ u.channel c = { old with
            changes := (u.channel c).changes, defined := false, lang := Lang.unset, primary := none, partner := none, owner := .primary
            source := .noSource, pairing := .unpaired, fault := .noFault, offer := none, move := none
            schedule := none, stranded := old.stranded || decide (0 < old.listeners) }
        ∧ (∀ e : ChannelId, e ≠ c → u.channel e = s.channel e)
        ∧ (∀ b : BoothId, (u.booth b).role = { (s.booth b).role with
              named := if (s.booth b).role.named = some c then none else (s.booth b).role.named
              intake := if (s.booth b).role.intake = c then 0 else (s.booth b).role.intake }
            ∧ (u.booth b).link = (s.booth b).link)
        ∧ u.framer.staged = some (computePlan s.framer.mode s.framer.floorQuality u.channels) ∧ u.framer.active = s.framer.active
        ∧ u.framer.cleared = s.framer.cleared.set c true
        ∧ (∀ x : Standing, old.schedule.isSome = true → s.standingOf (.handover c) = some x → x.slot ≠ n →
            u.mem.shows x.slot { code := .failed, reason := .channelCleared, clamped := x.clamped, already := false
                                 values := leBytes 6 0 ++ [old.owner.code, old.fault.toByte] }
            ∧ u.isPending .order = true ∧ u.orders.standing = s.orders.standing.filter (fun y => y.slot ≠ x.slot))
        ∧ (old.schedule = none → u = { s with channels := u.channels, booths := u.booths, framer := u.framer }))

/-- HANDOVER (R86, R87, R88): the checks in their order; a refusal, too, tells the owner and the fault of the channel named, and nothing
where none above 31 is (log 37); an order that passes stands with its scheduled handover, warned or waiting at once where that is reached,
its wait deadline 0 until then (log 35); one in mode now for the owner's own role completes DONE with ALREADY. -/
def Obligations.HandoverStands : Prop :=
  ∀ (s : State) (n : SlotId) (rest : List SlotId), s.takes 14 n rest →
    let back := fun (c : ChannelId) (x : Reason) => s.completes .handover n rest s { Result.refused x with
      values := leBytes 6 0 ++ [(s.channel c).owner.code, (s.channel c).fault.toByte] }
    (31 < s.param8 n 0 → s.refuses .handover n rest .badArgument)
    ∧ (∀ c : ChannelId, s.param8 n 0 = c.val → (c = 0 ∨ 1 < s.param8 n 1 ∨ 1 < s.param8 n 6) → back c .badArgument)
    ∧ ∀ (c : ChannelId) (r : Role), c ≠ 0 → s.param8 n 0 = c.val → s.param8 n 1 = r.code.toNat → s.param8 n 6 ≤ 1 →
      let ch := s.channel c
      let named := ch.defined = true ∧ ch.partner ≠ none
      let busy := ch.offer ≠ none ∨ ch.move ≠ none ∨ ch.schedule ≠ none
      let lead := min 120 (s.paramLE n 8 2)
      let target := s.paramLE n 2 4
      (¬ named → back c .notFound)
      ∧ (named → busy → back c .handoverBusy)
      ∧ (named → ¬ busy → s.param8 n 6 = 0 → s.clock.valid = false → back c .clockUnset)
      ∧ (named → ¬ busy → s.param8 n 6 = 0 → s.clock.valid = true → s.clock.reached target = false → ∃ t : State,
        exec .handover s = .next t ∧ t.orders.queue = rest ∧ t.holder n = Holder.standing
        ∧ t.orders.standing = s.orders.standing ++ [{ slot := n, owner := .handover c, clamped := decide (120 < s.paramLE n 8 2) }]
        ∧ (t.channel c).schedule = some { slot := n, target := r, targetCal := target, warnCal := target - lead, lead := lead,
                                            phase := if s.clock.reached (target - lead) then .warned else .planned, waitDeadline := 0 }
        ∧ t = { s with channels := t.channels, orders := t.orders, mem := t.mem, booths := t.booths }
        ∧ (∀ a : Nat, ¬ resultByte n a → t.mem.read8 a = s.mem.read8 a)
        ∧ ∀ b : BoothId, ch.boothOf r = some b → ∀ k : ConsoleId,
            ((t.booth b).cons.console k).lamp = (t.booth b).lampOf (t.warned b) (t.cuedOut b) k)
      ∧ (named → ¬ busy → (s.param8 n 6 = 1 ∨ (s.clock.valid = true ∧ s.clock.reached target = true)) → ch.owner ≠ r → ∃ t : State,
        exec .handover s = .next t ∧ t.orders.queue = rest ∧ t.holder n = Holder.standing
        ∧ t.orders.standing.map (fun x => x.slot) = s.orders.standing.map (fun x => x.slot) ++ [n]
        ∧ (∃ h : Schedule, (t.channel c).schedule = some h ∧ h.slot = n ∧ h.target = r ∧ h.phase = .waiting
            ∧ h.waitDeadline = s.clock.run + s.timers.handoverWait * 1024
            ∧ h.targetCal = (if s.param8 n 6 = 1 then 0 else target))
        ∧ (t.channel c).owner = ch.owner ∧ (t.channel c).pairing = ch.pairing)
      ∧ (named → ¬ busy → (s.param8 n 6 = 1 ∨ (s.clock.valid = true ∧ s.clock.reached target = true)) → ch.owner = r →
        s.standingOf (.handover c) = none → (∀ x ∈ s.orders.standing, x.slot ≠ n) → ∃ t : State,
        exec .handover s = .next t ∧ t.orders.queue = rest ∧ t.orders.standing = s.orders.standing ∧ (t.channel c).schedule = none
        ∧ (∃ cl : Bool, t.mem.shows n { code := .done, reason := .noReason, clamped := cl, already := true
                                        values := leBytes 6 0 ++ [r.code, ch.fault.toByte] })
        ∧ t.isPending .order = true ∧ (t.channel c).owner = r)

/-- The deadlines of a channel (R85, R87, R88): the outgoing offer lapses; the warning and the target of a scheduled handover are reached;
the wait runs out and the order completes FAILED with WAIT_OVER. Each finds nothing where its moment has not come. That an
expiry may come later than its tick is the model's (log 4). -/
def Obligations.ChannelDeadlines : Prop :=
  ∀ (c : ChannelId) (s : State),
    let ch := s.channel c
    (∀ o : OutgoingOffer, s.part = .ready → ch.offer = some o → o.deadline ≤ s.clock.run → ∃ v : Vector Booth 24,
        exec (.outgoingOfferLapse c) s = .next { s with
          booths := v, channels := s.channels.set c { ch with offer := none, changes := ch.changes + 2 } }
        ∧ ∀ b : BoothId, v[b].link = (s.booth b).link ∧ v[b].role = (s.booth b).role)
    ∧ ((s.part ≠ .ready ∨ (∀ o : OutgoingOffer, ch.offer = some o → s.clock.run < o.deadline)) →
        exec (.outgoingOfferLapse c) s = .next s)
    ∧ (∀ h : Schedule, s.part = .ready → ch.schedule = some h → s.clock.reached h.warnCal = true → ∃ t : State,
        exec (.warningReached c) s = .next t ∧ t = { s with booths := t.booths, channels := t.channels }
        ∧ (t.channel c).schedule = some { h with phase := if h.phase = .planned then .warned else h.phase }
        ∧ (∀ b : BoothId, ch.boothOf h.target = some b → t.warned b = true
            ∧ ∀ k : ConsoleId, ((t.booth b).cons.console k).lamp = (t.booth b).lampOf (t.warned b) (t.cuedOut b) k))
    ∧ ((s.part ≠ .ready ∨ (∀ h : Schedule, ch.schedule = some h → s.clock.reached h.warnCal = false)) →
        exec (.warningReached c) s = .next s)
    ∧ (∀ h : Schedule, s.part = .ready → ch.schedule = some h → s.clock.reached h.targetCal = true → ∃ t : State,
        exec (.targetReached c) s = .next t
        ∧ (h.phase = .waiting → (t.channel c).schedule = some h ∧ t.orders = s.orders ∧ t.mem = s.mem)
        ∧ (h.phase ≠ .waiting → ch.owner ≠ h.target → t.orders = s.orders ∧ t.mem = s.mem
            ∧ (t.channel c).schedule = some { h with phase := .waiting, waitDeadline := s.clock.run + s.timers.handoverWait * 1024 })
        ∧ (∀ x : Standing, h.phase ≠ .waiting → ch.owner = h.target → s.standingOf (.handover c) = some x → s.memOk →
            (t.channel c).schedule = none ∧ t.orders.standing = s.orders.standing.filter (fun y => y.slot ≠ x.slot)
            ∧ t.mem.shows x.slot { code := .done, reason := .noReason, clamped := x.clamped, already := true
                                   values := leBytes 6 0 ++ [ch.owner.code, ch.fault.toByte] }))
    ∧ ((s.part ≠ .ready ∨ (∀ h : Schedule, ch.schedule = some h → s.clock.reached h.targetCal = false)) →
        exec (.targetReached c) s = .next s)
    ∧ (∀ (h : Schedule) (x : Standing), s.part = .ready → ch.schedule = some h → h.phase = .waiting → h.waitDeadline ≤ s.clock.run →
        s.standingOf (.handover c) = some x → s.memOk → ∃ t : State, exec (.waitDeadlineExpiry c) s = .next t
        ∧ (t.channel c).schedule = none ∧ (t.channel c).owner = ch.owner
        ∧ t.orders.standing = s.orders.standing.filter (fun y => y.slot ≠ x.slot)
        ∧ t.mem.answers s.mem x.slot { code := .failed, reason := .waitOver, clamped := x.clamped, already := false
                                       values := leBytes 6 0 ++ [ch.owner.code, ch.fault.toByte] }
        ∧ t = { s with booths := t.booths, channels := t.channels, orders := t.orders, mem := t.mem
                       notices := { s.notices with waiting := s.notices.waiting ||| Notice.order.bit } })
    ∧ ((s.part ≠ .ready ∨ (∀ h : Schedule, ch.schedule = some h → h.phase ≠ .waiting ∨ s.clock.run < h.waitDeadline)) →
        exec (.waitDeadlineExpiry c) s = .next s)

/-- FRAME_BOUNDARY in READY, the consoles (R56, R60, R61, R63, R65 to R68, R82). In every booth the live console becomes the claimed one,
and nothing else names it. One that becomes live has its turn ON, a new turn from IDLE and the same turn from GAP, unless the booth loses a
channel it owns at this boundary: then the live console's turn ends. One that stops being live goes to GAP, unless the claim came by an
acceptance: then its turn ends, and HANDOVER is raised with the new live console. A booth left without one is quiet since this tick. Each
open turn of a LIVE booth as old as the relief limit is marked, with RELIEF once; and every lamp shows what R61's table gives. The turns
that so end close their live period, and their TURN records, with cause HANDOVER, are handed to the tally log writer. That the booth's
blocks keep whether a claim came by acceptance, the order of the boundary's parts and of the records, and that a turn that ends keeps its
relief mark among the fields it leaves, are the model's (logs 13, 14, 38). -/
def Obligations.BoundaryMakesClaimsLive : Prop :=
  ∀ s : State, s.part = .ready → ∃ t : State, exec .frameBoundary s = .next t ∧ t.clock = s.clock ∧ t.timers = s.timers
    ∧ t.framer.frames = s.framer.frames + 1 ∧ t.accounts = s.accounts ∧ t.hires = s.hires ∧ t.receivers = s.receivers
    ∧ t.positions = s.positions ∧
    let now := s.clock.run
    let live := fun b : BoothId => (s.booth b).cons.live
    let claimed := fun b : BoothId => (s.booth b).cons.claimed
    let was := fun (b : BoothId) (k : ConsoleId) => (s.booth b).cons.console k
    let is := fun (b : BoothId) (k : ConsoleId) => (t.booth b).cons.console k
    let speaks := fun b : BoothId => (s.booth b).link.state = .live ∧ claimed b ≠ none
    let moves := fun c : Channel => c.move ≠ none ∨ ∃ (h : Schedule) (x : BoothId), c.schedule = some h ∧ h.phase = .waiting
      ∧ c.pairing = .valid ∧ c.boothOf h.target = some x ∧ speaks x
    let loses := fun b : BoothId => (s.booth b).link.state = .live ∧ ∃ c : ChannelId, c ≠ 0 ∧ (s.channel c).defined = true
      ∧ (s.channel c).ownerBooth = some b ∧ moves (s.channel c)
    let due := fun (b : BoothId) (k : ConsoleId) => (s.booth b).link.state = .live ∧ (was b k).turn ≠ .idle ∧ (was b k).reliefReached = false
      ∧ s.timers.relief ≠ 0 ∧ s.timers.relief * 1024 ≤ now - (was b k).turnStart
      ∧ ¬ (live b = some k ∧ claimed b ≠ some k ∧ (s.inside b).accepted = true)
    (s.namingOk → s.memOk →
      let x := (s.handedOver t).foldl State.handTurn s
      t.log = x.log ∧ t.header = x.header ∧ t.isPending .log = x.isPending .log
      ∧ ∀ a : Nat, (a < 0x200 ∨ 0xA00 ≤ a) → t.mem.read8 a = x.mem.read8 a)
    ∧ ((∃ (b : BoothId) (k : ConsoleId), due b k) → t.isPending .relief = true)
    ∧ ((∀ (b : BoothId) (k : ConsoleId), ¬ due b k) → t.isPending .relief = s.isPending .relief)
    ∧ ∀ b : BoothId, (t.booth b).cons.live = claimed b ∧ (t.booth b).cons.claimed = claimed b
      ∧ (t.booth b).link = (s.booth b).link ∧ (t.inside b).accepted = false
      ∧ (live b ≠ none → claimed b = none → (t.booth b).cons.quietSince = now)
      ∧ ((live b = none ∨ claimed b ≠ none) → (t.booth b).cons.quietSince = (s.booth b).cons.quietSince)
      ∧ (∀ n : ConsoleId, live b ≠ some n → claimed b = some n →
          (is b n).liveSince = now
          ∧ (¬ loses b → (is b n).turn = .running)
          ∧ ((was b n).turn = .idle → (is b n).turnStart = now ∧ (is b n).turnStamp = (s.clock.stamp now).1
              ∧ (is b n).clockUnset = (s.clock.stamp now).2 ∧ (is b n).clockSet = false ∧ (is b n).reliefReached = false
              ∧ (is b n).onMic = 0 ∧ (is b n).turnInterpreter = (was b n).interpreter ∧ (is b n).turnChannel = (t.booth b).role.fed)
          ∧ ((was b n).turn = .gap → (is b n).turnStart = (was b n).turnStart ∧ (is b n).turnStamp = (was b n).turnStamp
              ∧ (is b n).clockUnset = (was b n).clockUnset ∧ (is b n).clockSet = (was b n).clockSet
              ∧ (is b n).turnInterpreter = (was b n).turnInterpreter
              ∧ (is b n).turnChannel = (if (was b n).turnChannel = none then (t.booth b).role.fed else (was b n).turnChannel)
              ∧ (¬ loses b → (is b n).onMic = (was b n).onMic))
          ∧ ((s.inside b).accepted = true → t.isPending .handover = true))
      ∧ (∀ n : ConsoleId, claimed b = some n → loses b → (is b n).turn = .idle
          ∧ (live b = some n → (was b n).turn = .running →
              (is b n).liveEnd = now ∧ (is b n).onMic = min (2 ^ 32 - 1) ((was b n).onMic + (now - (was b n).liveSince)))
          ∧ (live b ≠ some n → (is b n).liveEnd = now
              ∧ (is b n).onMic = if (was b n).turn = .idle then 0 else min (2 ^ 32 - 1) (was b n).onMic))
      ∧ (∀ n : ConsoleId, live b = some n → claimed b = some n → ¬ loses b →
          (is b n).turn = (was b n).turn ∧ (is b n).liveEnd = (was b n).liveEnd ∧ (is b n).onMic = (was b n).onMic)
      ∧ (∀ n : ConsoleId, (live b = some n ↔ claimed b = some n) → is b n = { was b n with
          turn := (is b n).turn, liveEnd := (is b n).liveEnd, onMic := (is b n).onMic, lamp := (is b n).lamp
          reliefReached := (is b n).reliefReached
          turnChannel := if (was b n).turn = .running ∧ (was b n).turnChannel = none then (t.booth b).role.fed else (was b n).turnChannel }
          ∧ (live b ≠ some n → (is b n).turn = (was b n).turn ∧ (is b n).liveEnd = (was b n).liveEnd ∧ (is b n).onMic = (was b n).onMic))
      ∧ (∀ m : ConsoleId, live b = some m → claimed b ≠ some m → (was b m).turn = .running → (s.inside b).accepted = false →
          (is b m).turn = .gap ∧ (is b m).liveEnd = now ∧ (is b m).onMic = min (2 ^ 32 - 1) ((was b m).onMic + (now - (was b m).liveSince))
          ∧ (is b m).gapDeadline = now + s.timers.mergeGap * 1024)
      ∧ (∀ m : ConsoleId, live b = some m → claimed b ≠ some m → (s.inside b).accepted = true → (is b m).turn = .idle
          ∧ ((was b m).turn = .running → (is b m).liveEnd = now
              ∧ (is b m).onMic = min (2 ^ 32 - 1) ((was b m).onMic + (now - (was b m).liveSince))))
      ∧ (∀ k : ConsoleId, (was b k).turn ≠ .idle → ((is b k).reliefReached = true ↔ (was b k).reliefReached = true ∨ due b k))
      ∧ ∀ k : ConsoleId, (is b k).lamp = (t.booth b).lampOf (t.warned b) (t.cuedOut b) k

/-- FRAME_BOUNDARY in READY, the channels (R58, R78, R79, R82, R84, R85, R87, R88): ownership moves where a pending move stands, or where a
waiting handover finds the pairing VALID and the target booth with a live console, and then its standing order completes DONE with the
tick of the move, the new owner and the fault reason; the outgoing offer of an owner booth that goes quiet ends, and so does that of a
channel that moves; then every defined channel has the source of R78's table, and a booth is fed the channel whose audio is its own. That
R78's table gives the source after a move too, QUIET_FLOOR where the new owner booth has been quiet for the quiet hold, is the model's
choice (log 41). -/
def Obligations.BoundaryChoosesSources : Prop :=
  ∀ s : State, s.part = .ready → ∃ t : State, exec .frameBoundary s = .next t ∧
    let up := fun b : Option BoothId => ∃ x : BoothId, b = some x ∧ (s.booth x).link.state = .live ∧ (s.booth x).cons.claimed ≠ none
    let due := fun (ch : Channel) (h : Schedule) => ch.move = none ∧ ch.schedule = some h ∧ h.phase = .waiting ∧ ch.pairing = .valid
      ∧ up (ch.boothOf h.target)
    let quiet := fun b : BoothId => (s.booth b).cons.live ≠ none ∧ (s.booth b).cons.claimed = none
    (∀ c : ChannelId, c ≠ 0 → (s.channel c).defined = true →
      let old := s.channel c
      let new := t.channel c
      let ready := fun h : Schedule => due old h
      (∀ r : Role, old.move = some r → new.owner = r ∧ new.move = none ∧ new.offer = none
          ∧ new.handovers = min 65535 (old.handovers + 1) ∧ new.schedule = old.schedule ∧ t.isPending .handover = true)
      ∧ (∀ h : Schedule, ready h → new.owner = h.target ∧ new.offer = none ∧ new.handovers = min 65535 (old.handovers + 1)
          ∧ new.schedule = none ∧ t.isPending .handover = true
          ∧ (s.slotsOk → ∀ y : Standing, s.standingOf (.handover c) = some y → y ∉ t.orders.standing ∧ t.isPending .order = true
            ∧ t.mem.shows y.slot { code := .done, reason := .noReason, clamped := y.clamped, already := false
                                   values := leBytes 6 s.clock.run ++ [h.target.code, old.fault.toByte] }))
      ∧ (old.move = none → (∀ h : Schedule, ¬ ready h) → new.owner = old.owner ∧ new.handovers = old.handovers
          ∧ new.schedule = old.schedule
          ∧ ((∀ b : BoothId, old.ownerBooth = some b → ¬ quiet b) → new.offer = old.offer))
      ∧ (∀ b : BoothId, s.namingOk → old.ownerBooth = some b → quiet b → new.offer = none)
      ∧ new = { old with
          changes := new.changes, owner := new.owner, offer := new.offer, move := none, schedule := new.schedule
          handovers := new.handovers, source := new.source, episodes := new.episodes }
      ∧ (∀ o : BoothId, new.ownerBooth = some o →
          ((s.booth o).link.state = .live → (t.booth o).cons.live ≠ none → new.source = .booth)
          ∧ ((s.booth o).link.state = .live → (t.booth o).cons.live = none →
              new.source = if s.timers.quietHold = 0 ∨ s.clock.run - (t.booth o).cons.quietSince < s.timers.quietHold * 1024 then .booth
                else .quietFloor)
          ∧ ((s.booth o).link.state ≠ .live → s.clock.run - old.downSince < msTicks s.timers.lossHold → new.source = .booth)
          ∧ ((s.booth o).link.state ≠ .live → msTicks s.timers.lossHold ≤ s.clock.run - old.downSince →
              (old.rescue = true → up new.standbyBooth → new.source = .rescue)
              ∧ (¬ (old.rescue = true ∧ up new.standbyBooth) → new.source = .fallback)))
      ∧ (let fell := fun x : Source => x = .fallback ∨ x = .rescue
         (fell new.source → new.source ≠ old.source → new.episodes = min 65535 (old.episodes + 1) ∧ t.isPending .fallback = true)
         ∧ (¬ (fell new.source ∧ new.source ≠ old.source) → new.episodes = old.episodes)
         ∧ (fell old.source → ¬ fell new.source → t.isPending .fallback = true)))
    ∧ ((∀ (c : ChannelId) (h : Schedule), c ≠ 0 → (s.channel c).defined = true → ¬ due (s.channel c) h) → t.orders = s.orders)
    ∧ ∀ b : BoothId, (t.booth b).role = { (s.booth b).role with fed := (t.booth b).role.fed }
      ∧ ∀ c : ChannelId, (t.booth b).role.fed = some c ↔ (s.booth b).role.named = some c ∧ (t.channel c).defined = true
          ∧ (((t.channel c).ownerBooth = some b ∧ (s.booth b).link.state = .live ∧ (t.channel c).source = .booth)
            ∨ ((t.channel c).standbyBooth = some b ∧ (t.channel c).source = .rescue))

/-- FRAME_BOUNDARY, what goes out (R30, R78, R80, R91, R93, R98): each channel's audio by its source, each booth link's downstream frame,
and the distribution frame, its slots filled from that audio, but at the boundary of a superframe in READY; in RESTARTING the frames go out
and nothing else moves; in STARTING the lines are idle (log 24). Audio that no upstream or floor frame has brought is a free value, of which
nothing is said (log 7), and that the boundary of a superframe is marked due is the model's own (log 5). -/
def Obligations.BoundarySendsFrames : Prop :=
  (∀ s : State, (s.part = .ready ∨ s.part = .restarting) → ∃ t : State, exec .frameBoundary s = .next t ∧ t.draws = s.draws + 1
    ∧ t.framer.active = s.framer.active ∧ t.framer.cleared = s.framer.cleared
    ∧ (∀ c : ChannelId, c ≠ 0 → (t.channel c).defined = false → t.audio[c] = .silence)
    ∧ (∀ (c : ChannelId) (b : BoothId) (n : ConsoleId) (a : AudioTriple), c ≠ 0 → (t.channel c).defined = true →
        (((t.channel c).source = .booth ∧ (t.channel c).ownerBooth = some b)
          ∨ ((t.channel c).source = .rescue ∧ (t.channel c).standbyBooth = some b)) →
        (s.booth b).link.state = .live → (t.booth b).cons.live = some n → (s.inside b).handed = some a →
        t.audio[c] = if n = 0 then a.c1 else if n = 1 then a.c2 else a.c3)
    ∧ (∀ (c : ChannelId) (b : BoothId), c ≠ 0 → (t.channel c).defined = true → (t.channel c).source = .booth →
        (t.channel c).ownerBooth = some b → ((s.booth b).link.state ≠ .live ∨ (t.booth b).cons.live = none) → t.audio[c] = .silence)
    ∧ (∀ c : ChannelId, (c = 0 ∨ ((t.channel c).defined = true
        ∧ ((t.channel c).source = .quietFloor ∨ (t.channel c).source = .fallback))) →
        (s.floor.locked = false → t.audio[c] = .silence)
        ∧ ∀ a : Audio, s.floor.locked = true → s.floor.handed = some a → t.audio[c] = a)
    ∧ (∀ b : BoothId,
        ((s.booth b).link.state = .held → t.down[b] = none)
        ∧ ((s.booth b).link.state = .live → t.down[b] = some
            { intake := t.audio[(t.booth b).role.intake], lamp1 := ((t.booth b).cons.console 0).lamp
              lamp2 := ((t.booth b).cons.console 1).lamp, lamp3 := ((t.booth b).cons.console 2).lamp
              control := .ack })
        ∧ ((s.booth b).link.state ≠ .held → (s.booth b).link.state ≠ .live → t.down[b] = some
            { intake := .silence, lamp1 := .dark, lamp2 := .dark, lamp3 := .dark
              control := if (s.booth b).link.resync then .resync else .plain }))
    ∧ (s.part = .ready → t.framer.frames % 64 = 0 → t.framer.due = true ∧ t.framer.line = s.framer.line)
    ∧ ((s.part = .restarting ∨ t.framer.frames % 64 ≠ 0) → t.framer.due = s.framer.due
        ∧ (t.framer.active.mode = .stopped → t.framer.line = none)
        ∧ (t.framer.active.mode ≠ .stopped → ∃ f : DistFrame, t.framer.line = some f ∧ f.position.val = t.framer.frames % 64
            ∧ f.directory = s.framer.directory ∧ t.filled f))
    ∧ (s.part = .restarting → t.booths = s.booths ∧ t.channels = s.channels ∧ t.mem = s.mem ∧ t.notices = s.notices))
    ∧ ∀ s : State, s.part = .starting → exec .frameBoundary s =
        .next (if s.resetLow then s else { s with framer := { s.framer with frames := s.framer.frames + 1 } })

/-- FLOOR_FRAME (R80): the lock run of 32 and the miss run of 8; the floor state stands in channel 0's record, written in one bracket, and
FLOOR is raised when it changes; no source state changes. What the two runs hold after a change is the model's reading (log 30). -/
def Obligations.FloorLockAndLoss : Prop :=
  (∀ (a : Option Audio) (s : State), s.part ≠ .ready → exec (.floorFrame a) s = .next s)
    ∧ (∀ (a : Audio) (s : State), s.part = .ready → s.floor.locked = false → s.floor.lockRun < 31 → exec (.floorFrame (some a)) s = .next
        { s with floor := { s.floor with lockRun := s.floor.lockRun + 1, handed := some a } })
    ∧ (∀ (a : Audio) (s : State), s.part = .ready → s.floor.locked = false → 31 ≤ s.floor.lockRun → ∃ t : State,
        exec (.floorFrame (some a)) s = .next t ∧ t.floor.locked = true ∧ t.floor.missRun = 0 ∧ t.floor.handed = some a
        ∧ t.floor.losses = s.floor.losses ∧ t.isPending .floor = true
        ∧ t = { s with floor := t.floor, notices := { s.notices with waiting := s.notices.waiting ||| Notice.floor.bit }
                       channels := s.channels.set 0 { s.channel (0 : ChannelId) with
                         changes := (s.channel (0 : ChannelId)).changes + 2 } })
    ∧ (∀ s : State, s.part = .ready → s.floor.locked = false → exec (.floorFrame none) s = .next
        { s with floor := { s.floor with lockRun := 0, handed := some .silence } })
    ∧ (∀ (a : Audio) (s : State), s.part = .ready → s.floor.locked = true → exec (.floorFrame (some a)) s = .next
        { s with floor := { s.floor with missRun := 0, handed := some a } })
    ∧ (∀ s : State, s.part = .ready → s.floor.locked = true → s.floor.missRun < 7 → exec (.floorFrame none) s = .next
        { s with floor := { s.floor with missRun := s.floor.missRun + 1, handed := some .silence } })
    ∧ ∀ s : State, s.part = .ready → s.floor.locked = true → 7 ≤ s.floor.missRun → ∃ t : State,
        exec (.floorFrame none) s = .next t ∧ t.floor.locked = false ∧ t.floor.lockRun = 0
        ∧ t.floor.losses = min 65535 (s.floor.losses + 1) ∧ t.isPending .floor = true
        ∧ t = { s with floor := t.floor, notices := { s.notices with waiting := s.notices.waiting ||| Notice.floor.bit }
                       channels := s.channels.set 0 { s.channel (0 : ChannelId) with
                         changes := (s.channel (0 : ChannelId)).changes + 2 } }

/-! ## Distribution -/

/-- SET_DISTRIBUTION (R94, R95): the two settings, channel 0's quality in a bracket of its record, and a staged plan computed from them; the
same settings again are ALREADY and compute nothing, and tell the settings (log 15). That the bracket opens over the quality it held too
is the model's count (log 8). -/
def Obligations.SetDistributionStagesAPlan : Prop :=
  ∀ (s : State) (n : SlotId) (rest : List SlotId), s.takes 15 n rest →
    ((2 < s.param8 n 0 ∨ 1 < s.param8 n 1) → s.refuses .setDistribution n rest .badArgument)
    ∧ ∀ (m : DistMode) (q : Format), s.param8 n 0 = m.code.toNat → s.param8 n 1 = q.code.toNat →
      (s.framer.mode = m → s.framer.floorQuality = q →
        s.completes .setDistribution n rest s (Result.doneAlready [m.code, q.code]))
      ∧ (¬ (s.framer.mode = m ∧ s.framer.floorQuality = q) →
        let r : Channel := { s.channel 0 with quality := q, changes := (s.channel 0).changes + 2 }
        s.completes .setDistribution n rest { s with
          channels := s.channels.set 0 r
          framer := { s.framer with
            mode := m, floorQuality := q, staged := some (computePlan m q (s.channels.set 0 r)), changes := s.framer.changes + 2 } }
          (Result.done [s.framer.mode.code, s.framer.floorQuality.code]))

/-- The plan computation (R96): one slot to each defined channel in turn while any remain, then a second to each WIDE one; slots numbered
in channel order; never more than the budget; and channel 0 at slot 0 in a plan that is on. -/
def Obligations.PlanWithinBudget : Prop :=
  ∀ (m : DistMode) (q : Format) (chs : Vector Channel 32), (chs.get 0).defined = true →
    let p := computePlan m q chs
    let wide := fun c : ChannelId => (if c = 0 then q else (chs.get c).quality) = .wide
    let defined := fun c : ChannelId => (chs.get c).defined
    let granted := (List.finRange 32).countP (fun c => (p.entries.get c).onAir)
    p.mode = m ∧ p.used = ((List.finRange 32).map (fun c => (p.entries.get c).slots)).sum ∧ p.used ≤ m.budget
      ∧ (m ≠ .stopped → (p.entries.get 0).onAir = true ∧ (p.entries.get 0).first = 0)
      ∧ p.offAir = (if m = .stopped then 0 else (List.finRange 32).countP (fun c => defined c && !(p.entries.get c).onAir))
      ∧ ∀ c : ChannelId,
        ((p.entries.get c).onAir = true ↔
          defined c = true ∧ ((List.finRange 32).filter (fun d => d < c)).countP defined < m.budget)
        ∧ ((p.entries.get c).onAir = false → (p.entries.get c).slots = 0)
        ∧ ((p.entries.get c).onAir = true → (p.entries.get c).first =
            (((List.finRange 32).filter (fun d => d < c)).map (fun d => (p.entries.get d).slots)).sum)
        ∧ ((p.entries.get c).onAir = true → (p.entries.get c).slots =
            if wide c ∧ ((List.finRange 32).filter (fun d => d < c)).countP (fun d => decide (wide d) && (p.entries.get d).onAir)
              < m.budget - granted then 2 else 1)
        ∧ (p.entries.get c).lang = (chs.get c).lang

/-- SUPERFRAME_BOUNDARY (R93, R97 to R99, R101, R102): in READY a staged plan becomes the active one, with its on-air fields, the stranded
flags, the shortage mark and PLAN; the directory is built from the active plan; the frame of the boundary goes out, its slots filled (R98).
In RESTARTING the frame goes out and nothing else is done (log 21); in STARTING the boundary is passed and the line stays as it is (log
24). That the boundary is marked due by the frame boundary is the model's own (log 5). -/
def Obligations.SuperframeSwapsAndBuilds : Prop :=
  (∀ s : State, s.framer.due = false → exec .superframeBoundary s = .next s)
    ∧ (∀ s : State, s.framer.due = true → s.part = .starting →
        exec .superframeBoundary s = .next { s with framer := { s.framer with due := false } })
    ∧ (∀ s : State, s.framer.due = true → s.part = .restarting → ∃ t : State, exec .superframeBoundary s = .next t
        ∧ t = { s with framer := { s.framer with due := false, line := t.framer.line } }
        ∧ (s.framer.active.mode = .stopped → t.framer.line = none)
        ∧ (s.framer.active.mode ≠ .stopped → ∃ f : DistFrame, t.framer.line = some f ∧ f.position.val = s.framer.frames % 64
            ∧ f.directory = s.framer.directory ∧ t.filled f))
    ∧ ∀ s : State, s.framer.due = true → s.part = .ready → ∃ t : State, exec .superframeBoundary s = .next t
      ∧ t.framer.due = false ∧ t.framer.superframes = s.framer.superframes + 1
      ∧ t.framer.mode = s.framer.mode ∧ t.framer.floorQuality = s.framer.floorQuality ∧ t.framer.frames = s.framer.frames
      ∧ t = { s with framer := t.framer, channels := t.channels, notices := t.notices }
      ∧ (s.framer.staged = none → t.framer.active = s.framer.active ∧ t.framer.planNumber = s.framer.planNumber
          ∧ t.framer.shortage = s.framer.shortage ∧ t.framer.cleared = s.framer.cleared ∧ t.channels = s.channels ∧ t.notices = s.notices)
      ∧ (∀ p : Plan, s.framer.staged = some p → t.framer.active = p ∧ t.framer.staged = none
          ∧ t.framer.planNumber = s.framer.planNumber + 1 ∧ t.isPending .plan = true
          ∧ t.framer.cleared = Vector.replicate 32 false
          ∧ (∀ c : ChannelId,
              let old := s.channel c
              let e := p.entries.get c
              t.channel c = { old with
                changes := (t.channel c).changes, onAir := e.onAir, slots := e.slots, first := e.first
                stranded := if e.onAir then false
                  else old.stranded || ((s.framer.active.entries.get c).onAir && decide (0 < old.listeners)) }
              ∧ ((t.channel c).onAir = old.onAir → (t.channel c).slots = old.slots → (t.channel c).first = old.first →
                  (t.channel c).stranded = old.stranded → t.channel c = old))
          ∧ t.framer.strandedCount = (List.finRange 32).countP (fun c => (t.channel c).stranded)
          ∧ (t.framer.shortage = true ↔ p.mode ≠ .stopped ∧ 0 < p.offAir)
          ∧ (p.mode = .stopped → t.framer.directory.entries = []))
      ∧ (t.framer.active.mode = .stopped → t.framer.line = none ∧ t.framer.directory.superframe = s.framer.directory.superframe)
      ∧ (t.framer.active.mode ≠ .stopped →
          t.framer.directory.planNumber = t.framer.planNumber ∧ t.framer.directory.superframe = s.framer.superframes + 1
          ∧ t.framer.directory.entries = ((List.finRange 32).filter (fun c => (t.framer.active.entries.get c).onAir)).map (fun c =>
              { channel := c, lang := (t.framer.active.entries.get c).lang, first := (t.framer.active.entries.get c).first,
                count := (t.framer.active.entries.get c).slots,
                source := if c = 0 then .floor else if t.framer.cleared.get c then .noSource else (s.channel c).source })
          ∧ ∃ f : DistFrame, t.framer.line = some f ∧ f.position.val = s.framer.frames % 64 ∧ f.directory = t.framer.directory ∧ t.filled f)

/-! ## Docks -/

/-- The poll cycle (R104 to R107, R111, R114, R129). The racks are polled in turn, one poll at a time, with the lamps and the waiting
presets; an unanswered poll is counted for an ONLINE rack, and its presets wait again; at 3 the rack fails, its positions are FAULT, its
presets dropped, and the reservations of the entries it holds end FAILED with DOCK_FAULT. An answer is taken for the outstanding poll of its
kind, and for no other: its changes, then its battery reports, then its preset results are worked one after another in their order; an
inventory's positions in position order, each by R107's table, after which the rack is ONLINE, with DOCK for one that was FAULT. Which
waiting presets an answer takes off the list (log 18), and that a FAULT position which the inventory finds without its receiver counts a
removal and is EMPTY for what is then inserted (log 25), are the model's readings. -/
def Obligations.PollCycleAndAnswers : Prop :=
  (∀ s : State, (s.part ≠ .ready ∨ s.bus.poll ≠ none) → exec .pollSend s = .next s)
    ∧ (∀ s : State, s.part = .ready → s.bus.poll = none → ∃ (x : Poll) (v : Vector (Option Preset) 320),
        exec .pollSend s = .next { s with bus := { next := s.bus.next + 1, poll := some x }, presets := v }
        ∧ x.rack = s.bus.next ∧ x.inventory = decide ((s.racks.get s.bus.next).state ≠ .online)
        ∧ (∀ k : PlaceId, x.lamps.get k = (s.position (posIndex s.bus.next k)).lamp)
        ∧ (∀ (p : PosId) (e : RecvId) (c : ChannelId), (p, e, c) ∈ x.presets ↔
            p.val / 40 = s.bus.next.val ∧ ∃ y : Preset, s.presets.get p = some y ∧ y.entry = e ∧ y.channel = c)
        ∧ ∀ p : PosId, v.get p = if p.val / 40 = s.bus.next.val then (s.presets.get p).map (fun y => { y with sent := true })
            else s.presets.get p)
    ∧ (∀ s : State, (s.part ≠ .ready ∨ s.bus.poll = none) → exec .answerWindowExpiry s = .next s)
    ∧ (∀ (s : State) (x : Poll), s.part = .ready → s.bus.poll = some x → ∃ t : State, exec .answerWindowExpiry s = .next t
      ∧ t.bus = { next := s.bus.next, poll := none }
      ∧ (((s.racks.get x.rack).state ≠ .online ∨ (s.racks.get x.rack).unanswered < 2) → ∀ p : PosId, t.presets.get p =
          if p.val / 40 = x.rack.val then (s.presets.get p).map (fun y => { y with sent := false }) else s.presets.get p)
      ∧ ((s.racks.get x.rack).state ≠ .online → t = { s with bus := t.bus, presets := t.presets })
      ∧ ((s.racks.get x.rack).state = .online → (s.racks.get x.rack).unanswered < 2 →
          t = { s with bus := t.bus, presets := t.presets
                       racks := s.racks.set x.rack { state := .online, unanswered := (s.racks.get x.rack).unanswered + 1 } })
      ∧ ((s.racks.get x.rack).state = .online → 2 ≤ (s.racks.get x.rack).unanswered →
          (t.racks.get x.rack).state = .fault ∧ t.isPending .dock = true
          ∧ (∀ p : PosId, p.val / 40 = x.rack.val → (t.position p).state = .fault ∧ (t.position p).lamp = .dark
              ∧ (t.position p).entry = (s.position p).entry ∧ t.presets.get p = none)
          ∧ (∀ p : PosId, p.val / 40 ≠ x.rack.val → (t.position p).state = (s.position p).state
              ∧ (t.position p).entry = (s.position p).entry)
          ∧ t = { s with bus := t.bus, presets := t.presets, racks := s.racks.set x.rack { state := .fault, unanswered := 3 }
                         positions := t.positions, receivers := t.receivers, hires := t.hires, accounts := t.accounts
                         orders := t.orders, mem := t.mem, notices := t.notices }
          ∧ (s.hiresOk → s.docksOk → s.slotsOk →
            let ends := fun h : HireId => (s.hire h).state == .reserving
              && (s.posHolding (s.hire h).receiver).any (fun p => p.val / 40 == x.rack.val)
            let of := fun a : AcctId => (List.finRange 1024).filter (fun h => ends h && (s.hire h).account == a)
            (∀ p : PosId, p.val / 40 ≠ x.rack.val → t.presets.get p = s.presets.get p ∧ t.position p = s.position p)
            ∧ (∀ h : HireId, t.hire h =
                if ends h = true then { s.hire h with state := .free, changes := (s.hire h).changes + 2 } else s.hire h)
            ∧ (∀ e : RecvId, (∀ h : HireId, ends h = true → (s.hire h).receiver ≠ e) → t.receiver e = s.receiver e)
            ∧ (∀ h : HireId, ends h = true →
                t.receiver (s.hire h).receiver = { s.receiver (s.hire h).receiver with
                  state := .docked, hire := none, changes := (s.receiver (s.hire h).receiver).changes + 2 }
                ∧ ∀ y : Standing, s.standingOf (.issue h) = some y → y ∉ t.orders.standing
                  ∧ t.mem.shows y.slot { code := .failed, reason := .dockFault, clamped := y.clamped, already := false
                                         values := s.issueValues h })
            ∧ ∀ a : AcctId, t.account a = { s.account a with
                changes := (t.account a).changes, holds := (s.account a).holds - ((of a).map (fun h => (s.hire h).hold)).sum
                count := (s.account a).count - (of a).length })))
    ∧ (∀ (s : State) (a : RackAnswer) (inv : Inventory), (s.part ≠ .ready ∨ s.bus.poll = none) →
      exec (.rackAnswer a) s = .next s ∧ exec (.inventoryAnswer inv) s = .next s)
    ∧ (∀ (s : State) (x : Poll) (a : RackAnswer) (inv : Inventory), s.bus.poll = some x →
        (x.inventory = true → exec (.rackAnswer a) s = .next s) ∧ (x.inventory = false → exec (.inventoryAnswer inv) s = .next s))
    ∧ (∀ (s : State) (x : Poll) (a : RackAnswer), s.part = .ready → s.bus.poll = some x → x.inventory = false →
        ∃ v : Vector (Option Preset) 320,
        (∀ p : PosId, v.get p = if p.val / 40 = x.rack.val then (s.presets.get p).filter (fun y => !y.sent) else s.presets.get p)
        ∧ exec (.rackAnswer a) s = .next (a.results.foldl (State.takeResult x) (a.reports.foldl (State.takeReport x.rack)
            (a.changes.foldl (State.takeChange x.rack) { s with
              bus := { s.bus with poll := none }, racks := s.racks.set x.rack { state := .online, unanswered := 0 }, presets := v }))))
    ∧ (∀ (s : State) (x : Poll) (inv : Inventory), s.part = .ready → s.bus.poll = some x → x.inventory = true →
        ∃ (v : Vector (Option Preset) 320) (t : State),
        (∀ p : PosId, v.get p = if p.val / 40 = x.rack.val then (s.presets.get p).filter (fun y => !y.sent) else s.presets.get p)
        ∧ (let u := (List.finRange 40).foldl (fun u k => u.reconcile (posIndex x.rack k) (inv.get k))
              { s with bus := { s.bus with poll := none }, presets := v }
           t = { u with racks := u.racks.set x.rack { state := .online, unanswered := 0 }, notices := t.notices }
           ∧ ((s.racks.get x.rack).state ≠ .fault → t.notices = u.notices)
           ∧ ((s.racks.get x.rack).state = .fault → t.notices = (u.raise .dock).notices))
        ∧ exec (.inventoryAnswer inv) s = .next t)
    ∧ ∀ (s : State) (p : PosId) (i : Option InventoryItem),
      let pos := s.position p
      let freed := { s with positions := s.positions.set p { pos with state := .empty } }
      ((∀ y : InventoryItem, i = some y → y.serial = 0) →
        (pos.state ≠ .fault → s.reconcile p i = s)
        ∧ (∀ e : RecvId, pos.state = .fault → pos.entry = some e → s.removed (s.reconcile p i) p s.clock.run false)
        ∧ (pos.state = .fault → pos.entry = none → s.reconcile p i = { s with
            positions := s.positions.set p { pos with state := .empty, changes := pos.changes + 2 } }))
      ∧ ∀ y : InventoryItem, i = some y → y.serial ≠ 0 →
        (pos.state ≠ .fault → s.reconcile p i = s.takeInsert p y.serial y.battery)
        ∧ (pos.state = .fault → pos.entry = none → s.reconcile p i = freed.takeInsert p y.serial y.battery)
        ∧ ∀ e : RecvId, pos.state = .fault → pos.entry = some e →
          ((s.receiver e).serial ≠ y.serial → ∃ u : State, s.removed u p s.clock.run false
            ∧ s.reconcile p i = u.takeInsert p y.serial y.battery)
          ∧ ((s.receiver e).serial = y.serial →
            let t := s.reconcile p i
            t = { s with positions := t.positions, receivers := t.receivers }
            ∧ t.position p = { pos with state := .occupied, lamp := (t.position p).lamp, changes := (t.position p).changes }
            ∧ t.receiver e = { s.receiver e with battery := y.battery, changes := (t.receiver e).changes }
            ∧ (t.position p).lamp = dockLamp s.timers.battery .occupied (some (t.receiver e))
            ∧ (∀ q : PosId, q ≠ p → t.position q = s.position q) ∧ ∀ d : RecvId, d ≠ e → t.receiver d = s.receiver d)

/-- The changes, battery reports and preset results of an answer (R105, R108 to R112, R127, R132). A position above 39 and a serial of 0 are
discarded. A REMOVE is held by the settle filter, or takes effect at once with a settle time of 0. An INSERT of the same serial within the
settle is a reseat, which ends a reservation whose deadline has passed EXPIRED. One of another serial lets the removal take effect first,
and one of an entry that another position holds takes that entry out there. At an empty position it takes its receiver in by its state,
closing and settling its hire (R133, R135, R157 to R159) or reporting it found, or enrols it at the lowest free entry; a repeated one writes
the battery. A battery report writes the battery of an entry at an OCCUPIED position; a FAILED preset marks the hire its entry names. Whose
result is taken is the model's reading (log 18), and how many brackets a change opens is its count: two on the position for a REMOVE with a
settle time of 0, and one on the entry of a RETIRED receiver put back with nothing changed (log 8). -/
def Obligations.DockChanges : Prop :=
  (∀ (s : State) (r : RackId) (k : Byte) (x : Serial) (y : BitVec 4),
      (40 ≤ k.toNat → s.takeChange r (.insert k x y) = s ∧ s.takeChange r (.remove k) = s
        ∧ s.takeReport r { position := k, level := y } = s)
      ∧ s.takeChange r (.insert k 0 y) = s
      ∧ ∀ j : PlaceId, k.toNat = j.val → s.takeChange r (.remove k) = s.takeRemove (posIndex r j)
        ∧ (x ≠ 0 → s.takeChange r (.insert k x y) = s.takeInsert (posIndex r j) x y)
        ∧ (((s.position (posIndex r j)).state ≠ .occupied ∨ (s.position (posIndex r j)).entry = none) →
            s.takeReport r { position := k, level := y } = s)
        ∧ ∀ e : RecvId, (s.position (posIndex r j)).state = .occupied → (s.position (posIndex r j)).entry = some e →
            s.takeReport r { position := k, level := y } = s.takeInsert (posIndex r j) (s.receiver e).serial y)
    ∧ (∀ (s : State) (x : Poll) (y : PresetResult),
        ((∀ (p : PosId) (e : RecvId) (c : ChannelId), (p, e, c) ∈ x.presets → p.val ≠ x.rack.val * 40 + y.position.toNat)
          ∨ 40 ≤ y.position.toNat) → State.takeResult x s y = s)
    ∧ (∀ (s : State) (x : Poll) (y : PresetResult) (j : PlaceId) (e : RecvId) (c : ChannelId), y.position.toNat = j.val →
        x.presets.find? (fun z => z.1 = posIndex x.rack j) = some (posIndex x.rack j, e, c) →
        (∀ h : HireId, (s.receiver e).hire = some h → y.delivered = false → ((s.hire h).state = .reserving ∨ (s.hire h).state = .opened) →
          State.takeResult x s y = { s with
            hires := s.hires.set h { s.hire h with presetFailed := true, changes := (s.hire h).changes + 2 } })
        ∧ ((y.delivered = true ∨ ∀ h : HireId, (s.receiver e).hire = some h → (s.hire h).state ≠ .reserving ∧ (s.hire h).state ≠ .opened) →
          State.takeResult x s y = s))
    ∧ (∀ (s : State) (p : PosId) (e : RecvId), (s.position p).state = .occupied → (s.position p).entry = some e →
      let out := { s with positions := s.positions.set p { s.position p with
        state := .settlingOut, rawRemoval := s.clock.run, settleDeadline := s.clock.run + msTicks s.timers.settle, lamp := .dark
        changes := (s.position p).changes + 2 } }
      (0 < s.timers.settle → s.takeRemove p = out) ∧ (s.timers.settle = 0 → out.removed (s.takeRemove p) p s.clock.run false))
    ∧ (∀ (s : State) (p : PosId), (s.position p).state = .occupied → (s.position p).entry = none →
        s.takeRemove p = { s with positions := s.positions.set p { s.position p with
          state := .empty, lamp := .dark, removals := min 65535 ((s.position p).removals + 1), changes := (s.position p).changes + 2 } })
    ∧ (∀ (s : State) (p : PosId), ((s.position p).state = .empty ∨ (s.position p).state = .settlingOut) → s.takeRemove p = s)
    ∧ (∀ (s : State) (p : PosId) (e : RecvId) (x : Serial) (y : BitVec 4), (s.position p).state = .settlingOut →
        (s.position p).entry = some e → (s.receiver e).serial = x →
        (¬ ∃ h : HireId, (s.receiver e).hire = some h ∧ (s.receiver e).state = .reserved ∧ (s.hire h).state = .reserving
          ∧ (s.hire h).passed = true) →
        let t := s.takeInsert p x y
        t = { s with positions := t.positions, receivers := t.receivers } ∧ (t.position p).state = .occupied
        ∧ (t.position p).insertions = (s.position p).insertions ∧ (t.position p).removals = (s.position p).removals
        ∧ t.receiver e = { s.receiver e with battery := y, changes := (t.receiver e).changes }
        ∧ (t.position p).lamp = dockLamp s.timers.battery .occupied (some (t.receiver e)))
    ∧ (∀ (s : State) (p : PosId) (e : RecvId) (h : HireId) (x : Serial) (y : BitVec 4), (s.position p).state = .settlingOut →
        (s.position p).entry = some e → (s.receiver e).serial = x → (s.receiver e).hire = some h → (s.receiver e).state = .reserved →
        (s.hire h).state = .reserving → (s.hire h).passed = true → (s.hire h).receiver = e → s.posHolding e = some p →
        let t := s.takeInsert p x y
        (t.position p).state = .occupied ∧ (t.position p).insertions = (s.position p).insertions
        ∧ (t.position p).lamp = dockLamp s.timers.battery .occupied (some (t.receiver e))
        ∧ t.receiver e = { s.receiver e with battery := y, state := .docked, hire := none, changes := (t.receiver e).changes }
        ∧ t.hire h = { s.hire h with state := .free, changes := (s.hire h).changes + 2 }
        ∧ (t.account (s.hire h).account).holds = (s.account (s.hire h).account).holds - (s.hire h).hold
        ∧ (t.account (s.hire h).account).count = (s.account (s.hire h).account).count - 1
        ∧ t.presets.get p = (s.presets.get p).filter (fun z => z.sent)
        ∧ ∀ z : Standing, s.standingOf (.issue h) = some z → s.memOk →
            t.orders.standing = s.orders.standing.filter (fun w => w.slot ≠ z.slot)
            ∧ t.mem.shows z.slot { code := .expired, reason := .noReason, clamped := z.clamped, already := false
                                   values := s.issueValues h })
    ∧ (∀ (s : State) (p : PosId) (e : RecvId) (x : Serial) (y : BitVec 4), (s.position p).entry = some e → (s.receiver e).serial ≠ x →
        ((s.position p).state = .occupied ∨ (s.position p).state = .settlingOut) →
        ∃ u : State, s.removed u p (if (s.position p).state = .settlingOut then (s.position p).rawRemoval else s.clock.run) false
          ∧ s.takeInsert p x y = u.takeInsert p x y)
    ∧ (∀ (s : State) (p : PosId) (x : Serial) (y : BitVec 4), (s.position p).state = .occupied → (s.position p).entry = none →
        s.takeInsert p x y = { s with positions := s.positions.set p { s.position p with
          state := .empty, removals := min 65535 ((s.position p).removals + 1), changes := (s.position p).changes + 2 } }.takeInsert p x y)
    ∧ (∀ (s : State) (p q : PosId) (e : RecvId) (x : Serial) (y : BitVec 4), s.docksOk → (s.position p).state = .empty →
        s.entryOf x = some e → (s.position q).entry = some e →
        ∃ u : State, s.removed u q (if (s.position q).state = .settlingOut then (s.position q).rawRemoval else s.clock.run) true
          ∧ s.takeInsert p x y = u.takeInsert p x y)
    ∧ (∀ (s : State) (p : PosId) (e : RecvId) (x : Serial) (y : BitVec 4), (s.position p).state = .empty → s.entryOf x = some e →
        s.posHolding e = none → (s.receiver e).state = .adrift →
        let t := s.takeInsert p x y
        t = { s with positions := t.positions, receivers := t.receivers } ∧ (t.position p).state = .occupied
        ∧ (t.position p).entry = some e ∧ (t.position p).insertions = min 65535 ((s.position p).insertions + 1)
        ∧ t.receiver e = { s.receiver e with
            state := .docked, dock := some p, battery := y, heard := none, counted := none, changes := (s.receiver e).changes + 2 })
    ∧ (∀ (s : State) (p : PosId) (e : RecvId) (x : Serial) (y : BitVec 4), (s.position p).state = .occupied →
        (s.position p).entry = some e → (s.receiver e).serial = x →
        let t := s.takeInsert p x y
        t = { s with positions := t.positions, receivers := t.receivers }
        ∧ t.position p = { s.position p with lamp := (t.position p).lamp, changes := (t.position p).changes }
        ∧ t.receiver e = { s.receiver e with battery := y, changes := (t.receiver e).changes }
        ∧ (t.position p).lamp = dockLamp s.timers.battery .occupied (some (t.receiver e)))
    ∧ (∀ (s : State) (p : PosId) (e : RecvId) (x : Serial) (y : BitVec 4), (s.position p).state = .empty → s.entryOf x = some e →
        s.posHolding e = none → (s.receiver e).state = .retired →
        let t := s.takeInsert p x y
        t = { s with positions := t.positions, receivers := t.receivers } ∧ (t.position p).entry = some e ∧ (t.position p).lamp = .error
        ∧ t.receiver e = { s.receiver e with dock := some p, battery := y, changes := (s.receiver e).changes + 2 })
    ∧ (∀ (s : State) (p : PosId) (e : RecvId) (x : Serial) (y : BitVec 4), (s.position p).state = .empty → s.entryOf x = some e →
        s.posHolding e = none → (s.receiver e).state = .lost →
        let t := s.takeInsert p x y
        let report : ReceiverFound :=
          { serial := (s.receiver e).serial, place := .dock, hire := (s.receiver e).lostHire, found := (s.clock.stamp s.clock.run).1
            clockUnset := (s.clock.stamp s.clock.run).2 }
        t.isPending .dock = true ∧ (t.position p).entry = some e
        ∧ t.receiver e = { s.receiver e with
            state := .docked, dock := some p, battery := y, heard := none, counted := none, foundBy := .dock
            foundWaiting := (s.receiver e).foundWaiting || s.logBlocked, changes := (s.receiver e).changes + 2 }
        ∧ ((s.receiver e).foundWaiting = true → t.log = s.log)
        ∧ ((s.receiver e).foundWaiting = false → s.logBlocked = true →
            t.log = { s.log with waiting := s.log.waiting ++ [{ owner := .receiver e, record := .receiverFound report }] })
        ∧ ((s.receiver e).foundWaiting = false → s.logBlocked = false → t.log.writeCount = s.log.writeCount + 1))
    ∧ (∀ (s : State) (p : PosId) (e : RecvId) (h : HireId) (x : Serial) (y : BitVec 4), (s.position p).state = .empty →
        s.entryOf x = some e → s.posHolding e = none → ((s.receiver e).state = .onHire ∨ (s.receiver e).state = .silent) →
        (s.receiver e).hire = some h → (s.hire h).state = .opened → (∀ k : HireId, (s.hire k).state = .reserving → (s.hire k).receiver ≠ e) →
        let t := s.takeInsert p x y
        (t.receiver e).state = .docked ∧ (t.receiver e).hire = none ∧ (t.receiver e).dock = some p
        ∧ ((t.hire h).state = .free ∨ (t.hire h).state = .closedWaiting) ∧ (t.hire h).endTick = s.clock.run ∧ (t.hire h).cause = .returned
        ∧ (s.hiresOk → s.slotsOk → s.settled t h .returned))
    ∧ (∀ (s : State) (p : PosId) (e : RecvId) (x : Serial) (y : BitVec 4), (s.position p).state = .empty → s.entryOf x = none →
        (s.receiver e).serial = 0 → (∀ d : RecvId, d < e → (s.receiver d).serial ≠ 0) →
        let t := s.takeInsert p x y
        t = { s with positions := t.positions, receivers := t.receivers } ∧ (t.position p).state = .occupied
        ∧ (t.position p).entry = some e ∧ t.receiver e = { Receiver.zero with
            changes := (s.receiver e).changes + 2, serial := x, state := .docked, dock := some p, battery := y, hire := none, heard := none
            counted := none })
    ∧ (∀ (s : State) (p : PosId) (x : Serial) (y : BitVec 4), (s.position p).state = .empty → s.entryOf x = none →
        (∀ d : RecvId, (s.receiver d).serial ≠ 0) →
        let t := s.takeInsert p x y
        t.receivers = s.receivers ∧ (t.position p).state = .occupied ∧ (t.position p).entry = none ∧ (t.position p).lamp = .error
        ∧ t.isPending .dock = true)

/-- SETTLE_DEADLINE_EXPIRY and RESERVE_DEADLINE_EXPIRY (R109, R112, R126, R127). A settle that runs out lets the removal take effect, dated
at the raw removal time: a DOCKED receiver is ADRIFT, a RESERVED one opens its hire, a RETIRED one keeps no dock position. A reservation
whose deadline runs out ends EXPIRED, or waits on the settle. That an expiry may come later than its tick is the model's (log 4). -/
def Obligations.DockAndReserveDeadlines : Prop :=
  (∀ (s : State) (p : PosId), (s.part ≠ .ready ∨ (s.position p).state ≠ .settlingOut ∨ s.clock.run < (s.position p).settleDeadline) →
      exec (.settleDeadlineExpiry p) s = .next s)
    ∧ (∀ (s : State) (p : PosId) (e : RecvId), s.part = .ready → (s.position p).state = .settlingOut →
        (s.position p).settleDeadline ≤ s.clock.run → (s.position p).entry = some e → ∃ t : State,
        exec (.settleDeadlineExpiry p) s = .next t
        ∧ s.removed t p (s.position p).rawRemoval false)
    ∧ (∀ (s : State) (h : HireId), (s.part ≠ .ready ∨ (s.hire h).state ≠ .reserving ∨ (s.hire h).passed = true
        ∨ s.clock.run < (s.hire h).deadline) → exec (.reserveDeadlineExpiry h) s = .next s)
    ∧ (∀ (s : State) (h : HireId), s.part = .ready → (s.hire h).state = .reserving → (s.hire h).passed = false →
        (s.hire h).deadline ≤ s.clock.run → s.settling (s.hire h).receiver = true →
        exec (.reserveDeadlineExpiry h) s = .next { s with
          hires := s.hires.set h { s.hire h with passed := true, changes := (s.hire h).changes + 2 } })
    ∧ ∀ (s : State) (h : HireId), s.part = .ready → (s.hire h).state = .reserving → (s.hire h).passed = false →
        (s.hire h).deadline ≤ s.clock.run → s.settling (s.hire h).receiver = false → ∃ t : State,
        exec (.reserveDeadlineExpiry h) s = .next t
        ∧ t.hire h = { s.hire h with state := .free, changes := (s.hire h).changes + 2 }
        ∧ t.receiver (s.hire h).receiver = { s.receiver (s.hire h).receiver with
            state := .docked, hire := none, changes := (s.receiver (s.hire h).receiver).changes + 2 }
        ∧ (t.account (s.hire h).account).holds = (s.account (s.hire h).account).holds - (s.hire h).hold
        ∧ (t.account (s.hire h).account).count = (s.account (s.hire h).account).count - 1
        ∧ (∀ x : Standing, s.standingOf (.issue h) = some x → s.memOk →
            t.orders.standing = s.orders.standing.filter (fun y => y.slot ≠ x.slot)
            ∧ t.mem.answers s.mem x.slot { code := .expired, reason := .noReason, clamped := x.clamped, already := false
                                           values := s.issueValues h })
        ∧ t.log = s.log ∧ t.clock = s.clock ∧ t.booths = s.booths ∧ t.channels = s.channels

/-- RETIRE_RECEIVER and RESTORE_RECEIVER (R116, R117): the checks in their order; the new state, the lamp of the position that holds the
entry, and the result. -/
def Obligations.RetireAndRestore : Prop :=
  (∀ (s : State) (n : SlotId) (rest : List SlotId), s.takes 18 n rest →
      (s.paramLE n 0 3 = 0 → s.refuses .retireReceiver n rest .badArgument)
      ∧ (s.paramLE n 0 3 ≠ 0 → s.entryOf (BitVec.ofNat 24 (s.paramLE n 0 3)) = none → s.refuses .retireReceiver n rest .notFound)
      ∧ ∀ e : RecvId, s.paramLE n 0 3 ≠ 0 → s.entryOf (BitVec.ofNat 24 (s.paramLE n 0 3)) = some e →
        let was := (s.receiver e).state
        (¬ (was = .docked ∨ was = .adrift ∨ was = .lost) → s.refuses .retireReceiver n rest .state)
        ∧ ((was = .docked ∨ was = .adrift ∨ was = .lost) → ∃ v : Vector Position 320,
          s.completes .retireReceiver n rest { s with
            positions := v, receivers := s.receivers.set e { s.receiver e with state := .retired, changes := (s.receiver e).changes + 2 } }
            (Result.done (leBytes 2 e.val ++ [was.code]))
          ∧ ∀ p : PosId, v.get p = { s.position p with lamp := (v.get p).lamp, changes := (v.get p).changes }
              ∧ (s.posHolding e = some p → (v.get p).lamp = if (s.position p).state = .occupied then .error else .dark)
              ∧ (s.posHolding e ≠ some p → v.get p = s.position p)))
    ∧ ∀ (s : State) (n : SlotId) (rest : List SlotId), s.takes 19 n rest →
      (s.paramLE n 0 3 = 0 → s.refuses .restoreReceiver n rest .badArgument)
      ∧ (s.paramLE n 0 3 ≠ 0 → s.entryOf (BitVec.ofNat 24 (s.paramLE n 0 3)) = none → s.refuses .restoreReceiver n rest .notFound)
      ∧ ∀ e : RecvId, s.paramLE n 0 3 ≠ 0 → s.entryOf (BitVec.ofNat 24 (s.paramLE n 0 3)) = some e →
        let now : RecvState := if (s.posHolding e).isSome then .docked else .adrift
        ((s.receiver e).state ≠ .retired → s.refuses .restoreReceiver n rest .state)
        ∧ ((s.receiver e).state = .retired → ∃ v : Vector Position 320,
          s.completes .restoreReceiver n rest { s with
            positions := v, receivers := s.receivers.set e { s.receiver e with state := now, changes := (s.receiver e).changes + 2 } }
            (Result.done (leBytes 2 e.val ++ [now.code]))
          ∧ ∀ p : PosId, v.get p = { s.position p with lamp := (v.get p).lamp, changes := (v.get p).changes }
              ∧ (s.posHolding e = some p → (v.get p).lamp = if (s.position p).state = .occupied then
                  (if s.timers.battery ≤ (s.receiver e).battery.toNat then .ready else .charging) else .dark)
              ∧ (s.posHolding e ≠ some p → v.get p = s.position p))

/-! ## Hire -/

/-- ISSUE (R115, R121 to R124): the checks in their order; a DOCKED receiver is reserved and the order stands, an ADRIFT one is adopted and
the order is DONE; for ANY, the qualifying receiver of highest battery, and of several the one at the lowest position. That the
deadline-passed flag of an adopted hire is clear and its settlement fields are 0 is the model's choice (log 42). -/
def Obligations.IssueReservesOrAdopts : Prop :=
  ∀ (s : State) (n : SlotId) (rest : List SlotId), s.takes 16 n rest →
    ((511 < s.paramLE n 0 2 ∨ 31 < s.param8 n 5) → s.refuses .issue n rest .badArgument)
    ∧ ∀ (a : AcctId) (c : ChannelId), s.paramLE n 0 2 = a.val → s.param8 n 5 = c.val →
      let acct := s.account a
      let hold := (s.tariffs.get acct.tariff).hold
      let asked := s.paramLE n 2 3
      let charged := fun e : RecvId => (s.receiver e).state = .docked ∧ s.timers.battery ≤ (s.receiver e).battery.toNat
      let stands := fun (p : PosId) (e : RecvId) => (s.position p).state = .occupied ∧ (s.position p).entry = some e ∧ charged e
      let fits := fun e : RecvId =>
        (asked ≠ 0 ∧ s.entryOf (BitVec.ofNat 24 asked) = some e
          ∧ ((s.receiver e).state = .adrift ∨ (charged e ∧ ∀ p : PosId, s.posHolding e = some p → (s.position p).state ≠ .fault)))
        ∨ (asked = 0 ∧ ∃ p : PosId, stands p e ∧ ∀ (q : PosId) (d : RecvId), stands q d →
            (s.receiver d).battery < (s.receiver e).battery ∨ ((s.receiver d).battery = (s.receiver e).battery ∧ p ≤ q))
      let full := acct.count = acct.limit ∨ acct.deposit - acct.holds < hold
      (s.clock.valid = false → s.refuses .issue n rest .clockUnset)
      ∧ (s.clock.valid = true → acct.state = .free → s.refuses .issue n rest .notFound)
      ∧ (s.clock.valid = true → acct.state = .held → s.refuses .issue n rest .accountHeld)
      ∧ (s.clock.valid = true → acct.state = .active → full → s.refuses .issue n rest .limit)
      ∧ (s.clock.valid = true → acct.state = .active → ¬ full → (∀ h : HireId, (s.hire h).state ≠ .free) →
          s.refuses .issue n rest .tableFull)
      ∧ (s.clock.valid = true → acct.state = .active → ¬ full → (∃ h : HireId, (s.hire h).state = .free) → (∀ e : RecvId, ¬ fits e) →
          s.refuses .issue n rest .noReceiver)
      ∧ ∀ (h : HireId) (e : RecvId), s.clock.valid = true → acct.state = .active → ¬ full → (s.hire h).state = .free →
        (∀ k : HireId, k < h → (s.hire k).state ≠ .free) → fits e →
        let keeps := c = 0 ∨ ((s.channel c).defined = true ∧ (s.channel c).onAir = true)
        let preset : ChannelId := if keeps then c else 0
        let after := { s with
          nextHire := if s.nextHire = 0xFFFFFFFF then 1 else s.nextHire + 1
          accounts := s.accounts.set a { acct with holds := acct.holds + hold, count := acct.count + 1, changes := acct.changes + 2 } }
        let made : Hire := { Hire.zero with
          changes := (s.hire h).changes + 2, number := s.nextHire, account := a, receiver := e, tariff := acct.tariff, hold := hold }
        ((s.receiver e).state = .docked → ∃ t : State, exec .issue s = .next t
          ∧ t = { after with
              orders := { queue := rest
                          standing := s.orders.standing ++ [{ slot := n, owner := .issue h, clamped := decide (¬ keeps) }] }
              mem := t.mem, positions := t.positions, presets := t.presets
              hires := s.hires.set h { made with
                state := .reserving, slot := n, deadline := s.clock.run + s.timers.reservation * 1024 }
              receivers := s.receivers.set e { s.receiver e with
                state := .reserved, hire := some h, preset := preset, changes := (s.receiver e).changes + 2 } }
          ∧ t.holder n = Holder.standing ∧ (∀ x : Nat, ¬ resultByte n x → t.mem.read8 x = s.mem.read8 x)
          ∧ ∀ p : PosId,
            (s.posHolding e = some p → t.position p = { s.position p with lamp := (t.position p).lamp, changes := (t.position p).changes }
              ∧ (t.position p).lamp = (if (s.position p).state = .occupied then .issue else .dark)
              ∧ t.presets.get p = some { entry := e, channel := preset, sent := false })
            ∧ (s.posHolding e ≠ some p → t.position p = s.position p ∧ t.presets.get p = s.presets.get p))
        ∧ ((s.receiver e).state = .adrift → s.completes .issue n rest { after with
              hires := s.hires.set h { made with
                state := .opened, startTick := s.clock.run, start := (s.clock.stamp s.clock.run).1, adopted := true
                clockUnset := (s.clock.stamp s.clock.run).2 }
              receivers := s.receivers.set e { s.receiver e with
                state := .onHire, hire := some h, preset := preset, lastHeard := s.clock.run
                hires := min 65535 ((s.receiver e).hires + 1), changes := (s.receiver e).changes + 2 } }
            { code := .done, reason := .noReason, clamped := decide (¬ keeps), already := false
              values := leBytes 4 s.nextHire.toNat ++ leBytes 2 h.val ++ leBytes 3 (s.receiver e).serial.toNat ++ leBytes 1 preset.val
                ++ leBytes 2 e.val })

/-- DECLARE_LOST (R130, R134, R135, R155 to R159): an OPEN hire closes LOST now; its hold is released, its charge with the loss fee is taken
from the free deposit and the rest is owed; an account left owing is HELD, its reservations end REFUSED with ACCOUNT_HELD, and its holds
and count are left to its OPEN hires (R130); the receiver is LOST; and the HIRE_CLOSED record is written or waits. That of two records with
one number the one of lowest index is meant is the model's (log 36). -/
def Obligations.DeclareLostSettles : Prop :=
  ∀ (s : State) (n : SlotId) (rest : List SlotId), s.takes 17 n rest →
    (s.paramLE n 0 4 = 0 → s.refuses .declareLost n rest .badArgument)
    ∧ (s.paramLE n 0 4 ≠ 0 → (∀ h : HireId, (s.hire h).state ≠ .free → (s.hire h).number.toNat ≠ s.paramLE n 0 4) →
        s.refuses .declareLost n rest .notFound)
    ∧ ∀ h : HireId, s.paramLE n 0 4 ≠ 0 → (s.hire h).state ≠ .free → (s.hire h).number.toNat = s.paramLE n 0 4 →
      (∀ k : HireId, k < h → (s.hire k).state = .free ∨ (s.hire k).number ≠ (s.hire h).number) →
      ((s.hire h).state ≠ .opened → s.refuses .declareLost n rest .state)
      ∧ ((s.hire h).state = .opened → s.hiresOk →
        let old := s.hire h
        let acct := s.account old.account
        let charge := (s.tariffs.get old.tariff).charge (min 65535 (((s.clock.run - old.startTick) / 1024 + 59) / 60)) .lost
        let taken := min charge (acct.deposit - (acct.holds - old.hold))
        let added := min (charge - taken) (4294967295 - acct.owed)
        ∃ u : State, s.completes .declareLost n rest u (Result.done (leBytes 4 charge ++ leBytes 4 taken ++ leBytes 4 added))
        ∧ s.settled u h .lost
        ∧ u.receiver old.receiver = { s.receiver old.receiver with
            state := .lost, hire := none, lostHire := old.number, foundBy := .nobody, counted := none
            changes := (s.receiver old.receiver).changes + 2 }
        ∧ u.booths = s.booths ∧ u.channels = s.channels ∧ u.clock = s.clock ∧ u.timers = s.timers ∧ u.framer = s.framer)

/-! ## Beacons and the census -/

/-- BEACON (R137 to R141): a message is taken in READY; a malformed one, a stray, a duplicate and an accepted one are counted; an accepted
one is written into its entry, makes a SILENT entry ON_HIRE, and finds a LOST one once. That the header is bracketed with every counter at
its maximum too is the model's count (log 8). -/
def Obligations.BeaconsAreWorked : Prop :=
  ∀ (m : HubMessage) (s : State),
    let k := s.beacons
    let more := fun v : Nat => min (2 ^ 32 - 1) (v + 1)
    let wrong := m.checkOk = false ∨ 15 < m.hub.toNat ∨ m.serial = 0 ∨ 31 < m.channel.toNat ∨ m.reason = .unknown
    let counted := fun v : BeaconCounts => { s with
      header := { s.header with changes := s.header.changes + 2 }, beacons := { v with taken := more k.taken } }
    let notice := fun (t : State) (c : Bool) => { t with
      notices := { t.notices with waiting := if c then t.notices.waiting ||| Notice.stray.bit else t.notices.waiting } }
    let sixtyFourth := decide (k.strays < 2 ^ 32 - 1) && decide ((k.strays + 1) % 64 = 0)
    (s.part ≠ .ready → exec (.beacon m) s = .next s)
    ∧ (s.part = .ready → wrong → exec (.beacon m) s = .next (counted { k with malformed := more k.malformed }))
    ∧ (s.part = .ready → ¬ wrong → s.entryOf m.serial = none → exec (.beacon m) s = .next
        (notice (counted { k with strayUnknown := more k.strayUnknown, strays := more k.strays }) sixtyFourth))
    ∧ ∀ e : RecvId, s.part = .ready → ¬ wrong → s.entryOf m.serial = some e →
      let old := s.receiver e
      let away := old.state = .onHire ∨ old.state = .silent ∨ old.state = .adrift ∨ old.state = .lost
      let report : ReceiverFound :=
        { serial := old.serial, place := .beacon, hire := old.lostHire, found := (s.clock.stamp s.clock.run).1
          clockUnset := (s.clock.stamp s.clock.run).2 }
      let again := old.heard ≠ none ∧ m.sequence = old.lastSequence ∧ s.clock.run - old.lastHeard < 4096
      ((old.state = .docked ∨ old.state = .reserved ∨ old.state = .retired) → exec (.beacon m) s = .next
        (notice (counted { k with strayDesk := more k.strayDesk, strays := more k.strays }) sixtyFourth))
      ∧ (away → again → exec (.beacon m) s = .next (counted { k with duplicates := more k.duplicates }))
      ∧ (away → ¬ again → ∃ t : State, exec (.beacon m) s = .next t
        ∧ t.beacons = { k with
            taken := more k.taken, accepted := more k.accepted
            channelChange := if m.reason = .channelChange then more k.channelChange else k.channelChange
            lowBattery := if m.reason = .lowBattery then more k.lowBattery else k.lowBattery
            fromLost := if old.state = .lost then more k.fromLost else k.fromLost
            heardAgain := if old.state = .silent then more k.heardAgain else k.heardAgain }
        ∧ t.receiver e = { old with
            changes := old.changes + 2, heard := (t.receiver e).heard, battery := m.battery, lastHeard := s.clock.run
            lastSequence := m.sequence, state := if old.state = .silent then .onHire else old.state
            foundBy := if old.state = .lost ∧ old.foundBy = .nobody then .beacon else old.foundBy
            foundWaiting := old.foundWaiting || decide (old.state = .lost ∧ old.foundBy = .nobody ∧ s.logBlocked = true) }
        ∧ (∀ c : ChannelId, m.channel.toNat = c.val → (t.receiver e).heard = some c)
        ∧ (∀ d : RecvId, d ≠ e → t.receiver d = s.receiver d)
        ∧ (¬ (old.state = .lost ∧ old.foundBy = .nobody) → t = { s with
            header := t.header, beacons := t.beacons, receivers := t.receivers })
        ∧ (old.state = .lost → old.foundBy = .nobody → t.isPending .dock = true
            ∧ t = { s with header := t.header, beacons := t.beacons, receivers := t.receivers, notices := t.notices, log := t.log
                           mem := t.mem }
            ∧ (old.foundWaiting = true → t.log = s.log ∧ t.mem = s.mem)
            ∧ (old.foundWaiting = false → s.logBlocked = true → t.mem = s.mem ∧ t.log = { s.log with
                waiting := s.log.waiting ++ [{ owner := .receiver e, record := .receiverFound report }] })
            ∧ (old.foundWaiting = false → s.logBlocked = false → t.log.writeCount = s.log.writeCount + 1
                ∧ t.log.waiting = s.log.waiting)))

/-- CENSUS_MARK (R28, R29, R100, R102, R142 to R144): at the mark that is due, each ON_HIRE entry heard within the freshness window is
counted for the channel it reported, one not heard for longer than the silent limit goes SILENT, the listener counts are written, stranded
flags cleared, each in a bracket of the plan record, minutes credited at a minute mark, and the snapshot taken. A mark outside READY is
passed. That a mark is due, and that a SILENT entry is counted at no census whatever the window, are the model's readings (logs 5, 31). -/
def Obligations.CensusCountsListeners : Prop :=
  (∀ s : State, s.clock.markDue = false → exec .censusMark s = .next s)
    ∧ (∀ s : State, s.clock.markDue = true → s.part ≠ .ready →
        exec .censusMark s = .next { s with clock := { s.clock with markDue := false } })
    ∧ ∀ s : State, s.clock.markDue = true → s.part = .ready →
      let now := s.clock.run
      let age := fun e : RecvId => now - (s.receiver e).lastHeard
      let quiet := fun e : RecvId => (s.receiver e).state = .onHire ∧ s.timers.silent * 1024 < age e
      let counts := fun e : RecvId => (s.receiver e).state = .onHire ∧ age e ≤ s.timers.freshness * 1024 ∧ ¬ quiet e
      let heard := fun c : ChannelId => (List.finRange 2048).countP (fun e => decide (counts e ∧ (s.receiver e).heard = some c))
      let gone := (List.finRange 2048).countP (fun e => decide (quiet e))
      ∃ t : State, exec .censusMark s = .next t
      ∧ t = { s with
          clock := { s.clock with markDue := false }, header := t.header, receivers := t.receivers, channels := t.channels
          beacons := { s.beacons with
            madeSilent := min (2 ^ 32 - 1) (s.beacons.madeSilent + gone), censuses := min (2 ^ 32 - 1) (s.beacons.censuses + 1)
            listeners := ((List.finRange 32).map heard).sum }
          framer := { s.framer with strandedCount := t.framer.strandedCount, changes := t.framer.changes }
          notices := { s.notices with
            waiting := if 0 < gone then s.notices.waiting ||| Notice.silent.bit else s.notices.waiting } }
      ∧ (∀ e : RecvId,
          (((s.receiver e).state = .onHire ∨ (s.receiver e).state = .silent) → t.receiver e = { s.receiver e with
            changes := (t.receiver e).changes, counted := if counts e then (s.receiver e).heard else none
            state := if quiet e then .silent else (s.receiver e).state })
          ∧ (¬ ((s.receiver e).state = .onHire ∨ (s.receiver e).state = .silent) → t.receiver e = s.receiver e)
          ∧ ((t.receiver e).counted = (s.receiver e).counted → (t.receiver e).state = (s.receiver e).state →
              t.receiver e = s.receiver e))
      ∧ (∀ c : ChannelId, t.channel c = { s.channel c with
          changes := (t.channel c).changes, listeners := heard c, stranded := (s.channel c).stranded && decide (0 < heard c)
          minutes := if now % 61440 = 0 ∧ 0 < heard c then min (2 ^ 32 - 1) ((s.channel c).minutes + heard c) else (s.channel c).minutes })
      ∧ ((List.finRange 32).map heard).sum ≤ (List.finRange 2048).countP (fun e => (s.receiver e).state == .onHire)
      ∧ (let freed := (List.finRange 32).countP (fun c => decide ((s.channel c).stranded = true ∧ heard c = 0))
        t.framer.changes = s.framer.changes + BitVec.ofNat 16 (2 * freed)
        ∧ (freed = 0 → t.framer.strandedCount = s.framer.strandedCount)
        ∧ (0 < freed → t.framer.strandedCount = (List.finRange 32).countP (fun c => (t.channel c).stranded)))
      ∧ t.header.snapTicks = now ∧ t.header.guardHits = s.header.guardHits ∧ t.header.postRefused = s.header.postRefused
      ∧ ({ seconds := t.header.snapSeconds, fraction := t.header.snapFraction } : Stamp) = (s.clock.calendarAt now).getD Stamp.zero

/-! ## Accounts, tariffs, the tally log -/

/-- SET_TARIFF, ACCOUNT_OPEN, ACCOUNT_PAY, ACCOUNT_REFUND and ACCOUNT_CLOSE (R148, R150, R152, R153, R154). The ACCOUNT_CLOSED record is
written whole, by the table of section 11.2. -/
def Obligations.TariffAndAccountOrders : Prop :=
  (∀ (s : State) (n : SlotId) (rest : List SlotId), s.takes 20 n rest →
      let v := fun i : Nat => s.paramLE n (2 + 2 * i) 2
      (3 < s.param8 n 0 → s.refuses .setTariff n rest .badArgument)
      ∧ ∀ k : TariffId, s.param8 n 0 = k.val →
        let x : Tariff :=
          { changes := (s.tariffs.get k).changes + 2, grace := min 60 (v 0), baseMinutes := max 1 (min 1440 (v 1)), baseCharge := v 2
            stepMinutes := max 1 (min 240 (v 3)), stepCharge := v 4, cap := v 5, hold := v 6, lossFee := v 7 }
        s.completes .setTariff n rest { s with tariffs := s.tariffs.set k x }
          { code := .done, reason := .noReason, already := false, values := []
            clamped := decide (60 < v 0 ∨ v 1 = 0 ∨ 1440 < v 1 ∨ v 3 = 0 ∨ 240 < v 3) })
    ∧ (∀ (s : State) (n : SlotId) (rest : List SlotId), s.takes 21 n rest →
      ((511 < s.paramLE n 0 2 ∨ 3 < s.param8 n 6) → s.refuses .accountOpen n rest .badArgument)
      ∧ ∀ (a : AcctId) (k : TariffId), s.paramLE n 0 2 = a.val → s.param8 n 6 = k.val →
        let limit := if s.param8 n 7 = 0 then 2 else min 8 (s.param8 n 7)
        let x : Account :=
          { changes := (s.account a).changes + 2, state := .active, holder := BitVec.ofNat 32 (s.paramLE n 2 4), tariff := k
            limit := limit, deposit := s.paramLE n 8 4, holds := 0, owed := 0, count := 0, paid := s.paramLE n 8 4, charged := 0
            refunded := 0 }
        ((s.account a).state ≠ .free → s.refuses .accountOpen n rest .state)
        ∧ ((s.account a).state = .free → s.completes .accountOpen n rest { s with accounts := s.accounts.set a x }
            { code := .done, reason := .noReason, clamped := decide (8 < s.param8 n 7), already := false
              values := [BitVec.ofNat 8 limit] }))
    ∧ (∀ (s : State) (n : SlotId) (rest : List SlotId), s.takes 22 n rest →
      (511 < s.paramLE n 0 2 → s.refuses .accountPay n rest .badArgument)
      ∧ ∀ a : AcctId, s.paramLE n 0 2 = a.val →
        let old := s.account a
        let amount := s.paramLE n 2 4
        let toOwed := min amount old.owed
        let toDeposit := min (amount - toOwed) (4294967295 - old.deposit)
        (old.state = .free → s.refuses .accountPay n rest .notFound)
        ∧ (old.state ≠ .free → ∃ r : Account, s.completes .accountPay n rest { s with accounts := s.accounts.set a r }
            { code := .done, reason := .noReason, clamped := decide (toDeposit < amount - toOwed), already := false
              values := leBytes 4 toOwed ++ leBytes 4 toDeposit ++ leBytes 4 (old.owed - toOwed) }
          ∧ r = { old with
              changes := if amount = 0 ∧ old.paid < 2 ^ 48 then old.changes else r.changes, owed := old.owed - toOwed
              deposit := old.deposit + toDeposit, paid := min (2 ^ 48 - 1) (old.paid + (toOwed + toDeposit))
              state := if old.state = .held ∧ 0 < old.owed ∧ old.owed ≤ amount then .active else old.state }))
    ∧ (∀ (s : State) (n : SlotId) (rest : List SlotId), s.takes 23 n rest →
      (511 < s.paramLE n 0 2 → s.refuses .accountRefund n rest .badArgument)
      ∧ ∀ a : AcctId, s.paramLE n 0 2 = a.val →
        let old := s.account a
        let out := min (s.paramLE n 2 4) (old.deposit - old.holds)
        (old.state = .free → s.refuses .accountRefund n rest .notFound)
        ∧ (old.state = .held → s.refuses .accountRefund n rest .accountHeld)
        ∧ (old.state = .active → ∃ r : Account, s.completes .accountRefund n rest { s with accounts := s.accounts.set a r }
            { code := .done, reason := .noReason, clamped := decide (old.deposit - old.holds < s.paramLE n 2 4), already := false
              values := leBytes 4 out ++ leBytes 4 (old.deposit - out) }
          ∧ r = { old with
              changes := r.changes, deposit := old.deposit - out, refunded := min (2 ^ 48 - 1) (old.refunded + out) }))
    ∧ ∀ (s : State) (n : SlotId) (rest : List SlotId), s.takes 24 n rest →
      (511 < s.paramLE n 0 2 → s.refuses .accountClose n rest .badArgument)
      ∧ ∀ a : AcctId, s.paramLE n 0 2 = a.val →
        let old := s.account a
        let clear := old.count = 0 ∧ old.owed = 0
        (old.state = .free → s.refuses .accountClose n rest .notFound)
        ∧ (old.state ≠ .free → ¬ clear → s.refuses .accountClose n rest .state)
        ∧ (old.state ≠ .free → clear → s.logBlocked = true → s.refuses .accountClose n rest .logFull)
        ∧ (old.state ≠ .free → clear → s.logBlocked = false → ∃ u : State,
          s.completes .accountClose n rest u (Result.done (leBytes 4 old.deposit))
          ∧ u = { s with mem := u.mem, header := u.header, log := { s.log with writeCount := s.log.writeCount + 1, lost := u.log.lost }
                         notices := u.notices
                         accounts := s.accounts.set a { old with
                           changes := old.changes + 2, state := .free, deposit := 0
                           refunded := min (2 ^ 48 - 1) (old.refunded + old.deposit) } }
          ∧ u.mem.read8 (tallyBase s.log.writeCount + 2) = 3
          ∧ u.mem.read16 (tallyBase s.log.writeCount + 4) = s.log.writeCount
          ∧ u.mem.readBytes (tallyBase s.log.writeCount + 6) 6 = leBytes 6 s.clock.run
          ∧ u.mem.readBytes (tallyBase s.log.writeCount + 0x0C) 32 = leBytes 2 a.val ++ [0, 0] ++ leBytes 4 old.holder.toNat
              ++ leBytes 6 old.paid ++ leBytes 6 old.charged ++ leBytes 6 (min (2 ^ 48 - 1) (old.refunded + old.deposit)) ++ [0, 0]
              ++ leBytes 4 old.deposit
          ∧ ∀ x : Nat, x ≠ 0x100 → x ≠ 0x101 → (x < tallyBase s.log.writeCount ∨ tallyBase s.log.writeCount + 64 ≤ x) →
              ¬ resultByte n x → u.mem.read8 x = s.mem.read8 x)

/-- The charge of a hire (R156): whole days at the charge of a full day, the remainder as a day of its own, the loss fee with a loss; the
charge of a day by base, steps and cap; never above 4,294,901,760, which the dearest tariff reaches. -/
def Obligations.ChargeOfAHire : Prop :=
  (∀ (x : Tariff) (m steps : Nat), 1 ≤ m → m ≤ 1440 → 1 ≤ x.stepMinutes →
      (m ≤ x.baseMinutes → x.day m = if 0 < x.cap ∧ x.cap < x.baseCharge then x.cap else x.baseCharge)
      ∧ (x.baseMinutes < m → x.stepMinutes * steps < (m - x.baseMinutes) + x.stepMinutes → m - x.baseMinutes ≤ x.stepMinutes * steps →
          (1 ≤ x.baseMinutes → steps ≤ m - 1)
          ∧ x.day m = if 0 < x.cap ∧ x.cap < x.baseCharge + x.stepCharge * steps then x.cap else x.baseCharge + x.stepCharge * steps))
    ∧ (∀ (x : Tariff) (k r : Nat) (cause : CloseCause), r < 1440 → x.grace < 1440 * k + r →
        x.charge (1440 * k + r) cause =
          k * x.day 1440 + (if r = 0 then 0 else x.day r) + (match cause with | .lost => x.lossFee | _ => 0))
    ∧ (∀ (x : Tariff) (m : Nat), m ≤ x.grace → x.charge m .returned = 0 ∧ x.charge m .lost = x.lossFee)
    ∧ (∀ (x : Tariff) (m : Nat) (cause : CloseCause), x.baseCharge ≤ 65535 → x.stepCharge ≤ 65535 → x.lossFee ≤ 65535 →
        1 ≤ x.baseMinutes → m ≤ 65535 → (∀ d : Nat, 1 ≤ d → d ≤ 1440 → x.day d ≤ 65535 * d) ∧ x.charge m cause ≤ 4294901760)
    ∧ ∀ x : Tariff, x.grace ≤ 60 → x.baseMinutes = 1 → x.stepMinutes = 1 → x.baseCharge = 65535 → x.stepCharge = 65535 → x.cap = 0 →
        x.lossFee = 65535 → 65535 = 1440 * 45 + 735 ∧ x.day 1440 = 94370400 ∧ x.day 735 = 48168225
          ∧ x.charge 65535 .returned = 4294836225 ∧ x.charge 65535 .lost = 4294901760

/-- LOG_READ_COUNT_WRITE (R162, R165): discarded without a count outside READY; a guard hit with one byte enable or where it would leave
more than 1024 unread; the value held already changes nothing; any other is taken, and under KEEP the waiting records are written, oldest
first, while room lasts, each releasing what it belonged to. That a guard hit with the count at its maximum brackets the header too is the
model's (log 8). -/
def Obligations.ReadCountLetsWaitingRecordsIn : Prop :=
  ∀ (v : Half) (e : ByteEnables) (s : State), s.memOk →
    (s.part ≠ .ready → exec (.logReadCountWrite v e) s = .next s)
    ∧ (s.part = .ready → (e.both = false ∨ 1024 < (s.log.writeCount - v).toNat) → exec (.logReadCountWrite v e) s = .next s.guarded)
    ∧ (s.part = .ready → e.both = true → (s.log.writeCount - v).toNat ≤ 1024 → v = s.readCount →
        exec (.logReadCountWrite v e) s = .next s)
    ∧ (s.part = .ready → e.both = true → (s.log.writeCount - v).toNat ≤ 1024 → v ≠ s.readCount → s.log.waiting = [] →
        ∃ m : Memory, exec (.logReadCountWrite v e) s = .next { s with mem := m } ∧ m.read16 0x100 = v
          ∧ ∀ x : Nat, x ≠ 0x100 → x ≠ 0x101 → m.read8 x = s.mem.read8 x)
    ∧ (s.part = .ready → e.both = true → (s.log.writeCount - v).toNat ≤ 1024 → v ≠ s.readCount → s.log.policy = .keep →
        let k := min s.log.waiting.length (1024 - (s.log.writeCount - v).toNat)
        ∃ t : State, exec (.logReadCountWrite v e) s = .next t ∧ t.readCount = v
          ∧ t.log = { s.log with writeCount := s.log.writeCount + BitVec.ofNat 16 k, waiting := s.log.waiting.drop k }
          ∧ (∀ (i : Nat) (w : WaitEntry), i < k → s.log.waiting[i]? = some w →
              let base := tallyBase (s.log.writeCount + BitVec.ofNat 16 i)
              t.mem.read8 (base + 2) = w.record.kind ∧ t.mem.read16 (base + 4) = s.log.writeCount + BitVec.ofNat 16 i
              ∧ t.mem.readBytes (base + 0x0C) w.record.body.length = w.record.body
              ∧ (∀ h : HireId, w.owner = .hire h → (t.hire h).state = .free)
              ∧ (∀ d : RecvId, w.owner = .receiver d → (t.receiver d).foundWaiting = false))
          ∧ (∀ x : Nat, 0x102 ≤ x → x < 0x30000 → t.mem.read8 x = s.mem.read8 x)
          ∧ t = { s with mem := t.mem, log := t.log, header := t.header, notices := t.notices, hires := t.hires, booths := t.booths
                         receivers := t.receivers })

/-! ## Laws every step keeps -/

/-- Every step keeps the exchange memory's form, the notice stride's range, the hire-number counter off 0 (R119), and the law of the tally
log: at most 1024 unread records, and records waiting only under KEEP with the log full (R161, R163, R169). -/
def Obligations.StepsKeepTheLogLaw : Prop :=
  ∀ s t : State, step s = .next t → s.logOk → s.strideOk → s.hireNumberOk → t.logOk ∧ t.strideOk ∧ t.hireNumberOk

/-- Every step keeps the agreement of the order unit's lists with the holder words (R4, R6, R7, R9, R20). -/
def Obligations.StepsKeepOrdersAndHolders : Prop :=
  ∀ s t : State, step s = .next t → s.slotsOk → t.slotsOk

/-- Every step keeps the relay law (R89) and the agreement of channels and booths about who names whom (R71 to R76). -/
def Obligations.StepsKeepRelayAndNaming : Prop :=
  ∀ s t : State, step s = .next t → s.namingOk → (t.namingOk ∧ (s.relayOk → t.relayOk))

/-- Every step keeps the interlock's law, and changes a booth's live console in two ways alone: to the claimed console at a frame boundary,
or to none as the booth stands off LIVE (R56, R70). -/
def Obligations.StepsKeepTheInterlock : Prop :=
  ∀ s t : State, step s = .next t → s.consolesOk → t.consolesOk
    ∧ ∀ b : BoothId, (t.booth b).cons.live ≠ (s.booth b).cons.live →
        ((t.booth b).cons.live = none ∧ (t.booth b).link.state ≠ .live)
        ∨ ((∃ rest : List Instr, s.pending = .frameBoundary :: rest) ∧ (t.booth b).cons.live = (s.booth b).cons.claimed)

/-- Every step keeps the hire law (R120). -/
def Obligations.StepsKeepTheHireLaw : Prop :=
  ∀ s t : State, step s = .next t → s.hiresOk → t.hiresOk

/-- Every step keeps the racks' law, that a rack's state and those of its positions match, and a poll asks for an inventory exactly of a
rack that is not ONLINE (R103, R104, R106, R107); and beside it and the hire law the docks' law: one entry for a serial, one position for an
entry, and states that match (R110 to R112). -/
def Obligations.StepsKeepTheDockLaw : Prop :=
  ∀ s t : State, step s = .next t → s.racksOk → t.racksOk ∧ (s.hiresOk → s.docksOk → t.docksOk)

/-- Every step keeps the account law beside the hire law: holds and count are those of the account's hires, within deposit and limit, and an
account is HELD exactly while it owes, with no reservation (R151, R159). -/
def Obligations.StepsKeepTheAccountLaw : Prop :=
  ∀ s t : State, step s = .next t → s.hiresOk → s.accountsOk → t.accountsOk

/-- Every step keeps the money law of every account, until one of its totals saturates (R160). -/
def Obligations.StepsKeepTheMoneyLaw : Prop :=
  ∀ s t : State, step s = .next t → s.moneyOk → t.moneyOk
end

