-- ==== Sys2Proof/Laws/State.lean ====
section
/-!
SUPPORT. One lemma per field per update of State: each update leaves every other field as it was.
-/
namespace Sys2Proof.Machine

variable (s : State)

/-! ### State.raise -/
@[simp] theorem State.raise_part (c : Notice) : (s.raise c).part = s.part := rfl
@[simp] theorem State.raise_resetLow (c : Notice) : (s.raise c).resetLow = s.resetLow := rfl
@[simp] theorem State.raise_hostData (c : Notice) : (s.raise c).hostData = s.hostData := rfl
@[simp] theorem State.raise_header (c : Notice) : (s.raise c).header = s.header := rfl
@[simp] theorem State.raise_timers (c : Notice) : (s.raise c).timers = s.timers := rfl
@[simp] theorem State.raise_clock (c : Notice) : (s.raise c).clock = s.clock := rfl
@[simp] theorem State.raise_orders (c : Notice) : (s.raise c).orders = s.orders := rfl
@[simp] theorem State.raise_mem (c : Notice) : (s.raise c).mem = s.mem := rfl
@[simp] theorem State.raise_log (c : Notice) : (s.raise c).log = s.log := rfl
@[simp] theorem State.raise_booths (c : Notice) : (s.raise c).booths = s.booths := rfl
@[simp] theorem State.raise_inner (c : Notice) : (s.raise c).inner = s.inner := rfl
@[simp] theorem State.raise_down (c : Notice) : (s.raise c).down = s.down := rfl
@[simp] theorem State.raise_channels (c : Notice) : (s.raise c).channels = s.channels := rfl
@[simp] theorem State.raise_audio (c : Notice) : (s.raise c).audio = s.audio := rfl
@[simp] theorem State.raise_floor (c : Notice) : (s.raise c).floor = s.floor := rfl
@[simp] theorem State.raise_framer (c : Notice) : (s.raise c).framer = s.framer := rfl
@[simp] theorem State.raise_positions (c : Notice) : (s.raise c).positions = s.positions := rfl
@[simp] theorem State.raise_presets (c : Notice) : (s.raise c).presets = s.presets := rfl
@[simp] theorem State.raise_racks (c : Notice) : (s.raise c).racks = s.racks := rfl
@[simp] theorem State.raise_bus (c : Notice) : (s.raise c).bus = s.bus := rfl
@[simp] theorem State.raise_receivers (c : Notice) : (s.raise c).receivers = s.receivers := rfl
@[simp] theorem State.raise_hires (c : Notice) : (s.raise c).hires = s.hires := rfl
@[simp] theorem State.raise_nextHire (c : Notice) : (s.raise c).nextHire = s.nextHire := rfl
@[simp] theorem State.raise_accounts (c : Notice) : (s.raise c).accounts = s.accounts := rfl
@[simp] theorem State.raise_tariffs (c : Notice) : (s.raise c).tariffs = s.tariffs := rfl
@[simp] theorem State.raise_beacons (c : Notice) : (s.raise c).beacons = s.beacons := rfl
@[simp] theorem State.raise_draws (c : Notice) : (s.raise c).draws = s.draws := rfl
@[simp] theorem State.raise_pending (c : Notice) : (s.raise c).pending = s.pending := rfl

/-! ### State.bumpHeader -/
@[simp] theorem State.bumpHeader_part : (s.bumpHeader).part = s.part := rfl
@[simp] theorem State.bumpHeader_resetLow : (s.bumpHeader).resetLow = s.resetLow := rfl
@[simp] theorem State.bumpHeader_hostData : (s.bumpHeader).hostData = s.hostData := rfl
@[simp] theorem State.bumpHeader_timers : (s.bumpHeader).timers = s.timers := rfl
@[simp] theorem State.bumpHeader_notices : (s.bumpHeader).notices = s.notices := rfl
@[simp] theorem State.bumpHeader_clock : (s.bumpHeader).clock = s.clock := rfl
@[simp] theorem State.bumpHeader_orders : (s.bumpHeader).orders = s.orders := rfl
@[simp] theorem State.bumpHeader_mem : (s.bumpHeader).mem = s.mem := rfl
@[simp] theorem State.bumpHeader_log : (s.bumpHeader).log = s.log := rfl
@[simp] theorem State.bumpHeader_booths : (s.bumpHeader).booths = s.booths := rfl
@[simp] theorem State.bumpHeader_inner : (s.bumpHeader).inner = s.inner := rfl
@[simp] theorem State.bumpHeader_down : (s.bumpHeader).down = s.down := rfl
@[simp] theorem State.bumpHeader_channels : (s.bumpHeader).channels = s.channels := rfl
@[simp] theorem State.bumpHeader_audio : (s.bumpHeader).audio = s.audio := rfl
@[simp] theorem State.bumpHeader_floor : (s.bumpHeader).floor = s.floor := rfl
@[simp] theorem State.bumpHeader_framer : (s.bumpHeader).framer = s.framer := rfl
@[simp] theorem State.bumpHeader_positions : (s.bumpHeader).positions = s.positions := rfl
@[simp] theorem State.bumpHeader_presets : (s.bumpHeader).presets = s.presets := rfl
@[simp] theorem State.bumpHeader_racks : (s.bumpHeader).racks = s.racks := rfl
@[simp] theorem State.bumpHeader_bus : (s.bumpHeader).bus = s.bus := rfl
@[simp] theorem State.bumpHeader_receivers : (s.bumpHeader).receivers = s.receivers := rfl
@[simp] theorem State.bumpHeader_hires : (s.bumpHeader).hires = s.hires := rfl
@[simp] theorem State.bumpHeader_nextHire : (s.bumpHeader).nextHire = s.nextHire := rfl
@[simp] theorem State.bumpHeader_accounts : (s.bumpHeader).accounts = s.accounts := rfl
@[simp] theorem State.bumpHeader_tariffs : (s.bumpHeader).tariffs = s.tariffs := rfl
@[simp] theorem State.bumpHeader_beacons : (s.bumpHeader).beacons = s.beacons := rfl
@[simp] theorem State.bumpHeader_draws : (s.bumpHeader).draws = s.draws := rfl
@[simp] theorem State.bumpHeader_pending : (s.bumpHeader).pending = s.pending := rfl

/-! ### State.bumpPlan -/
@[simp] theorem State.bumpPlan_part : (s.bumpPlan).part = s.part := rfl
@[simp] theorem State.bumpPlan_resetLow : (s.bumpPlan).resetLow = s.resetLow := rfl
@[simp] theorem State.bumpPlan_hostData : (s.bumpPlan).hostData = s.hostData := rfl
@[simp] theorem State.bumpPlan_header : (s.bumpPlan).header = s.header := rfl
@[simp] theorem State.bumpPlan_timers : (s.bumpPlan).timers = s.timers := rfl
@[simp] theorem State.bumpPlan_notices : (s.bumpPlan).notices = s.notices := rfl
@[simp] theorem State.bumpPlan_clock : (s.bumpPlan).clock = s.clock := rfl
@[simp] theorem State.bumpPlan_orders : (s.bumpPlan).orders = s.orders := rfl
@[simp] theorem State.bumpPlan_mem : (s.bumpPlan).mem = s.mem := rfl
@[simp] theorem State.bumpPlan_log : (s.bumpPlan).log = s.log := rfl
@[simp] theorem State.bumpPlan_booths : (s.bumpPlan).booths = s.booths := rfl
@[simp] theorem State.bumpPlan_inner : (s.bumpPlan).inner = s.inner := rfl
@[simp] theorem State.bumpPlan_down : (s.bumpPlan).down = s.down := rfl
@[simp] theorem State.bumpPlan_channels : (s.bumpPlan).channels = s.channels := rfl
@[simp] theorem State.bumpPlan_audio : (s.bumpPlan).audio = s.audio := rfl
@[simp] theorem State.bumpPlan_floor : (s.bumpPlan).floor = s.floor := rfl
@[simp] theorem State.bumpPlan_positions : (s.bumpPlan).positions = s.positions := rfl
@[simp] theorem State.bumpPlan_presets : (s.bumpPlan).presets = s.presets := rfl
@[simp] theorem State.bumpPlan_racks : (s.bumpPlan).racks = s.racks := rfl
@[simp] theorem State.bumpPlan_bus : (s.bumpPlan).bus = s.bus := rfl
@[simp] theorem State.bumpPlan_receivers : (s.bumpPlan).receivers = s.receivers := rfl
@[simp] theorem State.bumpPlan_hires : (s.bumpPlan).hires = s.hires := rfl
@[simp] theorem State.bumpPlan_nextHire : (s.bumpPlan).nextHire = s.nextHire := rfl
@[simp] theorem State.bumpPlan_accounts : (s.bumpPlan).accounts = s.accounts := rfl
@[simp] theorem State.bumpPlan_tariffs : (s.bumpPlan).tariffs = s.tariffs := rfl
@[simp] theorem State.bumpPlan_beacons : (s.bumpPlan).beacons = s.beacons := rfl
@[simp] theorem State.bumpPlan_draws : (s.bumpPlan).draws = s.draws := rfl
@[simp] theorem State.bumpPlan_pending : (s.bumpPlan).pending = s.pending := rfl

/-! ### State.updBooth -/
@[simp] theorem State.updBooth_part (b : BoothId) (f : Booth → Booth) : (s.updBooth b f).part = s.part := rfl
@[simp] theorem State.updBooth_resetLow (b : BoothId) (f : Booth → Booth) : (s.updBooth b f).resetLow = s.resetLow := rfl
@[simp] theorem State.updBooth_hostData (b : BoothId) (f : Booth → Booth) : (s.updBooth b f).hostData = s.hostData := rfl
@[simp] theorem State.updBooth_header (b : BoothId) (f : Booth → Booth) : (s.updBooth b f).header = s.header := rfl
@[simp] theorem State.updBooth_timers (b : BoothId) (f : Booth → Booth) : (s.updBooth b f).timers = s.timers := rfl
@[simp] theorem State.updBooth_notices (b : BoothId) (f : Booth → Booth) : (s.updBooth b f).notices = s.notices := rfl
@[simp] theorem State.updBooth_clock (b : BoothId) (f : Booth → Booth) : (s.updBooth b f).clock = s.clock := rfl
@[simp] theorem State.updBooth_orders (b : BoothId) (f : Booth → Booth) : (s.updBooth b f).orders = s.orders := rfl
@[simp] theorem State.updBooth_mem (b : BoothId) (f : Booth → Booth) : (s.updBooth b f).mem = s.mem := rfl
@[simp] theorem State.updBooth_log (b : BoothId) (f : Booth → Booth) : (s.updBooth b f).log = s.log := rfl
@[simp] theorem State.updBooth_inner (b : BoothId) (f : Booth → Booth) : (s.updBooth b f).inner = s.inner := rfl
@[simp] theorem State.updBooth_down (b : BoothId) (f : Booth → Booth) : (s.updBooth b f).down = s.down := rfl
@[simp] theorem State.updBooth_channels (b : BoothId) (f : Booth → Booth) : (s.updBooth b f).channels = s.channels := rfl
@[simp] theorem State.updBooth_audio (b : BoothId) (f : Booth → Booth) : (s.updBooth b f).audio = s.audio := rfl
@[simp] theorem State.updBooth_floor (b : BoothId) (f : Booth → Booth) : (s.updBooth b f).floor = s.floor := rfl
@[simp] theorem State.updBooth_framer (b : BoothId) (f : Booth → Booth) : (s.updBooth b f).framer = s.framer := rfl
@[simp] theorem State.updBooth_positions (b : BoothId) (f : Booth → Booth) : (s.updBooth b f).positions = s.positions := rfl
@[simp] theorem State.updBooth_presets (b : BoothId) (f : Booth → Booth) : (s.updBooth b f).presets = s.presets := rfl
@[simp] theorem State.updBooth_racks (b : BoothId) (f : Booth → Booth) : (s.updBooth b f).racks = s.racks := rfl
@[simp] theorem State.updBooth_bus (b : BoothId) (f : Booth → Booth) : (s.updBooth b f).bus = s.bus := rfl
@[simp] theorem State.updBooth_receivers (b : BoothId) (f : Booth → Booth) : (s.updBooth b f).receivers = s.receivers := rfl
@[simp] theorem State.updBooth_hires (b : BoothId) (f : Booth → Booth) : (s.updBooth b f).hires = s.hires := rfl
@[simp] theorem State.updBooth_nextHire (b : BoothId) (f : Booth → Booth) : (s.updBooth b f).nextHire = s.nextHire := rfl
@[simp] theorem State.updBooth_accounts (b : BoothId) (f : Booth → Booth) : (s.updBooth b f).accounts = s.accounts := rfl
@[simp] theorem State.updBooth_tariffs (b : BoothId) (f : Booth → Booth) : (s.updBooth b f).tariffs = s.tariffs := rfl
@[simp] theorem State.updBooth_beacons (b : BoothId) (f : Booth → Booth) : (s.updBooth b f).beacons = s.beacons := rfl
@[simp] theorem State.updBooth_draws (b : BoothId) (f : Booth → Booth) : (s.updBooth b f).draws = s.draws := rfl
@[simp] theorem State.updBooth_pending (b : BoothId) (f : Booth → Booth) : (s.updBooth b f).pending = s.pending := rfl

/-! ### State.updInner -/
@[simp] theorem State.updInner_part (b : BoothId) (f : BoothInner → BoothInner) : (s.updInner b f).part = s.part := rfl
@[simp] theorem State.updInner_resetLow (b : BoothId) (f : BoothInner → BoothInner) : (s.updInner b f).resetLow = s.resetLow := rfl
@[simp] theorem State.updInner_hostData (b : BoothId) (f : BoothInner → BoothInner) : (s.updInner b f).hostData = s.hostData := rfl
@[simp] theorem State.updInner_header (b : BoothId) (f : BoothInner → BoothInner) : (s.updInner b f).header = s.header := rfl
@[simp] theorem State.updInner_timers (b : BoothId) (f : BoothInner → BoothInner) : (s.updInner b f).timers = s.timers := rfl
@[simp] theorem State.updInner_notices (b : BoothId) (f : BoothInner → BoothInner) : (s.updInner b f).notices = s.notices := rfl
@[simp] theorem State.updInner_clock (b : BoothId) (f : BoothInner → BoothInner) : (s.updInner b f).clock = s.clock := rfl
@[simp] theorem State.updInner_orders (b : BoothId) (f : BoothInner → BoothInner) : (s.updInner b f).orders = s.orders := rfl
@[simp] theorem State.updInner_mem (b : BoothId) (f : BoothInner → BoothInner) : (s.updInner b f).mem = s.mem := rfl
@[simp] theorem State.updInner_log (b : BoothId) (f : BoothInner → BoothInner) : (s.updInner b f).log = s.log := rfl
@[simp] theorem State.updInner_booths (b : BoothId) (f : BoothInner → BoothInner) : (s.updInner b f).booths = s.booths := rfl
@[simp] theorem State.updInner_down (b : BoothId) (f : BoothInner → BoothInner) : (s.updInner b f).down = s.down := rfl
@[simp] theorem State.updInner_channels (b : BoothId) (f : BoothInner → BoothInner) : (s.updInner b f).channels = s.channels := rfl
@[simp] theorem State.updInner_audio (b : BoothId) (f : BoothInner → BoothInner) : (s.updInner b f).audio = s.audio := rfl
@[simp] theorem State.updInner_floor (b : BoothId) (f : BoothInner → BoothInner) : (s.updInner b f).floor = s.floor := rfl
@[simp] theorem State.updInner_framer (b : BoothId) (f : BoothInner → BoothInner) : (s.updInner b f).framer = s.framer := rfl
@[simp] theorem State.updInner_positions (b : BoothId) (f : BoothInner → BoothInner) : (s.updInner b f).positions = s.positions := rfl
@[simp] theorem State.updInner_presets (b : BoothId) (f : BoothInner → BoothInner) : (s.updInner b f).presets = s.presets := rfl
@[simp] theorem State.updInner_racks (b : BoothId) (f : BoothInner → BoothInner) : (s.updInner b f).racks = s.racks := rfl
@[simp] theorem State.updInner_bus (b : BoothId) (f : BoothInner → BoothInner) : (s.updInner b f).bus = s.bus := rfl
@[simp] theorem State.updInner_receivers (b : BoothId) (f : BoothInner → BoothInner) : (s.updInner b f).receivers = s.receivers := rfl
@[simp] theorem State.updInner_hires (b : BoothId) (f : BoothInner → BoothInner) : (s.updInner b f).hires = s.hires := rfl
@[simp] theorem State.updInner_nextHire (b : BoothId) (f : BoothInner → BoothInner) : (s.updInner b f).nextHire = s.nextHire := rfl
@[simp] theorem State.updInner_accounts (b : BoothId) (f : BoothInner → BoothInner) : (s.updInner b f).accounts = s.accounts := rfl
@[simp] theorem State.updInner_tariffs (b : BoothId) (f : BoothInner → BoothInner) : (s.updInner b f).tariffs = s.tariffs := rfl
@[simp] theorem State.updInner_beacons (b : BoothId) (f : BoothInner → BoothInner) : (s.updInner b f).beacons = s.beacons := rfl
@[simp] theorem State.updInner_draws (b : BoothId) (f : BoothInner → BoothInner) : (s.updInner b f).draws = s.draws := rfl
@[simp] theorem State.updInner_pending (b : BoothId) (f : BoothInner → BoothInner) : (s.updInner b f).pending = s.pending := rfl

/-! ### State.updChannel -/
@[simp] theorem State.updChannel_part (c : ChannelId) (f : Channel → Channel) : (s.updChannel c f).part = s.part := rfl
@[simp] theorem State.updChannel_resetLow (c : ChannelId) (f : Channel → Channel) : (s.updChannel c f).resetLow = s.resetLow := rfl
@[simp] theorem State.updChannel_hostData (c : ChannelId) (f : Channel → Channel) : (s.updChannel c f).hostData = s.hostData := rfl
@[simp] theorem State.updChannel_header (c : ChannelId) (f : Channel → Channel) : (s.updChannel c f).header = s.header := rfl
@[simp] theorem State.updChannel_timers (c : ChannelId) (f : Channel → Channel) : (s.updChannel c f).timers = s.timers := rfl
@[simp] theorem State.updChannel_notices (c : ChannelId) (f : Channel → Channel) : (s.updChannel c f).notices = s.notices := rfl
@[simp] theorem State.updChannel_clock (c : ChannelId) (f : Channel → Channel) : (s.updChannel c f).clock = s.clock := rfl
@[simp] theorem State.updChannel_orders (c : ChannelId) (f : Channel → Channel) : (s.updChannel c f).orders = s.orders := rfl
@[simp] theorem State.updChannel_mem (c : ChannelId) (f : Channel → Channel) : (s.updChannel c f).mem = s.mem := rfl
@[simp] theorem State.updChannel_log (c : ChannelId) (f : Channel → Channel) : (s.updChannel c f).log = s.log := rfl
@[simp] theorem State.updChannel_booths (c : ChannelId) (f : Channel → Channel) : (s.updChannel c f).booths = s.booths := rfl
@[simp] theorem State.updChannel_inner (c : ChannelId) (f : Channel → Channel) : (s.updChannel c f).inner = s.inner := rfl
@[simp] theorem State.updChannel_down (c : ChannelId) (f : Channel → Channel) : (s.updChannel c f).down = s.down := rfl
@[simp] theorem State.updChannel_audio (c : ChannelId) (f : Channel → Channel) : (s.updChannel c f).audio = s.audio := rfl
@[simp] theorem State.updChannel_floor (c : ChannelId) (f : Channel → Channel) : (s.updChannel c f).floor = s.floor := rfl
@[simp] theorem State.updChannel_framer (c : ChannelId) (f : Channel → Channel) : (s.updChannel c f).framer = s.framer := rfl
@[simp] theorem State.updChannel_positions (c : ChannelId) (f : Channel → Channel) : (s.updChannel c f).positions = s.positions := rfl
@[simp] theorem State.updChannel_presets (c : ChannelId) (f : Channel → Channel) : (s.updChannel c f).presets = s.presets := rfl
@[simp] theorem State.updChannel_racks (c : ChannelId) (f : Channel → Channel) : (s.updChannel c f).racks = s.racks := rfl
@[simp] theorem State.updChannel_bus (c : ChannelId) (f : Channel → Channel) : (s.updChannel c f).bus = s.bus := rfl
@[simp] theorem State.updChannel_receivers (c : ChannelId) (f : Channel → Channel) : (s.updChannel c f).receivers = s.receivers := rfl
@[simp] theorem State.updChannel_hires (c : ChannelId) (f : Channel → Channel) : (s.updChannel c f).hires = s.hires := rfl
@[simp] theorem State.updChannel_nextHire (c : ChannelId) (f : Channel → Channel) : (s.updChannel c f).nextHire = s.nextHire := rfl
@[simp] theorem State.updChannel_accounts (c : ChannelId) (f : Channel → Channel) : (s.updChannel c f).accounts = s.accounts := rfl
@[simp] theorem State.updChannel_tariffs (c : ChannelId) (f : Channel → Channel) : (s.updChannel c f).tariffs = s.tariffs := rfl
@[simp] theorem State.updChannel_beacons (c : ChannelId) (f : Channel → Channel) : (s.updChannel c f).beacons = s.beacons := rfl
@[simp] theorem State.updChannel_draws (c : ChannelId) (f : Channel → Channel) : (s.updChannel c f).draws = s.draws := rfl
@[simp] theorem State.updChannel_pending (c : ChannelId) (f : Channel → Channel) : (s.updChannel c f).pending = s.pending := rfl

/-! ### State.updPosition -/
@[simp] theorem State.updPosition_part (p : PosId) (f : Position → Position) : (s.updPosition p f).part = s.part := rfl
@[simp] theorem State.updPosition_resetLow (p : PosId) (f : Position → Position) : (s.updPosition p f).resetLow = s.resetLow := rfl
@[simp] theorem State.updPosition_hostData (p : PosId) (f : Position → Position) : (s.updPosition p f).hostData = s.hostData := rfl
@[simp] theorem State.updPosition_header (p : PosId) (f : Position → Position) : (s.updPosition p f).header = s.header := rfl
@[simp] theorem State.updPosition_timers (p : PosId) (f : Position → Position) : (s.updPosition p f).timers = s.timers := rfl
@[simp] theorem State.updPosition_notices (p : PosId) (f : Position → Position) : (s.updPosition p f).notices = s.notices := rfl
@[simp] theorem State.updPosition_clock (p : PosId) (f : Position → Position) : (s.updPosition p f).clock = s.clock := rfl
@[simp] theorem State.updPosition_orders (p : PosId) (f : Position → Position) : (s.updPosition p f).orders = s.orders := rfl
@[simp] theorem State.updPosition_mem (p : PosId) (f : Position → Position) : (s.updPosition p f).mem = s.mem := rfl
@[simp] theorem State.updPosition_log (p : PosId) (f : Position → Position) : (s.updPosition p f).log = s.log := rfl
@[simp] theorem State.updPosition_booths (p : PosId) (f : Position → Position) : (s.updPosition p f).booths = s.booths := rfl
@[simp] theorem State.updPosition_inner (p : PosId) (f : Position → Position) : (s.updPosition p f).inner = s.inner := rfl
@[simp] theorem State.updPosition_down (p : PosId) (f : Position → Position) : (s.updPosition p f).down = s.down := rfl
@[simp] theorem State.updPosition_channels (p : PosId) (f : Position → Position) : (s.updPosition p f).channels = s.channels := rfl
@[simp] theorem State.updPosition_audio (p : PosId) (f : Position → Position) : (s.updPosition p f).audio = s.audio := rfl
@[simp] theorem State.updPosition_floor (p : PosId) (f : Position → Position) : (s.updPosition p f).floor = s.floor := rfl
@[simp] theorem State.updPosition_framer (p : PosId) (f : Position → Position) : (s.updPosition p f).framer = s.framer := rfl
@[simp] theorem State.updPosition_presets (p : PosId) (f : Position → Position) : (s.updPosition p f).presets = s.presets := rfl
@[simp] theorem State.updPosition_racks (p : PosId) (f : Position → Position) : (s.updPosition p f).racks = s.racks := rfl
@[simp] theorem State.updPosition_bus (p : PosId) (f : Position → Position) : (s.updPosition p f).bus = s.bus := rfl
@[simp] theorem State.updPosition_receivers (p : PosId) (f : Position → Position) : (s.updPosition p f).receivers = s.receivers := rfl
@[simp] theorem State.updPosition_hires (p : PosId) (f : Position → Position) : (s.updPosition p f).hires = s.hires := rfl
@[simp] theorem State.updPosition_nextHire (p : PosId) (f : Position → Position) : (s.updPosition p f).nextHire = s.nextHire := rfl
@[simp] theorem State.updPosition_accounts (p : PosId) (f : Position → Position) : (s.updPosition p f).accounts = s.accounts := rfl
@[simp] theorem State.updPosition_tariffs (p : PosId) (f : Position → Position) : (s.updPosition p f).tariffs = s.tariffs := rfl
@[simp] theorem State.updPosition_beacons (p : PosId) (f : Position → Position) : (s.updPosition p f).beacons = s.beacons := rfl
@[simp] theorem State.updPosition_draws (p : PosId) (f : Position → Position) : (s.updPosition p f).draws = s.draws := rfl
@[simp] theorem State.updPosition_pending (p : PosId) (f : Position → Position) : (s.updPosition p f).pending = s.pending := rfl

/-! ### State.updReceiver -/
@[simp] theorem State.updReceiver_part (e : RecvId) (f : Receiver → Receiver) : (s.updReceiver e f).part = s.part := rfl
@[simp] theorem State.updReceiver_resetLow (e : RecvId) (f : Receiver → Receiver) : (s.updReceiver e f).resetLow = s.resetLow := rfl
@[simp] theorem State.updReceiver_hostData (e : RecvId) (f : Receiver → Receiver) : (s.updReceiver e f).hostData = s.hostData := rfl
@[simp] theorem State.updReceiver_header (e : RecvId) (f : Receiver → Receiver) : (s.updReceiver e f).header = s.header := rfl
@[simp] theorem State.updReceiver_timers (e : RecvId) (f : Receiver → Receiver) : (s.updReceiver e f).timers = s.timers := rfl
@[simp] theorem State.updReceiver_notices (e : RecvId) (f : Receiver → Receiver) : (s.updReceiver e f).notices = s.notices := rfl
@[simp] theorem State.updReceiver_clock (e : RecvId) (f : Receiver → Receiver) : (s.updReceiver e f).clock = s.clock := rfl
@[simp] theorem State.updReceiver_orders (e : RecvId) (f : Receiver → Receiver) : (s.updReceiver e f).orders = s.orders := rfl
@[simp] theorem State.updReceiver_mem (e : RecvId) (f : Receiver → Receiver) : (s.updReceiver e f).mem = s.mem := rfl
@[simp] theorem State.updReceiver_log (e : RecvId) (f : Receiver → Receiver) : (s.updReceiver e f).log = s.log := rfl
@[simp] theorem State.updReceiver_booths (e : RecvId) (f : Receiver → Receiver) : (s.updReceiver e f).booths = s.booths := rfl
@[simp] theorem State.updReceiver_inner (e : RecvId) (f : Receiver → Receiver) : (s.updReceiver e f).inner = s.inner := rfl
@[simp] theorem State.updReceiver_down (e : RecvId) (f : Receiver → Receiver) : (s.updReceiver e f).down = s.down := rfl
@[simp] theorem State.updReceiver_channels (e : RecvId) (f : Receiver → Receiver) : (s.updReceiver e f).channels = s.channels := rfl
@[simp] theorem State.updReceiver_audio (e : RecvId) (f : Receiver → Receiver) : (s.updReceiver e f).audio = s.audio := rfl
@[simp] theorem State.updReceiver_floor (e : RecvId) (f : Receiver → Receiver) : (s.updReceiver e f).floor = s.floor := rfl
@[simp] theorem State.updReceiver_framer (e : RecvId) (f : Receiver → Receiver) : (s.updReceiver e f).framer = s.framer := rfl
@[simp] theorem State.updReceiver_positions (e : RecvId) (f : Receiver → Receiver) : (s.updReceiver e f).positions = s.positions := rfl
@[simp] theorem State.updReceiver_presets (e : RecvId) (f : Receiver → Receiver) : (s.updReceiver e f).presets = s.presets := rfl
@[simp] theorem State.updReceiver_racks (e : RecvId) (f : Receiver → Receiver) : (s.updReceiver e f).racks = s.racks := rfl
@[simp] theorem State.updReceiver_bus (e : RecvId) (f : Receiver → Receiver) : (s.updReceiver e f).bus = s.bus := rfl
@[simp] theorem State.updReceiver_hires (e : RecvId) (f : Receiver → Receiver) : (s.updReceiver e f).hires = s.hires := rfl
@[simp] theorem State.updReceiver_nextHire (e : RecvId) (f : Receiver → Receiver) : (s.updReceiver e f).nextHire = s.nextHire := rfl
@[simp] theorem State.updReceiver_accounts (e : RecvId) (f : Receiver → Receiver) : (s.updReceiver e f).accounts = s.accounts := rfl
@[simp] theorem State.updReceiver_tariffs (e : RecvId) (f : Receiver → Receiver) : (s.updReceiver e f).tariffs = s.tariffs := rfl
@[simp] theorem State.updReceiver_beacons (e : RecvId) (f : Receiver → Receiver) : (s.updReceiver e f).beacons = s.beacons := rfl
@[simp] theorem State.updReceiver_draws (e : RecvId) (f : Receiver → Receiver) : (s.updReceiver e f).draws = s.draws := rfl
@[simp] theorem State.updReceiver_pending (e : RecvId) (f : Receiver → Receiver) : (s.updReceiver e f).pending = s.pending := rfl

/-! ### State.updHire -/
@[simp] theorem State.updHire_part (h : HireId) (f : Hire → Hire) : (s.updHire h f).part = s.part := rfl
@[simp] theorem State.updHire_resetLow (h : HireId) (f : Hire → Hire) : (s.updHire h f).resetLow = s.resetLow := rfl
@[simp] theorem State.updHire_hostData (h : HireId) (f : Hire → Hire) : (s.updHire h f).hostData = s.hostData := rfl
@[simp] theorem State.updHire_header (h : HireId) (f : Hire → Hire) : (s.updHire h f).header = s.header := rfl
@[simp] theorem State.updHire_timers (h : HireId) (f : Hire → Hire) : (s.updHire h f).timers = s.timers := rfl
@[simp] theorem State.updHire_notices (h : HireId) (f : Hire → Hire) : (s.updHire h f).notices = s.notices := rfl
@[simp] theorem State.updHire_clock (h : HireId) (f : Hire → Hire) : (s.updHire h f).clock = s.clock := rfl
@[simp] theorem State.updHire_orders (h : HireId) (f : Hire → Hire) : (s.updHire h f).orders = s.orders := rfl
@[simp] theorem State.updHire_mem (h : HireId) (f : Hire → Hire) : (s.updHire h f).mem = s.mem := rfl
@[simp] theorem State.updHire_log (h : HireId) (f : Hire → Hire) : (s.updHire h f).log = s.log := rfl
@[simp] theorem State.updHire_booths (h : HireId) (f : Hire → Hire) : (s.updHire h f).booths = s.booths := rfl
@[simp] theorem State.updHire_inner (h : HireId) (f : Hire → Hire) : (s.updHire h f).inner = s.inner := rfl
@[simp] theorem State.updHire_down (h : HireId) (f : Hire → Hire) : (s.updHire h f).down = s.down := rfl
@[simp] theorem State.updHire_channels (h : HireId) (f : Hire → Hire) : (s.updHire h f).channels = s.channels := rfl
@[simp] theorem State.updHire_audio (h : HireId) (f : Hire → Hire) : (s.updHire h f).audio = s.audio := rfl
@[simp] theorem State.updHire_floor (h : HireId) (f : Hire → Hire) : (s.updHire h f).floor = s.floor := rfl
@[simp] theorem State.updHire_framer (h : HireId) (f : Hire → Hire) : (s.updHire h f).framer = s.framer := rfl
@[simp] theorem State.updHire_positions (h : HireId) (f : Hire → Hire) : (s.updHire h f).positions = s.positions := rfl
@[simp] theorem State.updHire_presets (h : HireId) (f : Hire → Hire) : (s.updHire h f).presets = s.presets := rfl
@[simp] theorem State.updHire_racks (h : HireId) (f : Hire → Hire) : (s.updHire h f).racks = s.racks := rfl
@[simp] theorem State.updHire_bus (h : HireId) (f : Hire → Hire) : (s.updHire h f).bus = s.bus := rfl
@[simp] theorem State.updHire_receivers (h : HireId) (f : Hire → Hire) : (s.updHire h f).receivers = s.receivers := rfl
@[simp] theorem State.updHire_nextHire (h : HireId) (f : Hire → Hire) : (s.updHire h f).nextHire = s.nextHire := rfl
@[simp] theorem State.updHire_accounts (h : HireId) (f : Hire → Hire) : (s.updHire h f).accounts = s.accounts := rfl
@[simp] theorem State.updHire_tariffs (h : HireId) (f : Hire → Hire) : (s.updHire h f).tariffs = s.tariffs := rfl
@[simp] theorem State.updHire_beacons (h : HireId) (f : Hire → Hire) : (s.updHire h f).beacons = s.beacons := rfl
@[simp] theorem State.updHire_draws (h : HireId) (f : Hire → Hire) : (s.updHire h f).draws = s.draws := rfl
@[simp] theorem State.updHire_pending (h : HireId) (f : Hire → Hire) : (s.updHire h f).pending = s.pending := rfl

/-! ### State.updAccount -/
@[simp] theorem State.updAccount_part (a : AcctId) (f : Account → Account) : (s.updAccount a f).part = s.part := rfl
@[simp] theorem State.updAccount_resetLow (a : AcctId) (f : Account → Account) : (s.updAccount a f).resetLow = s.resetLow := rfl
@[simp] theorem State.updAccount_hostData (a : AcctId) (f : Account → Account) : (s.updAccount a f).hostData = s.hostData := rfl
@[simp] theorem State.updAccount_header (a : AcctId) (f : Account → Account) : (s.updAccount a f).header = s.header := rfl
@[simp] theorem State.updAccount_timers (a : AcctId) (f : Account → Account) : (s.updAccount a f).timers = s.timers := rfl
@[simp] theorem State.updAccount_notices (a : AcctId) (f : Account → Account) : (s.updAccount a f).notices = s.notices := rfl
@[simp] theorem State.updAccount_clock (a : AcctId) (f : Account → Account) : (s.updAccount a f).clock = s.clock := rfl
@[simp] theorem State.updAccount_orders (a : AcctId) (f : Account → Account) : (s.updAccount a f).orders = s.orders := rfl
@[simp] theorem State.updAccount_mem (a : AcctId) (f : Account → Account) : (s.updAccount a f).mem = s.mem := rfl
@[simp] theorem State.updAccount_log (a : AcctId) (f : Account → Account) : (s.updAccount a f).log = s.log := rfl
@[simp] theorem State.updAccount_booths (a : AcctId) (f : Account → Account) : (s.updAccount a f).booths = s.booths := rfl
@[simp] theorem State.updAccount_inner (a : AcctId) (f : Account → Account) : (s.updAccount a f).inner = s.inner := rfl
@[simp] theorem State.updAccount_down (a : AcctId) (f : Account → Account) : (s.updAccount a f).down = s.down := rfl
@[simp] theorem State.updAccount_channels (a : AcctId) (f : Account → Account) : (s.updAccount a f).channels = s.channels := rfl
@[simp] theorem State.updAccount_audio (a : AcctId) (f : Account → Account) : (s.updAccount a f).audio = s.audio := rfl
@[simp] theorem State.updAccount_floor (a : AcctId) (f : Account → Account) : (s.updAccount a f).floor = s.floor := rfl
@[simp] theorem State.updAccount_framer (a : AcctId) (f : Account → Account) : (s.updAccount a f).framer = s.framer := rfl
@[simp] theorem State.updAccount_positions (a : AcctId) (f : Account → Account) : (s.updAccount a f).positions = s.positions := rfl
@[simp] theorem State.updAccount_presets (a : AcctId) (f : Account → Account) : (s.updAccount a f).presets = s.presets := rfl
@[simp] theorem State.updAccount_racks (a : AcctId) (f : Account → Account) : (s.updAccount a f).racks = s.racks := rfl
@[simp] theorem State.updAccount_bus (a : AcctId) (f : Account → Account) : (s.updAccount a f).bus = s.bus := rfl
@[simp] theorem State.updAccount_receivers (a : AcctId) (f : Account → Account) : (s.updAccount a f).receivers = s.receivers := rfl
@[simp] theorem State.updAccount_hires (a : AcctId) (f : Account → Account) : (s.updAccount a f).hires = s.hires := rfl
@[simp] theorem State.updAccount_nextHire (a : AcctId) (f : Account → Account) : (s.updAccount a f).nextHire = s.nextHire := rfl
@[simp] theorem State.updAccount_tariffs (a : AcctId) (f : Account → Account) : (s.updAccount a f).tariffs = s.tariffs := rfl
@[simp] theorem State.updAccount_beacons (a : AcctId) (f : Account → Account) : (s.updAccount a f).beacons = s.beacons := rfl
@[simp] theorem State.updAccount_draws (a : AcctId) (f : Account → Account) : (s.updAccount a f).draws = s.draws := rfl
@[simp] theorem State.updAccount_pending (a : AcctId) (f : Account → Account) : (s.updAccount a f).pending = s.pending := rfl

/-! ### State.writeTariff -/
@[simp] theorem State.writeTariff_part (k : TariffId) (f : Tariff → Tariff) : (s.writeTariff k f).part = s.part := rfl
@[simp] theorem State.writeTariff_resetLow (k : TariffId) (f : Tariff → Tariff) : (s.writeTariff k f).resetLow = s.resetLow := rfl
@[simp] theorem State.writeTariff_hostData (k : TariffId) (f : Tariff → Tariff) : (s.writeTariff k f).hostData = s.hostData := rfl
@[simp] theorem State.writeTariff_header (k : TariffId) (f : Tariff → Tariff) : (s.writeTariff k f).header = s.header := rfl
@[simp] theorem State.writeTariff_timers (k : TariffId) (f : Tariff → Tariff) : (s.writeTariff k f).timers = s.timers := rfl
@[simp] theorem State.writeTariff_notices (k : TariffId) (f : Tariff → Tariff) : (s.writeTariff k f).notices = s.notices := rfl
@[simp] theorem State.writeTariff_clock (k : TariffId) (f : Tariff → Tariff) : (s.writeTariff k f).clock = s.clock := rfl
@[simp] theorem State.writeTariff_orders (k : TariffId) (f : Tariff → Tariff) : (s.writeTariff k f).orders = s.orders := rfl
@[simp] theorem State.writeTariff_mem (k : TariffId) (f : Tariff → Tariff) : (s.writeTariff k f).mem = s.mem := rfl
@[simp] theorem State.writeTariff_log (k : TariffId) (f : Tariff → Tariff) : (s.writeTariff k f).log = s.log := rfl
@[simp] theorem State.writeTariff_booths (k : TariffId) (f : Tariff → Tariff) : (s.writeTariff k f).booths = s.booths := rfl
@[simp] theorem State.writeTariff_inner (k : TariffId) (f : Tariff → Tariff) : (s.writeTariff k f).inner = s.inner := rfl
@[simp] theorem State.writeTariff_down (k : TariffId) (f : Tariff → Tariff) : (s.writeTariff k f).down = s.down := rfl
@[simp] theorem State.writeTariff_channels (k : TariffId) (f : Tariff → Tariff) : (s.writeTariff k f).channels = s.channels := rfl
@[simp] theorem State.writeTariff_audio (k : TariffId) (f : Tariff → Tariff) : (s.writeTariff k f).audio = s.audio := rfl
@[simp] theorem State.writeTariff_floor (k : TariffId) (f : Tariff → Tariff) : (s.writeTariff k f).floor = s.floor := rfl
@[simp] theorem State.writeTariff_framer (k : TariffId) (f : Tariff → Tariff) : (s.writeTariff k f).framer = s.framer := rfl
@[simp] theorem State.writeTariff_positions (k : TariffId) (f : Tariff → Tariff) : (s.writeTariff k f).positions = s.positions := rfl
@[simp] theorem State.writeTariff_presets (k : TariffId) (f : Tariff → Tariff) : (s.writeTariff k f).presets = s.presets := rfl
@[simp] theorem State.writeTariff_racks (k : TariffId) (f : Tariff → Tariff) : (s.writeTariff k f).racks = s.racks := rfl
@[simp] theorem State.writeTariff_bus (k : TariffId) (f : Tariff → Tariff) : (s.writeTariff k f).bus = s.bus := rfl
@[simp] theorem State.writeTariff_receivers (k : TariffId) (f : Tariff → Tariff) : (s.writeTariff k f).receivers = s.receivers := rfl
@[simp] theorem State.writeTariff_hires (k : TariffId) (f : Tariff → Tariff) : (s.writeTariff k f).hires = s.hires := rfl
@[simp] theorem State.writeTariff_nextHire (k : TariffId) (f : Tariff → Tariff) : (s.writeTariff k f).nextHire = s.nextHire := rfl
@[simp] theorem State.writeTariff_accounts (k : TariffId) (f : Tariff → Tariff) : (s.writeTariff k f).accounts = s.accounts := rfl
@[simp] theorem State.writeTariff_beacons (k : TariffId) (f : Tariff → Tariff) : (s.writeTariff k f).beacons = s.beacons := rfl
@[simp] theorem State.writeTariff_draws (k : TariffId) (f : Tariff → Tariff) : (s.writeTariff k f).draws = s.draws := rfl
@[simp] theorem State.writeTariff_pending (k : TariffId) (f : Tariff → Tariff) : (s.writeTariff k f).pending = s.pending := rfl

/-! ### State.setPreset -/
@[simp] theorem State.setPreset_part (p : PosId) (v : Option Preset) : (s.setPreset p v).part = s.part := rfl
@[simp] theorem State.setPreset_resetLow (p : PosId) (v : Option Preset) : (s.setPreset p v).resetLow = s.resetLow := rfl
@[simp] theorem State.setPreset_hostData (p : PosId) (v : Option Preset) : (s.setPreset p v).hostData = s.hostData := rfl
@[simp] theorem State.setPreset_header (p : PosId) (v : Option Preset) : (s.setPreset p v).header = s.header := rfl
@[simp] theorem State.setPreset_timers (p : PosId) (v : Option Preset) : (s.setPreset p v).timers = s.timers := rfl
@[simp] theorem State.setPreset_notices (p : PosId) (v : Option Preset) : (s.setPreset p v).notices = s.notices := rfl
@[simp] theorem State.setPreset_clock (p : PosId) (v : Option Preset) : (s.setPreset p v).clock = s.clock := rfl
@[simp] theorem State.setPreset_orders (p : PosId) (v : Option Preset) : (s.setPreset p v).orders = s.orders := rfl
@[simp] theorem State.setPreset_mem (p : PosId) (v : Option Preset) : (s.setPreset p v).mem = s.mem := rfl
@[simp] theorem State.setPreset_log (p : PosId) (v : Option Preset) : (s.setPreset p v).log = s.log := rfl
@[simp] theorem State.setPreset_booths (p : PosId) (v : Option Preset) : (s.setPreset p v).booths = s.booths := rfl
@[simp] theorem State.setPreset_inner (p : PosId) (v : Option Preset) : (s.setPreset p v).inner = s.inner := rfl
@[simp] theorem State.setPreset_down (p : PosId) (v : Option Preset) : (s.setPreset p v).down = s.down := rfl
@[simp] theorem State.setPreset_channels (p : PosId) (v : Option Preset) : (s.setPreset p v).channels = s.channels := rfl
@[simp] theorem State.setPreset_audio (p : PosId) (v : Option Preset) : (s.setPreset p v).audio = s.audio := rfl
@[simp] theorem State.setPreset_floor (p : PosId) (v : Option Preset) : (s.setPreset p v).floor = s.floor := rfl
@[simp] theorem State.setPreset_framer (p : PosId) (v : Option Preset) : (s.setPreset p v).framer = s.framer := rfl
@[simp] theorem State.setPreset_positions (p : PosId) (v : Option Preset) : (s.setPreset p v).positions = s.positions := rfl
@[simp] theorem State.setPreset_racks (p : PosId) (v : Option Preset) : (s.setPreset p v).racks = s.racks := rfl
@[simp] theorem State.setPreset_bus (p : PosId) (v : Option Preset) : (s.setPreset p v).bus = s.bus := rfl
@[simp] theorem State.setPreset_receivers (p : PosId) (v : Option Preset) : (s.setPreset p v).receivers = s.receivers := rfl
@[simp] theorem State.setPreset_hires (p : PosId) (v : Option Preset) : (s.setPreset p v).hires = s.hires := rfl
@[simp] theorem State.setPreset_nextHire (p : PosId) (v : Option Preset) : (s.setPreset p v).nextHire = s.nextHire := rfl
@[simp] theorem State.setPreset_accounts (p : PosId) (v : Option Preset) : (s.setPreset p v).accounts = s.accounts := rfl
@[simp] theorem State.setPreset_tariffs (p : PosId) (v : Option Preset) : (s.setPreset p v).tariffs = s.tariffs := rfl
@[simp] theorem State.setPreset_beacons (p : PosId) (v : Option Preset) : (s.setPreset p v).beacons = s.beacons := rfl
@[simp] theorem State.setPreset_draws (p : PosId) (v : Option Preset) : (s.setPreset p v).draws = s.draws := rfl
@[simp] theorem State.setPreset_pending (p : PosId) (v : Option Preset) : (s.setPreset p v).pending = s.pending := rfl

/-! ### State.setRack -/
@[simp] theorem State.setRack_part (r : RackId) (v : Rack) : (s.setRack r v).part = s.part := rfl
@[simp] theorem State.setRack_resetLow (r : RackId) (v : Rack) : (s.setRack r v).resetLow = s.resetLow := rfl
@[simp] theorem State.setRack_hostData (r : RackId) (v : Rack) : (s.setRack r v).hostData = s.hostData := rfl
@[simp] theorem State.setRack_header (r : RackId) (v : Rack) : (s.setRack r v).header = s.header := rfl
@[simp] theorem State.setRack_timers (r : RackId) (v : Rack) : (s.setRack r v).timers = s.timers := rfl
@[simp] theorem State.setRack_notices (r : RackId) (v : Rack) : (s.setRack r v).notices = s.notices := rfl
@[simp] theorem State.setRack_clock (r : RackId) (v : Rack) : (s.setRack r v).clock = s.clock := rfl
@[simp] theorem State.setRack_orders (r : RackId) (v : Rack) : (s.setRack r v).orders = s.orders := rfl
@[simp] theorem State.setRack_mem (r : RackId) (v : Rack) : (s.setRack r v).mem = s.mem := rfl
@[simp] theorem State.setRack_log (r : RackId) (v : Rack) : (s.setRack r v).log = s.log := rfl
@[simp] theorem State.setRack_booths (r : RackId) (v : Rack) : (s.setRack r v).booths = s.booths := rfl
@[simp] theorem State.setRack_inner (r : RackId) (v : Rack) : (s.setRack r v).inner = s.inner := rfl
@[simp] theorem State.setRack_down (r : RackId) (v : Rack) : (s.setRack r v).down = s.down := rfl
@[simp] theorem State.setRack_channels (r : RackId) (v : Rack) : (s.setRack r v).channels = s.channels := rfl
@[simp] theorem State.setRack_audio (r : RackId) (v : Rack) : (s.setRack r v).audio = s.audio := rfl
@[simp] theorem State.setRack_floor (r : RackId) (v : Rack) : (s.setRack r v).floor = s.floor := rfl
@[simp] theorem State.setRack_framer (r : RackId) (v : Rack) : (s.setRack r v).framer = s.framer := rfl
@[simp] theorem State.setRack_positions (r : RackId) (v : Rack) : (s.setRack r v).positions = s.positions := rfl
@[simp] theorem State.setRack_presets (r : RackId) (v : Rack) : (s.setRack r v).presets = s.presets := rfl
@[simp] theorem State.setRack_bus (r : RackId) (v : Rack) : (s.setRack r v).bus = s.bus := rfl
@[simp] theorem State.setRack_receivers (r : RackId) (v : Rack) : (s.setRack r v).receivers = s.receivers := rfl
@[simp] theorem State.setRack_hires (r : RackId) (v : Rack) : (s.setRack r v).hires = s.hires := rfl
@[simp] theorem State.setRack_nextHire (r : RackId) (v : Rack) : (s.setRack r v).nextHire = s.nextHire := rfl
@[simp] theorem State.setRack_accounts (r : RackId) (v : Rack) : (s.setRack r v).accounts = s.accounts := rfl
@[simp] theorem State.setRack_tariffs (r : RackId) (v : Rack) : (s.setRack r v).tariffs = s.tariffs := rfl
@[simp] theorem State.setRack_beacons (r : RackId) (v : Rack) : (s.setRack r v).beacons = s.beacons := rfl
@[simp] theorem State.setRack_draws (r : RackId) (v : Rack) : (s.setRack r v).draws = s.draws := rfl
@[simp] theorem State.setRack_pending (r : RackId) (v : Rack) : (s.setRack r v).pending = s.pending := rfl

/-! ### State.setHolder -/
@[simp] theorem State.setHolder_part (n : SlotId) (v : Half) : (s.setHolder n v).part = s.part := rfl
@[simp] theorem State.setHolder_resetLow (n : SlotId) (v : Half) : (s.setHolder n v).resetLow = s.resetLow := rfl
@[simp] theorem State.setHolder_hostData (n : SlotId) (v : Half) : (s.setHolder n v).hostData = s.hostData := rfl
@[simp] theorem State.setHolder_header (n : SlotId) (v : Half) : (s.setHolder n v).header = s.header := rfl
@[simp] theorem State.setHolder_timers (n : SlotId) (v : Half) : (s.setHolder n v).timers = s.timers := rfl
@[simp] theorem State.setHolder_notices (n : SlotId) (v : Half) : (s.setHolder n v).notices = s.notices := rfl
@[simp] theorem State.setHolder_clock (n : SlotId) (v : Half) : (s.setHolder n v).clock = s.clock := rfl
@[simp] theorem State.setHolder_orders (n : SlotId) (v : Half) : (s.setHolder n v).orders = s.orders := rfl
@[simp] theorem State.setHolder_log (n : SlotId) (v : Half) : (s.setHolder n v).log = s.log := rfl
@[simp] theorem State.setHolder_booths (n : SlotId) (v : Half) : (s.setHolder n v).booths = s.booths := rfl
@[simp] theorem State.setHolder_inner (n : SlotId) (v : Half) : (s.setHolder n v).inner = s.inner := rfl
@[simp] theorem State.setHolder_down (n : SlotId) (v : Half) : (s.setHolder n v).down = s.down := rfl
@[simp] theorem State.setHolder_channels (n : SlotId) (v : Half) : (s.setHolder n v).channels = s.channels := rfl
@[simp] theorem State.setHolder_audio (n : SlotId) (v : Half) : (s.setHolder n v).audio = s.audio := rfl
@[simp] theorem State.setHolder_floor (n : SlotId) (v : Half) : (s.setHolder n v).floor = s.floor := rfl
@[simp] theorem State.setHolder_framer (n : SlotId) (v : Half) : (s.setHolder n v).framer = s.framer := rfl
@[simp] theorem State.setHolder_positions (n : SlotId) (v : Half) : (s.setHolder n v).positions = s.positions := rfl
@[simp] theorem State.setHolder_presets (n : SlotId) (v : Half) : (s.setHolder n v).presets = s.presets := rfl
@[simp] theorem State.setHolder_racks (n : SlotId) (v : Half) : (s.setHolder n v).racks = s.racks := rfl
@[simp] theorem State.setHolder_bus (n : SlotId) (v : Half) : (s.setHolder n v).bus = s.bus := rfl
@[simp] theorem State.setHolder_receivers (n : SlotId) (v : Half) : (s.setHolder n v).receivers = s.receivers := rfl
@[simp] theorem State.setHolder_hires (n : SlotId) (v : Half) : (s.setHolder n v).hires = s.hires := rfl
@[simp] theorem State.setHolder_nextHire (n : SlotId) (v : Half) : (s.setHolder n v).nextHire = s.nextHire := rfl
@[simp] theorem State.setHolder_accounts (n : SlotId) (v : Half) : (s.setHolder n v).accounts = s.accounts := rfl
@[simp] theorem State.setHolder_tariffs (n : SlotId) (v : Half) : (s.setHolder n v).tariffs = s.tariffs := rfl
@[simp] theorem State.setHolder_beacons (n : SlotId) (v : Half) : (s.setHolder n v).beacons = s.beacons := rfl
@[simp] theorem State.setHolder_draws (n : SlotId) (v : Half) : (s.setHolder n v).draws = s.draws := rfl
@[simp] theorem State.setHolder_pending (n : SlotId) (v : Half) : (s.setHolder n v).pending = s.pending := rfl

/-! ### State.writeResult -/
@[simp] theorem State.writeResult_part (n : SlotId) (x y : Byte) (w : Half) (l : List Byte) : (s.writeResult n x y w l).part = s.part := rfl
@[simp] theorem State.writeResult_resetLow (n : SlotId) (x y : Byte) (w : Half) (l : List Byte) : (s.writeResult n x y w l).resetLow = s.resetLow := rfl
@[simp] theorem State.writeResult_hostData (n : SlotId) (x y : Byte) (w : Half) (l : List Byte) : (s.writeResult n x y w l).hostData = s.hostData := rfl
@[simp] theorem State.writeResult_header (n : SlotId) (x y : Byte) (w : Half) (l : List Byte) : (s.writeResult n x y w l).header = s.header := rfl
@[simp] theorem State.writeResult_timers (n : SlotId) (x y : Byte) (w : Half) (l : List Byte) : (s.writeResult n x y w l).timers = s.timers := rfl
@[simp] theorem State.writeResult_notices (n : SlotId) (x y : Byte) (w : Half) (l : List Byte) : (s.writeResult n x y w l).notices = s.notices := rfl
@[simp] theorem State.writeResult_clock (n : SlotId) (x y : Byte) (w : Half) (l : List Byte) : (s.writeResult n x y w l).clock = s.clock := rfl
@[simp] theorem State.writeResult_orders (n : SlotId) (x y : Byte) (w : Half) (l : List Byte) : (s.writeResult n x y w l).orders = s.orders := rfl
@[simp] theorem State.writeResult_log (n : SlotId) (x y : Byte) (w : Half) (l : List Byte) : (s.writeResult n x y w l).log = s.log := rfl
@[simp] theorem State.writeResult_booths (n : SlotId) (x y : Byte) (w : Half) (l : List Byte) : (s.writeResult n x y w l).booths = s.booths := rfl
@[simp] theorem State.writeResult_inner (n : SlotId) (x y : Byte) (w : Half) (l : List Byte) : (s.writeResult n x y w l).inner = s.inner := rfl
@[simp] theorem State.writeResult_down (n : SlotId) (x y : Byte) (w : Half) (l : List Byte) : (s.writeResult n x y w l).down = s.down := rfl
@[simp] theorem State.writeResult_channels (n : SlotId) (x y : Byte) (w : Half) (l : List Byte) : (s.writeResult n x y w l).channels = s.channels := rfl
@[simp] theorem State.writeResult_audio (n : SlotId) (x y : Byte) (w : Half) (l : List Byte) : (s.writeResult n x y w l).audio = s.audio := rfl
@[simp] theorem State.writeResult_floor (n : SlotId) (x y : Byte) (w : Half) (l : List Byte) : (s.writeResult n x y w l).floor = s.floor := rfl
@[simp] theorem State.writeResult_framer (n : SlotId) (x y : Byte) (w : Half) (l : List Byte) : (s.writeResult n x y w l).framer = s.framer := rfl
@[simp] theorem State.writeResult_positions (n : SlotId) (x y : Byte) (w : Half) (l : List Byte) : (s.writeResult n x y w l).positions = s.positions := rfl
@[simp] theorem State.writeResult_presets (n : SlotId) (x y : Byte) (w : Half) (l : List Byte) : (s.writeResult n x y w l).presets = s.presets := rfl
@[simp] theorem State.writeResult_racks (n : SlotId) (x y : Byte) (w : Half) (l : List Byte) : (s.writeResult n x y w l).racks = s.racks := rfl
@[simp] theorem State.writeResult_bus (n : SlotId) (x y : Byte) (w : Half) (l : List Byte) : (s.writeResult n x y w l).bus = s.bus := rfl
@[simp] theorem State.writeResult_receivers (n : SlotId) (x y : Byte) (w : Half) (l : List Byte) : (s.writeResult n x y w l).receivers = s.receivers := rfl
@[simp] theorem State.writeResult_hires (n : SlotId) (x y : Byte) (w : Half) (l : List Byte) : (s.writeResult n x y w l).hires = s.hires := rfl
@[simp] theorem State.writeResult_nextHire (n : SlotId) (x y : Byte) (w : Half) (l : List Byte) : (s.writeResult n x y w l).nextHire = s.nextHire := rfl
@[simp] theorem State.writeResult_accounts (n : SlotId) (x y : Byte) (w : Half) (l : List Byte) : (s.writeResult n x y w l).accounts = s.accounts := rfl
@[simp] theorem State.writeResult_tariffs (n : SlotId) (x y : Byte) (w : Half) (l : List Byte) : (s.writeResult n x y w l).tariffs = s.tariffs := rfl
@[simp] theorem State.writeResult_beacons (n : SlotId) (x y : Byte) (w : Half) (l : List Byte) : (s.writeResult n x y w l).beacons = s.beacons := rfl
@[simp] theorem State.writeResult_draws (n : SlotId) (x y : Byte) (w : Half) (l : List Byte) : (s.writeResult n x y w l).draws = s.draws := rfl
@[simp] theorem State.writeResult_pending (n : SlotId) (x y : Byte) (w : Half) (l : List Byte) : (s.writeResult n x y w l).pending = s.pending := rfl

/-! ### State.snapshot -/
@[simp] theorem State.snapshot_part : (s.snapshot).part = s.part := rfl
@[simp] theorem State.snapshot_resetLow : (s.snapshot).resetLow = s.resetLow := rfl
@[simp] theorem State.snapshot_hostData : (s.snapshot).hostData = s.hostData := rfl
@[simp] theorem State.snapshot_timers : (s.snapshot).timers = s.timers := rfl
@[simp] theorem State.snapshot_notices : (s.snapshot).notices = s.notices := rfl
@[simp] theorem State.snapshot_clock : (s.snapshot).clock = s.clock := rfl
@[simp] theorem State.snapshot_orders : (s.snapshot).orders = s.orders := rfl
@[simp] theorem State.snapshot_mem : (s.snapshot).mem = s.mem := rfl
@[simp] theorem State.snapshot_log : (s.snapshot).log = s.log := rfl
@[simp] theorem State.snapshot_booths : (s.snapshot).booths = s.booths := rfl
@[simp] theorem State.snapshot_inner : (s.snapshot).inner = s.inner := rfl
@[simp] theorem State.snapshot_down : (s.snapshot).down = s.down := rfl
@[simp] theorem State.snapshot_channels : (s.snapshot).channels = s.channels := rfl
@[simp] theorem State.snapshot_audio : (s.snapshot).audio = s.audio := rfl
@[simp] theorem State.snapshot_floor : (s.snapshot).floor = s.floor := rfl
@[simp] theorem State.snapshot_framer : (s.snapshot).framer = s.framer := rfl
@[simp] theorem State.snapshot_positions : (s.snapshot).positions = s.positions := rfl
@[simp] theorem State.snapshot_presets : (s.snapshot).presets = s.presets := rfl
@[simp] theorem State.snapshot_racks : (s.snapshot).racks = s.racks := rfl
@[simp] theorem State.snapshot_bus : (s.snapshot).bus = s.bus := rfl
@[simp] theorem State.snapshot_receivers : (s.snapshot).receivers = s.receivers := rfl
@[simp] theorem State.snapshot_hires : (s.snapshot).hires = s.hires := rfl
@[simp] theorem State.snapshot_nextHire : (s.snapshot).nextHire = s.nextHire := rfl
@[simp] theorem State.snapshot_accounts : (s.snapshot).accounts = s.accounts := rfl
@[simp] theorem State.snapshot_tariffs : (s.snapshot).tariffs = s.tariffs := rfl
@[simp] theorem State.snapshot_beacons : (s.snapshot).beacons = s.beacons := rfl
@[simp] theorem State.snapshot_draws : (s.snapshot).draws = s.draws := rfl
@[simp] theorem State.snapshot_pending : (s.snapshot).pending = s.pending := rfl

/-! ### State.postRefusal -/
@[simp] theorem State.postRefusal_part : (s.postRefusal).part = s.part := rfl
@[simp] theorem State.postRefusal_resetLow : (s.postRefusal).resetLow = s.resetLow := rfl
@[simp] theorem State.postRefusal_hostData : (s.postRefusal).hostData = s.hostData := rfl
@[simp] theorem State.postRefusal_timers : (s.postRefusal).timers = s.timers := rfl
@[simp] theorem State.postRefusal_clock : (s.postRefusal).clock = s.clock := rfl
@[simp] theorem State.postRefusal_orders : (s.postRefusal).orders = s.orders := rfl
@[simp] theorem State.postRefusal_mem : (s.postRefusal).mem = s.mem := rfl
@[simp] theorem State.postRefusal_log : (s.postRefusal).log = s.log := rfl
@[simp] theorem State.postRefusal_booths : (s.postRefusal).booths = s.booths := rfl
@[simp] theorem State.postRefusal_inner : (s.postRefusal).inner = s.inner := rfl
@[simp] theorem State.postRefusal_down : (s.postRefusal).down = s.down := rfl
@[simp] theorem State.postRefusal_channels : (s.postRefusal).channels = s.channels := rfl
@[simp] theorem State.postRefusal_audio : (s.postRefusal).audio = s.audio := rfl
@[simp] theorem State.postRefusal_floor : (s.postRefusal).floor = s.floor := rfl
@[simp] theorem State.postRefusal_framer : (s.postRefusal).framer = s.framer := rfl
@[simp] theorem State.postRefusal_positions : (s.postRefusal).positions = s.positions := rfl
@[simp] theorem State.postRefusal_presets : (s.postRefusal).presets = s.presets := rfl
@[simp] theorem State.postRefusal_racks : (s.postRefusal).racks = s.racks := rfl
@[simp] theorem State.postRefusal_bus : (s.postRefusal).bus = s.bus := rfl
@[simp] theorem State.postRefusal_receivers : (s.postRefusal).receivers = s.receivers := rfl
@[simp] theorem State.postRefusal_hires : (s.postRefusal).hires = s.hires := rfl
@[simp] theorem State.postRefusal_nextHire : (s.postRefusal).nextHire = s.nextHire := rfl
@[simp] theorem State.postRefusal_accounts : (s.postRefusal).accounts = s.accounts := rfl
@[simp] theorem State.postRefusal_tariffs : (s.postRefusal).tariffs = s.tariffs := rfl
@[simp] theorem State.postRefusal_beacons : (s.postRefusal).beacons = s.beacons := rfl
@[simp] theorem State.postRefusal_draws : (s.postRefusal).draws = s.draws := rfl
@[simp] theorem State.postRefusal_pending : (s.postRefusal).pending = s.pending := rfl

/-! ### State.guardHit -/
@[simp] theorem State.guardHit_part : (s.guardHit).part = s.part := rfl
@[simp] theorem State.guardHit_resetLow : (s.guardHit).resetLow = s.resetLow := rfl
@[simp] theorem State.guardHit_hostData : (s.guardHit).hostData = s.hostData := rfl
@[simp] theorem State.guardHit_timers : (s.guardHit).timers = s.timers := rfl
@[simp] theorem State.guardHit_clock : (s.guardHit).clock = s.clock := rfl
@[simp] theorem State.guardHit_orders : (s.guardHit).orders = s.orders := rfl
@[simp] theorem State.guardHit_mem : (s.guardHit).mem = s.mem := rfl
@[simp] theorem State.guardHit_log : (s.guardHit).log = s.log := rfl
@[simp] theorem State.guardHit_booths : (s.guardHit).booths = s.booths := rfl
@[simp] theorem State.guardHit_inner : (s.guardHit).inner = s.inner := rfl
@[simp] theorem State.guardHit_down : (s.guardHit).down = s.down := rfl
@[simp] theorem State.guardHit_channels : (s.guardHit).channels = s.channels := rfl
@[simp] theorem State.guardHit_audio : (s.guardHit).audio = s.audio := rfl
@[simp] theorem State.guardHit_floor : (s.guardHit).floor = s.floor := rfl
@[simp] theorem State.guardHit_framer : (s.guardHit).framer = s.framer := rfl
@[simp] theorem State.guardHit_positions : (s.guardHit).positions = s.positions := rfl
@[simp] theorem State.guardHit_presets : (s.guardHit).presets = s.presets := rfl
@[simp] theorem State.guardHit_racks : (s.guardHit).racks = s.racks := rfl
@[simp] theorem State.guardHit_bus : (s.guardHit).bus = s.bus := rfl
@[simp] theorem State.guardHit_receivers : (s.guardHit).receivers = s.receivers := rfl
@[simp] theorem State.guardHit_hires : (s.guardHit).hires = s.hires := rfl
@[simp] theorem State.guardHit_nextHire : (s.guardHit).nextHire = s.nextHire := rfl
@[simp] theorem State.guardHit_accounts : (s.guardHit).accounts = s.accounts := rfl
@[simp] theorem State.guardHit_tariffs : (s.guardHit).tariffs = s.tariffs := rfl
@[simp] theorem State.guardHit_beacons : (s.guardHit).beacons = s.beacons := rfl
@[simp] theorem State.guardHit_draws : (s.guardHit).draws = s.draws := rfl
@[simp] theorem State.guardHit_pending : (s.guardHit).pending = s.pending := rfl

/-! ### State.complete -/
@[simp] theorem State.complete_part (n : SlotId) (r : Result) : (s.complete n r).part = s.part := rfl
@[simp] theorem State.complete_resetLow (n : SlotId) (r : Result) : (s.complete n r).resetLow = s.resetLow := rfl
@[simp] theorem State.complete_hostData (n : SlotId) (r : Result) : (s.complete n r).hostData = s.hostData := rfl
@[simp] theorem State.complete_header (n : SlotId) (r : Result) : (s.complete n r).header = s.header := rfl
@[simp] theorem State.complete_timers (n : SlotId) (r : Result) : (s.complete n r).timers = s.timers := rfl
@[simp] theorem State.complete_clock (n : SlotId) (r : Result) : (s.complete n r).clock = s.clock := rfl
@[simp] theorem State.complete_orders (n : SlotId) (r : Result) : (s.complete n r).orders = s.orders := rfl
@[simp] theorem State.complete_log (n : SlotId) (r : Result) : (s.complete n r).log = s.log := rfl
@[simp] theorem State.complete_booths (n : SlotId) (r : Result) : (s.complete n r).booths = s.booths := rfl
@[simp] theorem State.complete_inner (n : SlotId) (r : Result) : (s.complete n r).inner = s.inner := rfl
@[simp] theorem State.complete_down (n : SlotId) (r : Result) : (s.complete n r).down = s.down := rfl
@[simp] theorem State.complete_channels (n : SlotId) (r : Result) : (s.complete n r).channels = s.channels := rfl
@[simp] theorem State.complete_audio (n : SlotId) (r : Result) : (s.complete n r).audio = s.audio := rfl
@[simp] theorem State.complete_floor (n : SlotId) (r : Result) : (s.complete n r).floor = s.floor := rfl
@[simp] theorem State.complete_framer (n : SlotId) (r : Result) : (s.complete n r).framer = s.framer := rfl
@[simp] theorem State.complete_positions (n : SlotId) (r : Result) : (s.complete n r).positions = s.positions := rfl
@[simp] theorem State.complete_presets (n : SlotId) (r : Result) : (s.complete n r).presets = s.presets := rfl
@[simp] theorem State.complete_racks (n : SlotId) (r : Result) : (s.complete n r).racks = s.racks := rfl
@[simp] theorem State.complete_bus (n : SlotId) (r : Result) : (s.complete n r).bus = s.bus := rfl
@[simp] theorem State.complete_receivers (n : SlotId) (r : Result) : (s.complete n r).receivers = s.receivers := rfl
@[simp] theorem State.complete_hires (n : SlotId) (r : Result) : (s.complete n r).hires = s.hires := rfl
@[simp] theorem State.complete_nextHire (n : SlotId) (r : Result) : (s.complete n r).nextHire = s.nextHire := rfl
@[simp] theorem State.complete_accounts (n : SlotId) (r : Result) : (s.complete n r).accounts = s.accounts := rfl
@[simp] theorem State.complete_tariffs (n : SlotId) (r : Result) : (s.complete n r).tariffs = s.tariffs := rfl
@[simp] theorem State.complete_beacons (n : SlotId) (r : Result) : (s.complete n r).beacons = s.beacons := rfl
@[simp] theorem State.complete_draws (n : SlotId) (r : Result) : (s.complete n r).draws = s.draws := rfl
@[simp] theorem State.complete_pending (n : SlotId) (r : Result) : (s.complete n r).pending = s.pending := rfl

/-! ### State.takeSlot -/
@[simp] theorem State.takeSlot_part (n : SlotId) (l : List SlotId) : (s.takeSlot n l).part = s.part := rfl
@[simp] theorem State.takeSlot_resetLow (n : SlotId) (l : List SlotId) : (s.takeSlot n l).resetLow = s.resetLow := rfl
@[simp] theorem State.takeSlot_hostData (n : SlotId) (l : List SlotId) : (s.takeSlot n l).hostData = s.hostData := rfl
@[simp] theorem State.takeSlot_header (n : SlotId) (l : List SlotId) : (s.takeSlot n l).header = s.header := rfl
@[simp] theorem State.takeSlot_timers (n : SlotId) (l : List SlotId) : (s.takeSlot n l).timers = s.timers := rfl
@[simp] theorem State.takeSlot_notices (n : SlotId) (l : List SlotId) : (s.takeSlot n l).notices = s.notices := rfl
@[simp] theorem State.takeSlot_clock (n : SlotId) (l : List SlotId) : (s.takeSlot n l).clock = s.clock := rfl
@[simp] theorem State.takeSlot_log (n : SlotId) (l : List SlotId) : (s.takeSlot n l).log = s.log := rfl
@[simp] theorem State.takeSlot_booths (n : SlotId) (l : List SlotId) : (s.takeSlot n l).booths = s.booths := rfl
@[simp] theorem State.takeSlot_inner (n : SlotId) (l : List SlotId) : (s.takeSlot n l).inner = s.inner := rfl
@[simp] theorem State.takeSlot_down (n : SlotId) (l : List SlotId) : (s.takeSlot n l).down = s.down := rfl
@[simp] theorem State.takeSlot_channels (n : SlotId) (l : List SlotId) : (s.takeSlot n l).channels = s.channels := rfl
@[simp] theorem State.takeSlot_audio (n : SlotId) (l : List SlotId) : (s.takeSlot n l).audio = s.audio := rfl
@[simp] theorem State.takeSlot_floor (n : SlotId) (l : List SlotId) : (s.takeSlot n l).floor = s.floor := rfl
@[simp] theorem State.takeSlot_framer (n : SlotId) (l : List SlotId) : (s.takeSlot n l).framer = s.framer := rfl
@[simp] theorem State.takeSlot_positions (n : SlotId) (l : List SlotId) : (s.takeSlot n l).positions = s.positions := rfl
@[simp] theorem State.takeSlot_presets (n : SlotId) (l : List SlotId) : (s.takeSlot n l).presets = s.presets := rfl
@[simp] theorem State.takeSlot_racks (n : SlotId) (l : List SlotId) : (s.takeSlot n l).racks = s.racks := rfl
@[simp] theorem State.takeSlot_bus (n : SlotId) (l : List SlotId) : (s.takeSlot n l).bus = s.bus := rfl
@[simp] theorem State.takeSlot_receivers (n : SlotId) (l : List SlotId) : (s.takeSlot n l).receivers = s.receivers := rfl
@[simp] theorem State.takeSlot_hires (n : SlotId) (l : List SlotId) : (s.takeSlot n l).hires = s.hires := rfl
@[simp] theorem State.takeSlot_nextHire (n : SlotId) (l : List SlotId) : (s.takeSlot n l).nextHire = s.nextHire := rfl
@[simp] theorem State.takeSlot_accounts (n : SlotId) (l : List SlotId) : (s.takeSlot n l).accounts = s.accounts := rfl
@[simp] theorem State.takeSlot_tariffs (n : SlotId) (l : List SlotId) : (s.takeSlot n l).tariffs = s.tariffs := rfl
@[simp] theorem State.takeSlot_beacons (n : SlotId) (l : List SlotId) : (s.takeSlot n l).beacons = s.beacons := rfl
@[simp] theorem State.takeSlot_draws (n : SlotId) (l : List SlotId) : (s.takeSlot n l).draws = s.draws := rfl
@[simp] theorem State.takeSlot_pending (n : SlotId) (l : List SlotId) : (s.takeSlot n l).pending = s.pending := rfl

/-! ### State.makeStanding -/
@[simp] theorem State.makeStanding_part (n : SlotId) (o : StandingOwner) (c : Bool) : (s.makeStanding n o c).part = s.part := rfl
@[simp] theorem State.makeStanding_resetLow (n : SlotId) (o : StandingOwner) (c : Bool) : (s.makeStanding n o c).resetLow = s.resetLow := rfl
@[simp] theorem State.makeStanding_hostData (n : SlotId) (o : StandingOwner) (c : Bool) : (s.makeStanding n o c).hostData = s.hostData := rfl
@[simp] theorem State.makeStanding_header (n : SlotId) (o : StandingOwner) (c : Bool) : (s.makeStanding n o c).header = s.header := rfl
@[simp] theorem State.makeStanding_timers (n : SlotId) (o : StandingOwner) (c : Bool) : (s.makeStanding n o c).timers = s.timers := rfl
@[simp] theorem State.makeStanding_notices (n : SlotId) (o : StandingOwner) (c : Bool) : (s.makeStanding n o c).notices = s.notices := rfl
@[simp] theorem State.makeStanding_clock (n : SlotId) (o : StandingOwner) (c : Bool) : (s.makeStanding n o c).clock = s.clock := rfl
@[simp] theorem State.makeStanding_log (n : SlotId) (o : StandingOwner) (c : Bool) : (s.makeStanding n o c).log = s.log := rfl
@[simp] theorem State.makeStanding_booths (n : SlotId) (o : StandingOwner) (c : Bool) : (s.makeStanding n o c).booths = s.booths := rfl
@[simp] theorem State.makeStanding_inner (n : SlotId) (o : StandingOwner) (c : Bool) : (s.makeStanding n o c).inner = s.inner := rfl
@[simp] theorem State.makeStanding_down (n : SlotId) (o : StandingOwner) (c : Bool) : (s.makeStanding n o c).down = s.down := rfl
@[simp] theorem State.makeStanding_channels (n : SlotId) (o : StandingOwner) (c : Bool) : (s.makeStanding n o c).channels = s.channels := rfl
@[simp] theorem State.makeStanding_audio (n : SlotId) (o : StandingOwner) (c : Bool) : (s.makeStanding n o c).audio = s.audio := rfl
@[simp] theorem State.makeStanding_floor (n : SlotId) (o : StandingOwner) (c : Bool) : (s.makeStanding n o c).floor = s.floor := rfl
@[simp] theorem State.makeStanding_framer (n : SlotId) (o : StandingOwner) (c : Bool) : (s.makeStanding n o c).framer = s.framer := rfl
@[simp] theorem State.makeStanding_positions (n : SlotId) (o : StandingOwner) (c : Bool) : (s.makeStanding n o c).positions = s.positions := rfl
@[simp] theorem State.makeStanding_presets (n : SlotId) (o : StandingOwner) (c : Bool) : (s.makeStanding n o c).presets = s.presets := rfl
@[simp] theorem State.makeStanding_racks (n : SlotId) (o : StandingOwner) (c : Bool) : (s.makeStanding n o c).racks = s.racks := rfl
@[simp] theorem State.makeStanding_bus (n : SlotId) (o : StandingOwner) (c : Bool) : (s.makeStanding n o c).bus = s.bus := rfl
@[simp] theorem State.makeStanding_receivers (n : SlotId) (o : StandingOwner) (c : Bool) : (s.makeStanding n o c).receivers = s.receivers := rfl
@[simp] theorem State.makeStanding_hires (n : SlotId) (o : StandingOwner) (c : Bool) : (s.makeStanding n o c).hires = s.hires := rfl
@[simp] theorem State.makeStanding_nextHire (n : SlotId) (o : StandingOwner) (c : Bool) : (s.makeStanding n o c).nextHire = s.nextHire := rfl
@[simp] theorem State.makeStanding_accounts (n : SlotId) (o : StandingOwner) (c : Bool) : (s.makeStanding n o c).accounts = s.accounts := rfl
@[simp] theorem State.makeStanding_tariffs (n : SlotId) (o : StandingOwner) (c : Bool) : (s.makeStanding n o c).tariffs = s.tariffs := rfl
@[simp] theorem State.makeStanding_beacons (n : SlotId) (o : StandingOwner) (c : Bool) : (s.makeStanding n o c).beacons = s.beacons := rfl
@[simp] theorem State.makeStanding_draws (n : SlotId) (o : StandingOwner) (c : Bool) : (s.makeStanding n o c).draws = s.draws := rfl
@[simp] theorem State.makeStanding_pending (n : SlotId) (o : StandingOwner) (c : Bool) : (s.makeStanding n o c).pending = s.pending := rfl

end Sys2Proof.Machine
end

