-- ==== Sys2Proof/Laws/Tables.lean ====
section
/-!
SUPPORT. Tables and lists: what a search of a table finds, work done for each index in turn, indices read from parameters, and the bytes
of numbers.
-/
namespace Sys2Proof.Machine

/-! ## Work for each index in turn -/

@[simp] theorem State.each_nil {ι : Type} (s : State) (f : State → ι → State) : s.each [] f = s := rfl
@[simp] theorem State.each_cons {ι : Type} (s : State) (i : ι) (l : List ι) (f : State → ι → State) :
    s.each (i :: l) f = (f s i).each l f := rfl

/-- What every single work keeps, the works in turn keep. -/
theorem State.each_induct {ι : Type} {P : State → Prop} {l : List ι} {f : State → ι → State} (h : ∀ s, ∀ i ∈ l, P s → P (f s i))
    {s : State} (hs : P s) : P (s.each l f) := by
  induction l generalizing s with
  | nil => exact hs
  | cons i l ih => exact ih (fun s j hj => h s j (List.mem_cons_of_mem _ hj)) (h s i (List.mem_cons_self ..) hs)

/-- A view that no single work changes, the works in turn do not change. -/
theorem State.each_keeps {ι α : Type} (g : State → α) {l : List ι} {f : State → ι → State} (h : ∀ s, ∀ i ∈ l, g (f s i) = g s)
    (s : State) : g (s.each l f) = g s :=
  State.each_induct (P := fun t => g t = g s) (fun t i hi e => (h t i hi).trans e) rfl

/-! ## Searches -/

theorem mem_placesFrom {α : Type} (p : α → Bool) : ∀ (l : List α) (i k : Nat),
    k ∈ placesFrom p i l ↔ ∃ (j : Nat) (h : j < l.length), k = i + j ∧ p l[j] = true
  | [], i, k => by simp [placesFrom]
  | a :: l, i, k => by
    have ih := mem_placesFrom p l (i + 1) k
    have split : (∃ (j : Nat) (h : j < (a :: l).length), k = i + j ∧ p (a :: l)[j] = true)
        ↔ (k = i ∧ p a = true) ∨ ∃ (j : Nat) (h : j < l.length), k = i + 1 + j ∧ p l[j] = true := by
      constructor
      · rintro ⟨j, hj, e, hp⟩
        cases j with
        | zero => exact .inl ⟨by omega, hp⟩
        | succ j => exact .inr ⟨j, by simpa using hj, by omega, hp⟩
      · rintro (⟨e, hp⟩ | ⟨j, hj, e, hp⟩)
        · exact ⟨0, by simp, by omega, hp⟩
        · exact ⟨j + 1, by simpa using hj, by omega, hp⟩
    rw [split, ← ih]
    by_cases h : p a = true <;> simp [placesFrom, h]

theorem placesFrom_sorted {α : Type} (p : α → Bool) : ∀ (l : List α) (i : Nat), (placesFrom p i l).Pairwise (· < ·)
  | [], _ => by simp [placesFrom]
  | a :: l, i => by
    have ih := placesFrom_sorted p l (i + 1)
    by_cases h : p a = true
    · simp only [placesFrom, h, if_true, List.pairwise_cons]
      refine ⟨fun k hk => ?_, ih⟩
      obtain ⟨j, -, e, -⟩ := (mem_placesFrom p l (i + 1) k).mp hk
      omega
    · simp only [placesFrom, h, Bool.false_eq_true, if_false]
      exact ih

/-- The indices of a table whose records satisfy `p`. -/
theorem mem_tblAll {α : Type} {n : Nat} (v : Vector α n) (p : α → Bool) (i : Fin n) : i ∈ tblAll v p ↔ p v[i] = true := by
  simp only [tblAll, List.mem_filterMap, mem_placesFrom, Nat.zero_add]
  constructor
  · rintro ⟨k, ⟨j, hj, rfl, hp⟩, e⟩
    rw [Vector.length_toList] at hj
    simp only [hj, dif_pos, Option.some.injEq] at e
    subst e
    simpa using hp
  · intro hp
    exact ⟨i.val, ⟨i.val, by simp, rfl, by simpa using hp⟩, by simp⟩

/-- They come in index order. -/
theorem tblAll_sorted {α : Type} {n : Nat} (v : Vector α n) (p : α → Bool) : (tblAll v p).Pairwise (· < ·) := by
  unfold tblAll
  refine List.Pairwise.filterMap _ ?_ (placesFrom_sorted p v.toList 0)
  intro a b h x hx y hy
  simp only [Option.dite_none_right_eq_some, Option.some.injEq] at hx hy
  obtain ⟨_, rfl⟩ := hx
  obtain ⟨_, rfl⟩ := hy
  exact h

/-- A search finds the lowest index whose record satisfies `p`. -/
theorem tblFind_eq_some {α : Type} {n : Nat} (v : Vector α n) (p : α → Bool) (i : Fin n) :
    tblFind v p = some i ↔ p v[i] = true ∧ ∀ j : Fin n, j < i → p v[j] = false := by
  have hm := mem_tblAll v p
  have hs := tblAll_sorted v p
  unfold tblFind
  cases hl : tblAll v p with
  | nil =>
    rw [hl] at hm
    simp only [List.head?_nil, reduceCtorEq, false_iff, not_and]
    exact fun h => absurd ((hm i).mpr h) (by simp)
  | cons a l =>
    rw [hl] at hm hs
    simp only [List.head?_cons, Option.some.injEq]
    constructor
    · rintro rfl
      refine ⟨(hm a).mp (by simp), fun j hj => ?_⟩
      cases hp : p v[j] with
      | false => rfl
      | true =>
        rcases List.mem_cons.mp ((hm j).mpr hp) with rfl | hjl
        · exact absurd hj (by simp)
        · exact absurd (lt_trans hj ((List.pairwise_cons.mp hs).1 j hjl)) (by simp)
    · rintro ⟨hp, hmin⟩
      rcases List.mem_cons.mp ((hm i).mpr hp) with h | h
      · exact h.symm
      · have ha := (hm a).mp (by simp)
        rw [hmin a ((List.pairwise_cons.mp hs).1 i h)] at ha
        exact absurd ha (by simp)

/-- A search that finds nothing. -/
theorem tblFind_eq_none {α : Type} {n : Nat} (v : Vector α n) (p : α → Bool) :
    tblFind v p = none ↔ ∀ i : Fin n, p v[i] = false := by
  have hm := mem_tblAll v p
  unfold tblFind
  rw [List.head?_eq_none_iff]
  constructor
  · intro h i
    cases hp : p v[i] with
    | false => rfl
    | true => exact absurd ((hm i).mpr hp) (by simp [h])
  · intro h
    refine List.eq_nil_iff_forall_not_mem.mpr fun i hi => ?_
    have := (hm i).mp hi
    rw [h i] at this
    exact absurd this (by simp)

/-- The position that holds an entry holds it (section 7.1). -/
theorem State.posHolding_entry {s : State} {e : RecvId} {p : PosId} (h : s.posHolding e = some p) : (s.position p).entry = some e := by
  have := ((tblFind_eq_some _ _ _).mp h).1
  simpa using this

/-- No position holds an entry for which none is found. -/
theorem State.posHolding_none {s : State} {e : RecvId} : s.posHolding e = none ↔ ∀ p : PosId, (s.position p).entry ≠ some e := by
  unfold State.posHolding
  rw [tblFind_eq_none]
  simp

/-- The entry found for a serial holds it, and the serial is not 0 (R110). -/
theorem State.entryOf_serial {s : State} {x : Serial} {e : RecvId} (h : s.entryOf x = some e) : (s.receiver e).serial = x ∧ x ≠ 0 := by
  unfold State.entryOf at h
  split at h
  · cases h
  · rename_i hx
    exact ⟨by simpa using ((tblFind_eq_some _ _ _).mp h).1, hx⟩

/-- No entry holds a serial for which none is found. -/
theorem State.entryOf_none {s : State} {x : Serial} (hx : x ≠ 0) : s.entryOf x = none ↔ ∀ e : RecvId, (s.receiver e).serial ≠ x := by
  unfold State.entryOf
  rw [if_neg hx, tblFind_eq_none]
  simp

/-! ## Indices of parameters -/

theorem index?_eq_some {k n : Nat} {i : Fin k} : index? k n = some i ↔ n = i.val := by
  unfold index?
  constructor
  · intro h
    split at h
    · cases h; rfl
    · cases h
  · rintro rfl; simp

theorem index?_eq_none {k n : Nat} : index? k n = none ↔ k ≤ n := by
  unfold index?
  split <;> simp <;> omega

/-! ## The bytes of numbers -/

@[simp] theorem leBytes_length : ∀ k n : Nat, (leBytes k n).length = k
  | 0, _ => rfl
  | k + 1, n => by simp [leBytes, leBytes_length k]

theorem ofBytes_lt : ∀ l : List Byte, ofBytes l < 256 ^ l.length
  | [] => by simp [ofBytes]
  | b :: l => by
    have := ofBytes_lt l
    have hb : b.toNat < 256 := b.isLt
    simp only [ofBytes, List.length_cons, Nat.pow_succ]
    omega

/-- The bytes of a number that fits read back as the number. -/
theorem ofBytes_leBytes : ∀ (k n : Nat), n < 256 ^ k → ofBytes (leBytes k n) = n
  | 0, n, h => by simp at h; simp [leBytes, ofBytes, h]
  | k + 1, n, h => by
    rw [leBytes, ofBytes, ofBytes_leBytes k (n / 256) (by rw [Nat.pow_succ] at h; omega)]
    simp only [BitVec.toNat_ofNat]
    omega

theorem satAdd_le (bits n k : Nat) : satAdd bits n k ≤ 2 ^ bits - 1 := Nat.min_le_left _ _

end Sys2Proof.Machine
end

