-- ==== Sys2Proof/Laws/Frames.lean ====
section
/-!
SUPPORT. What each shared operation can change, as a list of fields of State: every field that is not listed is as it was. A proof about
such a field cites the operation's lemma and does not unfold the operation.
-/
namespace Sys2Proof.Machine

/-- The fields of State, by name. -/
inductive StateField where
  | part | resetLow | hostData | header | timers | notices | clock | orders | mem | log | booths | inner | down | channels
  | audio | floor | framer | positions | presets | racks | bus | receivers | hires | nextHire | accounts | tariffs | beacons
  | draws | pending
  deriving DecidableEq, Repr

/-- Two states agree in a field. -/
def StateField.same : StateField → State → State → Prop
  | .part, s, t => t.part = s.part
  | .resetLow, s, t => t.resetLow = s.resetLow
  | .hostData, s, t => t.hostData = s.hostData
  | .header, s, t => t.header = s.header
  | .timers, s, t => t.timers = s.timers
  | .notices, s, t => t.notices = s.notices
  | .clock, s, t => t.clock = s.clock
  | .orders, s, t => t.orders = s.orders
  | .mem, s, t => t.mem = s.mem
  | .log, s, t => t.log = s.log
  | .booths, s, t => t.booths = s.booths
  | .inner, s, t => t.inner = s.inner
  | .down, s, t => t.down = s.down
  | .channels, s, t => t.channels = s.channels
  | .audio, s, t => t.audio = s.audio
  | .floor, s, t => t.floor = s.floor
  | .framer, s, t => t.framer = s.framer
  | .positions, s, t => t.positions = s.positions
  | .presets, s, t => t.presets = s.presets
  | .racks, s, t => t.racks = s.racks
  | .bus, s, t => t.bus = s.bus
  | .receivers, s, t => t.receivers = s.receivers
  | .hires, s, t => t.hires = s.hires
  | .nextHire, s, t => t.nextHire = s.nextHire
  | .accounts, s, t => t.accounts = s.accounts
  | .tariffs, s, t => t.tariffs = s.tariffs
  | .beacons, s, t => t.beacons = s.beacons
  | .draws, s, t => t.draws = s.draws
  | .pending, s, t => t.pending = s.pending

/-- The second state differs from the first in the listed fields alone. -/
def State.onlyIn (s : State) (l : List StateField) (t : State) : Prop := ∀ f : StateField, f ∉ l → f.same s t

variable {s t u : State} {l k : List StateField}

theorem StateField.same_refl (f : StateField) (s : State) : f.same s s := by cases f <;> rfl

theorem StateField.same_trans {f : StateField} (h : f.same s t) (g : f.same t u) : f.same s u := by
  cases f <;> exact Eq.trans g h

theorem State.onlyIn_refl (s : State) (l : List StateField) : s.onlyIn l s := fun f _ => f.same_refl s

/-- More fields may be listed. -/
theorem State.onlyIn.sub (h : s.onlyIn l t) (g : ∀ f ∈ l, f ∈ k) : s.onlyIn k t := fun f hf => h f (fun e => hf (g f e))

/-- One operation after another, the second in fewer fields. -/
theorem State.onlyIn.next (h : s.onlyIn l t) (g : t.onlyIn k u) (e : ∀ f ∈ k, f ∈ l) : s.onlyIn l u :=
  fun f hf => StateField.same_trans (h f hf) (g f (fun x => hf (e f x)))

/-- One operation after another. -/
theorem State.onlyIn.seq (h : s.onlyIn l t) (g : t.onlyIn l u) : s.onlyIn l u :=
  fun f hf => StateField.same_trans (h f hf) (g f hf)

/-- Works in turn. -/
theorem State.each_only {l : List StateField} {ι : Type} {x : List ι} {w : State → ι → State}
    (h : ∀ s : State, ∀ i ∈ x, s.onlyIn l (w s i)) (s : State) :
    s.onlyIn l (s.each x w) :=
  State.each_induct (P := fun t => s.onlyIn l t) (fun t i hi e => e.seq (h t i hi)) (State.onlyIn_refl s l)

theorem State.foldl_only {l : List StateField} {ι : Type} {x : List ι} {w : State → ι → State}
    (h : ∀ (s : State) (i : ι), s.onlyIn l (w s i)) (s : State) :
    s.onlyIn l (x.foldl w s) := State.each_only (fun t i _ => h t i) s

/-- Either of two. -/
theorem State.onlyIn.either {p : Prop} [Decidable p] (h : s.onlyIn l t) (g : s.onlyIn l u) : s.onlyIn l (if p then t else u) := by
  split <;> assumption


/-! ## One field written -/

theorem State.header_only (s : State) (x : Header) : s.onlyIn [.header] { s with header := x } := by
  intro g hg; cases g <;> first | exact absurd (List.mem_singleton.mpr rfl) hg | rfl
theorem State.notices_only (s : State) (x : Notices) : s.onlyIn [.notices] { s with notices := x } := by
  intro g hg; cases g <;> first | exact absurd (List.mem_singleton.mpr rfl) hg | rfl
theorem State.timers_only (s : State) (x : Timers) : s.onlyIn [.timers] { s with timers := x } := by
  intro g hg; cases g <;> first | exact absurd (List.mem_singleton.mpr rfl) hg | rfl
theorem State.clock_only (s : State) (x : Clock) : s.onlyIn [.clock] { s with clock := x } := by
  intro g hg; cases g <;> first | exact absurd (List.mem_singleton.mpr rfl) hg | rfl
theorem State.orders_only (s : State) (x : Orders) : s.onlyIn [.orders] { s with orders := x } := by
  intro g hg; cases g <;> first | exact absurd (List.mem_singleton.mpr rfl) hg | rfl
theorem State.mem_only (s : State) (x : Memory) : s.onlyIn [.mem] { s with mem := x } := by
  intro g hg; cases g <;> first | exact absurd (List.mem_singleton.mpr rfl) hg | rfl
theorem State.log_only (s : State) (x : TallyLog) : s.onlyIn [.log] { s with log := x } := by
  intro g hg; cases g <;> first | exact absurd (List.mem_singleton.mpr rfl) hg | rfl
theorem State.booths_only (s : State) (x : Vector Booth 24) : s.onlyIn [.booths] { s with booths := x } := by
  intro g hg; cases g <;> first | exact absurd (List.mem_singleton.mpr rfl) hg | rfl
theorem State.inner_only (s : State) (x : Vector BoothInner 24) : s.onlyIn [.inner] { s with inner := x } := by
  intro g hg; cases g <;> first | exact absurd (List.mem_singleton.mpr rfl) hg | rfl
theorem State.down_only (s : State) (x : Vector (Option DownFrame) 24) : s.onlyIn [.down] { s with down := x } := by
  intro g hg; cases g <;> first | exact absurd (List.mem_singleton.mpr rfl) hg | rfl
theorem State.channels_only (s : State) (x : Vector Channel 32) : s.onlyIn [.channels] { s with channels := x } := by
  intro g hg; cases g <;> first | exact absurd (List.mem_singleton.mpr rfl) hg | rfl
theorem State.audio_only (s : State) (x : Vector Audio 32) : s.onlyIn [.audio] { s with audio := x } := by
  intro g hg; cases g <;> first | exact absurd (List.mem_singleton.mpr rfl) hg | rfl
theorem State.floor_only (s : State) (x : Floor) : s.onlyIn [.floor] { s with floor := x } := by
  intro g hg; cases g <;> first | exact absurd (List.mem_singleton.mpr rfl) hg | rfl
theorem State.framer_only (s : State) (x : Framer) : s.onlyIn [.framer] { s with framer := x } := by
  intro g hg; cases g <;> first | exact absurd (List.mem_singleton.mpr rfl) hg | rfl
theorem State.positions_only (s : State) (x : Vector Position 320) : s.onlyIn [.positions] { s with positions := x } := by
  intro g hg; cases g <;> first | exact absurd (List.mem_singleton.mpr rfl) hg | rfl
theorem State.presets_only (s : State) (x : Vector (Option Preset) 320) : s.onlyIn [.presets] { s with presets := x } := by
  intro g hg; cases g <;> first | exact absurd (List.mem_singleton.mpr rfl) hg | rfl
theorem State.racks_only (s : State) (x : Vector Rack 8) : s.onlyIn [.racks] { s with racks := x } := by
  intro g hg; cases g <;> first | exact absurd (List.mem_singleton.mpr rfl) hg | rfl
theorem State.bus_only (s : State) (x : DockBus) : s.onlyIn [.bus] { s with bus := x } := by
  intro g hg; cases g <;> first | exact absurd (List.mem_singleton.mpr rfl) hg | rfl
theorem State.receivers_only (s : State) (x : Vector Receiver 2048) : s.onlyIn [.receivers] { s with receivers := x } := by
  intro g hg; cases g <;> first | exact absurd (List.mem_singleton.mpr rfl) hg | rfl
theorem State.hires_only (s : State) (x : Vector Hire 1024) : s.onlyIn [.hires] { s with hires := x } := by
  intro g hg; cases g <;> first | exact absurd (List.mem_singleton.mpr rfl) hg | rfl
theorem State.nextHire_only (s : State) (x : BitVec 32) : s.onlyIn [.nextHire] { s with nextHire := x } := by
  intro g hg; cases g <;> first | exact absurd (List.mem_singleton.mpr rfl) hg | rfl
theorem State.accounts_only (s : State) (x : Vector Account 512) : s.onlyIn [.accounts] { s with accounts := x } := by
  intro g hg; cases g <;> first | exact absurd (List.mem_singleton.mpr rfl) hg | rfl
theorem State.tariffs_only (s : State) (x : Vector Tariff 4) : s.onlyIn [.tariffs] { s with tariffs := x } := by
  intro g hg; cases g <;> first | exact absurd (List.mem_singleton.mpr rfl) hg | rfl
theorem State.beacons_only (s : State) (x : BeaconCounts) : s.onlyIn [.beacons] { s with beacons := x } := by
  intro g hg; cases g <;> first | exact absurd (List.mem_singleton.mpr rfl) hg | rfl
theorem State.draws_only (s : State) (x : Nat) : s.onlyIn [.draws] { s with draws := x } := by
  intro g hg; cases g <;> first | exact absurd (List.mem_singleton.mpr rfl) hg | rfl
theorem State.part_only (s : State) (x : PartState) : s.onlyIn [.part] { s with part := x } := by
  intro g hg; cases g <;> first | exact absurd (List.mem_singleton.mpr rfl) hg | rfl
theorem State.hostData_only (s : State) (x : Half) : s.onlyIn [.hostData] { s with hostData := x } := by
  intro g hg; cases g <;> first | exact absurd (List.mem_singleton.mpr rfl) hg | rfl

/-! ## Single updates -/

theorem State.raise_only (s : State) (c : Notice) : s.onlyIn [.notices] (s.raise c) :=
  State.notices_only s _
theorem State.bumpHeader_only (s : State) : s.onlyIn [.header] (s.bumpHeader) :=
  State.header_only s _
theorem State.bumpPlan_only (s : State) : s.onlyIn [.framer] (s.bumpPlan) :=
  State.framer_only s _
theorem State.updBooth_only (s : State) (b : BoothId) (g : Booth → Booth) : s.onlyIn [.booths] (s.updBooth b g) :=
  State.booths_only s _
theorem State.writeBooth_only (s : State) (b : BoothId) (g : Booth → Booth) : s.onlyIn [.booths] (s.writeBooth b g) :=
  State.booths_only s _
theorem State.rewriteBooth_only (s : State) (b : BoothId) (g : Booth → Booth) : s.onlyIn [.booths] (s.rewriteBooth b g) :=
  State.booths_only s _
theorem State.updInner_only (s : State) (b : BoothId) (g : BoothInner → BoothInner) : s.onlyIn [.inner] (s.updInner b g) :=
  State.inner_only s _
theorem State.updCons_only (s : State) (b : BoothId) (g : ConsoleFields → ConsoleFields) : s.onlyIn [.booths] (s.updCons b g) :=
  State.booths_only s _
theorem State.updConsole_only (s : State) (b : BoothId) (n : ConsoleId) (g : ConsoleRec → ConsoleRec) : s.onlyIn [.booths] (s.updConsole b n g) :=
  State.booths_only s _
theorem State.updLink_only (s : State) (b : BoothId) (g : LinkFields → LinkFields) : s.onlyIn [.booths] (s.updLink b g) :=
  State.booths_only s _
theorem State.closeBooth_only (s : State) (o : State) (b : BoothId) : s.onlyIn [.booths] (s.closeBooth o b) :=
  State.booths_only s _
theorem State.closeCons_only (s : State) (o : State) (b : BoothId) : s.onlyIn [.booths] (s.closeCons o b) :=
  State.booths_only s _
theorem State.relight_only (s : State) (b : BoothId) : s.onlyIn [.booths] (s.relight b) :=
  State.booths_only s _
theorem State.relamp_only (s : State) (b : BoothId) : s.onlyIn [.booths] (s.relamp b) :=
  State.booths_only s _
theorem State.updChannel_only (s : State) (c : ChannelId) (g : Channel → Channel) : s.onlyIn [.channels] (s.updChannel c g) :=
  State.channels_only s _
theorem State.writeChannel_only (s : State) (c : ChannelId) (g : Channel → Channel) : s.onlyIn [.channels] (s.writeChannel c g) :=
  State.channels_only s _
theorem State.rewriteChannel_only (s : State) (c : ChannelId) (g : Channel → Channel) : s.onlyIn [.channels] (s.rewriteChannel c g) :=
  State.channels_only s _
theorem State.closeChannel_only (s : State) (o : State) (c : ChannelId) : s.onlyIn [.channels] (s.closeChannel o c) :=
  State.channels_only s _
theorem State.checkPairing_only (s : State) (c : ChannelId) : s.onlyIn [.channels] (s.checkPairing c) :=
  State.channels_only s _
theorem State.setPhase_only (s : State) (c : ChannelId) (h : Schedule) : s.onlyIn [.channels] (s.setPhase c h) :=
  State.channels_only s _
theorem State.updPosition_only (s : State) (p : PosId) (g : Position → Position) : s.onlyIn [.positions] (s.updPosition p g) :=
  State.positions_only s _
theorem State.writePosition_only (s : State) (p : PosId) (g : Position → Position) : s.onlyIn [.positions] (s.writePosition p g) :=
  State.positions_only s _
theorem State.rewritePosition_only (s : State) (p : PosId) (g : Position → Position) : s.onlyIn [.positions] (s.rewritePosition p g) :=
  State.positions_only s _
theorem State.relampPos_only (s : State) (p : PosId) : s.onlyIn [.positions] (s.relampPos p) :=
  State.positions_only s _
theorem State.setPreset_only (s : State) (p : PosId) (v : Option Preset) : s.onlyIn [.presets] (s.setPreset p v) :=
  State.presets_only s _
theorem State.setRack_only (s : State) (r : RackId) (v : Rack) : s.onlyIn [.racks] (s.setRack r v) :=
  State.racks_only s _
theorem State.endPoll_only (s : State) : s.onlyIn [.bus] (s.endPoll) :=
  State.bus_only s _
theorem State.updReceiver_only (s : State) (e : RecvId) (g : Receiver → Receiver) : s.onlyIn [.receivers] (s.updReceiver e g) :=
  State.receivers_only s _
theorem State.writeReceiver_only (s : State) (e : RecvId) (g : Receiver → Receiver) : s.onlyIn [.receivers] (s.writeReceiver e g) :=
  State.receivers_only s _
theorem State.rewriteReceiver_only (s : State) (e : RecvId) (g : Receiver → Receiver) : s.onlyIn [.receivers] (s.rewriteReceiver e g) :=
  State.receivers_only s _
theorem State.updHire_only (s : State) (h : HireId) (g : Hire → Hire) : s.onlyIn [.hires] (s.updHire h g) :=
  State.hires_only s _
theorem State.writeHire_only (s : State) (h : HireId) (g : Hire → Hire) : s.onlyIn [.hires] (s.writeHire h g) :=
  State.hires_only s _
theorem State.updAccount_only (s : State) (a : AcctId) (g : Account → Account) : s.onlyIn [.accounts] (s.updAccount a g) :=
  State.accounts_only s _
theorem State.writeAccount_only (s : State) (a : AcctId) (g : Account → Account) : s.onlyIn [.accounts] (s.writeAccount a g) :=
  State.accounts_only s _
theorem State.rewriteAccount_only (s : State) (a : AcctId) (g : Account → Account) : s.onlyIn [.accounts] (s.rewriteAccount a g) :=
  State.accounts_only s _
theorem State.closeAccount_only (s : State) (o : State) (a : AcctId) : s.onlyIn [.accounts] (s.closeAccount o a) :=
  State.accounts_only s _
theorem State.writeTariff_only (s : State) (k : TariffId) (g : Tariff → Tariff) : s.onlyIn [.tariffs] (s.writeTariff k g) :=
  State.tariffs_only s _
theorem State.guardHit_only (s : State) : s.onlyIn [.header, .notices] (s.guardHit) :=
  ((State.header_only s _).sub (by decide)).next (State.notices_only _ _) (by decide)
theorem State.postRefusal_only (s : State) : s.onlyIn [.header, .notices] (s.postRefusal) :=
  ((State.header_only s _).sub (by decide)).next (State.notices_only _ _) (by decide)
theorem State.snapshot_only (s : State) : s.onlyIn [.header] (s.snapshot) :=
  State.header_only s _
theorem State.countBeacon_only (s : State) (g : BeaconCounts → BeaconCounts) : s.onlyIn [.header, .beacons] (s.countBeacon g) :=
  ((State.header_only s _).sub (by decide)).next (State.beacons_only _ _) (by decide)
theorem State.stagePlan_only (s : State) : s.onlyIn [.framer] (s.stagePlan) :=
  State.framer_only s _
theorem State.setHolder_only (s : State) (n : SlotId) (v : Half) : s.onlyIn [.mem] (s.setHolder n v) :=
  State.mem_only s _
theorem State.writeResult_only (s : State) (n : SlotId) (c r : Byte) (f : Half) (v : List Byte) : s.onlyIn [.mem] (s.writeResult n c r f v) :=
  State.mem_only s _
/-- An order completed: its slot, and the ORDER notice (R8). -/
theorem State.complete_only (s : State) (n : SlotId) (r : Result) : s.onlyIn [.mem, .notices] (s.complete n r) :=
  ((State.mem_only s _).sub (by decide)).next (State.notices_only _ _) (by decide)
theorem State.takeSlot_only (s : State) (n : SlotId) (rest : List SlotId) : s.onlyIn [.mem, .orders] (s.takeSlot n rest) := by
  exact (((State.orders_only s { s.orders with queue := rest }).sub (by decide)).next (State.setHolder_only _ n _) (by decide)).next
    (State.writeResult_only _ n _ _ _ _) (by decide)
theorem State.makeStanding_only (s : State) (n : SlotId) (o : StandingOwner) (c : Bool) : s.onlyIn [.mem, .orders] (s.makeStanding n o c) :=
  ((State.mem_only s _).sub (by decide)).next (State.orders_only _ _) (by decide)
theorem State.endStanding_only (s : State) (x : Standing) (r : Result) : s.onlyIn [.mem, .orders, .notices] (s.endStanding x r) :=
  (((State.mem_only s _).sub (by decide)).next (State.orders_only _ _) (by decide)).next (State.notices_only _ _) (by decide)

/-! ## Standing orders and the tally log -/

/-- The end of an owner's standing order, where one stands (R9). -/
theorem State.endOwner_only (s : State) (o : StandingOwner) (r : Result) : s.onlyIn [.mem, .orders, .notices] (s.endOwner o r) := by
  unfold State.endOwner
  split
  · exact State.endStanding_only _ _ _
  · exact State.onlyIn_refl _ _
theorem State.makeRoom_only (s : State) : s.onlyIn [.header, .mem, .log] (s.makeRoom) := by
  unfold State.makeRoom
  split
  · intro f hf; cases f <;> first | exact absurd (by decide) hf | rfl
  · exact State.onlyIn_refl _ _
/-- A record written (R163). -/
theorem State.writeTally_only (s : State) (r : TallyRecord) : s.onlyIn [.header, .notices, .mem, .log] (s.writeTally r) := by
  unfold State.writeTally
  refine ((State.makeRoom_only s).sub (by decide)).seq ?_
  generalize s.makeRoom = t
  dsimp only
  split <;> (intro f hf; cases f <;> first | exact absurd (by decide) hf | rfl)
/-- A record that waits (R165). -/
theorem State.waitTally_only (s : State) (o : WaitOwner) (r : TallyRecord) : s.onlyIn [.notices, .log] (s.waitTally o r) := by
  unfold State.waitTally
  dsimp only
  split <;> (intro f hf; cases f <;> first | exact absurd (by decide) hf | rfl)
/-- A record handed to the log writer (R163). -/
theorem State.handTally_only (s : State) (o : WaitOwner) (r : TallyRecord) : s.onlyIn [.header, .notices, .mem, .log] (s.handTally o r) := by
  exact ((State.waitTally_only s o r).sub (by decide)).either (State.writeTally_only s r)
/-- A TURN record handed (R166). -/
theorem State.handTurn_only (s : State) (r : TurnRecord) : s.onlyIn [.header, .notices, .mem, .log] (s.handTurn r) := by
  refine State.onlyIn.either ?_ (State.handTally_only s _ _)
  intro f hf; cases f <;> first | exact absurd (by decide) hf | rfl
/-- What a written record belonged to, released (R165). -/
theorem State.release_only (s : State) (o : WaitOwner) : s.onlyIn [.booths, .receivers, .hires] (s.release o) := by
  cases o with
  | hire h => exact (State.writeHire_only s h _).sub (by decide)
  | console b n => exact (State.writeBooth_only s b _).sub (by decide)
  | receiver e => exact (State.writeReceiver_only s e _).sub (by decide)
/-- Waiting records written (R165). -/
theorem State.drainList_only : ∀ (w : List WaitEntry) (s : State), s.onlyIn [.header, .notices, .mem, .log, .booths, .receivers, .hires] (State.drainList w s)
  | [], s => (State.log_only s _).sub (by decide)
  | x :: w, s => by
    refine State.onlyIn.either ?_ ((State.log_only s _).sub (by decide))
    refine State.onlyIn.seq ?_ (State.drainList_only w _)
    exact (((State.log_only s _).sub (by decide)).seq ((State.writeTally_only _ _).sub (by decide))).seq
      ((State.release_only _ _).sub (by decide))
theorem State.drain_only (s : State) : s.onlyIn [.header, .notices, .mem, .log, .booths, .receivers, .hires] (s.drain) := by
  exact State.drainList_only _ s

/-! ## Lamps -/

theorem State.relampOpt_only (s : State) (b : Option BoothId) : s.onlyIn [.booths] (s.relampOpt b) := by
  cases b with
  | none => exact State.onlyIn_refl _ _
  | some b => exact State.relamp_only s b
theorem State.relampChannel_only (s : State) (c : ChannelId) : s.onlyIn [.booths] (s.relampChannel c) := by
  exact (State.relampOpt_only s _).seq (State.relampOpt_only _ _)
theorem State.relampHolder_only (s : State) (e : RecvId) : s.onlyIn [.positions] (s.relampHolder e) := by
  unfold State.relampHolder
  split
  · exact State.relampPos_only _ _
  · exact State.onlyIn_refl _ _
theorem State.dropWaiting_only (s : State) (p : PosId) : s.onlyIn [.presets] (s.dropWaiting p) :=
  State.setPreset_only s p _
theorem State.withdrawPreset_only (s : State) (e : RecvId) : s.onlyIn [.presets] (s.withdrawPreset e) := by
  unfold State.withdrawPreset
  split
  · exact State.dropWaiting_only _ _
  · exact State.onlyIn_refl _ _
theorem State.requestPreset_only (s : State) (e : RecvId) (c : ChannelId) : s.onlyIn [.presets] (s.requestPreset e c) := by
  unfold State.requestPreset
  split
  · exact State.setPreset_only _ _ _
  · exact State.onlyIn_refl _ _
theorem State.relampCharged_only (s : State) : s.onlyIn [.positions] (s.relampCharged) := by
  exact State.each_only (fun t p _ => State.relampPos_only t p) s

/-! ## Consoles and channels -/

/-- A turn ended and handed (R67). -/
theorem State.endTurn_only (s : State) (b : BoothId) (n : ConsoleId) (x : TurnEnd) : s.onlyIn [.header, .notices, .mem, .log, .booths] (s.endTurn b n x) := by
  refine State.onlyIn.either ?_ (State.onlyIn_refl _ _)
  exact ((State.updConsole_only s b n _).sub (by decide)).seq ((State.handTurn_only _ _).sub (by decide))
/-- The consoles of a booth that leaves LIVE (R70). -/
theorem State.consolesDown_only (s : State) (b : BoothId) : s.onlyIn [.header, .notices, .mem, .log, .booths, .inner] (s.consolesDown b) := by
  unfold State.consolesDown
  refine State.onlyIn.seq (State.onlyIn.seq (State.onlyIn.seq ?_ ((State.updCons_only _ _ _).sub (by decide)))
    ((State.updInner_only _ _ _).sub (by decide))) ((State.closeBooth_only _ _ _).sub (by decide))
  exact State.each_only (fun t n _ => (State.endTurn_only t b n _).sub (by decide)) s
theorem State.consolesUp_only (s : State) (b : BoothId) : s.onlyIn [.booths] (s.consolesUp b) := by
  exact ((State.updCons_only s b _).seq (State.relight_only _ b)).seq (State.closeBooth_only _ s b)
theorem State.routerUp_only (s : State) (b : BoothId) : s.onlyIn [.booths, .channels] (s.routerUp b) := by
  unfold State.routerUp
  split
  · exact (((State.checkPairing_only s _).sub (by decide)).seq ((State.closeChannel_only _ s _).sub (by decide))).seq
      ((State.relampChannel_only _ _).sub (by decide))
  · exact State.onlyIn_refl _ _
theorem State.routerDown_only (s : State) (b : BoothId) : s.onlyIn [.booths, .channels] (s.routerDown b) := by
  unfold State.routerDown
  split
  · exact ((((State.updChannel_only s _ _).sub (by decide)).seq ((State.checkPairing_only _ _).sub (by decide))).seq
      ((State.closeChannel_only _ s _).sub (by decide))).seq ((State.relampChannel_only _ _).sub (by decide))
  · exact State.onlyIn_refl _ _
/-- The hand-over of a link that leaves LIVE (R49). -/
theorem State.linkDown_only (s : State) (b : BoothId) : s.onlyIn [.header, .notices, .mem, .log, .booths, .inner, .channels] (s.linkDown b) := by
  exact ((State.consolesDown_only s b).sub (by decide)).seq ((State.routerDown_only _ b).sub (by decide))
theorem State.leave_only (s : State) (o : State) (b : BoothId) : s.onlyIn [.header, .notices, .mem, .log, .booths, .inner, .channels] (s.leave o b) := by
  refine State.onlyIn.either ?_ ((State.closeBooth_only s o b).sub (by decide))
  exact ((State.closeBooth_only s o b).sub (by decide)).seq (State.linkDown_only _ b)
/-- Entry to LIVE (R48). -/
theorem State.enterLive_only (s : State) (o : State) (b : BoothId) : s.onlyIn [.booths, .inner, .channels, .notices] (s.enterLive o b) := by
  unfold State.enterLive
  exact (((((State.updLink_only s b _).sub (by decide)).seq ((State.updInner_only _ b _).sub (by decide))).seq
    ((State.closeBooth_only _ o b).sub (by decide))).seq (((State.raise_only _ _).sub (by decide)).seq
    ((State.consolesUp_only _ b).sub (by decide)))).seq ((State.routerUp_only _ b).sub (by decide))
theorem State.handGood_only (s : State) (b : BoothId) (a : AudioTriple) : s.onlyIn [.booths, .inner] (s.handGood b a) := by
  exact ((State.updLink_only s b _).sub (by decide)).seq ((State.updInner_only _ b _).sub (by decide))
theorem State.handReplacement_only (s : State) (b : BoothId) : s.onlyIn [.booths, .inner] (s.handReplacement b) := by
  unfold State.handReplacement
  exact ((State.updLink_only s b _).sub (by decide)).next (State.updInner_only _ b _) (by decide)
/-- A scheduled handover ended with its order (R87, R88). -/
theorem State.endSchedule_only (s : State) (c : ChannelId) (x : ResultCode) (r : Reason) (y : Bool) (k : Nat) : s.onlyIn [.mem, .orders, .notices, .channels] (s.endSchedule c x r y k) := by
  exact ((State.updChannel_only s c _).sub (by decide)).seq ((State.endOwner_only _ _ _).sub (by decide))
theorem State.warn_only (s : State) (c : ChannelId) : s.onlyIn [.channels] (s.warn c) := by
  unfold State.warn
  split
  · exact (State.setPhase_only s c _).either (State.onlyIn_refl _ _)
  · exact State.onlyIn_refl _ _
theorem State.target_only (s : State) (c : ChannelId) : s.onlyIn [.mem, .orders, .notices, .channels] (s.target c) := by
  unfold State.target
  split
  · exact (State.onlyIn_refl _ _).either ((State.endSchedule_only s c _ _ _ _).either ((State.setPhase_only s c _).sub (by decide)))
  · exact State.onlyIn_refl _ _
theorem State.compareSchedule_only (s : State) (c : ChannelId) : s.onlyIn [.mem, .orders, .notices, .channels] (s.compareSchedule c) := by
  have h : s.onlyIn [.mem, .orders, .notices, .channels] (s.warn c) := (State.warn_only s c).sub (by decide)
  unfold State.compareSchedule
  split
  · dsimp only
    refine (State.onlyIn_refl _ _).either (State.onlyIn.either ?_ (h.either (State.onlyIn_refl _ _)))
    exact (h.either (State.onlyIn_refl _ _)).seq (State.target_only _ c)
  · exact State.onlyIn_refl _ _
theorem State.settleChannel_only (s : State) (o : State) (c : ChannelId) : s.onlyIn [.booths, .channels] (s.settleChannel o c) := by
  exact ((State.closeChannel_only s o c).sub (by decide)).seq ((State.relampChannel_only _ c).sub (by decide))
/-- A HANDOVER that passed its checks (R86). -/
theorem State.schedule_only (s : State) (n : SlotId) (c : ChannelId) (h : Schedule) (x y : Bool) : s.onlyIn [.mem, .orders, .notices, .channels, .booths] (s.schedule n c h x y) := by
  unfold State.schedule
  refine State.onlyIn.seq (State.onlyIn.seq (((State.setPhase_only s c h).sub (by decide)).seq
    ((State.makeStanding_only _ n (.handover c) y).sub (by decide))) ?_) ((State.settleChannel_only _ s c).sub (by decide))
  exact (((State.warn_only _ c).sub (by decide)).seq ((State.target_only _ c).sub (by decide))).either
    ((State.compareSchedule_only _ c).sub (by decide))
theorem State.rename_only (s : State) (c : ChannelId) (p q : Option BoothId) : s.onlyIn [.booths] (s.rename c p q) := by
  exact State.each_only (fun t b _ => State.rewriteBooth_only t b _) s
/-- A stranded flag changed outside a swap (R100 to R102). -/
theorem State.writeStranded_only (s : State) (c : ChannelId) (v : Bool) : s.onlyIn [.framer, .channels] (s.writeStranded c v) := by
  intro f hf; cases f <;> first | exact absurd (by decide) hf | rfl
theorem State.framerCleared_only (s : State) (c : ChannelId) : s.onlyIn [.framer, .channels] (s.framerCleared c) := by
  have h : s.onlyIn [.framer, .channels] { s with framer := { s.framer with cleared := s.framer.cleared.set c true } } :=
    (State.framer_only s _).sub (by decide)
  exact (h.next (State.writeStranded_only _ c true) (by decide)).either h
/-- A CHANNEL_DEFINE that passed its checks (R75). -/
theorem State.defineChannel_only (s : State) (c : ChannelId) (p : ChannelParams) : s.onlyIn [.booths, .channels, .framer] (s.defineChannel c p) := by
  unfold State.defineChannel
  have h1 : s.onlyIn [.booths, .channels, .framer] (s.updChannel c (fun r => r.define p)) := (State.updChannel_only s c _).sub (by decide)
  refine State.onlyIn.seq (State.onlyIn.seq (State.onlyIn.seq ?_ ((State.relampOpt_only _ _).sub (by decide)))
    ((State.relampOpt_only _ _).sub (by decide))) ((State.stagePlan_only _).sub (by decide))
  refine State.onlyIn.seq (State.onlyIn.seq (State.onlyIn.seq (State.onlyIn.seq ?_ ((State.checkPairing_only _ c).sub (by decide)))
    ((State.updChannel_only _ c _).sub (by decide))) ((State.rename_only _ c _ _).sub (by decide)))
    ((State.relampChannel_only _ c).sub (by decide))
  exact h1.either (h1.seq ((State.updChannel_only _ c _).sub (by decide)))
/-- A CHANNEL_CLEAR of a defined channel (R76). -/
theorem State.clearChannel_only (s : State) (c : ChannelId) : s.onlyIn [.mem, .orders, .notices, .booths, .channels, .framer] (s.clearChannel c) := by
  unfold State.clearChannel
  refine State.onlyIn.seq (State.onlyIn.seq ?_ ((State.framerCleared_only _ c).sub (by decide))) ((State.stagePlan_only _).sub (by decide))
  refine State.onlyIn.seq (State.onlyIn.seq ?_ ((State.relampOpt_only _ _).sub (by decide))) ((State.relampOpt_only _ _).sub (by decide))
  refine State.onlyIn.seq ?_ (State.each_only (fun t b _ => (State.rewriteBooth_only t b _).sub (by decide)) _)
  refine State.onlyIn.seq (State.onlyIn.seq (State.onlyIn.seq ?_ ((State.updChannel_only _ c _).sub (by decide)))
    ((State.updChannel_only _ c _).sub (by decide))) ((State.rename_only _ c _ _).sub (by decide))
  exact ((State.endSchedule_only s c _ _ _ _).sub (by decide)).either (State.onlyIn_refl _ _)
theorem State.dropEvent_only (s : State) (b : BoothId) : s.onlyIn [.booths] (s.dropEvent b) := by
  exact State.updBooth_only s b _

theorem State.refuseKey_only (s : State) (b : BoothId) (n : ConsoleId) : s.onlyIn [.booths, .inner, .channels] (s.refuseKey b n).1 := by
  unfold State.refuseKey
  dsimp only
  exact (State.updConsole_only s b n _).sub (by decide)
theorem State.keyMicOn_only (s : State) (b : BoothId) (n : ConsoleId) : s.onlyIn [.booths, .inner, .channels] (s.keyMicOn b n).1 := by
  unfold State.keyMicOn
  split
  · dsimp only
    exact State.onlyIn.next ((State.updCons_only s b _).sub (by decide)) (State.updInner_only _ b _) (by decide)
  · split
    · exact State.onlyIn_refl _ _
    · exact State.refuseKey_only s b n
theorem State.keyMicOff_only (s : State) (b : BoothId) (n : ConsoleId) : s.onlyIn [.booths, .inner, .channels] (s.keyMicOff b n).1 := by
  unfold State.keyMicOff
  split
  · dsimp only
    exact State.onlyIn.next ((State.updCons_only s b _).sub (by decide)) (State.updInner_only _ b _) (by decide)
  · exact State.onlyIn_refl _ _
theorem State.keyOffer_only (s : State) (b : BoothId) (n : ConsoleId) : s.onlyIn [.booths, .inner, .channels] (s.keyOffer b n).1 := by
  unfold State.keyOffer
  split
  · dsimp only
    exact (State.updCons_only s b _).sub (by decide)
  · exact State.refuseKey_only s b n
theorem State.keyAccept_only (s : State) (b : BoothId) (n : ConsoleId) : s.onlyIn [.booths, .inner, .channels] (s.keyAccept b n).1 := by
  unfold State.keyAccept
  split
  · split
    · dsimp only
      exact (State.writeChannel_only s _ _).sub (by decide)
    · exact State.keyMicOn_only s b n
  · split
    · dsimp only
      exact State.onlyIn.next ((State.updCons_only s b _).sub (by decide)) (State.updInner_only _ b _) (by decide)
    · exact State.keyMicOn_only s b n
theorem State.keyCancel_only (s : State) (b : BoothId) (n : ConsoleId) : s.onlyIn [.booths, .inner, .channels] (s.keyCancel b n).1 := by
  unfold State.keyCancel
  split
  · dsimp only
    exact (State.updCons_only s b _).sub (by decide)
  · split
    · split
      · dsimp only
        exact State.onlyIn.next ((State.writeChannel_only s _ _).sub (by decide)) (State.relampOpt_only _ _) (by decide)
      · exact State.onlyIn_refl _ _
    · exact State.onlyIn_refl _ _
theorem State.keyOfferOut_only (s : State) (b : BoothId) (n : ConsoleId) : s.onlyIn [.booths, .inner, .channels] (s.keyOfferOut b n).1 := by
  unfold State.keyOfferOut
  split
  · split
    · split
      · dsimp only
        exact State.onlyIn.next ((State.writeChannel_only s _ _).sub (by decide)) (State.relampOpt_only _ _) (by decide)
      · exact State.refuseKey_only s b n
    · exact State.refuseKey_only s b n
  · exact State.refuseKey_only s b n
/-- The work of a console event (R55). -/
theorem State.keyWork_only (s : State) (b : BoothId) (n : ConsoleId) (k : EventKind) :
    s.onlyIn [.booths, .inner, .channels] (s.keyWork b n k).1 := by
  cases k with
  | micOn => exact State.keyMicOn_only s b n
  | micOff => exact State.keyMicOff_only s b n
  | offer => exact State.keyOffer_only s b n
  | accept => exact State.keyAccept_only s b n
  | cancel => exact State.keyCancel_only s b n
  | offerOut => exact State.keyOfferOut_only s b n
  | unknown => exact State.onlyIn_refl _ _
/-- A console event taken (R55). -/
theorem State.takeEvent_only (s : State) (b : BoothId) (k : EventKind) (n : ConsoleId) :
    s.onlyIn [.booths, .inner, .channels] (s.takeEvent b k n) := by
  unfold State.takeEvent
  refine ((State.writeBooth_only s b _).sub (by decide)).either ?_
  exact (((State.keyWork_only s b n k).seq ((State.updConsole_only _ b n _).sub (by decide))).seq
    ((State.relight_only _ b).sub (by decide))).seq ((State.closeBooth_only _ s b).sub (by decide))
theorem State.deliver_only (s : State) (b : BoothId) (k : EventKind) (n : Fin 4) : s.onlyIn [.booths, .inner, .channels] (s.deliver b k n) := by
  unfold State.deliver
  refine State.onlyIn.either ?_ (State.onlyIn_refl _ _)
  split
  · exact State.takeEvent_only s b k _
  · exact ((State.dropEvent_only s b).sub (by decide)).seq ((State.closeBooth_only _ s b).sub (by decide))

/-! ## Hires and docks -/

/-- A reservation's end without opening (R125). -/
theorem State.dropReservation_only (s : State) (h : HireId) (x : ResultCode) (r : Reason) : s.onlyIn [.mem, .orders, .notices, .positions, .presets, .receivers, .hires, .accounts] (s.dropReservation h x r) := by
  unfold State.dropReservation
  exact ((((((State.updAccount_only s _ _).sub (by decide)).seq ((State.withdrawPreset_only _ _).sub (by decide))).seq
    ((State.writeReceiver_only _ _ _).sub (by decide))).seq ((State.relampHolder_only _ _).sub (by decide))).seq
    ((State.writeHire_only _ h _).sub (by decide))).seq ((State.endOwner_only _ _ _).sub (by decide))
theorem State.endReservation_only (s : State) (h : HireId) (x : ResultCode) (r : Reason) : s.onlyIn [.mem, .orders, .notices, .positions, .presets, .receivers, .hires, .accounts] (s.endReservation h x r) := by
  exact (State.dropReservation_only s h x r).seq ((State.closeAccount_only _ s _).sub (by decide))
theorem State.dropReservations_only (s : State) (a : AcctId) : s.onlyIn [.mem, .orders, .notices, .positions, .presets, .receivers, .hires, .accounts] (s.dropReservations a) := by
  exact State.each_only (fun t h _ => State.dropReservation_only t h _ _) s
/-- A hire opened by a removal (R126). -/
theorem State.openHire_only (s : State) (e : RecvId) (k : Nat) : s.onlyIn [.mem, .orders, .notices, .receivers, .hires] (s.openHire e k) := by
  unfold State.openHire
  split
  · exact (((State.writeHire_only s _ _).sub (by decide)).seq ((State.writeReceiver_only _ e _).sub (by decide))).seq
      ((State.endOwner_only _ _ _).sub (by decide))
  · exact State.onlyIn_refl _ _
/-- The settlement of a closed hire (R157). -/
theorem State.settleHire_only (s : State) (h : HireId) : s.onlyIn [.header, .log, .mem, .orders, .notices, .positions, .presets, .receivers, .hires, .accounts] (s.settleHire h) := by
  unfold State.settleHire
  dsimp only
  refine State.onlyIn.seq ?_ ((State.handTally_only _ _ _).sub (by decide))
  have raised : ∀ (p : Prop) [Decidable p] (t : State), s.onlyIn [.header, .log, .mem, .orders, .notices, .positions, .presets, .receivers, .hires, .accounts] t → s.onlyIn [.header, .log, .mem, .orders, .notices, .positions, .presets, .receivers, .hires, .accounts] (if p then t.raise .account else t) :=
    fun p _ t h => State.onlyIn.either (h.seq ((State.raise_only t _).sub (by decide))) h
  refine raised _ _ (State.onlyIn.seq (State.onlyIn.seq ?_ ((State.updAccount_only _ _ _).sub (by decide)))
    ((State.writeHire_only _ h _).sub (by decide)))
  have two : ∀ g k, s.onlyIn [.header, .log, .mem, .orders, .notices, .positions, .presets, .receivers, .hires, .accounts] ((s.updAccount s.hires[h].account g).updAccount s.hires[h].account k) :=
    fun g k => ((State.updAccount_only s _ g).sub (by decide)).next (State.updAccount_only _ _ k) (by decide)
  exact ((two _ _).next (State.dropReservations_only _ _) (by decide)).either (two _ _)
/-- A hire closed (R133, R134). -/
theorem State.closeHire_only (s : State) (h : HireId) (k : Nat) (x : CloseCause) : s.onlyIn [.header, .log, .mem, .orders, .notices, .positions, .presets, .receivers, .hires, .accounts] (s.closeHire h k x) := by
  exact ((State.writeHire_only s h _).sub (by decide)).seq (State.settleHire_only _ h)
theorem State.returnHire_only (s : State) (h : Option HireId) (k : Nat) : s.onlyIn [.header, .log, .mem, .orders, .notices, .positions, .presets, .receivers, .hires, .accounts] (s.returnHire h k) := by
  unfold State.returnHire
  split
  · exact (State.closeHire_only s _ k _).either (State.onlyIn_refl _ _)
  · exact State.onlyIn_refl _ _
theorem State.declareLost_only (s : State) (h : HireId) : s.onlyIn [.header, .log, .mem, .orders, .notices, .positions, .presets, .receivers, .hires, .accounts] (s.declareLost h) := by
  exact ((State.writeReceiver_only s _ _).sub (by decide)).seq (State.closeHire_only _ h _ _)
theorem State.createHire_only (s : State) (h : HireId) (x : Hire) : s.onlyIn [.hires, .nextHire, .accounts] (s.createHire h x) := by
  intro f hf; cases f <;> first | exact absurd (by decide) hf | rfl
/-- A reservation (R123). -/
theorem State.reserve_only (s : State) (n : SlotId) (h : HireId) (x : Hire) (c : ChannelId) (y : Bool) : s.onlyIn [.mem, .orders, .positions, .presets, .receivers, .hires, .nextHire, .accounts] (s.reserve n h x c y) := by
  exact (((((State.createHire_only s h _).sub (by decide)).seq ((State.writeReceiver_only _ _ _).sub (by decide))).seq
    ((State.relampHolder_only _ _).sub (by decide))).seq ((State.requestPreset_only _ _ _).sub (by decide))).seq
    ((State.makeStanding_only _ n _ _).sub (by decide))
/-- An adoption (R124). -/
theorem State.adopt_only (s : State) (h : HireId) (x : Hire) (c : ChannelId) : s.onlyIn [.receivers, .hires, .nextHire, .accounts] (s.adopt h x c) := by
  exact ((State.createHire_only s h _).sub (by decide)).seq ((State.writeReceiver_only _ _ _).sub (by decide))
/-- A removal that takes effect (R112). -/
theorem State.removal_only (s : State) (p : PosId) (k : Nat) (x : Bool) : s.onlyIn [.mem, .orders, .notices, .positions, .presets, .receivers, .hires] (s.removal p k x) := by
  unfold State.removal
  dsimp only
  have h : s.onlyIn [.mem, .orders, .notices, .positions, .presets, .receivers, .hires] ((s.writePosition p (fun r =>
      { r with
        state := if x && r.state == .fault then .fault else .empty, entry := none, lamp := .dark
        removals := satAdd 16 r.removals 1 })).dropWaiting p) :=
    ((State.writePosition_only s p _).sub (by decide)).seq ((State.dropWaiting_only _ p).sub (by decide))
  split
  · exact h
  · split
    · exact h.seq (((State.writeReceiver_only _ _ _).sub (by decide)).seq ((State.raise_only _ _).sub (by decide)))
    · exact h.seq ((State.openHire_only _ _ _).sub (by decide))
    · exact h.seq ((State.writeReceiver_only _ _ _).sub (by decide))
    all_goals exact h
/-- A REMOVE taken (R108). -/
theorem State.takeRemove_only (s : State) (p : PosId) : s.onlyIn [.mem, .orders, .notices, .positions, .presets, .receivers, .hires] (s.takeRemove p) := by
  have one : ∀ g, s.onlyIn [.mem, .orders, .notices, .positions, .presets, .receivers, .hires] (s.writePosition p g) := fun g => (State.writePosition_only s p g).sub (by decide)
  unfold State.takeRemove
  cases hs : s.positions[p].state <;> cases he : s.positions[p].entry <;> simp only [hs, he]
  all_goals first
    | exact State.onlyIn_refl _ _
    | exact one _
    | exact ((one _).seq (State.removal_only _ p _ _)).either (one _)
theorem State.writeBattery_only (s : State) (p : PosId) (e : RecvId) (x : BitVec 4) : s.onlyIn [.positions, .receivers] (s.writeBattery p e x) := by
  exact ((State.rewriteReceiver_only s e _).sub (by decide)).seq ((State.relampPos_only _ p).sub (by decide))
/-- A reseat (R109). -/
theorem State.reseat_only (s : State) (p : PosId) (e : RecvId) (x : BitVec 4) : s.onlyIn [.mem, .orders, .notices, .positions, .presets, .receivers, .hires, .accounts] (s.reseat p e x) := by
  have h : s.onlyIn [.mem, .orders, .notices, .positions, .presets, .receivers, .hires, .accounts] ((s.writePosition p (fun r => { r with state := .occupied })).writeBattery p e x) :=
    ((State.writePosition_only s p _).sub (by decide)).seq ((State.writeBattery_only _ p e x).sub (by decide))
  unfold State.reseat
  dsimp only
  split
  · exact (h.seq (State.endReservation_only _ _ _ _)).either h
  · exact h
theorem State.handFound_only (s : State) (e : RecvId) (x : FoundWhere) (y : Bool) : s.onlyIn [.header, .notices, .mem, .log] (s.handFound e x y) := by
  exact State.onlyIn.either (State.onlyIn_refl _ _) (State.handTally_only s _ _)
theorem State.afterInsertion_only (s : State) (e : RecvId) (x : Receiver) : s.onlyIn [.header, .log, .mem, .orders, .notices, .positions, .presets, .receivers, .hires, .accounts] (s.afterInsertion e x) := by
  unfold State.afterInsertion
  split
  · exact State.returnHire_only s _ _
  · exact State.returnHire_only s _ _
  · exact ((State.raise_only s _).sub (by decide)).seq ((State.handFound_only _ e _ _).sub (by decide))
  all_goals exact State.onlyIn_refl _ _
/-- An insertion at a cleared position (R110, R111). -/
theorem State.takeInsertion_only (s : State) (p : PosId) (x : Serial) (y : BitVec 4) : s.onlyIn [.header, .log, .mem, .orders, .notices, .positions, .presets, .receivers, .hires, .accounts] (s.takeInsertion p x y) := by
  have occ : ∀ e, s.onlyIn [.header, .log, .mem, .orders, .notices, .positions, .presets, .receivers, .hires, .accounts] (s.occupy p e) := fun e => (State.writePosition_only s p _).sub (by decide)
  unfold State.takeInsertion
  split
  · exact (((occ _).seq ((State.writeReceiver_only _ _ _).sub (by decide))).seq (State.afterInsertion_only _ _ _)).seq
      ((State.relampPos_only _ p).sub (by decide))
  · split
    · exact ((occ _).seq ((State.writeReceiver_only _ _ _).sub (by decide))).seq ((State.relampPos_only _ p).sub (by decide))
    · exact (occ _).seq ((State.raise_only _ _).sub (by decide))
theorem State.insertAt_only (s : State) (p : PosId) (x : Serial) (y : BitVec 4) : s.onlyIn [.header, .log, .mem, .orders, .notices, .positions, .presets, .receivers, .hires, .accounts] (s.insertAt p x y) := by
  refine State.onlyIn.seq ?_ (State.takeInsertion_only _ p x y)
  unfold State.clearElsewhere
  split
  · exact (State.removal_only s _ _ _).sub (by decide)
  · exact State.onlyIn_refl _ _
/-- An INSERT taken (R109, R111). -/
theorem State.takeInsert_only (s : State) (p : PosId) (x : Serial) (y : BitVec 4) : s.onlyIn [.header, .log, .mem, .orders, .notices, .positions, .presets, .receivers, .hires, .accounts] (s.takeInsert p x y) := by
  have rem : ∀ k, s.onlyIn [.header, .log, .mem, .orders, .notices, .positions, .presets, .receivers, .hires, .accounts] ((s.removal p k false).insertAt p x y) :=
    fun k => ((State.removal_only s p k false).sub (by decide)).seq (State.insertAt_only _ p x y)
  have ins := State.insertAt_only s p x y
  unfold State.takeInsert
  cases hs : s.positions[p].state <;> cases he : s.positions[p].entry <;> simp only [hs, he]
  all_goals first
    | exact ins
    | exact ((State.reseat_only s p _ y).sub (by decide)).either (rem _)
    | exact ((State.writeBattery_only s p _ y).sub (by decide)).either (rem _)
    | exact ((State.writePosition_only s p _).sub (by decide)).seq (State.insertAt_only _ p x y)
theorem State.updPresets_only (s : State) (r : RackId) (g : Preset → Option Preset) : s.onlyIn [.presets] (s.updPresets r g) := by
  exact State.each_only (fun t p _ => State.setPreset_only t p _) s
theorem State.takeChange_only (r : RackId) (s : State) (x : DockChange) : s.onlyIn [.header, .log, .mem, .orders, .notices, .positions, .presets, .receivers, .hires, .accounts] (State.takeChange r s x) := by
  unfold State.takeChange
  split
  · split
    · exact (State.onlyIn_refl _ _).either (State.takeInsert_only s _ _ _)
    · exact State.onlyIn_refl _ _
  · split
    · exact (State.takeRemove_only s _).sub (by decide)
    · exact State.onlyIn_refl _ _
theorem State.takeReport_only (r : RackId) (s : State) (x : BatteryReport) : s.onlyIn [.header, .log, .mem, .orders, .notices, .positions, .presets, .receivers, .hires, .accounts] (State.takeReport r s x) := by
  unfold State.takeReport
  split
  · dsimp only
    split
    · exact (State.writeBattery_only s _ _ _).sub (by decide)
    · exact State.onlyIn_refl _ _
  · exact State.onlyIn_refl _ _
theorem State.takeResult_only (x : Poll) (s : State) (y : PresetResult) : s.onlyIn [.header, .log, .mem, .orders, .notices, .positions, .presets, .receivers, .hires, .accounts] (State.takeResult x s y) := by
  unfold State.takeResult
  split
  · split
    · unfold State.presetResult
      split
      · exact ((State.writeHire_only s _ _).sub (by decide)).either (State.onlyIn_refl _ _)
      · exact State.onlyIn_refl _ _
    · exact State.onlyIn_refl _ _
  · exact State.onlyIn_refl _ _
/-- One position reconciled with an inventory (R107). -/
theorem State.reconcile_only (s : State) (p : PosId) (x : Option InventoryItem) : s.onlyIn [.header, .log, .mem, .orders, .notices, .positions, .presets, .receivers, .hires, .accounts] (s.reconcile p x) := by
  have rem : ∀ k, s.onlyIn [.header, .log, .mem, .orders, .notices, .positions, .presets, .receivers, .hires, .accounts] (s.removal p k false) := fun k => (State.removal_only s p k false).sub (by decide)
  unfold State.reconcile
  cases hs : s.positions[p].state <;> cases he : s.positions[p].entry <;> cases hx : readItem x <;> simp only [hs, he]
  all_goals first
    | exact State.onlyIn_refl _ _
    | exact State.takeInsert_only s p _ _
    | exact rem _
    | exact (State.writePosition_only s p _).sub (by decide)
    | exact State.onlyIn.either (((State.writePosition_only s p _).sub (by decide)).next (State.writeBattery_only _ p _ _) (by decide))
        ((rem _).seq (State.insertAt_only _ p _ _))
theorem State.failReservation_only (s : State) (p : PosId) : s.onlyIn [.mem, .orders, .notices, .positions, .presets, .receivers, .hires, .accounts] (s.failReservation p) := by
  unfold State.failReservation
  split
  · split
    · exact State.endReservation_only s _ _ _
    · exact State.onlyIn_refl _ _
  · exact State.onlyIn_refl _ _
/-- A rack's failure (R106). -/
theorem State.rackFault_only (s : State) (r : RackId) : s.onlyIn [.racks, .mem, .orders, .notices, .positions, .presets, .receivers, .hires, .accounts] (s.rackFault r) := by
  unfold State.rackFault
  refine State.onlyIn.seq (State.onlyIn.seq (State.onlyIn.seq
    ((State.setRack_only s r { state := .fault, unanswered := 3 }).sub (by decide)) ?_) ((State.raise_only _ _).sub (by decide))) (State.each_only (fun t p _ => (State.failReservation_only t p).sub (by decide)) _)
  exact State.each_only (fun t p _ => ((State.writePosition_only t p _).sub (by decide)).seq ((State.setPreset_only _ p _).sub (by decide))) _

/-! ## Boundaries and the census -/

theorem State.quitLive_only (s : State) (b : BoothId) : s.onlyIn [.header, .notices, .mem, .log, .booths] (s.quitLive b) := by
  unfold State.quitLive
  split
  · exact (State.endTurn_only s b _ _).either ((State.updConsole_only s b _ _).sub (by decide))
  · exact State.onlyIn_refl _ _
theorem State.goQuiet_only (s : State) (b : BoothId) : s.onlyIn [.booths, .channels] (s.goQuiet b) := by
  unfold State.goQuiet
  dsimp only
  split
  · exact ((State.updCons_only s b _).sub (by decide)).seq ((State.updChannel_only _ _ _).sub (by decide))
  · exact (State.updCons_only s b _).sub (by decide)
/-- A booth's live console becomes the claimed one (R56). -/
theorem State.changeLive_only (s : State) (b : BoothId) : s.onlyIn [.header, .notices, .mem, .log, .booths, .inner, .channels] (s.changeLive b) := by
  unfold State.changeLive
  dsimp only
  refine State.onlyIn.seq (State.onlyIn.either (State.onlyIn_refl _ _) ?_) ((State.updInner_only _ b _).sub (by decide))
  have h := ((State.quitLive_only s b).sub (k := [.header, .notices, .mem, .log, .booths, .inner, .channels]) (by decide)).seq ((State.updCons_only _ b (fun g => { g with live := s.booths[b].cons.claimed })).sub (by decide))
  split
  · have h2 := fun (n : ConsoleId) g => h.seq ((State.updConsole_only _ b n g).sub (by decide))
    exact ((h2 _ _).seq ((State.raise_only _ _).sub (by decide))).either (h2 _ _)
  · exact h.seq ((State.goQuiet_only _ b).sub (by decide))
/-- A move of ownership (R82). -/
theorem State.moveOwner_only (s : State) (c : ChannelId) : s.onlyIn [.mem, .orders, .notices, .channels] (s.moveOwner c) := by
  unfold State.moveOwner
  split
  · dsimp only
    have h : ∀ r, s.onlyIn [.mem, .orders, .notices, .channels] ((s.updChannel c (fun ch => ch.movedTo r)).raise .handover) :=
      fun r => ((State.updChannel_only s c _).sub (by decide)).seq ((State.raise_only _ _).sub (by decide))
    exact ((h _).seq (State.endSchedule_only _ c _ _ _ _)).either (h _)
  · exact State.onlyIn_refl _ _
theorem State.chooseSource_only (s : State) (c : ChannelId) : s.onlyIn [.notices, .channels] (s.chooseSource c) := by
  unfold State.chooseSource
  dsimp only
  have h : ∀ g, s.onlyIn [.notices, .channels] (s.updChannel c g) := fun g => (State.updChannel_only s c g).sub (by decide)
  exact State.onlyIn.either ((h _).seq ((State.raise_only _ _).sub (by decide))) (h _)
/-- One channel at a boundary (R78). -/
theorem State.routeChannel_only (s : State) (c : ChannelId) : s.onlyIn [.mem, .orders, .notices, .channels] (s.routeChannel c) := by
  exact State.onlyIn.either ((State.moveOwner_only s c).seq ((State.chooseSource_only _ c).sub (by decide))) (State.onlyIn_refl _ _)
theorem State.openTurn_only (s : State) (o : State) (b : BoothId) : s.onlyIn [.booths] (s.openTurn o b) := by
  unfold State.openTurn
  split
  · exact (State.updConsole_only s b _ _).either (State.onlyIn_refl _ _)
  · exact State.onlyIn_refl _ _
theorem State.checkRelief_only (s : State) (b : BoothId) : s.onlyIn [.booths, .notices] (s.checkRelief b) := by
  exact State.onlyIn.either (((State.updCons_only s b _).sub (by decide)).seq ((State.raise_only _ _).sub (by decide))) (State.onlyIn_refl _ _)
theorem State.meterBooth_only (o s : State) (b : BoothId) : s.onlyIn [.booths, .notices] (State.meterBooth o s b) :=
  (((State.openTurn_only s o b).sub (by decide)).seq ((State.updCons_only _ b _).sub (by decide))).seq (State.checkRelief_only _ b)
theorem State.endFormer_only (o s : State) (c : ChannelId) : s.onlyIn [.header, .notices, .mem, .log, .booths] (State.endFormer o s c) := by
  unfold State.endFormer
  refine State.onlyIn.either ?_ (State.onlyIn_refl _ _)
  split
  · exact State.endTurn_only s _ _ _
  · exact State.onlyIn_refl _ _
theorem State.sendFrames_only (s : State) : s.onlyIn [.inner, .down, .audio, .floor, .draws] (s.sendFrames) := by
  unfold State.sendFrames State.routeAudio
  dsimp only
  intro f hf; cases f <;> first | exact absurd (by decide) hf | rfl
theorem State.sendDist_only (s : State) : s.onlyIn [.framer] (s.sendDist) :=
  State.framer_only s _
theorem State.countFrame_only (s : State) : s.onlyIn [.framer] (s.countFrame) :=
  State.framer_only s _
theorem State.sendOrDue_only (s : State) : s.onlyIn [.framer] (s.sendOrDue) := by
  refine State.onlyIn.either ?_ (State.sendDist_only s)
  intro f hf; cases f <;> first | exact absurd (by decide) hf | rfl
/-- A frame boundary worked in READY (R78). -/
theorem State.workBoundary_only (s : State) : s.onlyIn [.header, .notices, .mem, .orders, .log, .booths, .inner, .channels, .down, .audio, .floor, .framer, .draws] (s.workBoundary) := by
  unfold State.workBoundary
  dsimp only
  refine State.onlyIn.seq (State.onlyIn.seq ?_ ((State.sendFrames_only _).sub (by decide))) ((State.sendOrDue_only _).sub (by decide))
  refine State.onlyIn.seq ?_ (State.each_only (fun t b _ => ((State.relight_only t b).sub (by decide)).seq
    ((State.closeCons_only _ s b).sub (by decide))) _)
  refine State.onlyIn.seq ?_ (State.each_only (fun t c _ => (State.endFormer_only _ t c).sub (by decide)) _)
  refine State.onlyIn.seq ?_ (State.each_only (fun t b _ => (State.meterBooth_only s t b).sub (by decide)) _)
  refine State.onlyIn.seq ?_ (State.each_only (fun t b _ => (State.rewriteBooth_only t b _).sub (by decide)) _)
  refine State.onlyIn.seq ?_ (State.each_only (fun t c _ => (State.closeChannel_only t s c).sub (by decide)) _)
  refine State.onlyIn.seq ?_ (State.each_only (fun t c _ => (State.routeChannel_only t c).sub (by decide)) _)
  exact State.each_only (fun t b _ => (State.changeLive_only t b).sub (by decide)) s
theorem State.buildDirectory_only (s : State) : s.onlyIn [.framer] (s.buildDirectory) :=
  State.framer_only s _
theorem State.swapPlan_only (s : State) (p : Plan) : s.onlyIn [.framer, .channels, .notices] (s.swapPlan p) := by
  unfold State.swapPlan
  dsimp only
  intro f hf; cases f <;> first | exact absurd (by decide) hf | rfl
/-- A superframe boundary worked in READY (R97). -/
theorem State.workSuperframe_only (s : State) : s.onlyIn [.framer, .channels, .notices] (s.workSuperframe) := by
  have h0 : s.onlyIn [.framer, .channels, .notices]
      { s with framer := { s.framer with superframes := s.framer.superframes + 1, due := false } } :=
    (State.framer_only s _).sub (by decide)
  have h1 : ∀ t, s.onlyIn [.framer, .channels, .notices] t →
      s.onlyIn [.framer, .channels, .notices] (if t.framer.active.mode = .stopped then t else t.buildDirectory) :=
    fun t h => h.either (h.next (State.buildDirectory_only t) (by decide))
  have h2 : ∀ (p : Prop) [Decidable p] (t : State), s.onlyIn [.framer, .channels, .notices] t →
      s.onlyIn [.framer, .channels, .notices] (if p then t.bumpPlan else t) :=
    fun p _ t h => State.onlyIn.either (h.next (State.bumpPlan_only t) (by decide)) h
  unfold State.workSuperframe
  extract_lets f0 s1 s2 s3 s4
  have h3 : s.onlyIn [.framer, .channels, .notices] s2 := by
    show s.onlyIn _ (match s1.framer.staged with | some p => s1.swapPlan p | none => s1)
    cases s1.framer.staged with
    | some p => exact State.onlyIn.seq h0 (State.swapPlan_only s1 p)
    | none => exact h0
  have h4 : s.onlyIn [.framer, .channels, .notices] s4 :=
    h2 ((s1.framer.staged.isSome || s2.framer.active.mode != .stopped) = true) s3 (h1 s2 h3)
  exact h4.next (State.sendDist_only s4) (by decide)
theorem State.writeListeners_only (s : State) (v : Vector Nat 32) : s.onlyIn [.channels] (s.writeListeners v) := by
  exact State.channels_only s _
theorem State.creditMinutes_only (s : State) : s.onlyIn [.channels] (s.creditMinutes) := by
  exact State.channels_only s _
theorem State.takeCensus_only (s : State) (v : Vector Nat 32) : s.onlyIn [.header, .notices, .channels, .receivers, .beacons] (s.takeCensus v) := by
  unfold State.takeCensus
  extract_lets k s1 s2
  have h : s.onlyIn [.header, .notices, .channels, .receivers, .beacons] s2 := (((State.receivers_only s _).sub (by decide)).next (State.writeListeners_only _ v) (by decide)).next
    (State.countBeacon_only s1 _) (by decide)
  exact (h.next (State.raise_only s2 .silent) (by decide)).either h
theorem State.clearStranded_only (s : State) (v : Vector Nat 32) : s.onlyIn [.channels, .framer] (s.clearStranded v) := by
  exact State.each_only (fun t c _ => ((State.writeStranded_only t c false).sub (by decide)).either (State.onlyIn_refl _ _)) s
/-- A census mark worked in READY (R28). -/
theorem State.workCensusMark_only (s : State) : s.onlyIn [.header, .notices, .channels, .receivers, .beacons, .framer] (s.workCensusMark) := by
  unfold State.workCensusMark
  extract_lets v s1 s2
  have h : s.onlyIn [.header, .notices, .channels, .receivers, .beacons, .framer] s1 := ((State.takeCensus_only s v).sub (by decide)).next (State.clearStranded_only _ v) (by decide)
  exact ((h.next (State.creditMinutes_only s1) (by decide)).either h).next (State.snapshot_only s2) (by decide)

end Sys2Proof.Machine
end

