-- ==== Sys2Proof/Laws/Memory.lean ====
section
/-!
SUPPORT. The exchange memory: every operation keeps the canonical form, and a read after a write gives the value written at its address and
what stood before at every other.
-/
namespace Sys2Proof.Machine

theorem Memory.wfFrom_cons {low a : Nat} {v : Byte} {m : Memory} :
    Memory.wfFrom low ((a, v) :: m) = true ↔ low ≤ a ∧ v ≠ 0 ∧ Memory.wfFrom (a + 1) m = true := by
  simp only [Memory.wfFrom, Bool.and_eq_true, decide_eq_true_eq, bne_iff_ne, ne_eq, and_assoc]

theorem Memory.wfFrom_mono {a b : Nat} (h : a ≤ b) : ∀ {m : Memory}, Memory.wfFrom b m = true → Memory.wfFrom a m = true
  | [], _ => rfl
  | (x, v) :: m, w => by
    rw [Memory.wfFrom_cons] at w ⊢
    exact ⟨by omega, w.2⟩

theorem Memory.wfFrom_write8 {low x : Nat} (v : Byte) (hx : low ≤ x) :
    ∀ {m : Memory}, Memory.wfFrom low m = true → Memory.wfFrom low (m.write8 x v) = true
  | [], _ => by
    rw [Memory.write8]
    split
    · rfl
    · rename_i hv
      exact Memory.wfFrom_cons.2 ⟨hx, hv, rfl⟩
  | (a, w) :: m, h => by
    have h0 := Memory.wfFrom_cons.1 h
    rw [Memory.write8]
    split
    · rename_i h1
      split
      · exact h
      · rename_i hv
        exact Memory.wfFrom_cons.2 ⟨hx, hv, Memory.wfFrom_cons.2 ⟨by omega, h0.2⟩⟩
    · split
      · subst_vars
        split
        · exact Memory.wfFrom_mono (by omega) h0.2.2
        · rename_i hv
          exact Memory.wfFrom_cons.2 ⟨hx, hv, h0.2.2⟩
      · exact Memory.wfFrom_cons.2 ⟨h0.1, h0.2.1, Memory.wfFrom_write8 v (by omega) h0.2.2⟩

/-- Writing a byte keeps the canonical form. -/
theorem Memory.wf_write8 {m : Memory} (x : Nat) (v : Byte) (h : m.wf = true) : (m.write8 x v).wf = true :=
  Memory.wfFrom_write8 v (Nat.zero_le x) h

theorem Memory.read8_of_lt {low x : Nat} (hx : x < low) : ∀ {m : Memory}, Memory.wfFrom low m = true → m.read8 x = 0
  | [], _ => rfl
  | (a, v) :: m, h => by
    have h0 := Memory.wfFrom_cons.1 h
    rw [Memory.read8, if_neg (by omega)]
    exact Memory.read8_of_lt (by omega) h0.2.2

theorem Memory.read8_write8_from {low x : Nat} (v : Byte) (y : Nat) (hx : low ≤ x) :
    ∀ {m : Memory}, Memory.wfFrom low m = true → (m.write8 x v).read8 y = if y = x then v else m.read8 y
  | [], _ => by
    rw [Memory.write8]
    by_cases hy : y = x
    · subst hy
      split
      · subst_vars; simp [Memory.read8]
      · simp [Memory.read8]
    · rw [if_neg hy]
      split
      · rfl
      · exact if_neg (Ne.symm hy)
  | (a, w) :: m, h => by
    have h0 := Memory.wfFrom_cons.1 h
    rw [Memory.write8]
    by_cases hy : y = x
    · subst hy
      rw [if_pos rfl]
      split
      · rename_i h1
        split
        · subst_vars
          exact Memory.read8_of_lt (low := a) h1 (Memory.wfFrom_cons.2 ⟨Nat.le_refl a, h0.2⟩)
        · rw [Memory.read8, if_pos rfl]
      · split
        · subst_vars
          split
          · subst_vars
            exact Memory.read8_of_lt (Nat.lt_succ_self _) h0.2.2
          · rw [Memory.read8, if_pos rfl]
        · rename_i h2
          rw [Memory.read8, if_neg (Ne.symm h2), Memory.read8_write8_from v y (by omega) h0.2.2, if_pos rfl]
    · rw [if_neg hy]
      split
      · split
        · rfl
        · rw [Memory.read8, if_neg (Ne.symm hy)]
      · split
        · subst_vars
          split
          · rw [Memory.read8, if_neg (Ne.symm hy)]
          · rw [Memory.read8, if_neg (Ne.symm hy), Memory.read8, if_neg (Ne.symm hy)]
        · rw [Memory.read8, Memory.read8, Memory.read8_write8_from v y (by omega) h0.2.2, if_neg hy]

/-- A read after a write of one byte. -/
theorem Memory.read8_write8 {m : Memory} (h : m.wf = true) (x y : Nat) (v : Byte) :
    (m.write8 x v).read8 y = if y = x then v else m.read8 y := Memory.read8_write8_from v y (Nat.zero_le x) h

/-- Writing consecutive bytes keeps the canonical form. -/
theorem Memory.wf_writeBytes : ∀ (l : List Byte) {m : Memory} (a : Nat), m.wf = true → (m.writeBytes a l).wf = true
  | [], _, _, h => h
  | b :: bs, _, a, h => Memory.wf_writeBytes bs (a + 1) (Memory.wf_write8 a b h)

/-- A read after a write of consecutive bytes. -/
theorem Memory.read8_writeBytes : ∀ (l : List Byte) {m : Memory} (a y : Nat), m.wf = true →
    (m.writeBytes a l).read8 y = if a ≤ y ∧ y < a + l.length then l.getD (y - a) 0 else m.read8 y
  | [], m, a, y, _ => by
    simp only [Memory.writeBytes, List.length_nil]
    rw [if_neg (by omega)]
  | b :: bs, m, a, y, h => by
    rw [Memory.writeBytes, Memory.read8_writeBytes bs (a + 1) y (Memory.wf_write8 a b h), Memory.read8_write8 h]
    simp only [List.length_cons]
    by_cases h1 : y = a
    · subst h1
      rw [if_neg (by omega), if_pos rfl, if_pos (by omega)]
      simp
    · by_cases h2 : a + 1 ≤ y ∧ y < a + 1 + bs.length
      · rw [if_pos h2, if_pos (by omega), show y - a = (y - (a + 1)) + 1 by omega]
        simp
      · rw [if_neg h2, if_neg h1, if_neg (by omega)]

theorem Memory.wf_write16 {m : Memory} (a : Nat) (v : Half) (h : m.wf = true) : (m.write16 a v).wf = true :=
  Memory.wf_write8 _ _ (Memory.wf_write8 _ _ h)

/-- A read of one byte after a write of a halfword. -/
theorem Memory.read8_write16 {m : Memory} (h : m.wf = true) (a y : Nat) (v : Half) :
    (m.write16 a v).read8 y =
      if y = a + 1 then v.extractLsb' 8 8 else if y = a then v.extractLsb' 0 8 else m.read8 y := by
  rw [Memory.write16, Memory.read8_write8 (Memory.wf_write8 _ _ h), Memory.read8_write8 h]

theorem half_bytes (v : Half) : v.extractLsb' 8 8 ++ v.extractLsb' 0 8 = v := by
  apply BitVec.eq_of_getLsbD_eq
  intro i hi
  simp only [BitVec.getLsbD_append, BitVec.getLsbD_extractLsb']
  by_cases h : i < 8
  · simp [h]
  · simp only [h, if_false, show i - 8 < 8 by omega, decide_true, Bool.true_and, show 8 + (i - 8) = i by omega]

/-- A halfword read back. -/
theorem Memory.read16_write16 {m : Memory} (h : m.wf = true) (a : Nat) (v : Half) : (m.write16 a v).read16 a = v := by
  rw [Memory.read16, Memory.read8_write16 h, Memory.read8_write16 h, if_pos rfl, if_neg (by omega), if_pos rfl]
  exact half_bytes v

/-- A halfword elsewhere is as it was. -/
theorem Memory.read16_of_eq {m k : Memory} {a : Nat} (h0 : k.read8 a = m.read8 a) (h1 : k.read8 (a + 1) = m.read8 (a + 1)) :
    k.read16 a = m.read16 a := by rw [Memory.read16, Memory.read16, h0, h1]

theorem Memory.wf_writeEnabled {m : Memory} (a : Nat) (v : Half) (e : ByteEnables) (h : m.wf = true) :
    (m.writeEnabled a v e).wf = true := by
  unfold Memory.writeEnabled
  cases e.lo <;> cases e.hi <;> simp [Memory.wf_write8, h]

/-- A read of one byte after a host write: the enabled bytes of the halfword change (R1). -/
theorem Memory.read8_writeEnabled {m : Memory} (h : m.wf = true) (a y : Nat) (v : Half) (e : ByteEnables) :
    (m.writeEnabled a v e).read8 y =
      if y = a + 1 ∧ e.hi = true then v.extractLsb' 8 8
      else if y = a ∧ e.lo = true then v.extractLsb' 0 8 else m.read8 y := by
  unfold Memory.writeEnabled
  cases e.lo <;> cases e.hi <;> simp [Memory.wf_write8, Memory.read8_write8, h]

theorem Memory.wf_empty : Memory.wf [] = true := rfl

end Sys2Proof.Machine
end

