-- ==== Sys2Proof/Laws/Slots.lean ====
section
/-!
SUPPORT. Order slots: what taking and completing an order write, and what they leave.
-/
namespace Sys2Proof.Machine

theorem slotBase_lt (n : SlotId) : 0x200 ≤ slotBase n ∧ slotBase n + 64 ≤ 0xA00 := by
  unfold slotBase; omega

theorem slotBase_far {n k : SlotId} (h : n ≠ k) : slotBase n + 64 ≤ slotBase k ∨ slotBase k + 64 ≤ slotBase n := by
  have : n.val ≠ k.val := fun e => h (Fin.ext e)
  unfold slotBase; omega

theorem padTo_length (k : Nat) (l : List Byte) : (padTo k l).length = k := by
  simp [padTo]

theorem padTo_getD {k i : Nat} (l : List Byte) (h : i < k) : (padTo k l).getD i 0 = l.getD i 0 := by
  simp only [padTo, List.getD_eq_getElem?_getD, List.getElem?_take, h, if_true, List.getElem?_append]
  split
  · rfl
  · rename_i h1
    rw [List.getElem?_eq_none (l := l) (by omega)]
    simp only [List.getElem?_replicate]
    split <;> rfl

/-! ## Memory through a result -/

theorem State.writeResult_wf (s : State) (n : SlotId) (c r : Byte) (f : Half) (v : List Byte) (h : s.mem.wf = true) :
    (s.writeResult n c r f v).mem.wf = true := Memory.wf_writeBytes _ _ (Memory.wf_writeBytes _ _ h)

theorem State.setHolder_wf (s : State) (n : SlotId) (v : Half) (h : s.mem.wf = true) : (s.setHolder n v).mem.wf = true :=
  Memory.wf_write16 _ _ h

theorem State.takeSlot_wf (s : State) (n : SlotId) (rest : List SlotId) (h : s.mem.wf = true) : (s.takeSlot n rest).mem.wf = true :=
  State.writeResult_wf _ _ _ _ _ _ (State.setHolder_wf _ _ _ h)

theorem State.complete_wf (s : State) (n : SlotId) (r : Result) (h : s.mem.wf = true) : (s.complete n r).mem.wf = true :=
  State.setHolder_wf _ _ _ (State.writeResult_wf _ _ _ _ _ _ h)

/-- A byte of the memory after a result's fields are written. -/
theorem State.writeResult_read8 (s : State) (n : SlotId) (c r : Byte) (f : Half) (v : List Byte) (a : Nat) (h : s.mem.wf = true) :
    (s.writeResult n c r f v).mem.read8 a =
      if slotBase n + 0x32 ≤ a ∧ a < slotBase n + 0x32 + 12 then v.getD (a - (slotBase n + 0x32)) 0
      else if slotBase n + 0x06 ≤ a ∧ a < slotBase n + 0x06 + 4 then
        [c, r, f.extractLsb' 0 8, f.extractLsb' 8 8].getD (a - (slotBase n + 0x06)) 0
      else s.mem.read8 a := by
  simp only [State.writeResult]
  rw [Memory.read8_writeBytes _ _ _ (Memory.wf_writeBytes _ _ h), Memory.read8_writeBytes _ _ _ h, padTo_length]
  split
  · rename_i h1; exact padTo_getD _ (by omega)
  · rfl

/-- Setting a holder word leaves every byte but its own two. -/
theorem State.setHolder_read8 (s : State) (n : SlotId) (v : Half) (a : Nat) (h : s.mem.wf = true)
    (ha : ¬ (slotBase n ≤ a ∧ a < slotBase n + 2)) : (s.setHolder n v).mem.read8 a = s.mem.read8 a := by
  simp only [State.setHolder]
  rw [Memory.read8_write16 h, if_neg (by omega), if_neg (by omega)]

/-- A holder word written reads back, and another slot's is as it was. -/
theorem State.setHolder_holder (s : State) (n k : SlotId) (v : Half) (h : s.mem.wf = true) :
    (s.setHolder n v).holder k = if k = n then v else s.holder k := by
  split
  · subst_vars; exact Memory.read16_write16 h _ _
  · rename_i hk
    have := slotBase_far hk
    have := slotBase_lt n
    exact Memory.read16_of_eq (State.setHolder_read8 s n v _ h (by omega)) (State.setHolder_read8 s n v _ h (by omega))

/-- The bytes outside a slot's result stay as they are through its taking. -/
theorem State.takeSlot_read8 (s : State) (n : SlotId) (rest : List SlotId) (h : s.mem.wf = true) (a : Nat) (ha : ¬ resultByte n a) :
    (s.takeSlot n rest).mem.read8 a = s.mem.read8 a := by
  unfold resultByte at ha
  have key : ∀ u : State, u.mem.wf = true →
      ((u.setHolder n Holder.working).writeResult n 0 0 0 []).mem.read8 a = u.mem.read8 a := by
    intro u hu
    rw [State.writeResult_read8 _ _ _ _ _ _ _ (State.setHolder_wf _ _ _ hu), if_neg (by omega), if_neg (by omega),
      State.setHolder_read8 _ _ _ _ hu (by omega)]
  exact key { s with orders := { s.orders with queue := rest } } h

/-- The bytes outside a slot's result stay as they are through its completion. -/
theorem State.complete_read8 (s : State) (n : SlotId) (r : Result) (h : s.mem.wf = true) (a : Nat) (ha : ¬ resultByte n a) :
    (s.complete n r).mem.read8 a = s.mem.read8 a := by
  simp only [State.complete, State.raise_mem, resultByte] at *
  rw [State.setHolder_read8 _ _ _ _ (State.writeResult_wf _ _ _ _ _ _ h) (by omega),
    State.writeResult_read8 _ _ _ _ _ _ _ h, if_neg (by omega), if_neg (by omega)]

/-- A completed slot shows DONE and its result (R8). -/
theorem State.complete_shows (s : State) (n : SlotId) (r : Result) (h : s.mem.wf = true) : (s.complete n r).mem.shows n r := by
  have hw := State.writeResult_wf s n r.code.code r.reason.code r.flags r.values h
  have key : ∀ a, ¬ (slotBase n ≤ a ∧ a < slotBase n + 2) → (s.complete n r).mem.read8 a =
      if slotBase n + 0x32 ≤ a ∧ a < slotBase n + 0x32 + 12 then r.values.getD (a - (slotBase n + 0x32)) 0
      else if slotBase n + 0x06 ≤ a ∧ a < slotBase n + 0x06 + 4 then
        [r.code.code, r.reason.code, r.flags.extractLsb' 0 8, r.flags.extractLsb' 8 8].getD (a - (slotBase n + 0x06)) 0
      else s.mem.read8 a := by
    intro a ha
    simp only [State.complete, State.raise_mem]
    rw [State.setHolder_read8 _ _ _ _ hw ha, State.writeResult_read8 _ _ _ _ _ _ _ h]
  refine ⟨Memory.read16_write16 hw _ _, ?_, ?_, ?_, ?_⟩
  · rw [key _ (by omega), if_neg (by omega), if_pos (by omega)]; simp
  · rw [key _ (by omega), if_neg (by omega), if_pos (by omega)]; simp [show slotBase n + 7 - (slotBase n + 6) = 1 by omega]
  · rw [Memory.read16, key _ (by omega), key _ (by omega), if_neg (by omega), if_pos (by omega), if_neg (by omega), if_pos (by omega)]
    simp only [show slotBase n + 8 + 1 - (slotBase n + 6) = 3 by omega, show slotBase n + 8 - (slotBase n + 6) = 2 by omega]
    exact half_bytes _
  · intro i hi
    rw [key _ (by omega), if_pos (by omega)]
    congr 1; omega

/-- Completing an order answers it. -/
theorem State.complete_answers (s : State) (n : SlotId) (r : Result) (h : s.mem.wf = true) : (s.complete n r).mem.answers s.mem n r :=
  ⟨State.complete_shows s n r h, fun a ha => State.complete_read8 s n r h a ha⟩

/-! ## Parameters -/

theorem Memory.readBytes_congr {m k : Memory} : ∀ (l : Nat) (a : Nat), (∀ x, a ≤ x → x < a + l → m.read8 x = k.read8 x) →
    m.readBytes a l = k.readBytes a l
  | 0, _, _ => rfl
  | l + 1, a, h => by
    rw [Memory.readBytes, Memory.readBytes, h a (by omega) (by omega),
      Memory.readBytes_congr l (a + 1) (fun x h1 h2 => h x (by omega) (by omega))]

theorem State.param8_takeSlot (s : State) (n : SlotId) (rest : List SlotId) (h : s.mem.wf = true) (i : Nat) (hi : i < 40) :
    (s.takeSlot n rest).param8 n i = s.param8 n i := by
  simp only [State.param8]
  rw [State.takeSlot_read8 s n rest h _ (by unfold resultByte; omega)]

theorem State.paramLE_takeSlot (s : State) (n : SlotId) (rest : List SlotId) (h : s.mem.wf = true) (i k : Nat) (hi : i + k ≤ 40) :
    (s.takeSlot n rest).paramLE n i k = s.paramLE n i k := by
  simp only [State.paramLE]
  rw [Memory.readBytes_congr k _ (fun x h1 h2 => State.takeSlot_read8 s n rest h x (by unfold resultByte; omega))]

theorem State.paramLang_takeSlot (s : State) (n : SlotId) (rest : List SlotId) (h : s.mem.wf = true) (i : Nat) (hi : i + 3 ≤ 40) :
    (s.takeSlot n rest).paramLang n i = s.paramLang n i := by
  have e : ∀ j, j < 40 → (s.takeSlot n rest).mem.read8 (slotBase n + 0x0A + j) = s.mem.read8 (slotBase n + 0x0A + j) :=
    fun j hj => State.takeSlot_read8 s n rest h _ (by unfold resultByte; omega)
  simp only [State.paramLang, Nat.add_assoc] at *
  rw [e _ (by omega), e _ (by omega), e _ (by omega)]

theorem State.kindOf_takeSlot (s : State) (n : SlotId) (rest : List SlotId) (h : s.mem.wf = true) :
    (s.takeSlot n rest).kindOf n = s.kindOf n := by
  simp only [State.kindOf]
  rw [Memory.read16_of_eq (State.takeSlot_read8 s n rest h _ (by unfold resultByte; omega))
    (State.takeSlot_read8 s n rest h _ (by unfold resultByte; omega))]

/-- The log read count is as it was through a slot's taking. -/
theorem State.readCount_takeSlot (s : State) (n : SlotId) (rest : List SlotId) (h : s.mem.wf = true) :
    (s.takeSlot n rest).readCount = s.readCount := by
  have := slotBase_lt n
  exact Memory.read16_of_eq (State.takeSlot_read8 s n rest h _ (by unfold resultByte; omega))
    (State.takeSlot_read8 s n rest h _ (by unfold resultByte; omega))

/-- Taking a slot changes the memory and the post queue alone. -/
theorem State.takeSlot_eq (s : State) (n : SlotId) (rest : List SlotId) :
    s.takeSlot n rest = { s with mem := (s.takeSlot n rest).mem, orders := { s.orders with queue := rest } } := by
  simp only [State.takeSlot, State.writeResult, State.setHolder]

/-- Completing an order changes the memory and the pending set alone. -/
theorem State.complete_eq (s : State) (n : SlotId) (r : Result) :
    s.complete n r = ({ s with mem := (s.complete n r).mem }).raise .order := by
  simp only [State.complete, State.writeResult, State.setHolder, State.raise]

/-! ## One order worked -/

/-- The order unit works the order at the head. -/
theorem State.runOrder_takes {s : State} {n : SlotId} {rest : List SlotId} {isMine : State → SlotId → Bool} {work : Work}
    (hp : s.part = .ready) (hq : s.orders.queue = n :: rest) (hm : isMine s n = true) :
    s.runOrder isMine work = finishOrder n (work (s.takeSlot n rest) n) := by
  unfold State.runOrder
  rw [hq]
  exact if_pos ⟨hp, hm⟩

/-- An order whose work leaves `after` but for the post queue and the slot's result bytes completes. -/
theorem State.completes_of {s after u : State} {i : Instr} {n : SlotId} {rest : List SlotId} {r : Result} {k : Nat}
    {isMine : State → SlotId → Bool} {work : Work} (h : s.takes k n rest) (hm : isMine s n = true)
    (hi : exec i s = .next (s.runOrder isMine work)) (hw : work (s.takeSlot n rest) n = (u, some r))
    (hu : u = { after with mem := u.mem, orders := { after.orders with queue := rest } }) (hwf : u.mem.wf = true)
    (hb : ∀ a, ¬ resultByte n a → u.mem.read8 a = after.mem.read8 a) :
    s.completes i n rest after r := by
  refine ⟨(u.complete n r).mem, ?_, State.complete_shows u n r hwf, fun a ha => ?_⟩
  · rw [hi, State.runOrder_takes h.1 h.2.1 hm, hw]
    simp only [finishOrder]
    rw [State.complete_eq]
    conv_lhs => rw [hu]
    rfl
  · rw [State.complete_read8 u n r hwf a ha, hb a ha]

/-- An order whose work changes no memory: what it does to the state taken is what it does to the state, but for the post queue and the
slot's result bytes. -/
theorem State.completes_same {s after u : State} {i : Instr} {n : SlotId} {rest : List SlotId} {r : Result} {k : Nat}
    {isMine : State → SlotId → Bool} {work : Work} (h : s.takes k n rest) (hm : isMine s n = true)
    (hi : exec i s = .next (s.runOrder isMine work)) (hw : work (s.takeSlot n rest) n = (u, some r))
    (hu : u = { after with mem := (s.takeSlot n rest).mem, orders := { after.orders with queue := rest } }) (ha : after.mem = s.mem) :
    s.completes i n rest after r := by
  have hmem : u.mem = (s.takeSlot n rest).mem := by rw [hu]
  refine State.completes_of h hm hi hw ?_ ?_ ?_
  · rw [hmem]; exact hu
  · rw [hmem]; exact State.takeSlot_wf s n rest h.2.2.2
  · intro a hr
    rw [hmem, ha]
    exact State.takeSlot_read8 s n rest h.2.2.2 a hr

end Sys2Proof.Machine
end

