-- ==== Sys2Proof/Tests/Slice0.lean ====
section
/-!
SUPPORT. Tests: ill-formed commands refused by WellFormed, worked examples of the manual, and for every statement with hypotheses a state
and operands that meet them. Expected values come from the manual's rules and examples, named in each comment.
-/
namespace Sys2Proof.Tests
open Sys2Proof Sys2Proof.Machine

/- One theorem is evaluated at a time, so that the memory all of them take stays small. -/
set_option Elab.async false

/-! ## Well-formed commands -/

/-- Both byte enables. -/
def both : ByteEnables := { lo := true, hi := true }
/-- The low byte enable alone. -/
def low : ByteEnables := { lo := true, hi := false }

theorem test_exchangeWrite_not_the_read_count : (Instr.exchangeWrite 0x80 5 both).wellFormed = false := by decide
theorem test_exchangeWrite_not_a_holder_word : (Instr.exchangeWrite 0x100 1 both).wellFormed = false := by decide
theorem test_ignoredRegisterWrite_not_a_post : (Instr.ignoredRegisterWrite 0 3 both).wellFormed = false := by decide
theorem test_restart_needs_the_value_1 : (Instr.restart 2 both false).wellFormed = false := by decide
theorem test_audioFrame_fault_shows_an_error :
    (Instr.audioFrame 0 { inPlace := true, audio := AudioTriple.silent, event := none, checkOk := true
                          faults := [{ part := .check, notInTable := false, balance := false, marker := false }] }).wellFormed = false := by
  decide
theorem test_rackAnswer_at_most_8_changes :
    (Instr.rackAnswer { changes := List.replicate 9 (.remove 0), reports := [], results := [] }).wellFormed = false := by decide
theorem test_wellFormed_commands :
    (Instr.exchangeWrite 0x81 5 both).wellFormed = true ∧ (Instr.ignoredRegisterWrite 5 3 both).wellFormed = true
      ∧ (Instr.restart 1 both true).wellFormed = true ∧ (Instr.ignoredRegisterWrite 8 1 low).wellFormed = true := by decide

/-! ## States -/

/-- A READY part with nothing in it. -/
def base : State := { State.reset with part := .ready }

/-- The part with an order of kind `k` and parameters `ps` in slot 0, alone in the post queue. -/
def placed (s : State) (k : Nat) (ps : List Nat) : State :=
  { s with
    mem := ((s.mem.write16 0x200 Holder.queued).write16 0x202 (BitVec.ofNat 16 k)).writeBytes 0x20A (ps.map (BitVec.ofNat 8))
    orders := { s.orders with queue := [0] } }

/-- Slot 31 in a holder state. -/
def held31 (s : State) (v : Half) : State := { s with mem := s.mem.write16 0x9C0 v }

/-- What a command leaves; the state itself if it answers none. -/
def after (s : State) (i : Instr) : State :=
  match exec i s with
  | .next t => t
  | .fault _ | .refused _ => s

/-- The result code and reason an order left in slot 0. -/
def codes (s : State) : Nat × Nat := ((s.mem.read8 0x206).toNat, (s.mem.read8 0x207).toNat)

/-- A result value byte of slot 0. -/
def value (s : State) (i : Nat) : Nat := (s.mem.read8 (0x232 + i)).toNat

/-! ## Worked examples of the manual -/

/-- R16: base 0x00400000 and stride 4 with ACCOUNT pending and enabled. -/
theorem test_vector_of_account :
    ({ waiting := 0x200, enabled := 0x200, base := 0x00400000, stride := 4, vectorHigh := none } : Notices).vector = 0x00400090 := by decide

/-- Section 8.6: a settle time of 500 ms is 512 ticks. -/
theorem test_settle_ticks : msTicks 500 = 512 := by decide

/-- The tariff of section 10.9. -/
def tariff1 : Tariff :=
  { changes := 0, grace := 10, baseMinutes := 240, baseCharge := 500, stepMinutes := 30, stepCharge := 100, cap := 1500, hold := 2000
    lossFee := 4000 }

/-- Section 10.9: the morning session. -/
theorem test_charge_morning : billedMinutes 19800500 = 323 ∧ tariff1.charge 323 .returned = 800 := by decide +kernel
/-- Section 10.9: two days, and a remainder within the grace, with and without the cap. -/
theorem test_charge_days :
    tariff1.charge 1540 .returned = 2000 ∧ tariff1.charge 1445 .returned = 2000
      ∧ ({ tariff1 with cap := 0 } : Tariff).charge 1445 .returned = 5000 := by decide +kernel
/-- Section 10.9: the edges of the grace. -/
theorem test_charge_edges :
    billedMinutes 1023 = 0 ∧ billedMinutes 614400 = 10 ∧ billedMinutes 615424 = 11 ∧ tariff1.charge 10 .returned = 0
      ∧ tariff1.charge 11 .returned = 500 ∧ tariff1.charge 5 .lost = 4000 := by decide +kernel

/-- R96: with 24 slots, 23 defined STANDARD channels and a WIDE floor fill the budget. -/
theorem test_plan_fills_the_budget :
    let chs : Vector Channel 32 := Vector.ofFn (fun c : ChannelId => { Channel.initial with defined := decide (c.val < 23) })
    (computePlan .reduced .wide chs).used = 24 ∧ ((computePlan .reduced .wide chs).entries.get 1).first = 2 := by decide +kernel

/-- R1, R2: one byte enable writes one byte of a spare host word. -/
theorem test_exchangeWrite_one_byte :
    ((after base (.exchangeWrite 0x81 0x1234 low)).mem.read8 0x102, (after base (.exchangeWrite 0x81 0x1234 low)).mem.read8 0x103)
      = (0x34, 0) := by decide +kernel
/-- R2: a write of the header is a guard hit. -/
theorem test_exchangeWrite_guarded : (after base (.exchangeWrite 0 1 both)).header.guardHits = 1 := by decide +kernel
/-- R4, R6: EMPTY to POSTED to QUEUED. -/
theorem test_slot_queued :
    (after (after base (.holderWordWrite 31 1 both)) (.post 31 both)).orders.queue = [31]
      ∧ (after (after base (.holderWordWrite 31 1 both)) (.post 31 both)).holder 31 = Holder.queued := by decide +kernel
/-- R162: a read count beyond the write count is a guard hit. -/
theorem test_readCount_beyond : (after base (.logReadCountWrite 1 both)).header.guardHits = 1 := by decide +kernel
/-- R11: a stride of 17 is lowered to 16 with CLAMPED. -/
theorem test_setNotice_clamped :
    (after (placed base 1 [0, 0, 0x40, 0, 17]) .setNotice).notices.stride = 16
      ∧ (after (placed base 1 [0, 0, 0x40, 0, 17]) .setNotice).mem.read8 0x208 = 1 := by decide +kernel
/-- R7: kind 25 is refused BAD_ARGUMENT. -/
theorem test_unknown_order : codes (after (placed base 25 []) .unknownOrder) = (2, 1) := by decide +kernel
/-- R25: the calendar reads what SET_CLOCK gave. -/
theorem test_setClock :
    (after (placed base 6 [10, 0, 0, 0, 7, 0]) .setClock).clock.calendarAt 0 = some { seconds := 10, fraction := 7 } := by decide +kernel
/-- R50: a console count of 4 is lowered to 3. -/
theorem test_boothDefine :
    ((after (placed base 7 [23, 4, 0, 0, 0, 0, 68, 69, 85, 0, 0, 0, 0, 0]) .boothDefine).booth 23).link.definition.consoles = 3 := by
  decide +kernel
/-- R74: booth 24 is refused; R75: the defined channel has its owner PRIMARY. -/
theorem test_channelDefine :
    codes (after (placed base 12 [1, 24, 255, 68, 69, 85, 0, 0]) .channelDefine) = (2, 1)
      ∧ ((after (placed base 12 [31, 23, 0, 68, 69, 85, 1, 1]) .channelDefine).channel 31).primary = some 23 := by decide +kernel
/-- R89: a booth taking the channel that names it is a RELAY_CONFLICT. -/
theorem test_relay_conflict :
    codes (after (placed { (after (placed base 12 [1, 0, 255, 68, 69, 85, 0, 0]) .channelDefine) with mem := [] } 10 [0, 1])
      .boothIntake) = (2, 10) := by decide +kernel
/-- R94: SET_DISTRIBUTION to HALL stages a plan of mode HALL. -/
theorem test_setDistribution :
    (after (placed base 15 [1, 1]) .setDistribution).framer.staged.map (fun p => (p.mode, p.used)) = some (.hall, 2) := by decide +kernel
/-- R148: a base minutes of 0 is raised to 1. -/
theorem test_setTariff : ((after (placed base 20 [3]) .setTariff).tariffs.get 3).baseMinutes = 1 := by decide +kernel
/-- R150: a hire limit of 0 gives 2. -/
theorem test_accountOpen :
    value (after (placed base 21 [255, 1, 0, 0, 0, 0, 3, 0, 100]) .accountOpen) 0 = 2
      ∧ ((after (placed base 21 [255, 1, 0, 0, 0, 0, 3, 0, 100]) .accountOpen).account 511).deposit = 100 := by decide +kernel
/-- R110, R107: an inventory enrols a serial at the lowest free entry. -/
theorem test_inventory_enrols :
    let s := after base .pollSend
    let t := after s (.inventoryAnswer ((Vector.replicate 40 none).set 3 (some { serial := 80003, battery := 15 })))
    ((t.receiver 0).serial, (t.receiver 0).state, (t.position 3).entry, (t.position 3).lamp) = (80003, .docked, some 0, .ready) := by
  decide +kernel
/-- R80: 32 floor frames in place lock the floor. -/
theorem test_floor_locks :
    (after { base with floor := { base.floor with lockRun := 31 } } (.floorFrame (some .silence))).floor.locked = true := by decide +kernel
/-- R18: STARTUP_COMPLETE raises CLOCK. -/
theorem test_startup : (after State.reset .startupComplete).isPending .clock = true ∧ (after State.reset .startupComplete).part = .ready := by
  decide +kernel

/-! ## States that meet the statements' hypotheses -/

/-- A definition of one console, and a LIVE link that announced it. -/
def liveLink : LinkFields :=
  { LinkFields.initial with state := .live, definition := { LinkFields.initial.definition with defined := true } }

/-- A LIVE booth with three consoles in use, console `k` live and claimed, in a role of channel 1. -/
def liveBooth (k : ConsoleId) (r : Role) : Booth :=
  { Booth.initial with
    link := liveLink, cons := { ConsoleFields.initial with inUse := 3, live := some k, claimed := some k }
    role := { RoleFields.initial with named := some 1, role := r } }

/-- Channel 1 with the primary booth 0 and the partner booth 23. -/
def pairCh : Channel :=
  { Channel.initial with defined := true, primary := some 0, partner := some 23, pairing := .valid, source := .booth }

/-- A READY part at run tick 5000 with a valid clock, where channel 1's two booths are LIVE. -/
def hall : State :=
  { base with
    clock := { run := 5000, offset := 1000000, valid := true, markDue := false }
    booths := (base.booths.set 0 (liveBooth 0 .primary)).set 23 (liveBooth 2 .partner)
    channels := base.channels.set 1 pairCh }

/-- The hall with channel 1 as given. -/
def hallCh (c : Channel) : State := { hall with channels := hall.channels.set 1 c }

/-- The hall with booth 0's consoles as given. -/
def hallCons (c : ConsoleFields) : State := { hall with booths := hall.booths.set 0 { liveBooth 0 .primary with cons := c } }

/-- The hall with booth 0's link as given. -/
def hallLink (l : LinkFields) : State := { hall with booths := hall.booths.set 0 { liveBooth 0 .primary with link := l } }

/-- The consoles of booth 0 in the hall. -/
def cons0 : ConsoleFields := (liveBooth 0 .primary).cons

/-- The consoles of booth 0 with the record of console 2 as given. -/
def cons0With (r : ConsoleRec) : ConsoleFields := { cons0 with each := cons0.each.set 2 r }

/-- Receiver 80003 in entry 0, in a state, with its hire. -/
def recv (x : RecvState) (h : Option HireId) : Receiver :=
  { Receiver.zero with serial := 80003, state := x, battery := 15, hire := h, heard := none, counted := none }

/-- A dock position of rack 0 in a state, with what it holds. -/
def dockPos (x : PosState) (e : Option RecvId) : Position := { Position.initial with state := x, entry := e, rawRemoval := 4000, settleDeadline := 4512 }

/-- An account with 100.00 and one hire of a hold of 20.00 against it. -/
def acct : Account :=
  { Account.zero with state := .active, limit := 8, deposit := 10000, holds := 2000, count := 1, paid := 10000 }

/-- Hire 1 of receiver entry 0 on account 0, in a state. -/
def hire1 (x : HireState) : Hire := { Hire.zero with state := x, number := 1, hold := 2000, startTick := 1000, deadline := 5000, slot := 31 }

/-- The hall with entry 0, position 0, hire 0 and account 0 in use, and a rack that is ONLINE. -/
def desk (r : Receiver) (p : Position) (h : Hire) : State :=
  { hall with
    receivers := hall.receivers.set 0 r, positions := hall.positions.set 0 p, hires := hall.hires.set 0 h
    accounts := hall.accounts.set 0 acct, racks := hall.racks.set 0 { state := .online, unanswered := 2 }, nextHire := 2 }

/-- A standing order in slot 31. -/
def stood (s : State) (o : StandingOwner) : State :=
  { held31 s Holder.standing with orders := { s.orders with standing := [{ slot := 31, owner := o, clamped := false }] } }

/-- A log with 1024 unread records and a waiting one. -/
def fullLog (s : State) (w : List WaitEntry) : State := { s with log := { s.log with writeCount := 1024, waiting := w } }

/-- A poll of rack 0. -/
def poll0 (inventory : Bool) : Poll := { rack := 0, inventory := inventory, lamps := Vector.replicate 40 .dark, presets := [] }

/-! ## What the manual says of single commands in such states -/

/-- R63: a console that becomes live by an acceptance raises HANDOVER, its offerer not yet live at the boundary too. -/
theorem test_acceptance_of_a_claim :
    let s := { hallCons { cons0 with live := none, claimed := some 2 } with
               inner := hall.inner.set 0 { BoothInner.initial with accepted := true } }
    (after s .frameBoundary).isPending .handover = true ∧ ((after s .frameBoundary).booth 0).cons.live = some 2 := by decide +kernel
/-- R68: a turn as old as the relief limit of 1800 s is marked at the boundary, and RELIEF raised. -/
theorem test_relief :
    let s := { hallCons (cons0With { ConsoleRec.initial with turn := .gap, turnStart := 7 }) with clock := { hall.clock with run := 1843207 } }
    (after s .frameBoundary).isPending .relief = true ∧ ((after s .frameBoundary).booth 0).cons.relief = true
      ∧ (after { s with clock := { hall.clock with run := 1843206 } } .frameBoundary).isPending .relief = false := by decide +kernel
/-- R29: the snapshot reads 0 while the part is STARTING. -/
theorem test_snapshot_reset :
    (after { hall with header := { hall.header with snapTicks := 4096 } } .resetAssert).header.snapTicks = 0 := by decide +kernel
/-- R88: a HANDOVER refused HANDOVER_BUSY tells the owner PARTNER. -/
theorem test_handover_refused :
    let s := placed (hallCh { pairCh with owner := .partner, move := some .primary }) 14 [1, 0, 0, 0, 0, 0, 1]
    codes (after s .handover) = (2, 12) ∧ value (after s .handover) 6 = 1 := by decide +kernel
/-- R94: SET_DISTRIBUTION writes channel 0's quality in a bracket of its record, though only the mode changes. -/
theorem test_setDistribution_bracket : ((after (placed base 15 [1, 0]) .setDistribution).channel 0).changes = 2 := by decide +kernel
/-- R97: a plan that leaves defined channels off the air sets the shortage mark. -/
theorem test_shortage :
    let s := fun n : Nat => { hall with framer := { hall.framer with due := true, staged := some { Plan.initial with mode := .reduced, offAir := n } } }
    (after (s 1) .superframeBoundary).framer.shortage = true ∧ (after (s 0) .superframeBoundary).framer.shortage = false := by
  decide +kernel
/-- R114: a preset that has gone down in the poll on the bus is not dropped by a removal, and one that waits is. -/
theorem test_preset_kept :
    let s := fun b : Bool => { desk (recv .docked none) (dockPos .occupied none) Hire.zero with
      positions := hall.positions.set 0 (dockPos .settlingOut (some 0)), presets := hall.presets.set 0 (some ⟨0, 31, b⟩) }
    (after (s true) (.settleDeadlineExpiry 0)).presets.get 0 = some ⟨0, 31, true⟩
      ∧ (after (s false) (.settleDeadlineExpiry 0)).presets.get 0 = none := by decide +kernel
/-- R17: READY, a valid clock and one queued slot. -/
theorem test_partControl_read : (placed hall 6 []).portRead 8 = 0x0105 ∧ (placed hall 6 []).portRead 9 = 0 := by decide +kernel

/-! ## Each statement with hypotheses has what meets them -/

theorem meets_StepRunsFrontCommand : State.reset.pending = [] := rfl

theorem meets_ExchangeWrite_domain :
    ((Instr.exchangeWrite 0x81 5 low).wellFormed = true ∧ (Instr.exchangeWrite 0x4DF 5 both).wellFormed = true
      ∧ (Instr.exchangeWrite 0 5 both).wellFormed = true) ∧ base.memOk ∧ State.reset.part ≠ .ready ∧ base.part = .ready := by
  unfold State.memOk; decide +kernel
theorem meets_ExchangeWrite_spare : base.hostMay (byteOffset 0x81) ∧ base.hostMay (byteOffset 0xFF) := by
  exact ⟨.inl (by decide), .inl (by decide)⟩
theorem meets_ExchangeWrite_slot :
    base.hostMay (byteOffset 0x101) ∧ base.hostMay (byteOffset 0x102) ∧ (held31 base Holder.done).hostMay (byteOffset 0x4F8) :=
  ⟨.inr ⟨0, 2, by decide +kernel⟩, .inr ⟨0, 4, by decide +kernel⟩, .inr ⟨31, 48, by decide +kernel⟩⟩
theorem meets_ExchangeWrite_guarded :
    ¬ base.hostMay (byteOffset 0) ∧ ¬ (held31 base Holder.queued).hostMay (byteOffset 0x4E1) ∧ ¬ base.hostMay (byteOffset 0x500) := by
  refine ⟨?_, ?_, ?_⟩
  all_goals
    rintro (h | ⟨n, k, h, hk, hn⟩)
    · revert h; decide
    · have := n.isLt
      simp only [byteOffset, slotBase] at h
      first
        | (simp at h; omega)
        | (have e : n = 31 := by apply Fin.ext; simp at h ⊢; omega
           subst e; revert hn; decide +kernel)

theorem meets_HolderWordCycle :
    base.holder 31 = Holder.empty ∧ (held31 base Holder.done).holder 0 = Holder.empty ∧ (held31 base Holder.done).holder 31 = Holder.done
      ∧ (held31 base Holder.standing).holder 31 = Holder.standing ∧ (held31 base Holder.working).holder 31 = Holder.working
      ∧ ¬ (low.both = true ∧ base.holder 31 = Holder.empty) ∧ both.both = true ∧ base.mem.wf = true
      ∧ State.reset.part ≠ .ready := by decide +kernel
theorem meets_PostQueuesPostedSlots :
    low.both = false ∧ both.both = true ∧ (held31 base Holder.posted).holder 31 = Holder.posted
      ∧ (∀ n : SlotId, (32 : Half).toNat = n.val → base.holder n ≠ Holder.posted)
      ∧ ∀ n : SlotId, (31 : Half).toNat = n.val → (held31 base Holder.queued).holder n ≠ Holder.posted := by decide +kernel
theorem meets_NoticePendingSet :
    (base.raise .guard).isPending .guard = true ∧ (0x2000 : Half).getLsbD Notice.guard.index = true ∧ base.orders.queue = []
      ∧ base.orders.standing = [] := by decide +kernel
theorem meets_NoticeEnableAndLine : base.part = .ready ∧ both.both = true ∧ low.both = false := by decide
theorem meets_NoticeVectorReads :
    let n : Notices := { waiting := 0x8200, enabled := 0xFFFE, base := 0x00400000, stride := 4, vectorHigh := some 0x40 }
    (1 ≤ 9 ∧ 9 ≤ 15 ∧ n.active.getLsbD 9 = true ∧ ∀ j : Fin 9, 1 ≤ j.val → n.active.getLsbD j.val = false)
      ∧ ({ n with enabled := 0x8000 } : Notices).active.getLsbD 15 = true ∧ ({ n with enabled := 1 } : Notices).active = 0
      ∧ ({ n with enabled := 0x200 } : Notices).active = Notice.account.bit ∧ base.notices.vectorHigh = none := by decide +kernel
theorem meets_ResetInputAndStartup :
    State.reset.part = .starting ∧ State.reset.resetLow = false ∧ (after base .resetAssert).resetLow = true
      ∧ State.reset.clock.run + 1 < 2 ^ 48
      ∧ 2 ^ 48 ≤ ({ base with clock := { base.clock with run := 2 ^ 48 - 1 } } : State).clock.run + 1 := by decide +kernel
theorem meets_RestartAbortsOrders :
    (placed base 6 []).orders.queue = 0 :: [] ∧ (placed base 6 []).mem.wf = true ∧ (stood base (.handover 1)).mem.wf = true
      ∧ (∃ x ∈ (stood base (.handover 1)).orders.standing, x.owner = .handover 1)
      ∧ (¬ ∃ x ∈ (stood base (.handover 1)).orders.standing, x.owner = .handover 2)
      ∧ (Instr.ignoredRegisterWrite 12 0 both).wellFormed = true ∧ (placed base 6 []).orders.queue.length ≤ 32 := by decide +kernel
theorem meets_SoftRestartClears :
    let s : State := { base with part := .restarting }
    s.part = .restarting ∧ s.mem.wf = true ∧ s.clock.valid = false ∧ s.logBlocked = false
      ∧ (fullLog s []).logBlocked = true ∧ base.part ≠ .restarting := by decide +kernel

theorem meets_RefusedOrderChangesOnlyItsSlot :
    (placed base 0 []).takes 0 0 [] ∧ (placed base 25 []).takes 25 0 []
      ∧ (after (placed base 10 [24, 0]) .boothIntake).orders.queue = []
      ∧ (after (placed base 10 [24, 0]) .boothIntake).mem.read8 (slotBase 0 + 6) = ResultCode.refused.code := by
  unfold State.takes State.memOk; decide +kernel
theorem meets_RefusedOrderChangesOnlyItsSlot_handover :
    let s := placed base 14 [32]
    s.takes 14 0 [] ∧ (after s .handover).orders.queue = [] ∧ (after s .handover).mem.read8 (slotBase 0 + 6) = ResultCode.refused.code := by
  unfold State.takes State.memOk; decide +kernel
theorem meets_NoticeAndTimerSettings :
    (placed base 1 [0, 0, 0x40, 0, 16, 0]).takes 1 0 [] ∧ (placed base 2 []).takes 2 0 [] := by
  unfold State.takes State.memOk; decide +kernel
theorem meets_NoticeAndTimerSettings_lamps :
    ((desk (recv .docked none) { dockPos .occupied (some 0) with lamp := .ready } Hire.zero).position 0).lamp = .ready
      ∧ ¬ ((base.position 319).lamp = .ready ∨ (base.position 319).lamp = .charging) := by decide +kernel
theorem meets_LogPolicySet :
    let lax : State := { base with log := { base.log with policy := .overwrite } }
    (placed base 3 [2]).takes 3 0 [] ∧ (placed base 3 [0]).takes 3 0 [] ∧ (placed lax 3 [0]).takes 3 0 [] ∧ (placed lax 3 [1]).takes 3 0 []
      ∧ (placed base 3 [1]).takes 3 0 [] ∧ 1 < (placed base 3 [2]).param8 0 0 ∧ (placed base 3 [0]).param8 0 0 = LogPolicy.keep.code.toNat
      ∧ (placed lax 3 [1]).param8 0 0 = LogPolicy.overwrite.code.toNat ∧ base.log.policy = .keep := by
  unfold State.takes State.memOk; decide +kernel
/-- A waiting record of hire 0 and one of receiver entry 0. -/
def waits : List WaitEntry :=
  [{ owner := .hire 0, record := .receiverFound ⟨80003, .dock, 1, Stamp.zero, false⟩ },
   { owner := .receiver 0, record := .receiverFound ⟨80003, .beacon, 1, Stamp.zero, false⟩ }]
theorem meets_LogPolicySet_waiting :
    let s := fullLog (placed (desk { recv .docked none with foundWaiting := true } Position.initial (hire1 .closedWaiting)) 3 [1]) waits
    s.takes 3 0 [] ∧ s.param8 0 0 = 1 ∧ s.log.policy = .keep ∧ s.log.waiting[1]? = some ⟨.receiver 0, waits[1].record⟩
      ∧ s.log.waiting[0]? = some ⟨.hire 0, waits[0].record⟩ ∧ s.log.waiting.length ≤ 0 + 1024
      ∧ (∀ w ∈ s.log.waiting, w.owner ≠ .hire 1023) ∧ ∀ w ∈ s.log.waiting, w.owner ≠ .receiver 2047 := by
  unfold State.takes State.memOk; decide +kernel
theorem meets_CancelEndsStandingAndQueued :
    let s := placed (stood (hallCh { pairCh with schedule := some ⟨31, .partner, 10, 5, 5, .planned, 0⟩ }) (.handover 1)) 4
    (s [32]).takes 4 0 [] ∧ (s [31]).takes 4 0 [] ∧ (s [0]).takes 4 0 [] ∧ 31 < (s [32]).paramLE 0 0 2 ∧ (s [31]).paramLE 0 0 2 = 31
      ∧ (s [31]).orders.standing.find? (fun u => u.slot = 31) = some { slot := 31, owner := .handover 1, clamped := false }
      ∧ (s [31]).standingOf (.handover 1) = some { slot := 31, owner := .handover 1, clamped := false }
      ∧ (s [30]).orders.standing.find? (fun u => u.slot = 30) = none ∧ (s [30]).holder 30 ≠ Holder.queued
      ∧ (s [0]).orders.standing.find? (fun u => u.slot = 0) = none := by
  unfold State.takes State.memOk; decide +kernel
theorem meets_CancelEndsStandingAndQueued_issue :
    let s := placed (stood (desk (recv .reserved (some 0)) (dockPos .occupied (some 0)) (hire1 .reserving)) (.issue 0)) 4 [31]
    s.takes 4 0 [] ∧ s.paramLE 0 0 2 = 31
      ∧ s.orders.standing.find? (fun u => u.slot = 31) = some { slot := 31, owner := .issue 0, clamped := false }
      ∧ s.standingOf (.issue 0) = some { slot := 31, owner := .issue 0, clamped := false } := by
  unfold State.takes State.memOk; decide +kernel
theorem meets_CancelEndsStandingAndQueued_queued :
    let s := { placed (held31 base Holder.queued) 4 [31] with orders := { base.orders with queue := [0, 31] } }
    s.takes 4 0 [31] ∧ s.paramLE 0 0 2 = 31 ∧ s.orders.standing.find? (fun u => u.slot = 31) = none ∧ s.holder 31 = Holder.queued := by
  unfold State.takes State.memOk; decide +kernel
theorem meets_ClearCountsGroups :
    (placed base 5 [1, 23]).takes 5 0 [] ∧ (placed base 5 [1, 255]).takes 5 0 [] ∧ (placed base 5 [2, 7]).takes 5 0 []
      ∧ (placed base 5 [1, 24]).takes 5 0 [] ∧ (placed base 5 [2, 8]).takes 5 0 [] ∧ (placed base 5 [0]).takes 5 0 []
      ∧ (placed base 5 [1, 23]).param8 0 1 = 23 ∧ (placed base 5 [1, 24]).param8 0 1 = 24 ∧ (placed base 5 [2, 8]).param8 0 1 = 8
      ∧ (placed base 5 [2, 8]).param8 0 0 = 2 ∧ (placed base 5 [0]).param8 0 0 ≠ 1 := by
  unfold State.takes State.memOk; decide +kernel
theorem meets_ClockSet :
    (placed base 6 [1, 0, 0, 0, 255, 3]).takes 6 0 [] ∧ (placed base 6 []).clock.valid = false ∧ (placed hall 6 []).takes 6 0 []
      ∧ (placed hall 6 []).clock.valid = true := by
  unfold State.takes State.memOk; decide +kernel

/-- The hall with a scheduled handover of channel 1 to a role, warned at 90 and due at 100, its order standing in slot 31 and a SET_CLOCK
to a second waiting. -/
def setting (r : Role) (f : Phase) (v : Nat) : State :=
  placed (stood (hallCh { pairCh with schedule := some ⟨31, r, 100, 90, 10, f, 0⟩ }) (.handover 1)) 6 [v]
theorem meets_ClockSet_handovers :
    let u := fun v : Nat => (after (setting .partner .planned v) .setClock).clock
    (setting .partner .planned 89).takes 6 0 [] ∧ (setting .partner .planned 89).clock.valid = true
      ∧ ((setting .partner .planned 89).channel 1).schedule = some ⟨31, .partner, 100, 90, 10, .planned, 0⟩
      ∧ (u 89).reached 90 = false ∧ (u 90).reached 90 = true ∧ (u 99).reached 100 = false ∧ (u 100).reached 100 = true
      ∧ ((setting .partner .planned 89).channel 1).owner ≠ .partner ∧ ((setting .primary .planned 100).channel 1).owner = .primary
      ∧ (setting .primary .planned 100).standingOf (.handover 1) = some { slot := 31, owner := .handover 1, clamped := false }
      ∧ ((setting .partner .waiting 89).channel 1).schedule = some ⟨31, .partner, 100, 90, 10, .waiting, 0⟩
      ∧ ((setting .partner .planned 89).channel 31).schedule = none := by
  unfold State.takes State.memOk; decide +kernel
theorem meets_ClockSet_slots : (setting .primary .planned 100).slotsOk := by unfold State.slotsOk State.memOk; decide +kernel

theorem meets_BoothDefineWritesDefinition :
    let good := [23, 3, 0, 0, 0, 0, 68, 69, 90, 1, 1, 1, 0, 0]
    (placed base 7 (24 :: good.tail)).takes 7 0 [] ∧ 23 < (placed base 7 (24 :: good.tail)).param8 0 0 ∧ (placed base 7 good).takes 7 0 []
      ∧ ¬ (23 < (placed base 7 good).param8 0 0 ∨ (placed base 7 good).paramLang 0 6 = none ∨ 1 < (placed base 7 good).param8 0 9
          ∨ 1 < (placed base 7 good).param8 0 10 ∨ 1 < (placed base 7 good).param8 0 11)
      ∧ ((placed base 7 good).booth 23).link.state = .held ∧ ((placed hall 7 good).booth 23).link.state ≠ .held := by
  unfold State.takes State.memOk; decide +kernel
theorem meets_LinkHoldAndRelease :
    (placed hall 8 [24]).takes 8 0 [] ∧ (placed hall 8 [23]).takes 8 0 [] ∧ (placed hall 8 [22]).takes 8 0 []
      ∧ 23 < (placed hall 8 [24]).param8 0 0 ∧ (placed hall 8 [23]).param8 0 0 = 23 ∧ ((placed hall 8 [23]).booth 23).link.state = .live
      ∧ ((placed hall 8 [22]).booth 22).link.state = .held
      ∧ (placed hall 9 [23]).takes 9 0 [] ∧ ((placed hall 9 [22]).booth 22).link.definition.defined = false
      ∧ ((placed (hallLink { liveLink with state := .held }) 9 [0]).booth 0).link.definition.defined = true
      ∧ ((placed (hallLink { liveLink with state := .seeking }) 8 [0]).booth 0).link.state = .seeking := by
  unfold State.takes State.memOk; decide +kernel
theorem meets_FramesAndMarkers :
    ((hallLink { liveLink with state := .seeking, alignRun := 15 }).booth 0).link.state = .seeking
      ∧ ((hallLink { liveLink with state := .announcing }).booth 0).link.state = .announcing
      ∧ ((hallLink { liveLink with missingRun := 2 }).booth 0).link.missingRun < 3
      ∧ 3 ≤ ((hallLink { liveLink with missingRun := 3 }).booth 0).link.missingRun
      ∧ ((hallLink { liveLink with missingRun := 3 }).booth 0).link.state = .live ∧ (hall.booth 1).link.state = .held
      ∧ hall.part = .ready := by decide +kernel

/-- A frame with an error symbol in its audio, one not in the table in its event, and an event of console 3. -/
def faulty : AudioFrame :=
  { inPlace := true, audio := AudioTriple.silent, event := some { kind := .micOn, console := 3 }, checkOk := true
    faults := [{ part := .audio 0, notInTable := true, balance := true, marker := false },
               { part := .control, notInTable := false, balance := false, marker := true }] }
theorem meets_LiveAudioFrame :
    let old := (hall.booth 0).link
    let near := (hallLink { liveLink with window := { symbol := 15, balance := 0, marker := 14 } }).booth 0
    hall.boothUp 0 ∧ hall.boothUp 23
      ∧ near.link.definition.threshold ≤ min 255 (near.link.window.symbol + faulty.faults.countP (fun f => f.notInTable))
      ∧ min 255 (near.link.window.marker + faulty.faults.countP (fun f => f.marker)) < near.link.definition.threshold
      ∧ old.definition.masking = true ∧ faulty.faults.any (fun f => f.inAudio) = true ∧ faulty.faults.any (fun f => f.inControl) = true := by
  unfold State.boothUp; decide +kernel
theorem meets_LiveAudioFrame_event :
    let a : AudioFrame := { faulty with faults := [] }
    a.event = some { kind := .micOn, console := 3 } ∧ a.checkOk = true ∧ (2 : ConsoleId).val < (hall.booth 0).cons.inUse := by decide +kernel

/-- An announce of booth 0 for what the hall defines: serial 0, code AAA, three consoles, a revision of 1. -/
def announce (sum : Byte) : AnnounceFrame :=
  { inPlace := true, block := #v[0, 0, 0, 0, 0, 65, 65, 65, 3, 0, 1, sum], checkOk := true }
theorem meets_AnnounceChecksum :
    SumMethod.bytes ≠ .fields ∧ (announce 199).block[10] ≠ 0 ∧ (announce 199).block[11] = AnnounceBlock.sum (announce 199).block .bytes
      ∧ (announce 198).block[11] = AnnounceBlock.sum (announce 198).block .fields
      ∧ (announce 198).block[11] ≠ AnnounceBlock.sum (announce 198).block .bytes := by decide +kernel
theorem meets_AnnounceMovesTheLink :
    let d := { liveLink with definition := { liveLink.definition with lang := ⟨65, 65, 65⟩, consoles := 3 } }
    let s := hallLink { d with state := .announcing }
    (s.booth 0).link.state = .announcing ∧ (announce 199).checkOk = true
      ∧ (announce 199).block[11] = AnnounceBlock.sum (announce 199).block (s.booth 0).link.definition.method
      ∧ AnnounceBlock.inRange (announce 199).block = true ∧ (announce 199).block[0].toNat = 0
      ∧ AnnounceBlock.lang (announce 199).block = (s.booth 0).link.definition.lang
      ∧ (s.booth 0).link.definition.consoles ≤ (announce 199).block[8].toNat
      ∧ AnnounceBlock.lang (announce 199).block ≠ (hall.booth 0).link.definition.lang
      ∧ (announce 198).block[11] ≠ AnnounceBlock.sum (announce 198).block (s.booth 0).link.definition.method
      ∧ 3 ≤ ((hallLink { liveLink with badRun := 3 }).booth 0).link.badRun ∧ (hall.booth 0).link.badRun < 3 := by decide +kernel

theorem meets_MicrophoneInterlock :
    hall.boothUp 0 ∧ ¬ hall.boothUp 1 ∧ (hall.booth 0).cons.claimed = some 0 ∧ (hall.booth 23).cons.claimed = some 2
      ∧ (2 : ConsoleId).val < (hall.booth 0).cons.inUse
      ∧ ((hallCons { cons0 with inUse := 1 }).booth 0).cons.inUse < 2 ∧ (hallCons { cons0 with inUse := 1 }).boothUp 0
      ∧ ((hallCons { cons0 with claimed := none }).booth 0).cons.claimed = none := by
  unfold State.boothUp; decide +kernel
theorem meets_OffersWithinAndBetweenBooths :
    hall.boothUp 0 ∧ (hall.booth 0).cons.claimed = some 0 ∧ (hall.booth 0).cons.offer = none
      ∧ (hallCh { pairCh with offer := some ⟨0, 20360⟩ }).offeredTo 23 = some 1 ∧ hall.offeredTo 23 = none
      ∧ (hallCh { pairCh with offer := some ⟨0, 20360⟩ }).offeredBy 0 = some 1 ∧ hall.offeredBy 0 = none
      ∧ ((hallCons { cons0 with offer := some ⟨0, 20360⟩ }).booth 0).cons.offer = some ⟨0, 20360⟩
      ∧ ((hallCons { cons0 with claimed := none }).booth 0).cons.claimed = none
      ∧ (hall.booth 0).role.named = some 1 ∧ (hall.channel 1).ownerBooth = some 0 ∧ (hall.channel 1).pairing = .valid
      ∧ (hall.channel 1).schedule = none ∧ (hall.channel 1).offer = none ∧ (hall.channel 1).move = none := by
  unfold State.boothUp; decide +kernel
theorem meets_ConsoleDeadlines :
    let busy := hallCons (cons0With { ConsoleRec.initial with busy := some 5000 })
    let open_ := hallCons { cons0 with offer := some ⟨0, 5000⟩ }
    let gap := hallCons (cons0With { ConsoleRec.initial with turn := .gap, gapDeadline := 5000 })
    hall.part = .ready ∧ ((busy.booth 0).cons.console 2).busy = some 5000 ∧ busy.clock.run = 5000
      ∧ (open_.booth 0).cons.offer = some ⟨0, 5000⟩ ∧ ((gap.booth 0).cons.console 2).turn = .gap
      ∧ ((gap.booth 0).cons.console 2).gapDeadline ≤ gap.clock.run ∧ ((hall.booth 0).cons.console 2).busy = none
      ∧ (hall.booth 0).cons.offer = none ∧ ((hall.booth 0).cons.console 2).turn ≠ .gap := by decide +kernel
theorem meets_SeatAssignEndsTheTurn :
    let s := placed hall 11
    (s [24, 1]).takes 11 0 [] ∧ 23 < (s [24, 1]).param8 0 0 ∧ 3 < (s [23, 4]).param8 0 1 ∧ (s [23, 3, 7]).takes 11 0 []
      ∧ (s [23, 3, 7]).param8 0 1 = 3 ∧ (hall.booth 23).link.definition.defined = true ∧ 2 < (hall.booth 23).cons.inUse
      ∧ (hall.booth 22).link.definition.defined = false ∧ BitVec.ofNat 24 ((s [23, 3, 7]).paramLE 0 2 3) = 7
      ∧ ((hall.booth 23).cons.console 2).interpreter = 0 ∧ (hall.booth 23).cons.live = some 2 ∧ (hall.booth 0).cons.live ≠ some 2 := by
  unfold State.takes State.memOk; decide +kernel

theorem meets_SeatAssignEndsTheTurn_open :
    let s := fun x : TurnState => placed (hallCons (cons0With { ConsoleRec.initial with turn := x })) 11 [0, 3, 7]
    (s .running).takes 11 0 [] ∧ (s .running).param8 0 1 = (2 : ConsoleId).val + 1
      ∧ BitVec.ofNat 24 ((s .running).paramLE 0 2 3) ≠ (((s .running).booth 0).cons.console 2).interpreter
      ∧ (((s .running).booth 0).cons.console 2).turn = .running ∧ (((s .gap).booth 0).cons.console 2).turn = .gap
      ∧ ((s .running).booth 0).link.definition.defined = true ∧ (2 : ConsoleId).val < ((s .running).booth 0).cons.inUse := by
  unfold State.takes State.memOk; decide +kernel

theorem meets_BoothIntakeKeepsTheLaw :
    let s := placed hall 10
    let to1 := fun b : BoothId => { hall with booths := hall.booths.set b { hall.booth b with role := { (hall.booth b).role with intake := 1 } } }
    (s [24, 0]).takes 10 0 [] ∧ (s [23, 31]).takes 10 0 [] ∧ 31 < (s [23, 32]).param8 0 1 ∧ (hall.channel 31).defined = false
      ∧ (hall.channel 1).defined = true ∧ (hall.booth 5).role.intake = 0 ∧ (to1 5).relayOk ∧ ¬ (to1 23).relayOk := by
  unfold State.takes State.memOk State.relayOk; decide +kernel
theorem meets_ChannelDefineWritesDefinition :
    let s := placed hall 12
    let good := [31, 5, 6, 68, 69, 85, 1, 0]
    (s (0 :: good.tail)).takes 12 0 [] ∧ (s good).takes 12 0 [] ∧ (s good).param8 0 0 = 31 ∧ (s good).param8 0 1 = 5
      ∧ (s good).paramLang 0 3 = some ⟨68, 69, 85⟩ ∧ (s [31, 5, 255, 68, 69, 85, 1, 1]).param8 0 2 = 255
      ∧ (∀ b : BoothId, (b = 5 ∨ b = 6) → (hall.booth b).role.named = none) ∧ (hall.booth 23).role.named = some 1
      ∧ (hall.channel 31).schedule = none
      ∧ relayLaw (hall.channels.set 31 { hall.channel 31 with defined := true, primary := some 5, partner := some 6 }) hall.intakes = true
      ∧ relayLaw (hall.channels.set 1 { pairCh with primary := some 5 }) (hall.intakes.set 5 1) = false
      ∧ ((hallCh { pairCh with schedule := some ⟨31, .partner, 10, 5, 5, .planned, 0⟩ }).channel 1).schedule ≠ none := by
  unfold State.takes State.memOk; decide +kernel
theorem meets_ChannelClearTakesItAway :
    let s := placed (stood (hallCh { pairCh with schedule := some ⟨31, .partner, 10, 5, 5, .planned, 0⟩ }) (.handover 1)) 13
    (s [0]).takes 13 0 [] ∧ (s [1]).takes 13 0 [] ∧ (s [31]).takes 13 0 [] ∧ ((s [31]).channel 31).defined = false
      ∧ ((s [1]).channel 1).defined = true ∧ ((s [1]).channel 1).schedule.isSome = true
      ∧ (s [1]).standingOf (.handover 1) = some { slot := 31, owner := .handover 1, clamped := false } ∧ (hall.channel 1).schedule = none := by
  unfold State.takes State.memOk; decide +kernel
theorem meets_HandoverStands :
    let s := placed hall 14
    (s [0]).takes 14 0 [] ∧ (s [1, 1, 0xFF, 0xFF, 0xFF, 0, 0, 0, 120]).takes 14 0 [] ∧ (s [1, 0, 0, 0, 0, 0, 1]).takes 14 0 []
      ∧ (s [1, 1]).param8 0 1 = Role.partner.code.toNat ∧ (s [1, 0, 0, 0, 0, 0, 1]).param8 0 6 = 1
      ∧ (hall.channel 1).defined = true ∧ (hall.channel 1).partner ≠ none ∧ (hall.channel 31).defined = false
      ∧ (hall.channel 1).offer = none ∧ (hall.channel 1).move = none ∧ (hall.channel 1).schedule = none
      ∧ hall.clock.reached ((s [1, 1, 0xFF, 0xFF, 0xFF, 0]).paramLE 0 2 4) = false ∧ hall.clock.reached 0 = true
      ∧ (hall.channel 1).owner = .primary ∧ hall.standingOf (.handover 1) = none ∧ base.clock.valid = false
      ∧ ((hallCh { pairCh with move := some .partner }).channel 1).move ≠ none := by
  unfold State.takes State.memOk; decide +kernel
theorem meets_HandoverStands_refused :
    let s := placed hall 14
    (s [32]).takes 14 0 [] ∧ 31 < (s [32]).param8 0 0 ∧ (s [0]).param8 0 0 = (0 : ChannelId).val ∧ (s [1, 2]).takes 14 0 []
      ∧ (s [1, 2]).param8 0 0 = (1 : ChannelId).val ∧ 1 < (s [1, 2]).param8 0 1 ∧ (s [31, 0]).param8 0 0 = (31 : ChannelId).val
      ∧ 1 < (s [1, 0, 0, 0, 0, 0, 2]).param8 0 6 ∧ (s [31, 0]).param8 0 6 ≤ 1 := by
  unfold State.takes State.memOk; decide +kernel
theorem meets_ChannelDeadlines :
    let s := fun (f : Phase) (d : Nat) => stood (hallCh { pairCh with offer := some ⟨0, d⟩, schedule := some ⟨31, .partner, 100, 90, 10, f, d⟩ }) (.handover 1)
    ((s .waiting 5000).channel 1).offer = some ⟨0, 5000⟩ ∧ (s .planned 5000).clock.reached 90 = true ∧ (s .planned 5000).clock.reached 100 = true
      ∧ ((s .waiting 5000).channel 1).schedule = some ⟨31, .partner, 100, 90, 10, .waiting, 5000⟩ ∧ (s .waiting 5000).clock.run = 5000
      ∧ (s .waiting 5000).standingOf (.handover 1) = some { slot := 31, owner := .handover 1, clamped := false }
      ∧ (s .waiting 5000).mem.wf = true ∧ ((s .warned 5001).channel 1).owner ≠ .partner ∧ (s .warned 5000).clock.reached 100000 = false
      ∧ ((s .warned 5000).channel 1).boothOf .partner = some 23 ∧ (hall.channel 1).offer = none ∧ (hall.channel 1).schedule = none := by
  decide +kernel

theorem meets_BoundaryMakesClaimsLive :
    let s := hallCons { cons0 with claimed := some 2, each := cons0.each.set 0 { ConsoleRec.initial with turn := .running } }
    s.part = .ready ∧ (s.booth 0).cons.live = some 0 ∧ (s.booth 0).cons.claimed = some 2 ∧ ((s.booth 0).cons.console 0).turn = .running
      ∧ (s.inside 0).accepted = false ∧ ((s.booth 0).cons.console 2).turn = .idle
      ∧ ({ s with inner := s.inner.set 0 { BoothInner.initial with accepted := true } } : State).inside 0
          = { BoothInner.initial with accepted := true }
      ∧ ((hallCons { cons0 with claimed := none }).booth 0).cons.live ≠ none := by decide +kernel
theorem meets_BoundaryMakesClaimsLive_turns :
    let gap := { hallCons { cons0With { ConsoleRec.initial with turn := .gap } with claimed := some 2 } with
                 inner := hall.inner.set 0 { BoothInner.initial with accepted := true } }
    let old := { hallCons (cons0With { ConsoleRec.initial with turn := .running, turnStart := 7 }) with
                 clock := { hall.clock with run := 1843207 } }
    let moved := hallCh { pairCh with move := some .partner }
    let due := hallCh { pairCh with schedule := some ⟨31, .partner, 100, 90, 10, .waiting, 6000⟩ }
    (gap.booth 0).cons.live = some 0 ∧ (gap.booth 0).cons.claimed = some 2 ∧ ((gap.booth 0).cons.console 2).turn = .gap
      ∧ ((gap.booth 0).cons.console 2).turnChannel = none ∧ (gap.inside 0).accepted = true
      ∧ (gap.channel 1).move = none ∧ (gap.channel 1).schedule = none
      ∧ (old.booth 0).link.state = .live ∧ ((old.booth 0).cons.console 2).turn ≠ .idle ∧ ((old.booth 0).cons.console 2).reliefReached = false
      ∧ old.timers.relief ≠ 0 ∧ old.timers.relief * 1024 ≤ old.clock.run - ((old.booth 0).cons.console 2).turnStart
      ∧ (moved.channel 1).defined = true ∧ (moved.channel 1).ownerBooth = some 0 ∧ (moved.channel 1).move ≠ none
      ∧ (moved.booth 0).cons.claimed = some 0 ∧ (due.channel 1).boothOf .partner = some 23 ∧ (due.channel 1).pairing = .valid
      ∧ (due.booth 23).link.state = .live ∧ (due.booth 23).cons.claimed ≠ none := by decide +kernel
theorem meets_BoundaryMakesClaimsLive_keeps : ∀ c : ChannelId, (hall.channel c).move = none ∧ (hall.channel c).schedule = none := by
  decide +kernel
theorem meets_BoundaryMakesClaimsLive_fresh : ∀ (b : BoothId) (k : ConsoleId), ((hall.booth b).cons.console k).turn = .idle := by
  decide +kernel
theorem meets_BoundaryChoosesSources :
    let s := hallCh { pairCh with move := some .partner }
    let w := hallCh { pairCh with schedule := some ⟨31, .partner, 100, 90, 10, .waiting, 6000⟩ }
    let lost := { hallLink { liveLink with state := .seeking } with channels := base.channels.set 1 { pairCh with downSince := 4744, rescue := true } }
    (s.channel 1).move = some .partner ∧ (w.channel 1).move = none ∧ (w.channel 1).pairing = .valid
      ∧ (w.channel 1).boothOf .partner = some 23 ∧ (w.booth 23).link.state = .live ∧ (w.booth 23).cons.claimed ≠ none
      ∧ (hall.channel 1).move = none ∧ (hall.channel 1).schedule = none
      ∧ (lost.booth 0).link.state ≠ .live ∧ msTicks lost.timers.lossHold ≤ lost.clock.run - (lost.channel 1).downSince
      ∧ (lost.channel 1).rescue = true ∧ (lost.channel 1).standbyBooth = some 23 := by decide +kernel
theorem meets_BoundarySendsFrames :
    hall.part = .ready ∧ ({ hall with part := .restarting } : State).part = .restarting ∧ State.reset.part = .starting
      ∧ (hall.booth 0).link.state = .live ∧ (hall.booth 1).link.state = .held ∧ (hall.channel 31).defined = false
      ∧ ({ hall with inner := hall.inner.set 0 { BoothInner.initial with handed := some AudioTriple.silent } } : State).inside 0
          = { BoothInner.initial with handed := some AudioTriple.silent } ∧ hall.floor.locked = false
      ∧ ({ hall with framer := { hall.framer with frames := 63 } } : State).framer.frames + 1 = 64 := by decide +kernel
theorem meets_FloorLockAndLoss :
    let s := fun (k : Bool) (l m : Nat) => { base with floor := { base.floor with locked := k, lockRun := l, missRun := m } }
    (s false 30 0).floor.lockRun < 31 ∧ 31 ≤ (s false 31 0).floor.lockRun ∧ (s true 0 6).floor.missRun < 7 ∧ 7 ≤ (s true 0 7).floor.missRun
      ∧ (s true 0 7).floor.locked = true ∧ (s false 31 0).floor.locked = false ∧ (s false 31 0).part = .ready ∧ State.reset.part ≠ .ready := by
  decide +kernel

theorem meets_SetDistributionStagesAPlan :
    let s := placed hall 15
    (s [3, 0]).takes 15 0 [] ∧ (s [0, 0]).takes 15 0 [] ∧ (s [2, 1]).takes 15 0 [] ∧ 2 < (s [3, 0]).param8 0 0
      ∧ (s [2, 1]).param8 0 0 = DistMode.reduced.code.toNat ∧ (s [2, 1]).param8 0 1 = Format.wide.code.toNat
      ∧ (s [0, 0]).framer.mode = .stopped ∧ (s [0, 0]).framer.floorQuality = .standard := by
  unfold State.takes State.memOk; decide +kernel
theorem meets_PlanWithinBudget :
    (Channel.table.get 0).defined = true ∧ (hall.channels.get 0).defined = true ∧ DistMode.hall ≠ .stopped := by decide +kernel
theorem meets_SuperframeSwapsAndBuilds :
    let s := { hall with framer := { hall.framer with due := true, staged := some (computePlan .hall .wide hall.channels) } }
    s.framer.due = true ∧ s.part = .ready ∧ s.framer.staged = some (computePlan .hall .wide hall.channels) ∧ hall.framer.due = false
      ∧ ({ s with part := .restarting } : State).part ≠ .ready
      ∧ (computePlan .stopped .standard hall.channels).mode = .stopped ∧ (computePlan .hall .wide hall.channels).mode ≠ .stopped := by
  decide +kernel

theorem meets_PollCycleAndAnswers :
    let d := desk (recv .docked none) (dockPos .occupied (some 0)) Hire.zero
    let s := fun i : Bool => { d with bus := { next := 1, poll := some (poll0 i) } }
    hall.part = .ready ∧ hall.bus.poll = none ∧ (s true).bus.poll = some (poll0 true) ∧ (s false).bus.poll = some (poll0 false)
      ∧ ((s false).racks.get (poll0 false).rack).state = .online ∧ 2 ≤ ((s false).racks.get (poll0 false).rack).unanswered
      ∧ (hall.racks.get 0).state ≠ .online ∧ (poll0 false).inventory = false
      ∧ (({ d with racks := d.racks.set 0 { state := .fault, unanswered := 3 } } : State).racks.get 0).state = .fault := by decide +kernel
theorem meets_DockChanges_removals :
    let s := desk (recv .docked none) (dockPos .occupied (some 0)) Hire.zero
    (s.position 0).state = .occupied ∧ (s.position 0).entry = some 0 ∧ 0 < s.timers.settle
      ∧ ((desk (recv .docked none) (dockPos .occupied none) Hire.zero).position 0).entry = none ∧ (s.position 319).state = .empty := by
  decide +kernel
theorem meets_DockChanges_insertions :
    let s := fun (x : RecvState) (h : Option HireId) (o : HireState) => desk (recv x h) (dockPos .settlingOut (some 0)) (hire1 o)
    ((s .docked none .free).position 0).state = .settlingOut ∧ ((s .docked none .free).receiver 0).serial = 80003
      ∧ ((s .docked none .free).receiver 0).hire = none ∧ (s .adrift none .free).entryOf 80003 = some 0
      ∧ ((s .adrift none .free).position 319).state = .empty ∧ ((s .onHire (some 0) .opened).hire 0).state = .opened
      ∧ ((s .onHire (some 0) .opened).receiver 0).hire = some 0 ∧ (s .adrift none .free).entryOf 1 = none
      ∧ (base.receiver 0).serial = 0 ∧ (∀ d : RecvId, d < 0 → (base.receiver d).serial ≠ 0) ∧ hall.posHolding 0 = none := by
  decide +kernel
theorem meets_DockChanges_discards :
    40 ≤ (40 : Byte).toNat ∧ (39 : Byte).toNat = (39 : PlaceId).val ∧ (80003 : Serial) ≠ 0
      ∧ (base.position (posIndex 7 39)).state ≠ .occupied
      ∧ ((desk (recv .docked none) (dockPos .occupied (some 0)) Hire.zero).position (posIndex 0 0)).entry = some 0 := by decide +kernel
theorem meets_DockChanges_results :
    let s := fun x : HireState => desk (recv .onHire (some 0)) Position.initial (hire1 x)
    ((s .opened).receiver 0).hire = some 0 ∧ ((s .opened).hire 0).state = .opened ∧ ((s .reserving).hire 0).state = .reserving
      ∧ ((s .free).hire 0).state = .free ∧ (39 : Byte).toNat = (39 : PlaceId).val := by decide +kernel
theorem meets_DockChanges_result_unsent : (poll0 false).presets = [] := rfl
theorem meets_DockChanges_result_sent (k : PlaceId) :
    let x : Poll := { poll0 false with presets := [(posIndex 0 k, 0, 31)] }
    x.presets.find? (fun z => z.1 = posIndex x.rack k) = some (posIndex x.rack k, 0, 31) := by simp [poll0]
theorem meets_DockChanges_settle_none :
    let d := desk (recv .docked none) (dockPos .occupied (some 0)) Hire.zero
    let s : State := { d with timers := { d.timers with settle := 0 } }
    (s.position 0).state = .occupied ∧ (s.position 0).entry = some 0 ∧ s.timers.settle = 0 := by decide +kernel
theorem meets_DockChanges_passed :
    let s := stood (desk (recv .reserved (some 0)) (dockPos .settlingOut (some 0)) { hire1 .reserving with passed := true }) (.issue 0)
    (s.position 0).state = .settlingOut ∧ (s.position 0).entry = some 0 ∧ (s.receiver 0).serial = 80003 ∧ (s.receiver 0).hire = some 0
      ∧ (s.receiver 0).state = .reserved ∧ (s.hire 0).state = .reserving ∧ (s.hire 0).passed = true ∧ (s.hire 0).receiver = 0
      ∧ s.posHolding 0 = some 0 ∧ s.mem.wf = true
      ∧ s.standingOf (.issue 0) = some { slot := 31, owner := .issue 0, clamped := false } := by decide +kernel
theorem meets_DockChanges_another_serial :
    let s := fun x : PosState => desk (recv .docked none) (dockPos x (some 0)) Hire.zero
    ((s .occupied).position 0).entry = some 0 ∧ ((s .occupied).receiver 0).serial ≠ 1 ∧ ((s .occupied).position 0).state = .occupied
      ∧ ((s .settlingOut).position 0).state = .settlingOut
      ∧ ((desk (recv .docked none) (dockPos .occupied none) Hire.zero).position 0).state = .occupied := by decide +kernel
theorem meets_DockChanges_no_reservation (k : HireId) :
    ((desk (recv .onHire (some 0)) Position.initial (hire1 .opened)).hire k).state ≠ .reserving := by
  simp only [State.hire, desk, hall, base, State.reset, Fin.getElem_fin, Vector.getElem_set]
  split <;> simp [hire1, Hire.zero]
/-- The hall with every receiver entry taken, and every hire record. -/
def crowded : State := { hall with receivers := Vector.replicate 2048 (recv .adrift none), hires := Vector.replicate 1024 (hire1 .opened) }
theorem meets_table_full (d : RecvId) (h : HireId) : (crowded.receiver d).serial ≠ 0 ∧ (crowded.hire h).state ≠ .free := by
  simp [State.receiver, State.hire, crowded, recv, hire1]
theorem meets_DockChanges_table_full : crowded.entryOf 1 = none ∧ (crowded.position 0).state = .empty := by decide +kernel
theorem meets_DockChanges_states :
    let s := fun x : RecvState => desk (recv x none) Position.initial Hire.zero
    (∀ x ∈ [RecvState.adrift, .retired, .lost], (s x).posHolding 0 = none ∧ (s x).entryOf 80003 = some 0 ∧ ((s x).receiver 0).state = x
        ∧ ((s x).receiver 0).foundWaiting = false ∧ (s x).logBlocked = false ∧ (fullLog (s x) []).logBlocked = true)
      ∧ ((desk { recv .lost none with foundWaiting := true } Position.initial Hire.zero).receiver 0).foundWaiting = true := by decide +kernel
theorem meets_DockAndReserveDeadlines :
    let s := fun (x : RecvState) (o : PosState) (r : HireState) => stood (desk (recv x (if r = .free then none else some 0)) (dockPos o (some 0)) (hire1 r)) (.issue 0)
    ((s .docked .settlingOut .free).position 0).state = .settlingOut ∧ ((s .docked .settlingOut .free).position 0).settleDeadline ≤ 5000
      ∧ ((s .docked .settlingOut .free).receiver 0).state = .docked ∧ ((s .retired .settlingOut .free).receiver 0).state = .retired
      ∧ ((s .reserved .settlingOut .reserving).receiver 0).hire = some 0 ∧ ((s .reserved .settlingOut .reserving).hire 0).state = .reserving
      ∧ ((s .reserved .settlingOut .reserving).hire 0).deadline ≤ (s .reserved .settlingOut .reserving).clock.run
      ∧ (s .reserved .settlingOut .reserving).settling 0 = true ∧ (s .reserved .occupied .reserving).settling 0 = false
      ∧ (s .reserved .occupied .reserving).standingOf (.issue 0) = some { slot := 31, owner := .issue 0, clamped := false }
      ∧ (s .reserved .occupied .reserving).mem.wf = true ∧ (s .reserved .occupied .reserving).part = .ready
      ∧ ((s .reserved .occupied .reserving).hire 0).passed = false ∧ (hall.hire 1023).state ≠ .reserving := by decide +kernel
theorem meets_RetireAndRestore :
    let s := fun (x : RecvState) (k : Nat) => placed (desk (recv x none) (dockPos .occupied (some 0)) Hire.zero) k
    (s .docked 18 [0x83, 0x38, 1]).takes 18 0 [] ∧ (s .retired 19 [0x83, 0x38, 1]).takes 19 0 [] ∧ (s .docked 18 [0, 0, 0]).takes 18 0 []
      ∧ (s .docked 18 [0, 0, 0]).paramLE 0 0 3 = 0 ∧ (s .docked 18 [0x83, 0x38, 1]).entryOf (BitVec.ofNat 24 0x13883) = some 0
      ∧ (s .docked 18 [1, 0, 0]).entryOf 1 = none ∧ ((s .docked 18 []).receiver 0).state = .docked
      ∧ ((s .onHire 18 []).receiver 0).state = .onHire ∧ ((s .retired 19 []).receiver 0).state = .retired
      ∧ (s .retired 19 []).posHolding 0 = some 0 ∧ (s .docked 18 [0x83, 0x38, 1]).paramLE 0 0 3 = 0x13883 := by
  unfold State.takes State.memOk; decide +kernel

/-- An account that may hire, beside the desk's. -/
def issueFrom (s : State) (ps : List Nat) : State := placed s 16 ps
theorem meets_IssueReservesOrAdopts :
    let s := desk (recv .docked none) (dockPos .occupied (some 0)) Hire.zero
    (issueFrom s [0, 2]).takes 16 0 [] ∧ 511 < (issueFrom s [0, 2]).paramLE 0 0 2 ∧ (issueFrom s [0, 0, 0x83, 0x38, 1, 31]).takes 16 0 []
      ∧ (issueFrom s [0, 0, 0x83, 0x38, 1, 31]).param8 0 5 = 31 ∧ s.clock.valid = true ∧ (s.account 0).state = .active
      ∧ (s.account 511).state = .free ∧ (s.account 0).count ≠ (s.account 0).limit
      ∧ (s.tariffs.get (s.account 0).tariff).hold ≤ (s.account 0).deposit - (s.account 0).holds
      ∧ (s.hire 0).state = .free ∧ (∀ k : HireId, k < 0 → (s.hire k).state ≠ .free) ∧ (s.receiver 0).state = .docked
      ∧ s.timers.battery ≤ (s.receiver 0).battery.toNat ∧ s.entryOf 80003 = some 0 ∧ s.posHolding 0 = some 0
      ∧ (s.position 0).state = .occupied ∧ (s.channel 31).defined = false ∧ base.clock.valid = false := by
  unfold issueFrom State.takes State.memOk; decide +kernel
theorem meets_IssueReservesOrAdopts_any :
    let s := desk (recv .docked none) (dockPos .occupied (some 0)) Hire.zero
    (issueFrom s [0, 0, 0, 0, 0, 0]).takes 16 0 [] ∧ (issueFrom s [0, 0, 0, 0, 0, 0]).paramLE 0 2 3 = 0
      ∧ (s.position 0).entry = some 0 := by
  unfold issueFrom State.takes State.memOk; decide +kernel
theorem meets_IssueReservesOrAdopts_only (q : PosId) (h : q ≠ 0) : (hall.position q).state ≠ .occupied
    ∧ ((desk (recv .docked none) (dockPos .occupied (some 0)) Hire.zero).position q).state ≠ .occupied := by
  have e : ¬ 0 = q.val := fun e => h (Fin.ext e.symm)
  simp [State.position, desk, hall, base, State.reset, e, Position.initial]
theorem meets_IssueReservesOrAdopts_others :
    let s := desk (recv .adrift none) Position.initial (hire1 .opened)
    (s.receiver 0).state = .adrift ∧ s.entryOf 80003 = some 0 ∧ (s.hire 1).state = .free ∧ (∀ k : HireId, k < 1 → (s.hire k).state ≠ .free)
      ∧ (({ s with accounts := s.accounts.set 1 { acct with state := .held, owed := 1 } } : State).account 1).state = .held
      ∧ (({ s with accounts := s.accounts.set 1 { acct with limit := 1 } } : State).account 1).count = 1 := by decide +kernel
theorem meets_IssueReservesOrAdopts_no_receiver :
    hall.entryOf 80003 = none ∧ (hall.position 0).state ≠ .occupied ∧ (hall.hire 0).state = .free := by decide +kernel
theorem meets_BeaconsAreWorked :
    let m : HubMessage := { hub := 15, serial := 80003, channel := 31, battery := 4, sequence := 9, reason := .lowBattery, checkOk := true }
    let s := fun r : Receiver => desk r Position.initial Hire.zero
    m.hub.toNat = 15 ∧ m.channel.toNat = (31 : ChannelId).val ∧ 15 < ({ m with hub := 16 } : HubMessage).hub.toNat
      ∧ 31 < ({ m with channel := 32 } : HubMessage).channel.toNat ∧ hall.entryOf m.serial = none
      ∧ (s (recv .onHire none)).entryOf m.serial = some 0 ∧ ((s (recv .lost none)).receiver 0).foundBy = .nobody
      ∧ ((s (recv .docked none)).receiver 0).state = .docked
      ∧ (let r := { recv .onHire none with heard := some 1, lastSequence := 9, lastHeard := 905 }
         ((s r).receiver 0).heard ≠ none ∧ m.sequence = ((s r).receiver 0).lastSequence ∧ (s r).clock.run - ((s r).receiver 0).lastHeard < 4096)
      ∧ hall.part = .ready ∧ State.reset.part ≠ .ready := by decide +kernel
theorem meets_CensusCountsListeners :
    let s := fun t : Nat =>
      let d := desk { recv .onHire (some 0) with heard := some 31, lastHeard := t } Position.initial (hire1 .opened)
      { d with clock := { d.clock with run := 61440 * 40, markDue := true } }
    let age := fun t : Nat => (s t).clock.run - ((s t).receiver 0).lastHeard
    (s 0).clock.markDue = true ∧ (s 0).part = .ready ∧ ((s 0).receiver 0).state = .onHire ∧ (s 0).timers.silent * 1024 < age 0
      ∧ age (61440 * 40 - 30 * 1024) ≤ (s 0).timers.freshness * 1024 ∧ (s 0).clock.run % 61440 = 0 ∧ hall.clock.markDue = false := by
  decide +kernel

/-- R100, R102: a census that clears two stranded flags has a bracket of the plan record for each. -/
theorem test_census_clears_stranded_flags :
    let s : State := { hall with
      clock := { hall.clock with run := 10240, markDue := true }, framer := { hall.framer with strandedCount := 2 }
      channels := (hall.channels.set 3 { hall.channels[3] with stranded := true }).set 31 { hall.channels[31] with stranded := true } }
    (after s .censusMark).framer.changes = s.framer.changes + 4 ∧ (after s .censusMark).framer.strandedCount = 0
      ∧ ((after s .censusMark).channel 31).stranded = false := by decide +kernel

theorem meets_TariffAndAccountOrders :
    let s := fun (a : Account) (k : Nat) => placed { hall with accounts := hall.accounts.set 511 a } k
    let a := { acct with holds := 0, count := 0, owed := 0 }
    (s a 20 [4]).takes 20 0 [] ∧ (s a 20 [3]).takes 20 0 [] ∧ (s a 20 [3]).param8 0 0 = 3 ∧ 3 < (s a 20 [4]).param8 0 0
      ∧ (s a 21 [255, 1]).takes 21 0 [] ∧ (s a 21 [0, 2]).paramLE 0 0 2 = 512 ∧ (s a 21 [255, 1]).paramLE 0 0 2 = 511
      ∧ ((s Account.zero 21 [255, 1]).account 511).state = .free ∧ ((s a 21 [255, 1]).account 511).state ≠ .free
      ∧ (s a 22 [255, 1]).takes 22 0 [] ∧ (s a 23 [255, 1]).takes 23 0 [] ∧ ((s { a with state := .held } 23 []).account 511).state = .held
      ∧ ((s a 23 []).account 511).state = .active ∧ (s a 24 [255, 1]).takes 24 0 [] ∧ ((s a 24 []).account 511).count = 0
      ∧ ((s a 24 []).account 511).owed = 0 ∧ (s a 24 []).logBlocked = false ∧ (fullLog (s a 24 [255, 1]) []).logBlocked = true
      ∧ (fullLog (s a 24 [255, 1]) []).takes 24 0 [] := by
  unfold State.takes State.memOk; decide +kernel
theorem meets_ChargeOfAHire :
    let x : Tariff := { Tariff.zero with baseMinutes := 1, stepMinutes := 1, baseCharge := 65535, stepCharge := 65535, lossFee := 65535 }
    (1 ≤ 1 ∧ 1 ≤ x.baseMinutes) ∧ (x.baseMinutes < 1440 ∧ x.stepMinutes * 1439 < (1440 - x.baseMinutes) + x.stepMinutes
        ∧ 1440 - x.baseMinutes ≤ x.stepMinutes * 1439)
      ∧ 735 < 1440 ∧ x.grace < 1440 * 45 + 735 ∧ x.grace ≤ 60 ∧ 0 ≤ x.grace ∧ x.cap = 0 := by decide
theorem meets_ReadCountLetsWaitingRecordsIn :
    let w : WaitEntry := { owner := .receiver 0, record := .receiverFound ⟨80003, .dock, 1, Stamp.zero, false⟩ }
    let s := fullLog (desk { recv .docked none with foundWaiting := true } Position.initial Hire.zero) [w]
    s.mem.wf = true ∧ s.part = .ready ∧ (s.log.writeCount - 1).toNat ≤ 1024 ∧ (1 : Half) ≠ s.readCount ∧ s.log.policy = .keep
      ∧ s.log.waiting[0]? = some w ∧ 0 < min s.log.waiting.length (1024 - (s.log.writeCount - (1 : Half)).toNat)
      ∧ 1024 < (s.log.writeCount - (0xFFFF : Half)).toNat ∧ (0 : Half) = s.readCount ∧ hall.log.waiting = []
      ∧ low.both = false ∧ both.both = true ∧ State.reset.part ≠ .ready := by decide +kernel

theorem meets_ReadCountLetsWaitingRecordsIn_hire :
    let s := fullLog (desk (recv .docked none) Position.initial (hire1 .closedWaiting)) waits
    s.mem.wf = true ∧ s.part = .ready ∧ (s.log.writeCount - 1).toNat ≤ 1024 ∧ (1 : Half) ≠ s.readCount ∧ s.log.policy = .keep
      ∧ s.log.waiting[0]? = some ⟨.hire 0, waits[0].record⟩ ∧ 0 < min s.log.waiting.length (1024 - (s.log.writeCount - (1 : Half)).toNat)
      ∧ (s.hire 0).state = .closedWaiting := by decide +kernel

/-! ## What the widened statements ask for -/

theorem meets_ExchangeWrite_reads :
    byteOffset 0x500 = 0xA00 ∧ byteOffset 0x7FF = 0xFFE ∧ byteOffset 0x2680 = 0x4D00 ∧ byteOffset 0x3C00 = 0x7800 ∧ byteOffset 0x80 = 0x100
      ∧ byteOffset 0x4FF = 0x9FE ∧ byteOffset 0x18000 = 0x30000 ∧ byteOffset 0x1F00 = 0x1000 + 512 * 23
      ∧ byteOffset 0x23E0 = 0x4000 + 64 * 31 ∧ byteOffset 0x2400 = 0x4800 ∧ byteOffset 0x2660 = 0x4C00 + 64 * 3
      ∧ byteOffset 0x3BF0 = 0x5000 + 32 * 319 ∧ byteOffset 0x7FE0 = 0x8000 + 64 * 511 ∧ byteOffset 0xFFE0 = 0x10000 + 64 * 1023
      ∧ byteOffset 0x17FF0 = 0x20000 + 32 * 2047 := by decide
/-- Sections 1.2 and 9.1: the part number, the part state and a beacon counter as a host reads them, and 0 outside all regions. -/
theorem test_header_reads :
    let s := { hall with beacons := { hall.beacons with listeners := 0x12345 } }
    (s.exchangeRead 1, s.exchangeRead 3, s.exchangeRead 0x3E, s.exchangeRead 0x3F, s.exchangeRead 0x500)
      = (some 0x2432, some 1, some 0x2345, some 1, some 0) := by decide +kernel

theorem meets_SoftRestartClears_log :
    let s := fun (w : Half) (p : LogPolicy) =>
      { hall with part := .restarting, log := { hall.log with writeCount := w, policy := p } }
    (s 1024 .keep).logBlocked = true ∧ (s 1023 .keep).logBlocked = false ∧ (s 1024 .overwrite).logBlocked = false
      ∧ (s 1024 .overwrite).log.policy = .overwrite ∧ 1024 ≤ (s 1024 .overwrite).unread ∧ (s 767 .keep).unread = 767
      ∧ (s 1024 .overwrite).mem.wf = true := by decide +kernel

/-- The hall with two open turns in booth 0, console 1's ON and console 3's in GAP, and a link as given. -/
def hallTurns (l : LinkFields) : State :=
  let each := (cons0.each.set 0 { ConsoleRec.initial with turn := .running, turnStart := 1000, liveSince := 3000, onMic := 5 }).set 2
    { ConsoleRec.initial with turn := .gap, turnStart := 100, liveEnd := 2000, onMic := 7 }
  { hall with booths := hall.booths.set 0 { liveBooth 0 .primary with link := l, cons := { cons0 with each := each } } }
/-- The hall with channel 1 named by booth 0 alone. -/
def solo : State :=
  { hallCh { pairCh with partner := none, pairing := .unpaired } with booths := hall.booths.set 23 Booth.initial }
theorem meets_departures_naming :
    (placed (hallTurns liveLink) 8 [0]).namingOk ∧ (hallTurns { liveLink with missingRun := 3 }).namingOk ∧ solo.namingOk
      ∧ (hallTurns { liveLink with badRun := 3 }).namingOk := by
  refine ⟨?_, ?_, ?_, ?_⟩
  all_goals unfold State.namingOk; decide +kernel
theorem meets_departures :
    let s := placed (hallTurns liveLink) 8 [0]
    s.takes 8 0 [] ∧ s.param8 0 0 = (0 : BoothId).val ∧ (s.booth 0).link.state = .live ∧ ((s.booth 0).cons.console 0).turn = .running
      ∧ ((s.booth 0).cons.console 2).turn = .gap ∧ ((s.booth 0).cons.console 1).turn = .idle
      ∧ (s.channel 1).names 0 ∧ (s.channel 1).primary = some 0 ∧ (s.channel 1).partner = some 23 ∧ (s.channel 1).ownerBooth = some 0
      ∧ (s.channel 1).names 23 ∧ (s.channel 1).ownerBooth ≠ some 23 ∧ ¬ (s.channel 31).names 0
      ∧ (solo.channel 1).names 0 ∧ (solo.channel 1).partner = none
      ∧ 3 ≤ ((hallTurns { liveLink with missingRun := 3 }).booth 0).link.missingRun := by
  unfold State.takes State.memOk Channel.names; decide +kernel
theorem meets_LiveAudioFrame_departure : (hallLink { liveLink with window := { symbol := 15, balance := 0, marker := 14 } }).namingOk := by
  unfold State.namingOk; decide +kernel
/-- R49, R70, R77, R81: a hold of a LIVE booth hands two TURN records with cause LINK and takes the pairing to FAULT, PRIMARY_DOWN. -/
theorem test_hold_of_a_live_booth :
    let t := after (placed (hallTurns liveLink) 8 [0]) .linkHold
    ((t.channel 1).pairing, (t.channel 1).fault, (t.channel 1).downSince, t.log.writeCount, t.mem.read8 0x30002, t.mem.read8 0x30042)
      = (.fault, .primaryDown, 5000, 2, 2, 2)
      ∧ t.mem.readBytes 0x3000C 24 = (TallyRecord.turn (((hallTurns liveLink).booth 0).cons.console 0 |>.finalRecord 0 0 .link 5000)).body
      ∧ (((hallTurns liveLink).booth 0).cons.console 0 |>.finalRecord 0 0 .link 5000).onMic = 1 := by decide +kernel

/-- An announce of the twelve bytes, its checksum by BYTES put in. -/
def announcing (x : AnnounceBlock) : AnnounceFrame := { inPlace := true, block := x.set 11 (AnnounceBlock.sum x .bytes), checkOk := true }
/-- The reason an announce leaves in a booth 0 that expects serial 5, the code AAA, two consoles and WIDE. -/
def reasonOf (x : AnnounceBlock) : MismatchReason :=
  let l := { liveLink with
    state := .announcing, definition := { liveLink.definition with serial := 5, lang := ⟨65, 65, 65⟩, consoles := 2, format := .wide } }
  ((after (hallLink l) (.announceFrame 0 (announcing x))).booth 0).link.announced.mismatch
/-- R39: the first condition that fails names the reason. -/
theorem test_mismatch_reasons :
    [reasonOf #v[1, 6, 0, 0, 0, 66, 65, 65, 1, 0, 0, 0], reasonOf #v[0, 6, 0, 0, 0, 66, 65, 65, 1, 0, 0, 0],
     reasonOf #v[0, 5, 0, 0, 0, 66, 65, 65, 1, 0, 0, 0], reasonOf #v[0, 5, 0, 0, 0, 65, 65, 65, 1, 0, 0, 0],
     reasonOf #v[0, 5, 0, 0, 0, 65, 65, 65, 2, 0, 0, 0], reasonOf #v[0, 5, 0, 0, 0, 65, 65, 65, 3, 1, 0, 0]]
      = [.booth, .serial, .code, .consoles, .format, .noReason] := by decide +kernel
theorem meets_AnnounceMovesTheLink_reasons :
    let good := fun x : AnnounceBlock => (announcing x).block[11] = AnnounceBlock.sum (announcing x).block .bytes
      ∧ AnnounceBlock.inRange (announcing x).block = true
    good #v[1, 6, 0, 0, 0, 66, 65, 65, 1, 0, 0, 0] ∧ good #v[0, 5, 0, 0, 0, 65, 65, 65, 3, 1, 0, 0] := by decide +kernel
/-- The hall about to enter LIVE with booth 0, no console claimed, by `announce 199`. -/
def entering : State :=
  { hall with booths := hall.booths.set 0 { liveBooth 0 .primary with
      link := { liveLink with state := .announcing, definition := { liveLink.definition with lang := ⟨65, 65, 65⟩, consoles := 3 } }
      cons := { cons0 with live := none, claimed := none } } }
theorem meets_AnnounceMovesTheLink_up :
    entering.namingOk ∧ (entering.booth 0).link.state = .announcing ∧ ((after entering (.announceFrame 0 (announce 199))).booth 0).link.state = .live := by
  unfold State.namingOk; decide +kernel
theorem meets_AnnounceMovesTheLink_down :
    ((after (hallTurns { liveLink with badRun := 3 }) (.announceFrame 0 (announce 198))).booth 0).link.state = .seeking
      ∧ ((after (hallTurns liveLink) (.announceFrame 0 (announce 199))).booth 0).link.state = .mismatch
      ∧ ((hallTurns liveLink).booth 0).link.state = .live ∧ (hallTurns liveLink).namingOk := by
  unfold State.namingOk; decide +kernel

/-- The hall with booths 0 and 23 LIVE, announcing codes and formats, and a CHANNEL_DEFINE of channel 1 by both with the code DEU. -/
def pairing (x y : Lang) (f : Format) : State :=
  let say := fun (l : Lang) (f : Format) => { liveLink with announced := { liveLink.announced with lang := l, format := f } }
  let one := hall.booths.set 0 { liveBooth 0 .primary with link := say x .standard }
  placed { hall with booths := one.set 23 { liveBooth 2 .partner with link := say y f } } 12 [1, 0, 23, 68, 69, 85, 0, 0]
theorem meets_ChannelDefineWritesDefinition_pairing :
    let deu : Lang := ⟨68, 69, 85⟩
    (pairing deu Lang.unset .standard).takes 12 0 [] ∧ ((pairing deu deu .wide).booth 23).link.state = .live
      ∧ ((pairing deu Lang.unset .standard).booth 23).link.announced.lang ≠ deu
      ∧ ((pairing deu deu .wide).booth 0).link.announced.format ≠ ((pairing deu deu .wide).booth 23).link.announced.format
      ∧ (solo.booth 23).link.state ≠ .live := by
  unfold State.takes State.memOk; decide +kernel
/-- R81: CODE before FORMAT, and VALID where neither fails. -/
theorem test_pairing_faults :
    let deu : Lang := ⟨68, 69, 85⟩
    let of := fun s : State => ((after s .channelDefine).channel 1).fault
    (of (pairing deu Lang.unset .wide), of (pairing deu deu .wide), of (pairing deu deu .standard)) = (.code, .format, .noFault) := by
  decide +kernel

/-- The hall on the air in HALL with a WIDE floor, channel 1 cleared, one frame before a superframe's last. -/
def onAir : State :=
  { hall with framer := { hall.framer with
      frames := 62, cleared := hall.framer.cleared.set 1 true
      active := computePlan .hall .wide hall.channels } }
theorem meets_BoundarySendsFrames_slots :
    let p := onAir.framer.active
    (p.entries.get 0).onAir = true ∧ (p.entries.get 0).slots = 2 ∧ (p.entries.get 1).onAir = true ∧ (p.entries.get 1).slots = 1
      ∧ onAir.framer.cleared.get 1 = true ∧ p.mode.budget = 40 ∧ p.used = 3 ∧ (onAir.framer.frames + 1) % 64 ≠ 0 := by decide +kernel
/-- R98: the floor over two slots, the cleared channel's slot silent, and the rest silent. -/
theorem test_slots :
    let f := (after { onAir with floor := { onAir.floor with locked := true, handed := some (.sound 7) } } .frameBoundary).framer.line
    f.map (fun f => (f.slots.take 4, f.slots.length)) = some ([.wide 0 (.sound 7), .wide 1 (.sound 7), .silent, .silent], 40) := by decide +kernel

/-- The desk with position 0 in FAULT, holding what is given. -/
def faulted (e : Option RecvId) : State := desk (recv .docked none) (dockPos .fault e) Hire.zero
theorem meets_PollCycleAndAnswers_reconcile :
    ((faulted (some 0)).position 0).state = .fault ∧ ((faulted (some 0)).position 0).entry = some 0 ∧ ((faulted none).position 0).entry = none
      ∧ ((faulted (some 0)).receiver 0).serial = 80003 ∧ ((faulted (some 0)).position 319).state ≠ .fault := by decide +kernel
/-- R107: a FAULT position whose receiver is still there, another's, none, and an EMPTY position that shows one. -/
theorem test_reconcile :
    let item := fun x : Serial => some ({ serial := x, battery := 3 } : InventoryItem)
    let see := fun (s : State) (p : PosId) => ((s.position p).state, (s.position p).entry, (s.receiver 0).state)
    [see ((faulted (some 0)).reconcile 0 (item 80003)) 0, see ((faulted (some 0)).reconcile 0 (item 9)) 0,
     see ((faulted (some 0)).reconcile 0 none) 0, see ((faulted (some 0)).reconcile 319 (item 9)) 319]
      = [(.occupied, some 0, .docked), (.occupied, some 1, .adrift), (.empty, none, .adrift), (.occupied, some 1, .docked)] := by
  decide +kernel

/-- The boundary of two turns' ends: in booth 5 console 2 has accepted from console 1, whose turn is ON, and channel 1's waiting handover to
its partner is due, its outgoing offer open, its order standing in slot 31, and the turn of booth 0's console 1 ON. -/
def handing : State :=
  let a := stood (hallTurns liveLink) (.handover 1)
  let each := cons0.each.set 0 { ConsoleRec.initial with turn := .running, turnStart := 1000, liveSince := 3000, onMic := 5 }
  { a with
    channels := a.channels.set 1 { pairCh with
      offer := some ⟨0, 9000⟩, schedule := some ⟨31, .partner, 100, 90, 10, .waiting, 6000⟩ }
    booths := a.booths.set 5 { liveBooth 0 .primary with role := RoleFields.initial, cons := { cons0 with claimed := some 1, each := each } }
    inner := a.inner.set 5 { BoothInner.initial with accepted := true } }
theorem meets_boundary_laws : handing.namingOk ∧ handing.slotsOk := by
  refine ⟨?_, ?_⟩
  · unfold State.namingOk; decide +kernel
  · unfold State.slotsOk State.memOk; decide +kernel
theorem meets_boundary_records :
    (handing.booth 5).cons.live = some 0 ∧ (handing.booth 5).cons.claimed = some 1 ∧ (handing.inside 5).accepted = true
      ∧ ((handing.booth 5).cons.console 0).turn = .running ∧ handing.moveDue 1 = true ∧ handing.moveDue 31 = false
      ∧ (handing.booth 0).cons.claimed = some 0 ∧ (handing.booth 0).cons.live = some 0
      ∧ ((handing.booth 0).cons.console 0).turn = .running ∧ (handing.channel 1).ownerBooth = some 0
      ∧ handing.standingOf (.handover 1) = some { slot := 31, owner := .handover 1, clamped := false }
      ∧ (handing.booth 0).cons.live ≠ some 1 ∧ (handing.booth 0).cons.claimed ≠ some 1 := by decide +kernel
/-- R63, R67, R87, R88: two TURN records with cause HANDOVER, booth 5's first, and the order DONE with the tick, the owner and the fault. -/
theorem test_boundary_records :
    let t := after handing .frameBoundary
    (handing.handedOver t).map (fun r => (r.booth, r.console, r.cause, r.onMic)) = [(5, 0, .handover, 1), (0, 0, .handover, 1)]
      ∧ t.log.writeCount = 2 ∧ t.mem.readBytes 0x3000C 3 = [5, 1, 2] ∧ t.mem.readBytes 0x3004C 3 = [0, 1, 2]
      ∧ t.orders.standing = [] ∧ t.isPending .order = true
      ∧ t.mem.readBytes (slotBase 31 + 0x32) 8 = leBytes 6 5000 ++ [1, 0] := by decide +kernel
/-- The hall whose owner booth has switched its microphone off, an outgoing offer still open. -/
def quieting : State :=
  { hallCons { cons0 with claimed := none } with channels := hall.channels.set 1 { pairCh with offer := some ⟨0, 9000⟩ } }
theorem meets_BoundaryChoosesSources_quiet :
    quieting.namingOk ∧ (quieting.channel 1).ownerBooth = some 0 ∧ (quieting.booth 0).cons.live ≠ none
      ∧ (quieting.booth 0).cons.claimed = none ∧ (hall.booth 0).cons.claimed ≠ none ∧ (hall.channel 1).ownerBooth = some 0 := by
  unfold State.namingOk; decide +kernel
/-- R85: the offer of a booth that goes quiet ends at the boundary. -/
theorem test_quiet_owner : ((after quieting .frameBoundary).channel 1).offer = none := by decide +kernel

theorem meets_LiveAudioFrame_rows :
    let a : AudioFrame := { faulty with faults := [] }
    a.event = some { kind := .micOn, console := 3 } ∧ a.checkOk = true ∧ eventRow? 0 3 .micOn = some (.micOn 0 3)
      ∧ eventRow? 0 3 .unknown = none ∧ ({ a with event := none } : AudioFrame).event = none ∧ (3 : Fin 4) ≠ 0 := by decide
/-- R47, R55, R59: MIC_ON from console 3 in a frame, with console 1 live, is REFUSED and busy for 2048 ticks. -/
theorem test_event_in_a_frame :
    let c := ((after hall (.audioFrame 0 { faulty with faults := [] })).booth 0).cons.console 2
    (c.lastEvent, c.lastOutcome, c.busy) = (.micOn, .refused, some 7048) := by decide +kernel

theorem meets_SuperframeSwapsAndBuilds_outside :
    let s := fun p : PartState => { onAir with part := p, framer := { onAir.framer with due := true } }
    (s .restarting).framer.due = true ∧ (s .starting).part = .starting ∧ (s .restarting).part = .restarting
      ∧ (s .restarting).framer.active.mode ≠ .stopped ∧ ({ hall with part := .restarting } : State).framer.active.mode = .stopped := by
  decide +kernel
/-- Section 11.2: the span of a TURN record in its 4 bytes, at the greatest number they hold. -/
theorem test_span_field (r : TurnRecord) : ({ r with span := 4294967295 } : TurnRecord).spanField = 4294967295 := by
  simp [TurnRecord.spanField]

/-! ## A state at work that meets every law -/

/-- Entry 0 on hire 0, entry 1 docked at position 0, two LIVE booths, and a run tick waiting. -/
def lawful : State :=
  { desk (recv .onHire (some 0)) (dockPos .occupied (some 1)) (hire1 .opened) with
    receivers := (base.receivers.set 0 (recv .onHire (some 0))).set 1 { recv .docked none with serial := 80004 }
    pending := [.runCounterTick] }

theorem lawful_steps : ∃ t : State, step lawful = .next t ∧ t.clock.run = 5001 := ⟨_, rfl, rfl⟩

theorem lawful_receiver (e : RecvId) :
    lawful.receiver e = if e = 1 then { recv .docked none with serial := 80004 } else if e = 0 then recv .onHire (some 0) else Receiver.zero := by
  have h0 : (0 = e.val) ↔ e = 0 := ⟨fun h => Fin.ext h.symm, fun h => by subst h; rfl⟩
  have h1 : (1 = e.val) ↔ e = 1 := ⟨fun h => Fin.ext h.symm, fun h => by subst h; rfl⟩
  simp [State.receiver, lawful, base, State.reset, Vector.getElem_set, h0, h1]
theorem lawful_hire (h : HireId) : lawful.hire h = if h = 0 then hire1 .opened else Hire.zero := by
  have h0 : (0 = h.val) ↔ h = 0 := ⟨fun e => Fin.ext e.symm, fun e => by subst e; rfl⟩
  simp [State.hire, lawful, desk, hall, base, State.reset, Vector.getElem_set, h0]
theorem lawful_position (p : PosId) : lawful.position p = if p = 0 then dockPos .occupied (some 1) else Position.initial := by
  have h0 : (0 = p.val) ↔ p = 0 := ⟨fun e => Fin.ext e.symm, fun e => by subst e; rfl⟩
  simp [State.position, lawful, desk, hall, base, State.reset, Vector.getElem_set, h0]
theorem lawful_account (a : AcctId) : lawful.account a = if a = 0 then acct else Account.zero := by
  have h0 : (0 = a.val) ↔ a = 0 := ⟨fun e => Fin.ext e.symm, fun e => by subst e; rfl⟩
  simp [State.account, lawful, desk, hall, base, State.reset, Vector.getElem_set, h0]

/-- The hire law of a state with the receivers and hires of `lawful`, and no order standing or record waiting. -/
theorem hiresOk_of_lawful (s : State) (hr : s.receivers = lawful.receivers) (hh : s.hires = lawful.hires)
    (ho : s.orders.standing = []) (hw : s.log.waiting = []) : s.hiresOk := by
  have r : ∀ e : RecvId, s.receiver e = lawful.receiver e := fun e => by simp only [State.receiver, hr]
  have h : ∀ k : HireId, s.hire k = lawful.hire k := fun k => by simp only [State.hire, hh]
  simp only [State.hiresOk, r, h, lawful_receiver, lawful_hire, ho, hw]
  refine ⟨fun e => ?_, fun k => ?_, fun k => ?_, fun e => ?_, fun e => ?_, fun e => ?_, by simp, by simp, by simp, fun k => ?_⟩
  · split <;> [skip; split] <;> simp [recv, Receiver.zero]
  · split <;> simp [hire1, Hire.zero]
  · by_cases e : k = 0 <;> simp [e, hire1, Hire.zero, recv]
  · split <;> [skip; split] <;> simp [recv, Receiver.zero]
  · by_cases h1 : e = 1
    · simp [h1, recv]
    · by_cases h0 : e = 0
      · exact fun _ => ⟨0, by simp [h0, recv, hire1, Hire.zero]⟩
      · simp [h0, h1, Receiver.zero]
  · split <;> [skip; split] <;> simp [recv, Receiver.zero]
  · split <;> simp [hire1, Hire.zero]

theorem meets_StepsKeepTheHireLaw : lawful.hiresOk := hiresOk_of_lawful _ rfl rfl rfl rfl
theorem meets_StepsKeepTheLogLaw : lawful.logOk ∧ lawful.strideOk ∧ lawful.hireNumberOk := by
  unfold State.logOk State.memOk State.strideOk State.hireNumberOk; decide +kernel
theorem meets_StepsKeepOrdersAndHolders : lawful.slotsOk := by unfold State.slotsOk State.memOk; decide +kernel
theorem meets_StepsKeepRelayAndNaming : lawful.namingOk ∧ lawful.relayOk := by
  unfold State.namingOk State.relayOk; decide +kernel
theorem meets_StepsKeepTheInterlock : lawful.consolesOk := by
  intro b
  have e : (lawful.booth b).cons.offer = none := by revert b; decide +kernel
  simp only [e, reduceCtorEq, false_and, exists_false, or_false]
  revert b
  decide +kernel
theorem meets_StepsKeepTheDockLaw_racks : lawful.racksOk := by
  refine ⟨fun p => ?_, fun x h => by simp [lawful, desk, hall, base, State.reset] at h⟩
  revert p
  decide +kernel
theorem meets_StepsKeepTheDockLaw : lawful.docksOk := by
  simp only [State.docksOk, lawful_receiver, lawful_position]
  refine ⟨fun e d => ?_, fun p q e => ?_, fun p e => ?_, fun e => ?_, fun p => ?_⟩
  · by_cases e1 : e = 1 <;> by_cases e0 : e = 0 <;> by_cases d1 : d = 1 <;> by_cases d0 : d = 0 <;> simp_all [recv, Receiver.zero]
  · by_cases p0 : p = 0 <;> by_cases q0 : q = 0 <;> simp_all [dockPos, Position.initial]
  · by_cases p0 : p = 0 <;> simp [p0, dockPos, Position.initial]
    rintro rfl; simp [recv]
  · by_cases e1 : e = 1
    · exact fun _ => ⟨0, by simp [e1, dockPos]⟩
    · by_cases e0 : e = 0 <;> simp [e0, e1, recv, Receiver.zero]
  · by_cases p0 : p = 0 <;> simp [p0, dockPos, Position.initial]
theorem meets_StepsKeepTheMoneyLaw : lawful.moneyOk := by
  intro a
  right
  rw [lawful_account]
  split <;> rfl
theorem lawful_hires_list : ∃ n : Nat, lawful.hires.toList = hire1 .opened :: List.replicate n Hire.zero := ⟨1023, by decide +kernel⟩
theorem meets_StepsKeepTheAccountLaw : lawful.accountsOk := by
  intro a
  have z : ∀ n : Nat, (List.replicate n Hire.zero).countP (fun r => r.runsOn a) = 0
      ∧ (List.replicate n Hire.zero).filter (fun r => r.runsOn a) = [] := fun n => by simp [Hire.runsOn, Hire.zero]
  have e : ((hire1 .opened).runsOn a) = decide (a = 0) := by
    show (0 == a) = decide (a = 0)
    by_cases h : a = 0
    · simp [h]
    · simp [h, Ne.symm h]
  have k : (hire1 .opened).hold = 2000 := rfl
  obtain ⟨n, l⟩ := lawful_hires_list
  rw [l, lawful_account]
  simp only [List.countP_cons, List.filter_cons, (z n).1, (z n).2, e]
  by_cases h : a = 0 <;> simp [h, acct, Account.zero, k, maxCents]

theorem meets_DeclareLostSettles :
    let s := fun ps : List Nat => placed { lawful with pending := [] } 17 ps
    (s []).takes 17 0 [] ∧ (s []).paramLE 0 0 4 = 0 ∧ (s [9]).takes 17 0 [] ∧ (s [9]).paramLE 0 0 4 = 9 ∧ (s [1]).takes 17 0 []
      ∧ (s [1]).paramLE 0 0 4 = 1 ∧ ((s [1]).hire 0).state = .opened ∧ ((s [1]).hire 0).number = 1 ∧ (s [1]).logBlocked = false
      ∧ (∀ k : HireId, k < 0 → ((s [1]).hire k).state = .free) := by
  unfold State.takes State.memOk; decide +kernel
theorem meets_DeclareLostSettles_law : (placed { lawful with pending := [] } 17 [1]).hiresOk := hiresOk_of_lawful _ rfl rfl rfl rfl
theorem meets_DeclareLostSettles_absent (h : HireId) :
    ((placed { lawful with pending := [] } 17 [9]).hire h).state ≠ .free →
      ((placed { lawful with pending := [] } 17 [9]).hire h).number.toNat ≠ 9 := by
  have e : (placed { lawful with pending := [] } 17 [9]).hire h = lawful.hire h := rfl
  rw [e, lawful_hire]; split <;> simp [hire1, Hire.zero]

/-! ## A state with an open hire and a reservation of one account -/

/-- Entry 0 on hire 0, entry 1 reserved by hire 1 at position 0, whose ISSUE stands in slot 31; account 0 holds 50.00 against both. -/
def booked : State :=
  stood { desk (recv .onHire (some 0)) (dockPos .occupied (some 1)) (hire1 .opened) with
    receivers := (base.receivers.set 0 (recv .onHire (some 0))).set 1 { recv .reserved (some 1) with serial := 80004 }
    hires := (base.hires.set 0 (hire1 .opened)).set 1 { hire1 .reserving with number := 2, receiver := 1 }
    accounts := base.accounts.set 0 { acct with deposit := 5000, holds := 4000, count := 2 }
    tariffs := base.tariffs.set 0 tariff1 } (.issue 1)

theorem booked_receiver (e : RecvId) :
    booked.receiver e = if e = 1 then { recv .reserved (some 1) with serial := 80004 } else if e = 0 then recv .onHire (some 0) else Receiver.zero := by
  have h0 : (0 = e.val) ↔ e = 0 := ⟨fun h => Fin.ext h.symm, fun h => by subst h; rfl⟩
  have h1 : (1 = e.val) ↔ e = 1 := ⟨fun h => Fin.ext h.symm, fun h => by subst h; rfl⟩
  simp [State.receiver, booked, stood, held31, base, State.reset, Vector.getElem_set, h0, h1]
theorem booked_hire (h : HireId) :
    booked.hire h = if h = 1 then { hire1 .reserving with number := 2, receiver := 1 } else if h = 0 then hire1 .opened else Hire.zero := by
  have h0 : (0 = h.val) ↔ h = 0 := ⟨fun e => Fin.ext e.symm, fun e => by subst e; rfl⟩
  have h1 : (1 = h.val) ↔ h = 1 := ⟨fun e => Fin.ext e.symm, fun e => by subst e; rfl⟩
  simp [State.hire, booked, stood, held31, base, State.reset, Vector.getElem_set, h0, h1]
theorem booked_position (p : PosId) : booked.position p = if p = 0 then dockPos .occupied (some 1) else Position.initial := by
  have h0 : (0 = p.val) ↔ p = 0 := ⟨fun e => Fin.ext e.symm, fun e => by subst e; rfl⟩
  simp [State.position, booked, stood, held31, desk, hall, base, State.reset, Vector.getElem_set, h0]

/-- The hire law of a state with the receivers, hires and standing orders of `booked`, and no record waiting. -/
theorem hiresOk_of_booked (s : State) (hr : s.receivers = booked.receivers) (hh : s.hires = booked.hires)
    (ho : s.orders.standing = [{ slot := 31, owner := .issue 1, clamped := false }]) (hw : s.log.waiting = []) : s.hiresOk := by
  have r : ∀ e : RecvId, s.receiver e = booked.receiver e := fun e => by simp only [State.receiver, hr]
  have h : ∀ k : HireId, s.hire k = booked.hire k := fun k => by simp only [State.hire, hh]
  simp only [State.hiresOk, r, h, booked_receiver, booked_hire, ho, hw]
  refine ⟨fun e => ?_, fun k => ?_, fun k => ?_, fun e => ?_, fun e => ?_, fun e => ?_, by simp, by simp [hire1], by simp, fun k => ?_⟩
  · split <;> [skip; split] <;> simp [recv, Receiver.zero]
  · by_cases k1 : k = 1 <;> by_cases k0 : k = 0 <;> simp [k0, k1, hire1, Hire.zero, recv]
  · by_cases k1 : k = 1 <;> by_cases k0 : k = 0 <;> simp [k0, k1, hire1, Hire.zero, recv]
  · by_cases h1 : e = 1
    · exact fun _ => ⟨1, by simp [h1, recv, hire1, Hire.zero]⟩
    · by_cases h0 : e = 0 <;> simp [h0, h1, recv, Receiver.zero]
  · by_cases h1 : e = 1
    · simp [h1, recv]
    · by_cases h0 : e = 0
      · exact fun _ => ⟨0, by simp [h0, recv, hire1, Hire.zero]⟩
      · simp [h0, h1, Receiver.zero]
  · split <;> [skip; split] <;> simp [recv, Receiver.zero]
  · split <;> [skip; split] <;> simp [hire1, Hire.zero]

/-- The docks' law of a state with the receivers and positions of `booked`. -/
theorem docksOk_of_booked (s : State) (hr : s.receivers = booked.receivers) (hp : s.positions = booked.positions) : s.docksOk := by
  have r : ∀ e : RecvId, s.receiver e = booked.receiver e := fun e => by simp only [State.receiver, hr]
  have q : ∀ p : PosId, s.position p = booked.position p := fun p => by simp only [State.position, hp]
  simp only [State.docksOk, r, q, booked_receiver, booked_position]
  refine ⟨fun e d => ?_, fun p q e => ?_, fun p e => ?_, fun e => ?_, fun p => ?_⟩
  · by_cases e1 : e = 1 <;> by_cases e0 : e = 0 <;> by_cases d1 : d = 1 <;> by_cases d0 : d = 0 <;> simp_all [recv, Receiver.zero]
  · by_cases p0 : p = 0 <;> by_cases q0 : q = 0 <;> simp_all [dockPos, Position.initial]
  · by_cases p0 : p = 0 <;> simp [p0, dockPos, Position.initial]
    rintro rfl; simp [recv]
  · by_cases e1 : e = 1
    · exact fun _ => ⟨0, by simp [e1, dockPos]⟩
    · by_cases e0 : e = 0 <;> simp [e0, e1, recv, Receiver.zero]
  · by_cases p0 : p = 0 <;> simp [p0, dockPos, Position.initial]

/-- `booked` with the poll of rack 0 outstanding, and a preset in it. -/
def unansweredPoll : State :=
  { booked with bus := { next := 1, poll := some (poll0 false) }, presets := booked.presets.set 0 (some ⟨1, 31, true⟩) }
theorem meets_PollCycleAndAnswers_fails :
    unansweredPoll.part = .ready ∧ unansweredPoll.bus.poll = some (poll0 false) ∧ (unansweredPoll.racks.get 0).state = .online
      ∧ 2 ≤ (unansweredPoll.racks.get 0).unanswered ∧ (unansweredPoll.hire 1).state = .reserving
      ∧ unansweredPoll.posHolding 1 = some 0 ∧ (rackOf 0 : RackId) = (poll0 false).rack
      ∧ unansweredPoll.standingOf (.issue 1) = some { slot := 31, owner := .issue 1, clamped := false }
      ∧ (({ unansweredPoll with racks := unansweredPoll.racks.set 0 { state := .online, unanswered := 1 } } : State).racks.get 0).unanswered < 2
      ∧ unansweredPoll.presets.get 0 = some ⟨1, 31, true⟩ := by decide +kernel
theorem meets_PollCycleAndAnswers_laws : unansweredPoll.hiresOk ∧ unansweredPoll.docksOk ∧ unansweredPoll.slotsOk := by
  refine ⟨hiresOk_of_booked _ rfl rfl rfl rfl, docksOk_of_booked _ rfl rfl, ?_⟩
  unfold State.slotsOk State.memOk; decide +kernel
/-- R106, R129: what the rack's failure leaves of the reservation. -/
theorem test_rackFault :
    let t := after unansweredPoll .answerWindowExpiry
    ((t.hire 1).state, (t.receiver 1).state, (t.position 0).state, (t.account 0).holds, t.mem.read8 (slotBase 31 + 7))
      = (.free, .docked, .fault, 2000, Reason.dockFault.code) := by decide +kernel

theorem meets_DockChanges_elsewhere : booked.docksOk ∧ (booked.position 319).state = .empty ∧ booked.entryOf 80004 = some 1
    ∧ (booked.position 0).entry = some 1 := ⟨docksOk_of_booked _ rfl rfl, by decide +kernel⟩

theorem meets_DeclareLostSettles_held :
    let s := placed booked 17 [1]
    let a := s.account 0
    let charge := (s.tariffs.get 0).charge (min 65535 (((s.clock.run - (s.hire 0).startTick) / 1024 + 59) / 60)) .lost
    s.takes 17 0 [] ∧ s.paramLE 0 0 4 = 1 ∧ (s.hire 0).number.toNat = 1 ∧ (s.hire 0).state = .opened ∧ (s.hire 0).account = 0
      ∧ a.state = .active ∧ a.deposit - (a.holds - (s.hire 0).hold) < charge ∧ (s.hire 1).state = .reserving ∧ (s.hire 1).account = 0
      ∧ s.standingOf (.issue 1) = some { slot := 31, owner := .issue 1, clamped := false } := by
  unfold State.takes State.memOk; decide +kernel
theorem meets_DeclareLostSettles_held_laws : (placed booked 17 [1]).hiresOk ∧ (placed booked 17 [1]).slotsOk := by
  refine ⟨hiresOk_of_booked _ rfl rfl rfl rfl, ?_⟩
  unfold State.slotsOk State.memOk; decide +kernel
/-- R130, R159: what becoming HELD leaves of the reservation and the account. -/
theorem test_account_held :
    let t := after (placed booked 17 [1]) .declareLost
    ((t.account 0).state, (t.account 0).holds, (t.account 0).count, (t.hire 1).state, t.mem.read8 (slotBase 31 + 7))
      = (.held, 0, 0, .free, Reason.accountHeld.code) := by decide +kernel

theorem meets_DockChanges_returned :
    booked.hiresOk ∧ booked.slotsOk ∧ (booked.position 319).state = .empty ∧ booked.entryOf 80003 = some 0 ∧ booked.posHolding 0 = none
      ∧ (booked.receiver 0).state = .onHire ∧ (booked.receiver 0).hire = some 0 ∧ (booked.hire 0).state = .opened := by
  refine ⟨hiresOk_of_booked _ rfl rfl rfl rfl, ?_, ?_⟩
  · unfold State.slotsOk State.memOk; decide +kernel
  · decide +kernel
theorem meets_DockChanges_returned_reservations (k : HireId) (h : (booked.hire k).state = .reserving) : (booked.hire k).receiver ≠ 0 := by
  revert h; rw [booked_hire]
  split <;> [skip; split] <;> simp [hire1, Hire.zero]

/-- `booked` 11 minutes after its hire opened, with a base charge of 30.00, more than the free 21.00 of its account. -/
def owing : State :=
  { booked with
    clock := { booked.clock with run := 61440 * 11 }, hires := booked.hires.set 0 { hire1 .opened with startTick := 0 }
    accounts := booked.accounts.set 0 { acct with deposit := 4100, holds := 4000, count := 2 }
    tariffs := base.tariffs.set 0 { tariff1 with baseCharge := 3000, cap := 0 } }
/-- R133, R157 to R159: a return that the free deposit pays in part: 21.00 taken, 9.00 owed, the account HELD, the reservation ended. -/
theorem test_returned :
    let t := owing.takeInsert 319 80003 15
    ((t.hire 0).cause, (t.hire 0).billed, (t.hire 0).charge, (t.hire 0).taken, (t.hire 0).added) = (.returned, 11, 3000, 2100, 900)
      ∧ ((t.account 0).deposit, (t.account 0).owed, (t.account 0).state, (t.account 0).holds) = (2000, 900, .held, 0)
      ∧ (t.hire 1).state = .free ∧ t.isPending .account = true ∧ t.log.writeCount = 1 ∧ t.mem.read8 0x30002 = 1 := by decide +kernel

end Sys2Proof.Tests
end

section
/-!
SUPPORT. The notice unit: the pending set (R14), the enable set and the interrupt line (R15), NOTICE_VECTOR (R16). The bits of a class and
the mask of the fifteen classes are stated once; each write and read of a register is an equation over them.
-/
namespace Sys2Proof.Machine

/-! ## Classes and their bits -/

/-- The class of an index, the inverse of `Notice.index` (section 1.7). -/
def Notice.ofIndex : Nat → Notice
  | 1 => .floor | 2 => .link | 3 => .fallback | 4 => .handover | 5 => .relief | 6 => .plan | 7 => .dock | 8 => .silent
  | 9 => .account | 10 => .log | 11 => .announce | 12 => .stray | 13 => .guard | 14 => .clock | _ => .order

@[simp] theorem Notice.ofIndex_index (c : Notice) : Notice.ofIndex c.index = c := by cases c <;> rfl

theorem Notice.index_ofIndex {i : Nat} (h1 : 1 ≤ i) (h2 : i < 16) : (Notice.ofIndex i).index = i := by
  have all : ∀ j : Fin 16, 1 ≤ j.val → (Notice.ofIndex j.val).index = j.val := by decide
  exact all ⟨i, h2⟩ h1

theorem Notice.index_inj {c d : Notice} : c.index = d.index ↔ c = d :=
  (Function.LeftInverse.injective Notice.ofIndex_index).eq_iff

theorem Notice.one_le_index (c : Notice) : 1 ≤ c.index := by cases c <;> decide

theorem Notice.index_lt (c : Notice) : c.index < 16 := by cases c <;> decide

@[simp] theorem Notice.getLsbD_bit (c : Notice) (i : Nat) : c.bit.getLsbD i = decide (c.index = i) := by
  have h : c.bit = BitVec.twoPow 16 c.index := rfl
  simp [h, c.index_lt]

/-- The mask that leaves bit 0 out keeps the bits of the fifteen classes. -/
theorem getLsbD_classMask (i : Nat) : (0xFFFE : Half).getLsbD i = (decide (1 ≤ i) && decide (i < 16)) := by
  by_cases h : i < 16
  · have all : ∀ j : Fin 16, (0xFFFE : Half).getLsbD j.val = (decide (1 ≤ j.val) && decide (j.val < 16)) := by decide
    exact all ⟨i, h⟩
  · rw [BitVec.getLsbD_of_ge _ _ (by omega)]
    simp [h]

/-- A halfword under that mask shows its own bits 1 to 15. -/
theorem getLsbD_and_classMask (x : Half) (i : Nat) :
    (x &&& 0xFFFE).getLsbD i = (decide (1 ≤ i) && x.getLsbD i) := by
  rw [BitVec.getLsbD_and, getLsbD_classMask]
  by_cases h : i < 16
  · simp [h, Bool.and_comm]
  · simp [h, BitVec.getLsbD_of_ge x i (by omega)]

/-! ## The pending set (R14) -/

section
variable (s : State)

/-- Raising adds its own class to the pending set and no other. -/
@[simp] theorem State.isPending_raise (c d : Notice) : (s.raise c).isPending d = (s.isPending d || c == d) := by
  have h : (s.raise c).isPending d = (s.notices.waiting ||| c.bit).getLsbD d.index := rfl
  rw [h, BitVec.getLsbD_or, Notice.getLsbD_bit, decide_eq_decide.mpr Notice.index_inj]
  rfl

/-- The bit of a pending class is in the set already. -/
theorem State.waiting_or_bit {c : Notice} (h : s.isPending c = true) : s.notices.waiting ||| c.bit = s.notices.waiting := by
  apply BitVec.eq_of_getLsbD_eq
  intro i _
  rw [BitVec.getLsbD_or, Notice.getLsbD_bit]
  by_cases hi : c.index = i
  · subst hi
    have hw : s.notices.waiting.getLsbD c.index = true := h
    simp [hw]
  · simp [hi]

theorem State.raise_of_isPending {c : Notice} (h : s.isPending c = true) : s.raise c = s := by
  unfold State.raise
  rw [s.waiting_or_bit h]

theorem exec_noticePendingWrite (v : Half) (e : ByteEnables) :
    exec (.noticePendingWrite v e) s = .next (s.clearPending v e) := rfl

theorem State.clearPending_of_not_both (v : Half) {e : ByteEnables} (h : e.both = false) : s.clearPending v e = s := by
  simp only [State.clearPending, h, Bool.false_eq_true, if_false]

theorem State.clearPending_of_both (v : Half) {e : ByteEnables} (h : e.both = true) :
    s.clearPending v e = { s with notices := { s.notices with waiting := s.notices.waiting &&& ~~~(v &&& 0xFFFE) } } := by
  simp only [State.clearPending, h, if_true]

/-- A clear reaches the pending set alone. -/
theorem State.clearPending_frame (v : Half) (e : ByteEnables) :
    s.clearPending v e = { s with notices := { s.notices with waiting := (s.clearPending v e).notices.waiting } } := by
  cases h : e.both with
  | false => rw [s.clearPending_of_not_both v h]
  | true => rw [s.clearPending_of_both v h]

theorem State.getLsbD_waiting_clearPending (v : Half) {e : ByteEnables} (h : e.both = true) (i : Nat) :
    (s.clearPending v e).notices.waiting.getLsbD i = (s.notices.waiting.getLsbD i && (i == 0 || !v.getLsbD i)) := by
  have cleared : (s.clearPending v e).notices.waiting = s.notices.waiting &&& ~~~(v &&& 0xFFFE) := by rw [s.clearPending_of_both v h]
  rw [cleared, BitVec.getLsbD_and, BitVec.getLsbD_not, getLsbD_and_classMask]
  by_cases hi : i < 16
  · cases i with
    | zero => simp
    | succ i => simp [hi]
  · simp [BitVec.getLsbD_of_ge s.notices.waiting i (by omega)]

theorem State.isPending_clearPending (v : Half) {e : ByteEnables} (h : e.both = true) (c : Notice) :
    (s.clearPending v e).isPending c = (s.isPending c && !v.getLsbD c.index) := by
  have hc : (c.index == 0) = false := by simpa using Nat.ne_of_gt c.one_le_index
  simp only [State.isPending, s.getLsbD_waiting_clearPending v h, hc, Bool.false_or]

/-- A read of the low half of NOTICE_PENDING returns the classes, a read of the high half 0. -/
theorem State.portRead_pending : s.portRead 4 = s.notices.waiting &&& 0xFFFE ∧ s.portRead 5 = 0 := ⟨rfl, rfl⟩

/-- The writes of the port registers that carry nothing: both halves of NOTICE_VECTOR, and the high halves of NOTICE_PENDING and of
NOTICE_ENABLE (R14 to R16). -/
theorem exec_ignoredRegisterWrite_notices {a : BitVec 17} (ha : a = 2 ∨ a = 3 ∨ a = 5 ∨ a = 7) (v : Half) (e : ByteEnables) :
    exec (.ignoredRegisterWrite a v e) s = .next s := by
  rcases ha with rfl | rfl | rfl | rfl <;> rfl

/-! ## The soft restart (R17, R20) -/

/-- A RESTART taken between orders: the entry to RESTARTING, then the orders in hand aborted. -/
theorem exec_restart_between_orders (h : s.part = .ready) :
    exec (.restart 1 ⟨true, true⟩ false) s = .next (s.enterRestarting.abortOrders none) := by
  have hr : s.restart 1 ⟨true, true⟩ false = s.beginRestart false := by simp [State.restart, h]
  exact congrArg Host.Outcome.next hr

theorem State.enterRestarting_notices :
    s.enterRestarting.notices = { s.notices with waiting := 0, enabled := 0, base := 0, stride := 0 } := rfl

/-- With no order in hand no ORDER notice is raised. -/
theorem State.abortOrders_notices_of_none (hq : s.orders.queue = []) (hs : s.orders.standing = []) :
    (s.abortOrders none).notices = s.notices := by
  simp [State.abortOrders, State.abortWorking, hq, hs]

/-- Aborting a standing order raises notices; it leaves the enable set. -/
theorem State.abortStanding_enabled (x : Standing) : (s.abortStanding x).notices.enabled = s.notices.enabled := by
  obtain ⟨slot, owner, clamped⟩ := x
  cases owner with
  | issue _ => rfl
  | handover _ => rfl

theorem State.abortWorking_enabled (w : Option (SlotId × Result)) :
    (s.abortWorking w).notices.enabled = s.notices.enabled := by
  cases w <;> rfl

theorem State.abortOrders_enabled (w : Option (SlotId × Result)) : (s.abortOrders w).notices.enabled = s.notices.enabled := by
  have standing := State.each_keeps (fun t => t.notices.enabled) (l := s.orders.standing)
    (fun t x _ => t.abortStanding_enabled x) (s.abortWorking w)
  have queued := State.each_keeps (fun t => t.notices.enabled) (l := s.orders.queue) (f := State.abortQueued) (fun _ _ _ => rfl)
    ((s.abortWorking w).each s.orders.standing State.abortStanding)
  exact queued.trans (standing.trans (s.abortWorking_enabled w))

/-! ## The enable set and the interrupt line (R15) -/

theorem exec_noticeEnableWrite (v : Half) (e : ByteEnables) :
    exec (.noticeEnableWrite v e) s = .next (s.setEnabled v e) := rfl

theorem State.setEnabled_of_not_both (v : Half) {e : ByteEnables} (h : e.both = false) : s.setEnabled v e = s := by
  simp only [State.setEnabled, h, Bool.false_eq_true, if_false]

theorem State.setEnabled_of_both (v : Half) {e : ByteEnables} (h : e.both = true) :
    s.setEnabled v e = { s with notices := { s.notices with enabled := v &&& 0xFFFE } } := by
  simp only [State.setEnabled, h, if_true]

theorem State.portRead_enable : s.portRead 6 = s.notices.enabled := rfl

theorem Notices.getLsbD_active (n : Notices) (i : Nat) :
    n.active.getLsbD i = (decide (1 ≤ i) && (n.waiting.getLsbD i && n.enabled.getLsbD i)) := by
  rw [Notices.active, getLsbD_and_classMask, BitVec.getLsbD_and]

/-- A class is active when it is both pending and enabled. -/
theorem State.getLsbD_active_index (c : Notice) :
    s.notices.active.getLsbD c.index = (s.isPending c && s.notices.enabled.getLsbD c.index) := by
  simp [Notices.getLsbD_active, c.one_le_index, State.isPending]

/-- A set bit of the active classes is the bit of a class. -/
theorem Notices.exists_index_of_active (n : Notices) {i : Nat} (h : n.active.getLsbD i = true) : ∃ c : Notice, c.index = i := by
  have low : 1 ≤ i := by
    rw [Notices.getLsbD_active, Bool.and_eq_true, decide_eq_true_eq] at h
    exact h.1
  exact ⟨_, Notice.index_ofIndex low (BitVec.lt_of_getLsbD h)⟩

theorem State.interruptLine_iff :
    s.interruptLine = true ↔ ∃ c : Notice, s.isPending c = true ∧ s.notices.enabled.getLsbD c.index = true := by
  simp only [← Bool.and_eq_true, ← State.getLsbD_active_index]
  constructor
  · intro h
    have nonzero : s.notices.active ≠ 0 := by simpa [State.interruptLine] using h
    obtain ⟨i, hi⟩ : ∃ i, s.notices.active.getLsbD i = true := by
      by_contra noBit
      exact nonzero (BitVec.eq_of_getLsbD_eq fun i _ => by simpa using not_exists.mp noBit i)
    obtain ⟨c, rfl⟩ := s.notices.exists_index_of_active hi
    exact ⟨c, hi⟩
  · rintro ⟨c, hc⟩
    have nonzero : s.notices.active ≠ 0 := fun zero => by simp [zero] at hc
    simpa [State.interruptLine] using nonzero

theorem State.interruptLine_of_none_enabled (h : s.notices.enabled = 0) : s.interruptLine = false := by
  simp [State.interruptLine, Notices.active, h]

end

/-! ## NOTICE_VECTOR (R16) -/

section
variable (n : Notices)

/-- The vector's index is the lowest of the active classes. -/
theorem Notices.vectorIndex_eq_of_lowest {i : Nat} (h1 : 1 ≤ i) (h2 : i ≤ 15) (active : n.active.getLsbD i = true)
    (lowest : ∀ j : Nat, 1 ≤ j → j < i → n.active.getLsbD j = false) : n.vectorIndex = i := by
  have found : (List.range' 1 15).find? (fun j => n.active.getLsbD j) = some i := by
    refine List.find?_range'_eq_some.mpr ⟨active, List.mem_range'_1.mpr ⟨h1, by omega⟩, fun j hj hji => ?_⟩
    simpa using lowest j hj hji
  rw [Notices.vectorIndex, found, Option.getD_some]

theorem Notices.vectorIndex_of_none_active (h : n.active = 0) : n.vectorIndex = 0 := by
  have notFound : (List.range' 1 15).find? (fun j => n.active.getLsbD j) = none := by simp [h]
  rw [Notices.vectorIndex, notFound, Option.getD_none]

theorem Notices.vectorIndex_lt : n.vectorIndex < 16 := by
  rw [Notices.vectorIndex]
  cases found : (List.range' 1 15).find? (fun j => n.active.getLsbD j) with
  | none => simp
  | some i =>
    have inRange := List.mem_range'_1.mp (List.mem_of_find?_eq_some found)
    rw [Option.getD_some]
    omega

/-- Base plus index shifted left by the stride, modulo 2^32. -/
theorem Notices.toNat_vector : n.vector.toNat = (n.base.toNat + n.vectorIndex * 2 ^ n.stride.toNat) % 2 ^ 32 := by
  have small : n.vectorIndex % 2 ^ 32 = n.vectorIndex := Nat.mod_eq_of_lt (by have := n.vectorIndex_lt; omega)
  rw [Notices.vector, BitVec.toNat_add, BitVec.toNat_shiftLeft, BitVec.toNat_ofNat, small, Nat.shiftLeft_eq, Nat.add_mod_mod]

theorem Notices.vectorIndex_of_active_eq_bit {c : Notice} (h : n.active = c.bit) : n.vectorIndex = c.index := by
  refine n.vectorIndex_eq_of_lowest c.one_le_index (Nat.le_of_lt_succ c.index_lt) ?_ fun j _ hj => ?_
  · simp [h]
  · simp [h, Nat.ne_of_gt hj]

end

theorem exec_noticeVectorLowRead (s : State) : exec .noticeVectorLowRead s = .next s.readVectorLow := rfl

theorem exec_noticeVectorHighRead (s : State) : exec .noticeVectorHighRead s = .next s.readVectorHigh := rfl

theorem State.readVectorHigh_of_some (s : State) {h : Half} (kept : s.notices.vectorHigh = some h) :
    s.readVectorHigh = { s with hostData := h, notices := { s.notices with vectorHigh := none } } := by
  rw [State.readVectorHigh, kept, Option.getD_some]

theorem State.readVectorHigh_of_none (s : State) (kept : s.notices.vectorHigh = none) :
    s.readVectorHigh = { s with
      hostData := s.notices.vector.extractLsb' 16 16, notices := { s.notices with vectorHigh := none } } := by
  rw [State.readVectorHigh, kept, Option.getD_none]

/-! ## The statements -/

/-- Settles O7: the writes, reads and raises by their equations, and a restart with no order in hand. -/
theorem noticePendingSet : Obligations.NoticePendingSet := by
  refine ⟨fun s c d => ⟨s.isPending_raise c d, s.raise_of_isPending⟩, fun s v e => ?write, fun s i => ?read,
    fun v e s => exec_ignoredRegisterWrite_notices s (by decide) v e, rfl, fun s ready hq hs => ?restart⟩
  case write =>
    refine ⟨s.clearPending v e, exec_noticePendingWrite s v e, s.clearPending_frame v e, s.getLsbD_waiting_clearPending v,
      s.clearPending_of_not_both v, fun c both hv => ⟨?_, ?_⟩⟩
    · simp [s.isPending_clearPending v both, hv]
    · simp
  case read =>
    obtain ⟨low, high⟩ := s.portRead_pending
    exact ⟨by rw [low, getLsbD_and_classMask], high⟩
  case restart =>
    refine ⟨_, exec_restart_between_orders s ready, ?_⟩
    rw [s.enterRestarting.abortOrders_notices_of_none hq hs, s.enterRestarting_notices]

/-- Settles O8: the line by the active classes, and a restart through the orders it aborts. -/
theorem noticeEnableAndLine : Obligations.NoticeEnableAndLine := by
  refine ⟨fun s v e both => ?_, fun s v e notBoth => ?_, fun v e s => exec_ignoredRegisterWrite_notices s (by decide) v e,
    State.portRead_enable, State.interruptLine_iff, rfl, fun s ready => ?restart⟩
  · rw [exec_noticeEnableWrite, s.setEnabled_of_both v both]
  · rw [exec_noticeEnableWrite, s.setEnabled_of_not_both v notBoth]
  case restart =>
    have disabled : (s.enterRestarting.abortOrders none).notices.enabled = 0 := by
      rw [State.abortOrders_enabled, State.enterRestarting_notices]
    exact ⟨_, exec_restart_between_orders s ready, disabled, State.interruptLine_of_none_enabled _ disabled⟩

/-- Settles O9: the index, the vector and the two reads by their equations; the manual's example by the value of the vector. -/
theorem noticeVectorReads : Obligations.NoticeVectorReads := by
  refine ⟨fun n => ⟨fun i h1 h2 => n.vectorIndex_eq_of_lowest h1 h2, n.vectorIndex_of_none_active, n.toNat_vector⟩,
    exec_noticeVectorLowRead, fun s h kept => ?_, fun s kept => ?_, fun a v e s ha => ?_,
    fun n base stride => ⟨fun only => ?_, fun idle => ?_⟩⟩
  · rw [exec_noticeVectorHighRead, s.readVectorHigh_of_some kept]
  · rw [exec_noticeVectorHighRead, s.readVectorHigh_of_none kept]
  · exact exec_ignoredRegisterWrite_notices s (ha.imp_right .inl) v e
  · apply BitVec.eq_of_toNat_eq
    rw [n.toNat_vector, n.vectorIndex_of_active_eq_bit only, base, stride]
    rfl
  · apply BitVec.eq_of_toNat_eq
    rw [n.toNat_vector, n.vectorIndex_of_none_active idle, base, stride]
    rfl

end Sys2Proof.Machine
end

section
/-!
SUPPORT. The charge of a hire (R156). The charge of a day is the cap over a base charge and a count of steps, which is the minutes past the
base divided by the step minutes and rounded up; the charge of a hire is whole days and a remainder. Every charge is at most the dearest
charge of a day's minute times the minutes, and the dearest tariff reaches that.
-/
namespace Sys2Proof.Machine

section
variable (x : Tariff)

/-! ## The charge of a day -/

/-- A day's charge `f` under the tariff's cap; a cap of 0 is none (R156). -/
def Tariff.capped (f : Nat) : Nat := if 0 < x.cap ∧ x.cap < f then x.cap else f

theorem Tariff.capped_le (f : Nat) : x.capped f ≤ f := by
  rw [Tariff.capped]
  split <;> omega

theorem Tariff.capped_of_no_cap (noCap : x.cap = 0) (f : Nat) : x.capped f = f := by simp [Tariff.capped, noCap]

theorem Tariff.day_of_le_base {m : Nat} (within : m ≤ x.baseMinutes) : x.day m = x.capped x.baseCharge := by
  simp only [Tariff.day, Tariff.capped, if_pos within]

/-- Past the base the steps are the minutes over it, divided by the step minutes and rounded up. -/
theorem Tariff.day_of_base_lt {m : Nat} (past : x.baseMinutes < m) :
    x.day m = x.capped (x.baseCharge + x.stepCharge * ((m - x.baseMinutes) ⌈/⌉ max 1 x.stepMinutes)) := by
  rw [Nat.ceilDiv_eq_add_pred_div, Nat.add_sub_assoc (le_max_left 1 x.stepMinutes)]
  simp only [Tariff.day, Tariff.capped, if_neg past.not_ge]

/-- A quotient rounded up is the one count of divisors that covers the dividend with less than a divisor to spare. -/
theorem ceilDiv_eq_of_lt_of_le {d step steps : Nat} (spare : step * steps < d + step) (covers : d ≤ step * steps) :
    d ⌈/⌉ step = steps := by
  rw [Nat.ceilDiv_eq_add_pred_div]
  apply Nat.div_eq_of_lt_le
  · rw [Nat.mul_comm]
    omega
  · rw [Nat.mul_comm, Nat.mul_add_one]
    omega

theorem ceilDiv_le_self {d step : Nat} (positive : 1 ≤ step) : d ⌈/⌉ step ≤ d :=
  (ceilDiv_le_iff_le_mul positive).mpr (Nat.le_mul_of_pos_left d positive)

/-- Past the base, by the number of steps that covers the rest of the minutes. -/
theorem Tariff.day_of_steps {m steps : Nat} (step : 1 ≤ x.stepMinutes) (past : x.baseMinutes < m)
    (spare : x.stepMinutes * steps < (m - x.baseMinutes) + x.stepMinutes) (covers : m - x.baseMinutes ≤ x.stepMinutes * steps) :
    x.day m = x.capped (x.baseCharge + x.stepCharge * steps) := by
  rw [x.day_of_base_lt past, max_eq_right step, ceilDiv_eq_of_lt_of_le spare covers]

/-- A tariff of single minutes without a cap charges one base minute and a step for each other. -/
theorem Tariff.day_of_minutes {m : Nat} (base : x.baseMinutes = 1) (step : x.stepMinutes = 1) (noCap : x.cap = 0) (past : 1 < m) :
    x.day m = x.baseCharge + x.stepCharge * (m - 1) := by
  rw [x.day_of_steps (steps := m - 1) (by omega) (by omega) (by rw [base, step]; omega) (by rw [base, step]; omega),
    x.capped_of_no_cap noCap]

/-! ## The charge of a hire -/

theorem Tariff.duration_of_le_grace {m : Nat} (within : m ≤ x.grace) : x.duration m = 0 := if_pos within

theorem Tariff.duration_of_grace_lt {m : Nat} (past : x.grace < m) :
    x.duration m = m / 1440 * x.day 1440 + (if 0 < m % 1440 then x.day (m % 1440) else 0) := if_neg past.not_ge

/-- Past the grace, `k` whole days and a remainder of `r` minutes. -/
theorem Tariff.duration_of_days {k r : Nat} (remainder : r < 1440) (past : x.grace < 1440 * k + r) :
    x.duration (1440 * k + r) = k * x.day 1440 + (if r = 0 then 0 else x.day r) := by
  have days : (1440 * k + r) / 1440 = k := by omega
  have rest : (1440 * k + r) % 1440 = r := by omega
  rw [x.duration_of_grace_lt past, days, rest]
  simp only [Nat.pos_iff_ne_zero, ite_not]

theorem Tariff.charge_lost (m : Nat) : x.charge m .lost = x.duration m + x.lossFee := rfl

theorem Tariff.charge_returned (m : Nat) : x.charge m .returned = x.duration m := rfl

/-! ## The bound -/

section
variable {c : Nat} (baseLe : x.baseCharge ≤ c) (stepLe : x.stepCharge ≤ c) (base : 1 ≤ x.baseMinutes)
include baseLe stepLe base

/-- With both charges at most `c` no minute of a day costs more than `c`: the base has a minute, and each step has one past it. -/
theorem Tariff.day_le {d : Nat} (minute : 1 ≤ d) : x.day d ≤ c * d := by
  by_cases within : d ≤ x.baseMinutes
  · calc x.day d ≤ x.baseCharge := x.day_of_le_base within ▸ x.capped_le _
      _ ≤ c * d := baseLe.trans (Nat.le_mul_of_pos_right c minute)
  · have stepsLe := ceilDiv_le_self (d := d - x.baseMinutes) (le_max_left 1 x.stepMinutes)
    rw [x.day_of_base_lt (not_le.mp within)]
    generalize (d - x.baseMinutes) ⌈/⌉ max 1 x.stepMinutes = steps at stepsLe ⊢
    calc x.capped (x.baseCharge + x.stepCharge * steps)
      _ ≤ x.baseCharge + x.stepCharge * steps := x.capped_le _
      _ ≤ c + c * steps := Nat.add_le_add baseLe (Nat.mul_le_mul_right steps stepLe)
      _ = c * (1 + steps) := by ring
      _ ≤ c * d := Nat.mul_le_mul_left c (by omega)

theorem Tariff.duration_le (m : Nat) : x.duration m ≤ c * m := by
  by_cases within : m ≤ x.grace
  · rw [x.duration_of_le_grace within]
    exact Nat.zero_le _
  · have dayLe := x.day_le baseLe stepLe base (d := 1440) (by decide)
    have restLe : (if 0 < m % 1440 then x.day (m % 1440) else 0) ≤ c * (m % 1440) := by
      split
      case isTrue rest => exact x.day_le baseLe stepLe base rest
      case isFalse => exact Nat.zero_le _
    rw [x.duration_of_grace_lt (not_le.mp within)]
    calc m / 1440 * x.day 1440 + (if 0 < m % 1440 then x.day (m % 1440) else 0)
      _ ≤ m / 1440 * (c * 1440) + c * (m % 1440) := Nat.add_le_add (Nat.mul_le_mul_left _ dayLe) restLe
      _ = c * (1440 * (m / 1440) + m % 1440) := by ring
      _ = c * m := by rw [Nat.div_add_mod]

theorem Tariff.charge_le (m : Nat) (cause : CloseCause) : x.charge m cause ≤ c * m + x.lossFee := by
  apply Nat.add_le_add (x.duration_le baseLe stepLe base m)
  split
  case isTrue => exact le_rfl
  case isFalse => exact Nat.zero_le _

end

end

/-! ## The statement -/

/-- Settles O51: a day by its steps, a hire by its days, the bound by the minutes, and the dearest tariff by its 45 days and 735 minutes. -/
theorem chargeOfAHire : Obligations.ChargeOfAHire := by
  refine ⟨fun x m steps _ _ step => ⟨x.day_of_le_base, fun past spare covers => ⟨fun base => ?fewSteps, ?bySteps⟩⟩,
    fun x k r cause remainder past => ?days, fun x m within => ?free, fun x m cause baseLe stepLe lossLe base minutes => ?bound,
    fun x grace base step baseCharge stepCharge noCap lossFee => ?dearest⟩
  case fewSteps =>
    have stepsLe : steps ≤ m - x.baseMinutes := ceilDiv_eq_of_lt_of_le spare covers ▸ ceilDiv_le_self step
    omega
  case bySteps => exact x.day_of_steps step past spare covers
  case days =>
    rw [← x.duration_of_days remainder past]
    cases cause <;> rfl
  case free =>
    rw [x.charge_returned, x.charge_lost, x.duration_of_le_grace within]
    exact ⟨rfl, Nat.zero_add _⟩
  case bound =>
    have chargeLe := x.charge_le baseLe stepLe base m cause
    exact ⟨fun d minute _ => x.day_le baseLe stepLe base minute, by omega⟩
  case dearest =>
    have fullDay : x.day 1440 = 94370400 := by rw [x.day_of_minutes base step noCap (by decide), baseCharge, stepCharge]
    have rest : x.day 735 = 48168225 := by rw [x.day_of_minutes base step noCap (by decide), baseCharge, stepCharge]
    have duration : x.duration 65535 = 4294836225 := by
      rw [x.duration_of_days (k := 45) (r := 735) (by decide) (by omega), fullDay, rest]
      rfl
    rw [x.charge_returned, x.charge_lost, duration, lossFee]
    exact ⟨rfl, fullDay, rest, rfl, rfl⟩

end Sys2Proof.Machine
end

section
/-!
SUPPORT. What one command can change. Every command answers a next state; the order rows are one shape, the slot at the head taken and its
work finished; and each command is held to a list of fields of State. A law of the device reads a few fields, and so is kept at once by every
command that changes none of them.
-/
namespace Sys2Proof.Machine

/-! ## One step -/

/-- The state a command answers. -/
def State.run (s : State) (i : Instr) : State :=
  match exec i s with
  | .next t => t
  | .fault _ | .refused _ => s

/-- No command stops the part (INVENTORY, Faults). -/
theorem exec_eq_run (i : Instr) (s : State) : exec i s = .next (s.run i) := by cases i <;> rfl

theorem State.run_eq {i : Instr} {s t : State} (h : exec i s = .next t) : s.run i = t := by
  rw [exec_eq_run] at h
  exact Host.Outcome.next.inj h

/-- A step idles on an empty queue and else runs the front command with the queue's rest (logs 1, 2). -/
theorem step_cases {s t : State} (h : step s = .next t) :
    (s.pending = [] ∧ t = s) ∨ ∃ (i : Instr) (rest : List Instr), s.pending = i :: rest ∧ t = ({ s with pending := rest } : State).run i := by
  unfold step at h
  split at h
  case h_1 idle => exact .inl ⟨idle, (Host.Outcome.next.inj h).symm⟩
  case h_2 i rest front => exact .inr ⟨i, rest, front, (State.run_eq h).symm⟩

/-! ## The order rows -/

/-- The row of an order works the slot at the head by its kind, or changes nothing (R7). -/
theorem State.run_order {i : Instr} (hi : i ∈ orderRows) (s : State) :
    s.run i = s ∨ ∃ (n : SlotId) (rest : List SlotId), s.part = .ready ∧ s.orders.queue = n :: rest
      ∧ s.run i = finishOrder n (orderWork s n (s.takeSlot n rest) n) := by
  have worked : ∀ (isMine : State → SlotId → Bool) (w : Work), (∀ n, isMine s n = true → w = orderWork s n) →
      s.runOrder isMine w = s ∨ ∃ (n : SlotId) (rest : List SlotId), s.part = .ready ∧ s.orders.queue = n :: rest
        ∧ s.runOrder isMine w = finishOrder n (orderWork s n (s.takeSlot n rest) n) := by
    intro isMine w mine
    unfold State.runOrder
    split
    · exact .inl rfl
    · rename_i n rest queue
      split
      · rename_i here
        exact .inr ⟨n, rest, here.1, queue, by rw [mine n here.2]⟩
      · exact .inl rfl
  have kind : ∀ (k : Nat) (w : Work), (∀ n, s.kindOf n = k → w = orderWork s n) → ∀ n, kindIs k s n = true → w = orderWork s n :=
    fun k w h n e => h n (by simpa [kindIs] using e)
  have named : ∀ (k : Nat) (w : Work), (∀ n, s.kindOf n = k → w = orderWork s n) →
      s.runOrder (kindIs k) w = s ∨ ∃ (n : SlotId) (rest : List SlotId), s.part = .ready ∧ s.orders.queue = n :: rest
        ∧ s.runOrder (kindIs k) w = finishOrder n (orderWork s n (s.takeSlot n rest) n) :=
    fun k w h => worked _ w (kind k w h)
  simp only [orderRows, List.mem_cons, List.not_mem_nil, or_false] at hi
  rcases hi with rfl | rfl | rfl | rfl | rfl | rfl | rfl | rfl | rfl | rfl | rfl | rfl | rfl | rfl | rfl | rfl | rfl | rfl | rfl | rfl
    | rfl | rfl | rfl | rfl | rfl | rfl
  case inl =>
    refine worked unknownKind workUnknown fun n e => ?_
    unfold orderWork
    simp only [unknownKind, Bool.or_eq_true, beq_iff_eq, decide_eq_true_eq] at e
    split <;> first | rfl | omega
  case inr.inr.inr.inr.inr.inl =>
    refine worked clearsLinks workClearLinks fun n e => ?_
    simp only [clearsLinks, Bool.and_eq_true, beq_iff_eq, bne_iff_ne] at e
    simp [orderWork, clearsDocks, e]
  case inr.inr.inr.inr.inr.inr.inl =>
    refine worked clearsDocks workClearDocks fun n e => ?_
    have k : s.kindOf n = 5 := by simp_all [clearsDocks]
    simp [orderWork, k, e]
  all_goals
    refine named _ _ fun n e => ?_
    simp only [orderWork, e]

/-! ## What the work of an order can change -/

/-- The work of each order kind (the table of order kinds); a kind outside the table is refused. -/
inductive OrderWork : Nat → Work → Prop
  | setNotice : OrderWork 1 workSetNotice
  | setTimers : OrderWork 2 workSetTimers
  | setLogPolicy : OrderWork 3 workSetLogPolicy
  | cancel : OrderWork 4 workCancel
  | clearDocks : OrderWork 5 workClearDocks
  | clearLinks : OrderWork 5 workClearLinks
  | setClock : OrderWork 6 workSetClock
  | boothDefine : OrderWork 7 workBoothDefine
  | linkHold : OrderWork 8 workLinkHold
  | linkRelease : OrderWork 9 workLinkRelease
  | boothIntake : OrderWork 10 workBoothIntake
  | seatAssign : OrderWork 11 workSeatAssign
  | channelDefine : OrderWork 12 workChannelDefine
  | channelClear : OrderWork 13 workChannelClear
  | handover : OrderWork 14 workHandover
  | setDistribution : OrderWork 15 workSetDistribution
  | issue : OrderWork 16 workIssue
  | declareLost : OrderWork 17 workDeclareLost
  | retireReceiver : OrderWork 18 workRetireReceiver
  | restoreReceiver : OrderWork 19 workRestoreReceiver
  | setTariff : OrderWork 20 workSetTariff
  | accountOpen : OrderWork 21 workAccountOpen
  | accountPay : OrderWork 22 workAccountPay
  | accountRefund : OrderWork 23 workAccountRefund
  | accountClose : OrderWork 24 workAccountClose
  | unknown (k : Nat) : OrderWork k workUnknown

theorem orderWork_kind (s : State) (n : SlotId) : OrderWork (s.kindOf n) (orderWork s n) := by
  unfold orderWork
  generalize clears : (if clearsDocks s n = true then workClearDocks else workClearLinks) = w
  split
  case h_5 e =>
    rw [← clears, e]
    split
    · exact .clearDocks
    · exact .clearLinks
  case h_25 => exact .unknown _
  all_goals
    rename_i e
    rw [e]
    constructor

/-- The fields that the work of an order kind can change; those of the order's own slot are not among them. -/
def kindTouches : Nat → List StateField
  | 1 => [.notices, .header]
  | 2 => [.timers, .header, .positions]
  | 3 => [.header, .notices, .mem, .log, .booths, .receivers, .hires]
  | 4 => [.mem, .orders, .notices, .positions, .presets, .receivers, .hires, .accounts, .channels, .booths]
  | 5 => [.positions, .booths]
  | 6 => [.clock, .header, .hires, .booths, .mem, .orders, .notices, .channels]
  | 7 | 9 | 10 => [.booths]
  | 8 => [.header, .notices, .mem, .log, .booths, .inner, .channels]
  | 11 => [.header, .notices, .mem, .log, .booths]
  | 12 => [.booths, .channels, .framer]
  | 13 => [.mem, .orders, .notices, .booths, .channels, .framer]
  | 14 => [.mem, .orders, .notices, .channels, .booths]
  | 15 => [.framer, .channels]
  | 16 => [.mem, .orders, .positions, .presets, .receivers, .hires, .nextHire, .accounts]
  | 17 => [.header, .log, .mem, .orders, .notices, .positions, .presets, .receivers, .hires, .accounts]
  | 18 | 19 => [.receivers, .positions]
  | 20 => [.tariffs]
  | 21 | 22 | 23 => [.accounts]
  | 24 => [.accounts, .header, .notices, .mem, .log]
  | _ => []

section
variable (s : State) (n : SlotId)

theorem refuse_only (r : Reason) (l : List StateField) : s.onlyIn l (refuse s r).1 := s.onlyIn_refl l

/-- An order's work that ends with a result. -/
theorem workDone_only {s u : State} {l : List StateField} (h : s.onlyIn l u) {r : Option Result} : s.onlyIn l (u, r).1 := h

theorem workSetNotice_only : s.onlyIn [.notices, .header] (workSetNotice s n).1 :=
  ((State.notices_only s _).sub (by decide)).next (State.bumpHeader_only _) (by decide)

theorem workSetTimers_only : s.onlyIn [.timers, .header, .positions] (workSetTimers s n).1 :=
  (((State.timers_only s _).sub (by decide)).next (State.bumpHeader_only _) (by decide)).next (State.relampCharged_only _) (by decide)

theorem workSetLogPolicy_only : s.onlyIn [.header, .notices, .mem, .log, .booths, .receivers, .hires] (workSetLogPolicy s n).1 := by
  have set (p : LogPolicy) : s.onlyIn [.header, .notices, .mem, .log, .booths, .receivers, .hires]
      ({ s with log := { s.log with policy := p } } : State).bumpHeader :=
    ((State.log_only s _).sub (by decide)).next (State.bumpHeader_only _) (by decide)
  unfold workSetLogPolicy
  split
  · split
    · exact s.onlyIn_refl _
    · exact ((set _).next (State.drain_only _) (by decide)).either (set _)
  · exact refuse_only s _ _

theorem State.cancelHandover_only (c : ChannelId) :
    s.onlyIn [.mem, .orders, .notices, .channels, .booths] (s.cancelHandover c) :=
  ((State.endSchedule_only s c _ _ _ _).sub (by decide)).next (State.settleChannel_only _ s c) (by decide)

theorem workCancel_only :
    s.onlyIn [.mem, .orders, .notices, .positions, .presets, .receivers, .hires, .accounts, .channels, .booths] (workCancel s n).1 := by
  unfold workCancel
  split
  · split
    · rename_i t _ u _
      cases hu : u.owner with
      | issue h => simpa only [State.cancelStanding, hu] using (State.endReservation_only s h _ _).sub (by decide)
      | handover c => simpa only [State.cancelStanding, hu] using (s.cancelHandover_only c).sub (by decide)
    · split
      · exact ((State.orders_only s _).sub (by decide)).next (State.complete_only _ _ _) (by decide)
      · exact refuse_only s _ _
  · exact refuse_only s _ _

theorem State.clearRack_only (r : RackId) : s.onlyIn [.positions] (s.clearRack r) :=
  State.each_only (fun t p _ => State.writePosition_only t p _) s

theorem State.clearBooth_only (b : BoothId) : s.onlyIn [.booths] (s.clearBooth b) :=
  (State.writeBooth_only s b _).seq (State.writeBooth_only _ b _)

theorem workClearDocks_only : s.onlyIn [.positions] (workClearDocks s n).1 := by
  unfold workClearDocks
  split
  · exact State.each_only (fun t r _ => t.clearRack_only r) s
  · split
    · exact s.clearRack_only _
    · exact refuse_only s _ _

theorem workClearLinks_only : s.onlyIn [.booths] (workClearLinks s n).1 := by
  unfold workClearLinks
  split
  · exact refuse_only s _ _
  · split
    · exact State.each_only (fun t b _ => t.clearBooth_only b) s
    · split
      · exact s.clearBooth_only _
      · exact refuse_only s _ _

theorem State.markClockSet_only : s.onlyIn [.hires, .booths] s.markClockSet :=
  ((State.each_only (fun t h _ => State.writeHire_only t h _) s).sub (by decide)).next
    (State.each_only (fun t b _ => State.rewriteBooth_only t b _) _) (by decide)

theorem State.compareSchedules_only : s.onlyIn [.mem, .orders, .notices, .channels, .booths] s.compareSchedules :=
  State.each_only (fun t c _ => ((State.compareSchedule_only t c).sub (by decide)).next (State.settleChannel_only _ t c) (by decide)) s

theorem workSetClock_only :
    s.onlyIn [.clock, .header, .hires, .booths, .mem, .orders, .notices, .channels] (workSetClock s n).1 := by
  have set (k : Nat) : s.onlyIn [.clock, .header, .hires, .booths, .mem, .orders, .notices, .channels] (s.setCalendar k) :=
    (State.clock_only s _).sub (by decide)
  exact State.onlyIn.next (State.onlyIn.either ((((set _).next (State.markClockSet_only _) (by decide)).next
    (State.compareSchedules_only _) (by decide)).next (State.raise_only _ _) (by decide)) (set _)) (State.snapshot_only _) (by decide)

theorem workBoothDefine_only : s.onlyIn [.booths] (workBoothDefine s n).1 := by
  unfold workBoothDefine
  split
  · split
    · exact refuse_only s _ _
    · exact workDone_only (State.writeBooth_only s _ _)
  · exact refuse_only s _ _

theorem workLinkHold_only : s.onlyIn [.header, .notices, .mem, .log, .booths, .inner, .channels] (workLinkHold s n).1 := by
  unfold workLinkHold
  split
  · dsimp only
    split
    · exact s.onlyIn_refl _
    · exact ((State.updLink_only s _ _).sub (by decide)).seq (State.leave_only _ s _)
  · exact refuse_only s _ _

theorem workLinkRelease_only : s.onlyIn [.booths] (workLinkRelease s n).1 := by
  unfold workLinkRelease
  split
  · split
    · exact refuse_only s _ _
    · split
      · exact refuse_only s _ _
      · exact workDone_only (State.writeBooth_only s _ _)
  · exact refuse_only s _ _

theorem workBoothIntake_only : s.onlyIn [.booths] (workBoothIntake s n).1 := by
  unfold workBoothIntake
  split
  · dsimp only
    split
    · exact refuse_only s _ _
    · split
      · exact s.onlyIn_refl _
      · split
        · exact refuse_only s _ _
        · exact workDone_only (State.writeBooth_only s _ _)
  · exact refuse_only s _ _

theorem State.seat_only (b : BoothId) (k : ConsoleId) (who : BitVec 24) :
    s.onlyIn [.header, .notices, .mem, .log, .booths] (s.seat b k who) := by
  have ended : s.onlyIn [.header, .notices, .mem, .log, .booths]
      ((s.endTurn b k .seat).updConsole b k (fun c => { c with interpreter := who })) :=
    (State.endTurn_only s b k _).next (State.updConsole_only _ b k _) (by decide)
  exact ((State.onlyIn.either (ended.next (State.updConsole_only _ b k _) (by decide)) ended).next (State.relight_only _ b)
    (by decide)).next (State.closeBooth_only _ s b) (by decide)

theorem workSeatAssign_only : s.onlyIn [.header, .notices, .mem, .log, .booths] (workSeatAssign s n).1 := by
  unfold workSeatAssign
  split
  · dsimp only
    split
    · exact refuse_only s _ _
    · split
      · exact refuse_only s _ _
      · split
        · exact s.onlyIn_refl _
        · exact s.seat_only _ _ _
  · exact refuse_only s _ _

theorem workChannelDefine_only : s.onlyIn [.booths, .channels, .framer] (workChannelDefine s n).1 := by
  unfold workChannelDefine
  split
  · split
    · exact refuse_only s _ _
    · split
      · exact refuse_only s _ _
      · split
        · exact refuse_only s _ _
        · split
          · exact refuse_only s _ _
          · exact State.defineChannel_only s _ _
  · exact refuse_only s _ _

theorem workChannelClear_only : s.onlyIn [.mem, .orders, .notices, .booths, .channels, .framer] (workChannelClear s n).1 := by
  unfold workChannelClear
  split
  · split
    · exact refuse_only s _ _
    · split
      · exact s.onlyIn_refl _
      · exact State.clearChannel_only s _
  · exact refuse_only s _ _

theorem workHandover_only : s.onlyIn [.mem, .orders, .notices, .channels, .booths] (workHandover s n).1 := by
  unfold workHandover
  split
  · dsimp only
    split
    · exact s.onlyIn_refl _
    · split
      · exact s.onlyIn_refl _
      · split
        · exact s.onlyIn_refl _
        · split
          · exact s.onlyIn_refl _
          · exact State.schedule_only s _ _ _ _ _
  · exact s.onlyIn_refl _
  · exact refuse_only s _ _

theorem workSetDistribution_only : s.onlyIn [.framer, .channels] (workSetDistribution s n).1 := by
  unfold workSetDistribution
  split
  · dsimp only
    split
    · exact s.onlyIn_refl _
    · exact (((State.framer_only s _).sub (by decide)).next (State.writeChannel_only _ 0 _) (by decide)).next
        (State.stagePlan_only _) (by decide)
  · exact refuse_only s _ _

theorem State.issue_only (p : IssueParams) (h : HireId) (e : RecvId) :
    s.onlyIn [.mem, .orders, .positions, .presets, .receivers, .hires, .nextHire, .accounts] (s.issue n p h e).1 := by
  unfold State.issue
  dsimp only
  split
  · exact (State.adopt_only s h _ _).sub (by decide)
  · exact (State.reserve_only s n h _ _ _).sub (by decide)

theorem workIssue_only :
    s.onlyIn [.mem, .orders, .positions, .presets, .receivers, .hires, .nextHire, .accounts] (workIssue s n).1 := by
  unfold workIssue
  split
  · exact refuse_only s _ _
  · dsimp only
    repeat' split
    all_goals first | exact refuse_only s _ _ | exact s.issue_only n _ _ _

theorem workDeclareLost_only :
    s.onlyIn [.header, .log, .mem, .orders, .notices, .positions, .presets, .receivers, .hires, .accounts] (workDeclareLost s n).1 := by
  unfold workDeclareLost
  dsimp only
  split
  · exact refuse_only s _ _
  · split
    · exact refuse_only s _ _
    · split
      · exact refuse_only s _ _
      · exact workDone_only (State.declareLost_only s _)

theorem workRetireReceiver_only : s.onlyIn [.receivers, .positions] (workRetireReceiver s n).1 := by
  unfold workRetireReceiver
  split
  · exact refuse_only s _ _
  · split
    · exact refuse_only s _ _
    · dsimp only
      split
      · exact refuse_only s _ _
      · exact ((State.writeReceiver_only s _ _).sub (by decide)).next (State.relampHolder_only _ _) (by decide)

theorem workRestoreReceiver_only : s.onlyIn [.receivers, .positions] (workRestoreReceiver s n).1 := by
  unfold workRestoreReceiver
  split
  · exact refuse_only s _ _
  · split
    · exact refuse_only s _ _
    · dsimp only
      split
      · exact refuse_only s _ _
      · exact ((State.writeReceiver_only s _ _).sub (by decide)).next (State.relampHolder_only _ _) (by decide)

theorem workSetTariff_only : s.onlyIn [.tariffs] (workSetTariff s n).1 := by
  unfold workSetTariff
  split
  · exact workDone_only (State.writeTariff_only s _ _)
  · exact refuse_only s _ _

theorem workAccountOpen_only : s.onlyIn [.accounts] (workAccountOpen s n).1 := by
  unfold workAccountOpen
  split
  · dsimp only
    split
    · exact refuse_only s _ _
    · exact workDone_only (State.writeAccount_only s _ _)
  · exact refuse_only s _ _

theorem workAccountPay_only : s.onlyIn [.accounts] (workAccountPay s n).1 := by
  unfold workAccountPay
  split
  · dsimp only
    split
    · exact refuse_only s _ _
    · exact workDone_only (State.rewriteAccount_only s _ _)
  · exact refuse_only s _ _

theorem workAccountRefund_only : s.onlyIn [.accounts] (workAccountRefund s n).1 := by
  unfold workAccountRefund
  split
  · dsimp only
    split
    · exact refuse_only s _ _
    · split
      · exact refuse_only s _ _
      · exact workDone_only (State.rewriteAccount_only s _ _)
  · exact refuse_only s _ _

theorem workAccountClose_only : s.onlyIn [.accounts, .header, .notices, .mem, .log] (workAccountClose s n).1 := by
  unfold workAccountClose
  split
  · dsimp only
    split
    · exact refuse_only s _ _
    · split
      · exact refuse_only s _ _
      · split
        · exact refuse_only s _ _
        · exact ((State.writeAccount_only s _ _).sub (by decide)).next (State.writeTally_only _ _) (by decide)
  · exact refuse_only s _ _

end

theorem OrderWork.only {k : Nat} {w : Work} (h : OrderWork k w) (s : State) (n : SlotId) : s.onlyIn (kindTouches k) (w s n).1 := by
  cases h with
  | clearDocks => exact (workClearDocks_only s n).sub (by decide)
  | clearLinks => exact (workClearLinks_only s n).sub (by decide)
  | unknown => exact refuse_only s _ _
  | setNotice => exact workSetNotice_only s n
  | setTimers => exact workSetTimers_only s n
  | setLogPolicy => exact workSetLogPolicy_only s n
  | cancel => exact workCancel_only s n
  | setClock => exact workSetClock_only s n
  | boothDefine => exact workBoothDefine_only s n
  | linkHold => exact workLinkHold_only s n
  | linkRelease => exact workLinkRelease_only s n
  | boothIntake => exact workBoothIntake_only s n
  | seatAssign => exact workSeatAssign_only s n
  | channelDefine => exact workChannelDefine_only s n
  | channelClear => exact workChannelClear_only s n
  | handover => exact workHandover_only s n
  | setDistribution => exact workSetDistribution_only s n
  | issue => exact workIssue_only s n
  | declareLost => exact workDeclareLost_only s n
  | retireReceiver => exact workRetireReceiver_only s n
  | restoreReceiver => exact workRestoreReceiver_only s n
  | setTariff => exact workSetTariff_only s n
  | accountOpen => exact workAccountOpen_only s n
  | accountPay => exact workAccountPay_only s n
  | accountRefund => exact workAccountRefund_only s n
  | accountClose => exact workAccountClose_only s n

theorem finishOrder_only (n : SlotId) (w : State × Option Result) : w.1.onlyIn [.mem, .notices] (finishOrder n w) := by
  unfold finishOrder
  split
  · exact State.complete_only _ _ _
  · exact State.onlyIn_refl _ _

end Sys2Proof.Machine
end

section
/-!
SUPPORT. What every command that is no order can change, and how a law of the device is carried over a step: a law reads some fields, and a
command that changes none of them keeps it.
-/
namespace Sys2Proof.Machine

/-! ## What a command can change -/

/-- Every field of State. -/
def StateField.all : List StateField :=
  [.part, .resetLow, .hostData, .header, .timers, .notices, .clock, .orders, .mem, .log, .booths, .inner, .down, .channels, .audio, .floor,
   .framer, .positions, .presets, .racks, .bus, .receivers, .hires, .nextHire, .accounts, .tariffs, .beacons, .draws, .pending]

theorem StateField.mem_all (f : StateField) : f ∈ StateField.all := by cases f <;> decide

/-- The fields of a hire's closing and of what may come with it at a dock. -/
def dockTouches : List StateField :=
  [.header, .log, .mem, .orders, .notices, .positions, .presets, .receivers, .hires, .accounts]

/-- The fields a command can change. The order rows are held by the kind of their order, the three commands of a restart by themselves. -/
def commandTouches : Instr → List StateField
  | .resetAssert => [.part, .resetLow, .header, .notices, .clock, .down, .framer]
  | .resetRelease => [.resetLow, .clock, .framer]
  | .exchangeWrite .. | .holderWordWrite .. | .logReadCountWrite .. => [.header, .notices, .mem, .log, .booths, .receivers, .hires]
  | .post .. => [.header, .notices, .mem, .orders]
  | .noticePendingWrite .. | .noticeEnableWrite .. => [.notices]
  | .noticeVectorLowRead | .noticeVectorHighRead => [.hostData, .notices]
  | .frameBoundary => [.header, .notices, .mem, .orders, .log, .booths, .inner, .channels, .down, .audio, .floor, .framer, .draws]
  | .superframeBoundary => [.framer, .channels, .notices]
  | .audioFrame .. | .announceFrame .. | .missingMarker .. => [.header, .notices, .mem, .log, .booths, .inner, .channels]
  | .micOn .. | .micOff .. | .offer .. | .accept .. | .consoleCancel .. | .offerOut .. => [.booths, .inner, .channels]
  | .busyDeadlineExpiry .. | .offerDeadlineExpiry .. => [.booths]
  | .gapDeadlineExpiry .. => [.header, .notices, .mem, .log, .booths]
  | .outgoingOfferLapse .. | .warningReached .. => [.booths, .channels]
  | .targetReached .. | .waitDeadlineExpiry .. => [.mem, .orders, .notices, .booths, .channels]
  | .floorFrame .. => [.floor, .channels, .notices]
  | .pollSend => [.bus, .presets]
  | .rackAnswer .. | .inventoryAnswer .. | .answerWindowExpiry => .racks :: .bus :: dockTouches
  | .settleDeadlineExpiry .. => [.mem, .orders, .notices, .positions, .presets, .receivers, .hires]
  | .reserveDeadlineExpiry .. => [.mem, .orders, .notices, .positions, .presets, .receivers, .hires, .accounts]
  | .beacon .. => [.header, .notices, .mem, .log, .receivers, .beacons]
  | .censusMark => [.clock, .header, .notices, .channels, .receivers, .beacons, .framer]
  | .runCounterTick => [.clock, .draws]
  | .startupComplete | .softRestartComplete | .restart .. | .ignoredRegisterWrite .. | .unknownOrder | .setNotice | .setTimers
  | .setLogPolicy | .cancel | .clearCountsLinks | .clearCountsDocks | .setClock | .boothDefine | .linkHold | .linkRelease | .boothIntake
  | .seatAssign | .channelDefine | .channelClear | .handover | .setDistribution | .issue | .declareLost | .retireReceiver
  | .restoreReceiver | .setTariff | .accountOpen | .accountPay | .accountRefund | .accountClose => StateField.all

section
variable (s : State)

theorem State.all_only (t : State) : s.onlyIn StateField.all t := fun f h => absurd f.mem_all h

theorem State.assertReset_only : s.onlyIn [.part, .resetLow, .header, .notices, .clock, .down, .framer] s.assertReset := by
  intro f hf; cases f <;> first | exact absurd (by decide) hf | rfl

theorem State.releaseReset_only : s.onlyIn [.resetLow, .clock, .framer] s.releaseReset := by
  unfold State.releaseReset
  refine State.onlyIn.either ?_ (s.onlyIn_refl _)
  intro f hf; cases f <;> first | exact absurd (by decide) hf | rfl

theorem State.writeHolder_only (n : SlotId) (v : Half) (e : ByteEnables) : s.onlyIn [.header, .notices, .mem] (s.writeHolder n v e) :=
  State.onlyIn.either ((State.setHolder_only s n _).sub (by decide))
    (State.onlyIn.either ((State.setHolder_only s n _).sub (by decide)) ((State.guardHit_only s).sub (by decide)))

theorem State.writeSlot_only (n : SlotId) (k : Nat) (v : Half) (e : ByteEnables) :
    s.onlyIn [.header, .notices, .mem] (s.writeSlot n k v e) :=
  State.onlyIn.either (s.writeHolder_only n v e)
    (State.onlyIn.either ((State.mem_only s _).sub (by decide)) ((State.guardHit_only s).sub (by decide)))

theorem State.writeReadCount_only (v : Half) (e : ByteEnables) :
    s.onlyIn [.header, .notices, .mem, .log, .booths, .receivers, .hires] (s.writeReadCount v e) :=
  State.onlyIn.either (State.onlyIn.either (s.onlyIn_refl _) (((State.mem_only s _).sub (by decide)).next (State.drain_only _) (by decide)))
    ((State.guardHit_only s).sub (by decide))

theorem State.hostWrite_only (o : Nat) (v : Half) (e : ByteEnables) :
    s.onlyIn [.header, .notices, .mem, .log, .booths, .receivers, .hires] (s.hostWrite o v e) := by
  unfold State.hostWrite
  refine State.onlyIn.either (s.onlyIn_refl _) (State.onlyIn.either (s.writeReadCount_only v e)
    (State.onlyIn.either ((State.mem_only s _).sub (by decide)) ?_))
  split
  · exact (s.writeSlot_only _ _ v e).sub (by decide)
  · exact (State.guardHit_only s).sub (by decide)

theorem State.post_only (v : Half) (e : ByteEnables) : s.onlyIn [.header, .notices, .mem, .orders] (s.post v e) := by
  have refused := (State.postRefusal_only s).sub (k := [.header, .notices, .mem, .orders]) (by decide)
  unfold State.post
  refine State.onlyIn.either (s.onlyIn_refl _) ?_
  split
  · refine State.onlyIn.either ?_ refused
    exact ((State.setHolder_only s _ _).sub (by decide)).next (State.orders_only _ _) (by decide)
  · exact refused

theorem State.clearPending_only (v : Half) (e : ByteEnables) : s.onlyIn [.notices] (s.clearPending v e) :=
  State.onlyIn.either (State.notices_only s _) (s.onlyIn_refl _)

theorem State.setEnabled_only (v : Half) (e : ByteEnables) : s.onlyIn [.notices] (s.setEnabled v e) :=
  State.onlyIn.either (State.notices_only s _) (s.onlyIn_refl _)

theorem State.readVectorLow_only : s.onlyIn [.hostData, .notices] s.readVectorLow := by
  intro f hf; cases f <;> first | exact absurd (by decide) hf | rfl

theorem State.readVectorHigh_only : s.onlyIn [.hostData, .notices] s.readVectorHigh := by
  intro f hf; cases f <;> first | exact absurd (by decide) hf | rfl

theorem State.frameBoundary_only : s.onlyIn (commandTouches .frameBoundary) s.frameBoundary := by
  have counted : s.onlyIn (commandTouches .frameBoundary) s.countFrame := (State.countFrame_only s).sub (by decide)
  unfold State.frameBoundary
  split
  · exact counted.next (State.workBoundary_only _) (by decide)
  · exact (counted.next (State.sendFrames_only _) (by decide)).next (State.sendDist_only _) (by decide)
  · exact State.onlyIn.either (s.onlyIn_refl _) counted

theorem State.superframe_only : s.onlyIn [.framer, .channels, .notices] s.superframe := by
  have passed : s.onlyIn [.framer, .channels, .notices] { s with framer := { s.framer with due := false } } :=
    (State.framer_only s _).sub (by decide)
  unfold State.superframe
  refine State.onlyIn.either (s.onlyIn_refl _) ?_
  dsimp only
  split
  · exact State.workSuperframe_only s
  · exact passed.next (State.sendDist_only _) (by decide)
  · exact passed

theorem State.lose_only (o : State) (b : BoothId) :
    s.onlyIn [.header, .notices, .mem, .log, .booths, .inner, .channels] (s.lose o b) :=
  (((State.updLink_only s b _).sub (by decide)).next (State.leave_only _ o b) (by decide)).next (State.raise_only _ _) (by decide)

theorem State.missMarker_only (b : BoothId) :
    s.onlyIn [.header, .notices, .mem, .log, .booths, .inner, .channels] (s.missMarker b) := by
  have counted (g : LinkFields → LinkFields) : s.onlyIn [.header, .notices, .mem, .log, .booths, .inner, .channels] (s.updLink b g) :=
    (State.updLink_only s b g).sub (by decide)
  unfold State.missMarker
  refine State.onlyIn.either (s.onlyIn_refl _) ?_
  split
  · exact s.onlyIn_refl _
  · exact (counted _).next (State.closeBooth_only _ s b) (by decide)
  · exact State.onlyIn.either ((counted _).seq (State.lose_only _ s b)) ((counted _).next (State.closeBooth_only _ s b) (by decide))
  · exact State.onlyIn.either ((counted _).seq (State.lose_only _ s b)) ((counted _).next (State.closeBooth_only _ s b) (by decide))
  · exact State.onlyIn.either ((counted _).seq (State.lose_only _ s b))
      (((counted _).next (State.handReplacement_only _ b) (by decide)).next (State.closeBooth_only _ s b) (by decide))

theorem State.degrade_only (b : BoothId) : s.onlyIn [.header, .notices, .mem, .log, .booths, .inner, .channels] (s.degrade b) :=
  (((State.updLink_only s b _).sub (by decide)).next (State.leave_only _ s b) (by decide)).next (State.raise_only _ _) (by decide)

theorem State.takeLiveFrame_only (b : BoothId) (a : AudioFrame) :
    s.onlyIn [.header, .notices, .mem, .log, .booths, .inner, .channels] (s.takeLiveFrame b a) := by
  unfold State.takeLiveFrame
  extract_lets masking s1 s2 s3
  have counted : s.onlyIn [.header, .notices, .mem, .log, .booths, .inner, .channels] s1 := (State.updLink_only s b _).sub (by decide)
  have handed : s.onlyIn [.header, .notices, .mem, .log, .booths, .inner, .channels] s2 :=
    (counted.next (State.handReplacement_only s1 b) (by decide)).either (counted.next (State.handGood_only s1 b _) (by decide))
  have worked : s.onlyIn [.header, .notices, .mem, .log, .booths, .inner, .channels] s3 := by
    show s.onlyIn _ (match delivery masking a with
      | none => s2.closeBooth s b
      | some none => (s2.dropEvent b).closeBooth s b
      | some (some (k, n)) => (s2.closeBooth s b).takeEvent b k n)
    split
    · exact handed.next (State.closeBooth_only s2 s b) (by decide)
    · exact (handed.next (State.dropEvent_only s2 b) (by decide)).next (State.closeBooth_only _ s b) (by decide)
    · exact (handed.next (State.closeBooth_only s2 s b) (by decide)).next (State.takeEvent_only _ b _ _) (by decide)
  exact (worked.seq (State.degrade_only s3 b)).either worked

theorem State.takeAudioFrame_only (b : BoothId) (a : AudioFrame) :
    s.onlyIn [.header, .notices, .mem, .log, .booths, .inner, .channels] (s.takeAudioFrame b a) := by
  have closed (g : LinkFields → LinkFields) :
      s.onlyIn [.header, .notices, .mem, .log, .booths, .inner, .channels] ((s.updLink b g).closeBooth s b) :=
    ((State.updLink_only s b g).sub (by decide)).next (State.closeBooth_only _ s b) (by decide)
  unfold State.takeAudioFrame
  refine State.onlyIn.either (s.onlyIn_refl _) ?_
  split
  · exact s.onlyIn_refl _
  · exact closed _
  · exact closed _
  · exact closed _
  · exact s.takeLiveFrame_only b a

theorem State.badAnnounce_only (o : State) (b : BoothId) :
    s.onlyIn [.header, .notices, .mem, .log, .booths, .inner, .channels] (s.badAnnounce o b) := by
  have counted (g : LinkFields → LinkFields) : s.onlyIn [.header, .notices, .mem, .log, .booths, .inner, .channels] (s.updLink b g) :=
    (State.updLink_only s b g).sub (by decide)
  unfold State.badAnnounce
  exact State.onlyIn.either ((((counted _).next (State.updLink_only _ b _) (by decide)).next (State.leave_only _ o b) (by decide)).next
    (State.raise_only _ _) (by decide)) ((counted _).next (State.closeBooth_only _ o b) (by decide))

theorem State.enterMismatch_only (o : State) (b : BoothId) :
    s.onlyIn [.header, .notices, .mem, .log, .booths, .inner, .channels] (s.enterMismatch o b) :=
  (((State.updLink_only s b _).sub (by decide)).next (State.leave_only _ o b) (by decide)).next (State.raise_only _ _) (by decide)

theorem State.goodAnnounce_only (o : State) (b : BoothId) (r : MismatchReason) :
    s.onlyIn [.header, .notices, .mem, .log, .booths, .inner, .channels] (s.goodAnnounce o b r) := by
  unfold State.goodAnnounce
  split
  · exact (State.closeBooth_only s o b).sub (by decide)
  · exact (State.enterLive_only s o b).sub (by decide)
  · exact (State.closeBooth_only s o b).sub (by decide)
  · exact s.enterMismatch_only o b

theorem State.checkAnnounce_only (b : BoothId) (f : AnnounceFrame) :
    s.onlyIn [.header, .notices, .mem, .log, .booths, .inner, .channels] (s.checkAnnounce b f) := by
  unfold State.checkAnnounce
  extract_lets d s1 s2 reason
  have counted : s.onlyIn [.header, .notices, .mem, .log, .booths, .inner, .channels] s1 := (State.updLink_only s b _).sub (by decide)
  have handed : s.onlyIn [.header, .notices, .mem, .log, .booths, .inner, .channels] s2 :=
    (counted.next (State.handReplacement_only s1 b) (by decide)).either counted
  exact State.onlyIn.either ((handed.next (State.updLink_only s2 b _) (by decide)).next (State.goodAnnounce_only _ s b _) (by decide))
    (handed.seq (State.badAnnounce_only s2 s b))

theorem State.takeAnnounce_only (b : BoothId) (f : AnnounceFrame) :
    s.onlyIn [.header, .notices, .mem, .log, .booths, .inner, .channels] (s.takeAnnounce b f) := by
  unfold State.takeAnnounce
  refine State.onlyIn.either (s.onlyIn_refl _) ?_
  split
  · exact s.onlyIn_refl _
  · exact ((State.updLink_only s b _).sub (by decide)).next (State.closeBooth_only _ s b) (by decide)
  all_goals exact s.checkAnnounce_only b f

theorem State.busyExpiry_only (b : BoothId) (n : ConsoleId) : s.onlyIn [.booths] (s.busyExpiry b n) := by
  unfold State.busyExpiry
  split
  · exact State.onlyIn.either (((State.updConsole_only s b n _).seq (State.relight_only _ b)).seq (State.closeBooth_only _ s b))
      (s.onlyIn_refl _)
  · exact s.onlyIn_refl _

theorem State.offerExpiry_only (b : BoothId) : s.onlyIn [.booths] (s.offerExpiry b) := by
  unfold State.offerExpiry
  split
  · exact State.onlyIn.either (((State.updCons_only s b _).seq (State.relight_only _ b)).seq (State.closeBooth_only _ s b))
      (s.onlyIn_refl _)
  · exact s.onlyIn_refl _

theorem State.gapExpiry_only (b : BoothId) (n : ConsoleId) : s.onlyIn [.header, .notices, .mem, .log, .booths] (s.gapExpiry b n) :=
  State.onlyIn.either (((State.endTurn_only s b n _).next (State.relight_only _ b) (by decide)).next (State.closeBooth_only _ s b)
    (by decide)) (s.onlyIn_refl _)

theorem State.outgoingLapse_only (c : ChannelId) : s.onlyIn [.booths, .channels] (s.outgoingLapse c) := by
  unfold State.outgoingLapse
  split
  · exact State.onlyIn.either (((State.writeChannel_only s c _).sub (by decide)).next (State.relampChannel_only _ c) (by decide))
      (s.onlyIn_refl _)
  · exact s.onlyIn_refl _

theorem State.warningReached_only (c : ChannelId) : s.onlyIn [.booths, .channels] (s.warningReached c) := by
  unfold State.warningReached
  split
  · exact State.onlyIn.either (((State.warn_only s c).sub (by decide)).next (State.settleChannel_only _ s c) (by decide))
      (s.onlyIn_refl _)
  · exact s.onlyIn_refl _

theorem State.targetReached_only (c : ChannelId) : s.onlyIn [.mem, .orders, .notices, .booths, .channels] (s.targetReached c) := by
  unfold State.targetReached
  split
  · exact State.onlyIn.either ((((State.warn_only s c).sub (by decide)).next (State.target_only _ c) (by decide)).next
      (State.settleChannel_only _ s c) (by decide)) (s.onlyIn_refl _)
  · exact s.onlyIn_refl _

theorem State.waitExpiry_only (c : ChannelId) : s.onlyIn [.mem, .orders, .notices, .booths, .channels] (s.waitExpiry c) := by
  unfold State.waitExpiry
  split
  · exact State.onlyIn.either (((State.endSchedule_only s c _ _ _ _).sub (by decide)).next (State.settleChannel_only _ s c) (by decide))
      (s.onlyIn_refl _)
  · exact s.onlyIn_refl _

theorem State.floorFrame_only (a : Option Audio) : s.onlyIn [.floor, .channels, .notices] (s.floorFrame a) := by
  have taken : s.onlyIn [.floor, .channels, .notices] { s with floor := s.floor.take a } := (State.floor_only s _).sub (by decide)
  exact State.onlyIn.either (s.onlyIn_refl _)
    (taken.either ((taken.next (State.writeChannel_only _ 0 id) (by decide)).next (State.raise_only _ _) (by decide)))

theorem State.sendPoll_only : s.onlyIn [.bus, .presets] s.sendPoll :=
  State.onlyIn.either (((State.bus_only s _).sub (by decide)).next (State.updPresets_only _ _ _) (by decide)) (s.onlyIn_refl _)

theorem State.workAnswer_only (poll : Poll) (a : RackAnswer) : s.onlyIn (.racks :: .bus :: dockTouches) (s.workAnswer poll a) := by
  have started : s.onlyIn (.racks :: .bus :: dockTouches) (s.endPoll.setRack poll.rack { state := .online, unanswered := 0 }) :=
    ((State.endPoll_only s).sub (by decide)).next (State.setRack_only _ _ _) (by decide)
  unfold State.workAnswer
  exact (((started.next (State.updPresets_only _ _ _) (by decide)).next (State.foldl_only (State.takeChange_only _) _) (by decide)).next
    (State.foldl_only (State.takeReport_only _) _) (by decide)).next (State.foldl_only (State.takeResult_only poll) _) (by decide)

theorem State.rackAnswer_only (a : RackAnswer) : s.onlyIn (.racks :: .bus :: dockTouches) (s.rackAnswer a) := by
  unfold State.rackAnswer
  split
  · exact (s.workAnswer_only _ a).either (s.onlyIn_refl _)
  · exact s.onlyIn_refl _

theorem State.workInventory_only (poll : Poll) (inv : Inventory) :
    s.onlyIn (.racks :: .bus :: dockTouches) (s.workInventory poll inv) := by
  unfold State.workInventory
  extract_lets was s1 s2 s3
  have started : s.onlyIn (.racks :: .bus :: dockTouches) s1 :=
    ((State.endPoll_only s).sub (by decide)).next (State.updPresets_only _ _ _) (by decide)
  have online : s.onlyIn (.racks :: .bus :: dockTouches) s3 :=
    (started.next (State.each_only (fun t k _ => State.reconcile_only t _ _) s1) (by decide)).next (State.setRack_only s2 _ _) (by decide)
  exact (online.next (State.raise_only s3 _) (by decide)).either online

theorem State.inventoryAnswer_only (inv : Inventory) : s.onlyIn (.racks :: .bus :: dockTouches) (s.inventoryAnswer inv) := by
  unfold State.inventoryAnswer
  split
  · exact (s.workInventory_only _ inv).either (s.onlyIn_refl _)
  · exact s.onlyIn_refl _

theorem State.unanswered_only (r : RackId) : s.onlyIn (.racks :: dockTouches) (s.unanswered r) :=
  State.onlyIn.either (s.onlyIn_refl _)
    (State.onlyIn.either ((State.rackFault_only s r).sub (by decide)) ((State.setRack_only s r _).sub (by decide)))

theorem State.answerExpiry_only : s.onlyIn (.racks :: .bus :: dockTouches) s.answerExpiry := by
  unfold State.answerExpiry
  split
  · exact State.onlyIn.either ((((State.endPoll_only s).sub (by decide)).next (State.updPresets_only _ _ _) (by decide)).next
      (State.unanswered_only _ _) (by decide)) (s.onlyIn_refl _)
  · exact s.onlyIn_refl _

theorem State.settleExpiry_only (p : PosId) :
    s.onlyIn [.mem, .orders, .notices, .positions, .presets, .receivers, .hires] (s.settleExpiry p) :=
  (State.removal_only s p _ _).either (s.onlyIn_refl _)

theorem State.reserveExpiry_only (h : HireId) :
    s.onlyIn [.mem, .orders, .notices, .positions, .presets, .receivers, .hires, .accounts] (s.reserveExpiry h) :=
  State.onlyIn.either (State.onlyIn.either ((State.writeHire_only s h _).sub (by decide)) (State.endReservation_only s h _ _))
    (s.onlyIn_refl _)

theorem State.stray_only (d : Bool) : s.onlyIn [.header, .notices, .mem, .log, .receivers, .beacons] (s.stray d) := by
  have counted : s.onlyIn [.header, .notices, .mem, .log, .receivers, .beacons] (s.countBeacon (fun k => k.stray d)) :=
    (State.countBeacon_only s _).sub (by decide)
  exact (counted.next (State.raise_only _ _) (by decide)).either counted

theorem State.acceptBeacon_only (e : RecvId) (m : HubMessage) :
    s.onlyIn [.header, .notices, .mem, .log, .receivers, .beacons] (s.acceptBeacon e m) := by
  unfold State.acceptBeacon
  extract_lets r s1 s2
  have heard : s.onlyIn [.header, .notices, .mem, .log, .receivers, .beacons] s2 :=
    ((State.countBeacon_only s _).sub (by decide)).next (State.writeReceiver_only s1 e _) (by decide)
  exact ((heard.next (State.raise_only s2 _) (by decide)).next (State.handFound_only _ e _ _) (by decide)).either heard

theorem State.beacon_only (m : HubMessage) : s.onlyIn [.header, .notices, .mem, .log, .receivers, .beacons] (s.beacon m) := by
  have counted (g : BeaconCounts → BeaconCounts) : s.onlyIn [.header, .notices, .mem, .log, .receivers, .beacons] (s.countBeacon g) :=
    (State.countBeacon_only s g).sub (by decide)
  unfold State.beacon
  refine State.onlyIn.either (s.onlyIn_refl _) ((counted _).either ?_)
  split
  · unfold State.workBeacon
    split
    all_goals first
      | exact s.stray_only true
      | exact (counted _).either (s.acceptBeacon_only _ m)
  · exact s.stray_only false

theorem State.censusMark_only : s.onlyIn [.clock, .header, .notices, .channels, .receivers, .beacons, .framer] s.censusMark := by
  have passed : s.onlyIn [.clock, .header, .notices, .channels, .receivers, .beacons, .framer]
      { s with clock := { s.clock with markDue := false } } := (State.clock_only s _).sub (by decide)
  exact State.onlyIn.either (s.onlyIn_refl _) ((passed.next (State.workCensusMark_only _) (by decide)).either passed)

theorem State.tick_only : s.onlyIn [.clock, .draws] s.tick := by
  unfold State.tick
  refine State.onlyIn.either (s.onlyIn_refl _) ?_
  intro f hf; cases f <;> first | exact absurd (by decide) hf | rfl

end

/-- A command changes only the fields listed for it. -/
theorem State.run_only (s : State) (i : Instr) : s.onlyIn (commandTouches i) (s.run i) := by
  cases i with
  | resetAssert => exact s.assertReset_only
  | resetRelease => exact s.releaseReset_only
  | exchangeWrite a v e => exact s.hostWrite_only _ v e
  | holderWordWrite n v e => exact s.hostWrite_only _ v e
  | logReadCountWrite v e => exact s.hostWrite_only _ v e
  | post v e => exact s.post_only v e
  | noticePendingWrite v e => exact s.clearPending_only v e
  | noticeEnableWrite v e => exact s.setEnabled_only v e
  | noticeVectorLowRead => exact s.readVectorLow_only
  | noticeVectorHighRead => exact s.readVectorHigh_only
  | frameBoundary => exact s.frameBoundary_only
  | superframeBoundary => exact s.superframe_only
  | audioFrame b a => exact s.takeAudioFrame_only b a
  | announceFrame b f => exact s.takeAnnounce_only b f
  | missingMarker b => exact s.missMarker_only b
  | micOn b k | micOff b k | offer b k | accept b k | consoleCancel b k | offerOut b k => exact State.deliver_only s b _ k
  | busyDeadlineExpiry b k => exact s.busyExpiry_only b k
  | offerDeadlineExpiry b => exact s.offerExpiry_only b
  | gapDeadlineExpiry b k => exact s.gapExpiry_only b k
  | outgoingOfferLapse c => exact s.outgoingLapse_only c
  | warningReached c => exact s.warningReached_only c
  | targetReached c => exact s.targetReached_only c
  | waitDeadlineExpiry c => exact s.waitExpiry_only c
  | floorFrame a => exact s.floorFrame_only a
  | pollSend => exact s.sendPoll_only
  | rackAnswer a => exact s.rackAnswer_only a
  | inventoryAnswer inv => exact s.inventoryAnswer_only inv
  | answerWindowExpiry => exact s.answerExpiry_only
  | settleDeadlineExpiry p => exact s.settleExpiry_only p
  | reserveDeadlineExpiry h => exact s.reserveExpiry_only h
  | beacon m => exact s.beacon_only m
  | censusMark => exact s.censusMark_only
  | runCounterTick => exact s.tick_only
  | startupComplete | softRestartComplete | restart | ignoredRegisterWrite | unknownOrder | setNotice | setTimers | setLogPolicy | cancel
  | clearCountsLinks | clearCountsDocks | setClock | boothDefine | linkHold | linkRelease | boothIntake | seatAssign | channelDefine
  | channelClear | handover | setDistribution | issue | declareLost | retireReceiver | restoreReceiver | setTariff | accountOpen
  | accountPay | accountRefund | accountClose => exact s.all_only _

/-! ## Laws that read a few fields -/

/-- A law reads the listed fields: what agrees in them has the law alike. -/
def Reads (P : State → Prop) (l : List StateField) : Prop := ∀ s t : State, (∀ f ∈ l, f.same s t) → P s → P t

/-- What changes none of the fields a law reads keeps it. -/
theorem Reads.frame {P : State → Prop} {l k : List StateField} (h : Reads P l) {s t : State} (only : s.onlyIn k t)
    (apart : ∀ f ∈ l, f ∉ k) (hs : P s) : P t := h s t (fun f hf => only f (apart f hf)) hs

theorem Reads.run {P : State → Prop} {l : List StateField} (h : Reads P l) {s : State} {i : Instr}
    (apart : ∀ f ∈ l, f ∉ commandTouches i) (hs : P s) : P (s.run i) := h.frame (s.run_only i) apart hs

theorem Reads.and {P Q : State → Prop} {l k : List StateField} (h : Reads P l) (g : Reads Q k) : Reads (fun s => P s ∧ Q s) (l ++ k) :=
  fun s t same hs => ⟨h s t (fun f hf => same f (List.mem_append_left k hf)) hs.1,
    g s t (fun f hf => same f (List.mem_append_right l hf)) hs.2⟩

/-- The order rows keep a law that the taking of a slot, the works of all order kinds and a completion keep. -/
theorem order_keeps {P : State → Prop} {i : Instr} (hi : i ∈ orderRows)
    (work : ∀ (k : Nat) (w : Work), OrderWork k w → ∀ (s : State) (n : SlotId) (rest : List SlotId), s.part = .ready →
      s.orders.queue = n :: rest → P s → P (finishOrder n (w (s.takeSlot n rest) n)))
    {s : State} (hs : P s) : P (s.run i) := by
  rcases s.run_order hi with same | ⟨n, rest, ready, queue, worked⟩
  · rwa [same]
  · rw [worked]
    exact work _ _ (orderWork_kind s n) s n rest ready queue hs

/-- A law that reads no field of the orders themselves is kept by the order rows when the works keep it. -/
theorem Reads.order {P : State → Prop} {l : List StateField} (h : Reads P l) (apart : ∀ f ∈ l, f ∉ [StateField.mem, .orders, .notices])
    (work : ∀ (k : Nat) (w : Work), OrderWork k w → ∀ (s : State) (n : SlotId), P s → P (w s n).1)
    {i : Instr} (hi : i ∈ orderRows) {s : State} (hs : P s) : P (s.run i) :=
  order_keeps hi (fun k w hw u n rest _ _ hu =>
    h.frame ((finishOrder_only n _).sub (k := [.mem, .orders, .notices]) (by decide)) apart
      (work k w hw _ n (h.frame ((State.takeSlot_only u n rest).sub (by decide)) apart hu))) hs

theorem State.abortStanding_only (s : State) (x : Standing) : s.onlyIn [.mem, .notices, .channels] (s.abortStanding x) := by
  obtain ⟨slot, owner, clamped⟩ := x
  cases owner with
  | issue h => exact (State.complete_only s slot _).sub (by decide)
  | handover c => exact ((State.writeChannel_only s c _).sub (by decide)).next (State.complete_only _ slot _) (by decide)

/-- The entry to RESTARTING and the end of the orders in hand (R20). -/
theorem State.abortOrders_only (s : State) (w : Option (SlotId × Result)) :
    s.onlyIn [.mem, .notices, .channels, .orders] (s.abortOrders w) := by
  have working : s.onlyIn [.mem, .notices, .channels, .orders] (s.abortWorking w) := by
    cases w with
    | none => exact s.onlyIn_refl _
    | some x => exact (State.complete_only s _ _).sub (by decide)
  unfold State.abortOrders
  exact ((working.next (State.each_only (fun t x _ => t.abortStanding_only x) _) (by decide)).next
    (State.each_only (fun t n _ => State.complete_only t n _) _) (by decide)).next (State.orders_only _ _) (by decide)

theorem State.enterRestarting_only (s : State) : s.onlyIn [.part, .header, .notices] s.enterRestarting := by
  intro f hf; cases f <;> first | exact absurd (by decide) hf | rfl

/-- A RESTART keeps a law that the works of all order kinds keep, where the law reads nothing of what the abort of orders writes. -/
theorem Reads.restart {P : State → Prop} {l : List StateField} (h : Reads P l)
    (apart : ∀ f ∈ l, f ∉ [StateField.mem, .notices, .channels, .orders, .part, .header])
    (work : ∀ (k : Nat) (w : Work), OrderWork k w → ∀ (s : State) (n : SlotId), P s → P (w s n).1)
    {s : State} (v : Half) (e : ByteEnables) (working : Bool) (hs : P s) : P (s.restart v e working) := by
  have aborted : ∀ (u : State) (w : Option (SlotId × Result)), P u → P (u.enterRestarting.abortOrders w) := fun u w hu =>
    h.frame (((State.enterRestarting_only u).sub (by decide)).next (State.abortOrders_only _ w) (by decide)) apart hu
  have finished : P s.finishWorking.1 := by
    unfold State.finishWorking
    split
    · exact hs
    · rename_i n rest _
      exact work _ _ (orderWork_kind s n) _ n (h.frame ((State.takeSlot_only s n rest).sub (by decide)) apart hs)
  unfold State.restart
  split
  · unfold State.beginRestart
    cases working with
    | true => exact aborted _ _ finished
    | false => exact aborted s none hs
  · exact hs

/-- A write of the port registers keeps what a post, the two notice registers and a RESTART between orders keep (R17). -/
theorem portWrite_keeps {P : State → Prop} {s : State} (a : BitVec 17) (v : Half) (e : ByteEnables) (post : P (s.post v e))
    (pending : P (s.clearPending v e)) (enable : P (s.setEnabled v e)) (restart : P (s.restart v e false)) (hs : P s) :
    P (s.portWrite a v e) := by
  unfold State.portWrite
  split
  · exact post
  · exact pending
  · exact enable
  · exact restart
  · exact hs

/-- What either branch has, the choice has. -/
theorem keeps_ite {P : State → Prop} {c : Prop} [Decidable c] {s t : State} (hs : P s) (ht : P t) : P (if c then s else t) := by
  split <;> assumption

/-! ## The dock interface -/

/-- What the pieces of an answer, of an inventory and of a rack's failure keep. -/
structure DockKeeps (P : State → Prop) : Prop where
  takeInsert : ∀ (s : State) (p : PosId) (x : Serial) (y : BitVec 4), x ≠ 0 → P s → P (s.takeInsert p x y)
  takeRemove : ∀ (s : State) (p : PosId), P s → P (s.takeRemove p)
  writeBattery : ∀ (s : State) (p : PosId) (e : RecvId) (y : BitVec 4), P s → P (s.writeBattery p e y)
  presetResult : ∀ (s : State) (e : RecvId) (d : Bool), P s → P (s.presetResult e d)
  reconcile : ∀ (s : State) (p : PosId) (x : Option InventoryItem), P s → P (s.reconcile p x)
  rackFault : ∀ (s : State) (r : RackId), P s → P (s.rackFault r)

section
variable {P : State → Prop} {l : List StateField} (reads : Reads P l) (keeps : DockKeeps P)
  (raised : ∀ s : State, P s → P (s.raise .dock)) (apart : ∀ f ∈ l, f ∉ [StateField.racks, .bus, .presets])
include reads keeps apart

theorem DockKeeps.rackAnswer (s : State) (a : RackAnswer) (hs : P s) : P (s.rackAnswer a) := by
  unfold State.rackAnswer
  split
  · rename_i poll _
    refine keeps_ite ?_ hs
    have started : P ((s.endPoll.setRack poll.rack { state := .online, unanswered := 0 }).updPresets poll.rack
        (fun x => if x.sent then none else some x)) :=
      reads.frame (k := [.racks, .bus, .presets])
        ((((State.endPoll_only s).sub (by decide)).next (State.setRack_only _ _ _) (by decide)).next (State.updPresets_only _ _ _)
          (by decide)) apart hs
    have changed : ∀ u, P u → P (a.changes.foldl (State.takeChange poll.rack) u) := fun u hu =>
      State.each_induct (l := a.changes) (f := State.takeChange poll.rack) (fun t c _ ht => by
        unfold State.takeChange
        split
        · split
          · split
            · exact ht
            · rename_i nonzero
              exact keeps.takeInsert _ _ _ _ nonzero ht
          · exact ht
        · split
          · exact keeps.takeRemove _ _ ht
          · exact ht) hu
    have reported : ∀ u, P u → P (a.reports.foldl (State.takeReport poll.rack) u) := fun u hu =>
      State.each_induct (l := a.reports) (f := State.takeReport poll.rack) (fun t c _ ht => by
        unfold State.takeReport
        split
        · dsimp only
          split
          · exact keeps.writeBattery _ _ _ _ ht
          · exact ht
        · exact ht) hu
    exact State.each_induct (l := a.results) (f := State.takeResult poll) (fun t c _ ht => by
      unfold State.takeResult
      split
      · split
        · exact keeps.presetResult _ _ _ ht
        · exact ht
      · exact ht) (reported _ (changed _ started))
  · exact hs

include raised in
theorem DockKeeps.inventoryAnswer (s : State) (inv : Inventory) (hs : P s) : P (s.inventoryAnswer inv) := by
  unfold State.inventoryAnswer
  split
  · rename_i poll _
    refine keeps_ite ?_ hs
    have started : P (s.endPoll.updPresets poll.rack (fun x => if x.sent then none else some x)) :=
      reads.frame (k := [.racks, .bus, .presets])
        (((State.endPoll_only s).sub (by decide)).next (State.updPresets_only _ _ _) (by decide)) apart hs
    have online : ∀ u, P u → P (u.setRack poll.rack { state := .online, unanswered := 0 }) := fun u hu =>
      reads.frame (k := [.racks, .bus, .presets]) ((State.setRack_only u _ _).sub (by decide)) apart hu
    have worked := online _ (State.each_induct (l := List.finRange 40)
      (f := fun s k => s.reconcile (posIndex poll.rack k) inv[k]) (fun t _ _ ht => keeps.reconcile t _ _ ht) started)
    exact keeps_ite (raised _ worked) worked
  · exact hs

theorem DockKeeps.answerExpiry (s : State) (hs : P s) : P s.answerExpiry := by
  unfold State.answerExpiry
  split
  · rename_i poll _
    refine keeps_ite ?_ hs
    have ended : P (s.endPoll.updPresets poll.rack (fun x => some { x with sent := false })) :=
      reads.frame (k := [.racks, .bus, .presets])
        (((State.endPoll_only s).sub (by decide)).next (State.updPresets_only _ _ _) (by decide)) apart hs
    exact keeps_ite ended (keeps_ite (keeps.rackFault _ _ ended)
      (reads.frame (k := [.racks, .bus, .presets]) ((State.setRack_only _ _ _).sub (by decide)) apart ended))
  · exact hs

end

/-- A law kept by every command is kept by every step, where it reads nothing of the queue. -/
theorem Reads.step {P : State → Prop} {l : List StateField} (h : Reads P l) (apart : StateField.pending ∉ l)
    (run : ∀ (s : State) (i : Instr), P s → P (s.run i)) {s t : State} (step : step s = .next t) (hs : P s) : P t := by
  rcases step_cases step with ⟨_, rfl⟩ | ⟨i, rest, _, rfl⟩
  · exact hs
  · refine run _ i (h s _ (fun f hf => ?_) hs)
    cases f <;> first | rfl | exact absurd hf apart

end Sys2Proof.Machine
end

section
/-!
SUPPORT. The tables: what a record is after one record of its table is written.
-/
namespace Sys2Proof.Machine

theorem get_set {α : Type} {k : Nat} (v : Vector α k) (i j : Fin k) (x : α) : (v.set i x)[j] = if j = i then x else v[j] := by
  have h : (i.val = j.val) = (j = i) := propext (eq_comm.trans Fin.ext_iff.symm)
  simp only [Fin.getElem_fin, Vector.getElem_set, h]

/-- What follows a change written with a bracket only where a field changes (R3). -/
def rewritten {α : Type} [DecidableEq α] (bump : α → α) (f : α → α) (r : α) : α := if f r = r then r else bump (f r)

section
variable (s : State)

theorem State.booth_updBooth (b c : BoothId) (f : Booth → Booth) :
    (s.updBooth b f).booth c = if c = b then f (s.booth b) else s.booth c := get_set _ _ _ _
theorem State.booth_writeBooth (b c : BoothId) (f : Booth → Booth) :
    (s.writeBooth b f).booth c = if c = b then (f (s.booth b)).bump else s.booth c := get_set _ _ _ _
theorem State.booth_rewriteBooth (b c : BoothId) (f : Booth → Booth) :
    (s.rewriteBooth b f).booth c = if c = b then rewritten Booth.bump f (s.booth b) else s.booth c := get_set _ _ _ _
theorem State.inside_updInner (b c : BoothId) (f : BoothInner → BoothInner) :
    (s.updInner b f).inside c = if c = b then f (s.inside b) else s.inside c := get_set _ _ _ _
theorem State.channel_updChannel (c d : ChannelId) (f : Channel → Channel) :
    (s.updChannel c f).channel d = if d = c then f (s.channel c) else s.channel d := get_set _ _ _ _
theorem State.channel_writeChannel (c d : ChannelId) (f : Channel → Channel) :
    (s.writeChannel c f).channel d = if d = c then (f (s.channel c)).bump else s.channel d := get_set _ _ _ _
theorem State.channel_rewriteChannel (c d : ChannelId) (f : Channel → Channel) :
    (s.rewriteChannel c f).channel d = if d = c then rewritten Channel.bump f (s.channel c) else s.channel d := get_set _ _ _ _
theorem State.position_updPosition (p q : PosId) (f : Position → Position) :
    (s.updPosition p f).position q = if q = p then f (s.position p) else s.position q := get_set _ _ _ _
theorem State.position_writePosition (p q : PosId) (f : Position → Position) :
    (s.writePosition p f).position q = if q = p then (f (s.position p)).bump else s.position q := get_set _ _ _ _
theorem State.position_rewritePosition (p q : PosId) (f : Position → Position) :
    (s.rewritePosition p f).position q = if q = p then rewritten Position.bump f (s.position p) else s.position q := get_set _ _ _ _
theorem State.receiver_updReceiver (e d : RecvId) (f : Receiver → Receiver) :
    (s.updReceiver e f).receiver d = if d = e then f (s.receiver e) else s.receiver d := get_set _ _ _ _
theorem State.receiver_writeReceiver (e d : RecvId) (f : Receiver → Receiver) :
    (s.writeReceiver e f).receiver d = if d = e then (f (s.receiver e)).bump else s.receiver d := get_set _ _ _ _
theorem State.receiver_rewriteReceiver (e d : RecvId) (f : Receiver → Receiver) :
    (s.rewriteReceiver e f).receiver d = if d = e then rewritten Receiver.bump f (s.receiver e) else s.receiver d := get_set _ _ _ _
theorem State.hire_updHire (h k : HireId) (f : Hire → Hire) :
    (s.updHire h f).hire k = if k = h then f (s.hire h) else s.hire k := get_set _ _ _ _
theorem State.hire_writeHire (h k : HireId) (f : Hire → Hire) :
    (s.writeHire h f).hire k = if k = h then (f (s.hire h)).bump else s.hire k := get_set _ _ _ _
theorem State.account_updAccount (a b : AcctId) (f : Account → Account) :
    (s.updAccount a f).account b = if b = a then f (s.account a) else s.account b := get_set _ _ _ _
theorem State.account_writeAccount (a b : AcctId) (f : Account → Account) :
    (s.writeAccount a f).account b = if b = a then (f (s.account a)).bump else s.account b := get_set _ _ _ _
theorem State.account_rewriteAccount (a b : AcctId) (f : Account → Account) :
    (s.rewriteAccount a f).account b = if b = a then rewritten Account.bump f (s.account a) else s.account b := get_set _ _ _ _
theorem State.account_closeAccount (o : State) (a b : AcctId) :
    (s.closeAccount o a).account b =
      if b = a then (if s.account a = o.account a then s.account a else (s.account a).bump) else s.account b := get_set _ _ _ _
theorem State.preset_setPreset (p q : PosId) (v : Option Preset) :
    (s.setPreset p v).presets.get q = if q = p then v else s.presets.get q := get_set _ _ _ _
theorem State.rack_setRack (r q : RackId) (v : Rack) :
    (s.setRack r v).racks.get q = if q = r then v else s.racks.get q := get_set _ _ _ _

end

/-! ## The branches of the dock interface's work -/

/-- The branches of an INSERT taken (R109, R111). -/
theorem State.takeInsert_elim {P : State → Prop} {s : State} {p : PosId} {x : Serial} {y : BitVec 4}
    (reseated : ∀ e, (s.position p).state = .settlingOut → (s.position p).entry = some e → (s.receiver e).serial = x →
      P (s.reseat p e y))
    (settled : ∀ e, (s.position p).state = .settlingOut → (s.position p).entry = some e → (s.receiver e).serial ≠ x →
      P ((s.removal p (s.position p).rawRemoval false).insertAt p x y))
    (repeated : ∀ e, (s.position p).state = .occupied → (s.position p).entry = some e → (s.receiver e).serial = x →
      P (s.writeBattery p e y))
    (replaced : ∀ e, (s.position p).state = .occupied → (s.position p).entry = some e → (s.receiver e).serial ≠ x →
      P ((s.removal p s.clock.run false).insertAt p x y))
    (unheld : (s.position p).state = .occupied → (s.position p).entry = none →
      P ((s.writePosition p (fun r => { r with removals := satAdd 16 r.removals 1 })).insertAt p x y))
    (inserted : (s.position p).state = .empty ∨ (s.position p).state = .fault
        ∨ (s.position p).state = .settlingOut ∧ (s.position p).entry = none → P (s.insertAt p x y)) :
    P (s.takeInsert p x y) := by
  unfold State.takeInsert
  cases state : s.positions[p].state with
  | empty => simpa only [state] using inserted (.inl state)
  | fault => simpa only [state] using inserted (.inr (.inl state))
  | settlingOut =>
    cases entry : s.positions[p].entry with
    | none => simpa only [state, entry] using inserted (.inr (.inr ⟨state, entry⟩))
    | some e =>
      by_cases same : s.receivers[e].serial = x
      · simpa only [state, entry, if_pos same] using reseated e state entry same
      · simpa only [state, entry, if_neg same] using settled e state entry same
  | occupied =>
    cases entry : s.positions[p].entry with
    | none => simpa only [state, entry] using unheld state entry
    | some e =>
      by_cases same : s.receivers[e].serial = x
      · simpa only [state, entry, if_pos same] using repeated e state entry same
      · simpa only [state, entry, if_neg same] using replaced e state entry same

/-- The branches of a position's reconciling with an inventory (the table of R107). -/
theorem State.reconcile_elim {P : State → Prop} {s : State} {p : PosId} {x : Option InventoryItem}
    (kept : ∀ e i, (s.position p).state = .fault → (s.position p).entry = some e → readItem x = some i →
      (s.receiver e).serial = i.serial → P ((s.writePosition p (fun r => { r with state := .occupied })).writeBattery p e i.battery))
    (replaced : ∀ e i, (s.position p).state = .fault → (s.position p).entry = some e → readItem x = some i →
      (s.receiver e).serial ≠ i.serial → P ((s.removal p s.clock.run false).insertAt p i.serial i.battery))
    (gone : ∀ e, (s.position p).state = .fault → (s.position p).entry = some e → readItem x = none → P (s.removal p s.clock.run false))
    (cleared : (s.position p).state = .fault → (s.position p).entry = none → readItem x = none →
      P (s.writePosition p (fun r => { r with state := .empty })))
    (inserted : ∀ i, ((s.position p).state = .fault → (s.position p).entry = none) → readItem x = some i →
      P (s.takeInsert p i.serial i.battery))
    (same : (s.position p).state ≠ .fault → readItem x = none → P s) :
    P (s.reconcile p x) := by
  unfold State.reconcile
  cases item : readItem x with
  | none =>
    cases state : s.positions[p].state with
    | fault =>
      cases entry : s.positions[p].entry with
      | none => simpa only [state, entry, item] using cleared state entry item
      | some e => simpa only [state, entry, item] using gone e state entry item
    | empty | settlingOut | occupied =>
      have other : (s.position p).state ≠ .fault := fun h => nomatch state.symm.trans h
      simpa only [state, item] using same other item
  | some i =>
    cases state : s.positions[p].state with
    | fault =>
      cases entry : s.positions[p].entry with
      | none => simpa only [state, entry, item] using inserted i (fun _ => entry) item
      | some e =>
        by_cases same : s.receivers[e].serial = i.serial
        · simpa only [state, entry, item, if_pos same] using kept e i state entry item same
        · simpa only [state, entry, item, if_neg same] using replaced e i state entry item same
    | empty | settlingOut | occupied =>
      have other : (s.position p).state = .fault → (s.position p).entry = none := fun h => nomatch state.symm.trans h
      simpa only [state, item] using inserted i other item

/-- An item that an inventory reports has a serial (R107). -/
theorem readItem_serial {x : Option InventoryItem} {i : InventoryItem} (h : readItem x = some i) : i.serial ≠ 0 := by
  unfold readItem at h
  split at h
  · split at h
    · cases h
    · cases h
      assumption
  · cases h

end Sys2Proof.Machine
end

section
/-!
SUPPORT. The money law (R160). Each piece of work on an account keeps paid plus owed equal to deposit, charged and refunded together, or leaves
a total saturated; and no command writes an account but by such pieces.
-/
namespace Sys2Proof.Machine

/-- The money law of one account. -/
def Account.balanced (a : Account) : Prop := a.saturated ∨ a.paid + a.owed = a.deposit + a.charged + a.refunded

theorem moneyOk_reads : Reads State.moneyOk [.accounts] := by
  intro s t same hs a
  have e : t.accounts = s.accounts := same .accounts (by decide)
  have := hs a
  rwa [show t.account a = s.account a by rw [State.account, State.account, e]]

/-! ## One account -/

section
variable {a : Account}

theorem Account.free_le (a : Account) : a.free ≤ a.deposit := Nat.sub_le _ _

theorem Account.balanced_bump (h : a.balanced) : a.bump.balanced := h

theorem Account.balanced_release (hold : Nat) (h : a.balanced) : (a.release hold).balanced := h

theorem Account.balanced_reserve (hold : Nat) (h : a.balanced) : (a.reserve hold).balanced := h

theorem Account.balanced_settle (charge : Nat) (h : a.balanced) : (a.settle charge).balanced := by
  have taken : a.takes charge ≤ a.deposit := (Nat.min_le_right _ _).trans a.free_le
  simp only [Account.balanced, Account.saturated, Account.settle, satAdd] at h ⊢
  generalize a.takes charge = x at taken ⊢
  generalize a.adds charge = y
  omega

theorem Account.balanced_pay (amount : Nat) (h : a.balanced) : (a.pay amount).balanced := by
  have owed : a.toOwed amount ≤ a.owed := Nat.min_le_right _ _
  simp only [Account.balanced, Account.saturated, Account.pay, satAdd] at h ⊢
  generalize a.toOwed amount = x at owed ⊢
  generalize a.toDeposit amount = y
  omega

theorem Account.balanced_refund {out : Nat} (within : out ≤ a.deposit) (h : a.balanced) : (a.refund out).balanced := by
  simp only [Account.balanced, Account.saturated, Account.refund, satAdd] at h ⊢
  omega

theorem Account.balanced_closed (h : a.balanced) : a.closed.balanced := Account.balanced_refund (a := a) (le_refl a.deposit) h

theorem Account.balanced_opened (holder : BitVec 32) (k : TariffId) (limit payment : Nat) :
    (a.opened holder k limit payment).balanced := by
  simp [Account.balanced, Account.opened]

theorem Account.balanced_zero (x : Half) : ({ Account.zero with changes := x } : Account).balanced := by
  simp [Account.balanced, Account.zero]

theorem Account.balanced_rewritten {f : Account → Account} (hf : (f a).balanced) (h : a.balanced) :
    (rewritten Account.bump f a).balanced := by
  unfold rewritten
  split
  · exact h
  · exact hf

end

/-! ## The pieces of work on an account -/

section
variable {s : State}

theorem State.moneyOk_updAccount {a : AcctId} {f : Account → Account} (hf : (s.account a).balanced → (f (s.account a)).balanced)
    (h : s.moneyOk) : (s.updAccount a f).moneyOk := by
  intro b
  show Account.balanced _
  rw [State.account_updAccount]
  split
  · exact hf (h a)
  · exact h b

theorem State.moneyOk_rewriteAccount {a : AcctId} {f : Account → Account} (hf : (s.account a).balanced → (f (s.account a)).balanced)
    (h : s.moneyOk) : (s.rewriteAccount a f).moneyOk :=
  State.moneyOk_updAccount (f := rewritten Account.bump f) (fun hb => Account.balanced_rewritten (hf hb) hb) h

theorem State.moneyOk_writeAccount {a : AcctId} {f : Account → Account} (hf : (s.account a).balanced → (f (s.account a)).balanced)
    (h : s.moneyOk) : (s.writeAccount a f).moneyOk :=
  State.moneyOk_updAccount (f := fun r => (f r).bump) (fun hb => Account.balanced_bump (hf hb)) h

theorem State.moneyOk_closeAccount (o : State) (a : AcctId) (h : s.moneyOk) : (s.closeAccount o a).moneyOk :=
  State.moneyOk_updAccount (f := fun r => if r = o.accounts[a] then r else r.bump) (fun hb => by split <;> exact hb) h

theorem State.moneyOk_dropReservation (h : HireId) (x : ResultCode) (r : Reason) (hs : s.moneyOk) :
    (s.dropReservation h x r).moneyOk := by
  have released : (s.updAccount s.hires[h].account (fun a => a.release s.hires[h].hold)).moneyOk := State.moneyOk_updAccount (Account.balanced_release _) hs
  refine moneyOk_reads.frame (k := [.mem, .orders, .notices, .positions, .presets, .receivers, .hires]) ?_ (by decide) released
  unfold State.dropReservation
  exact (((((State.withdrawPreset_only _ _).sub (by decide)).next (State.writeReceiver_only _ _ _) (by decide)).next
    (State.relampHolder_only _ _) (by decide)).next (State.writeHire_only _ h _) (by decide)).next (State.endOwner_only _ _ _) (by decide)

theorem State.moneyOk_endReservation (h : HireId) (x : ResultCode) (r : Reason) (hs : s.moneyOk) : (s.endReservation h x r).moneyOk :=
  State.moneyOk_closeAccount s _ (State.moneyOk_dropReservation h x r hs)

theorem State.moneyOk_dropReservations (a : AcctId) (hs : s.moneyOk) : (s.dropReservations a).moneyOk :=
  State.each_induct (fun _ h _ ht => State.moneyOk_dropReservation h _ _ ht) hs

theorem State.moneyOk_settleHire (h : HireId) (hs : s.moneyOk) : (s.settleHire h).moneyOk := by
  unfold State.settleHire
  extract_lets r s1 a minutes charge s2 s3 s4 s5
  have released : s1.moneyOk := State.moneyOk_updAccount (Account.balanced_release _) hs
  have settled : s2.moneyOk := State.moneyOk_updAccount (Account.balanced_settle charge) released
  have dropped : s3.moneyOk := keeps_ite (P := State.moneyOk) (State.moneyOk_dropReservations _ settled) settled
  have closed : s4.moneyOk :=
    moneyOk_reads.frame (State.writeHire_only _ h _) (by decide) (State.moneyOk_updAccount Account.balanced_bump dropped)
  have raised : s5.moneyOk := keeps_ite (P := State.moneyOk) (moneyOk_reads.frame (State.raise_only _ _) (by decide) closed) closed
  exact moneyOk_reads.frame (State.handTally_only s5 _ _) (by decide) raised

theorem State.moneyOk_closeHire (h : HireId) (k : Nat) (x : CloseCause) (hs : s.moneyOk) : (s.closeHire h k x).moneyOk :=
  State.moneyOk_settleHire h (moneyOk_reads.frame (State.writeHire_only s h _) (by decide) hs)

theorem State.moneyOk_declareLost (h : HireId) (hs : s.moneyOk) : (s.declareLost h).moneyOk :=
  State.moneyOk_closeHire h _ _ (moneyOk_reads.frame (State.writeReceiver_only s _ _) (by decide) hs)

theorem State.moneyOk_createHire (h : HireId) (x : Hire) (hs : s.moneyOk) : (s.createHire h x).moneyOk := by
  have taken : ∀ u : State, u.moneyOk → (u.writeAccount x.account (fun a => a.reserve x.hold)).moneyOk :=
    fun _ hu => State.moneyOk_writeAccount (Account.balanced_reserve _) hu
  refine taken _ ?_
  exact moneyOk_reads.frame (k := [.hires, .nextHire]) (by intro f hf; cases f <;> first | exact absurd (by decide) hf | rfl) (by decide) hs

theorem State.moneyOk_issue (n : SlotId) (p : IssueParams) (h : HireId) (e : RecvId) (hs : s.moneyOk) : (s.issue n p h e).1.moneyOk := by
  unfold State.issue
  dsimp only
  split
  · unfold State.adopt
    dsimp only
    exact moneyOk_reads.frame (State.writeReceiver_only _ _ _) (by decide) (State.moneyOk_createHire h _ hs)
  · unfold State.reserve
    dsimp only
    refine moneyOk_reads.frame (State.makeStanding_only _ _ _ _) (by decide) ?_
    refine moneyOk_reads.frame (State.requestPreset_only _ _ _) (by decide) ?_
    refine moneyOk_reads.frame (State.relampHolder_only _ _) (by decide) ?_
    exact moneyOk_reads.frame (State.writeReceiver_only _ _ _) (by decide) (State.moneyOk_createHire h _ hs)

end

/-! ## Orders -/

section
variable {s : State}

theorem State.moneyOk_worked {u : State} {r : Option Result} (h : u.moneyOk) : (u, r).1.moneyOk := h

theorem moneyOk_workCancel (n : SlotId) (hs : s.moneyOk) : (workCancel s n).1.moneyOk := by
  unfold workCancel
  split
  · split
    · rename_i u _
      cases hu : u.owner with
      | issue h => simpa only [State.cancelStanding, hu] using State.moneyOk_endReservation h _ _ hs
      | handover c => simpa only [State.cancelStanding, hu] using moneyOk_reads.frame (s.cancelHandover_only c) (by decide) hs
    · split
      · exact State.moneyOk_worked
          (moneyOk_reads.frame (State.complete_only _ _ _) (by decide) (moneyOk_reads.frame (State.orders_only s _) (by decide) hs))
      · exact hs
  · exact hs

theorem moneyOk_workIssue (n : SlotId) (hs : s.moneyOk) : (workIssue s n).1.moneyOk := by
  unfold workIssue
  split
  · exact hs
  · dsimp only
    repeat' split
    case h_3 => exact State.moneyOk_issue n _ _ _ hs
    all_goals exact hs

theorem moneyOk_workDeclareLost (n : SlotId) (hs : s.moneyOk) : (workDeclareLost s n).1.moneyOk := by
  unfold workDeclareLost
  dsimp only
  split
  · exact hs
  · split
    · exact hs
    · split
      · exact hs
      · exact State.moneyOk_worked (State.moneyOk_declareLost _ hs)

theorem moneyOk_workAccountOpen (n : SlotId) (hs : s.moneyOk) : (workAccountOpen s n).1.moneyOk := by
  unfold workAccountOpen
  split
  · dsimp only
    split
    · exact hs
    · refine State.moneyOk_worked (State.moneyOk_writeAccount ?_ hs)
      exact fun _ => Account.balanced_opened _ _ _ _
  · exact hs

theorem moneyOk_workAccountPay (n : SlotId) (hs : s.moneyOk) : (workAccountPay s n).1.moneyOk := by
  unfold workAccountPay
  split
  · dsimp only
    split
    · exact hs
    · exact State.moneyOk_worked (State.moneyOk_rewriteAccount (Account.balanced_pay _) hs)
  · exact hs

theorem moneyOk_workAccountRefund (n : SlotId) (hs : s.moneyOk) : (workAccountRefund s n).1.moneyOk := by
  unfold workAccountRefund
  split
  · dsimp only
    split
    · exact hs
    · split
      · exact hs
      · exact State.moneyOk_worked
          (State.moneyOk_rewriteAccount (Account.balanced_refund ((Nat.min_le_right _ _).trans (Account.free_le _))) hs)
  · exact hs

theorem moneyOk_workAccountClose (n : SlotId) (hs : s.moneyOk) : (workAccountClose s n).1.moneyOk := by
  unfold workAccountClose
  split
  · dsimp only
    split
    · exact hs
    · split
      · exact hs
      · split
        · exact hs
        · exact State.moneyOk_worked
            (moneyOk_reads.frame (State.writeTally_only _ _) (by decide) (State.moneyOk_writeAccount Account.balanced_closed hs))
  · exact hs

end

theorem OrderWork.moneyOk {k : Nat} {w : Work} (hw : OrderWork k w) (s : State) (n : SlotId) (hs : s.moneyOk) : (w s n).1.moneyOk := by
  have frame (apart : ∀ f ∈ [StateField.accounts], f ∉ kindTouches k) : (w s n).1.moneyOk :=
    moneyOk_reads.frame (hw.only s n) apart hs
  cases hw with
  | setNotice | setTimers | setLogPolicy | clearDocks | clearLinks | setClock | boothDefine | linkHold | linkRelease | boothIntake
  | seatAssign | channelDefine | channelClear | handover | setDistribution | retireReceiver | restoreReceiver | setTariff =>
    exact frame (by decide)
  | unknown => exact hs
  | cancel => exact moneyOk_workCancel n hs
  | issue => exact moneyOk_workIssue n hs
  | declareLost => exact moneyOk_workDeclareLost n hs
  | accountOpen => exact moneyOk_workAccountOpen n hs
  | accountPay => exact moneyOk_workAccountPay n hs
  | accountRefund => exact moneyOk_workAccountRefund n hs
  | accountClose => exact moneyOk_workAccountClose n hs

/-! ## Docks and restarts -/

section
variable {s : State}

theorem State.moneyOk_returnHire (h : Option HireId) (k : Nat) (hs : s.moneyOk) : (s.returnHire h k).moneyOk := by
  unfold State.returnHire
  split
  · split
    · exact State.moneyOk_closeHire _ _ _ hs
    · exact hs
  · exact hs

theorem State.moneyOk_occupy (p : PosId) (e : Option RecvId) (hs : s.moneyOk) : (s.occupy p e).moneyOk :=
  moneyOk_reads.frame (State.writePosition_only s p _) (by decide) hs

theorem State.moneyOk_writeReceiver (e : RecvId) (g : Receiver → Receiver) (hs : s.moneyOk) : (s.writeReceiver e g).moneyOk :=
  moneyOk_reads.frame (State.writeReceiver_only s e g) (by decide) hs

theorem State.moneyOk_afterInsertion (e : RecvId) (was : Receiver) (hs : s.moneyOk) : (s.afterInsertion e was).moneyOk := by
  unfold State.afterInsertion
  split
  · exact State.moneyOk_returnHire _ _ hs
  · exact State.moneyOk_returnHire _ _ hs
  · exact moneyOk_reads.frame (State.handFound_only _ _ _ _) (by decide) (moneyOk_reads.frame (State.raise_only _ _) (by decide) hs)
  all_goals exact hs

theorem State.moneyOk_takeInsertion (p : PosId) (x : Serial) (y : BitVec 4) (hs : s.moneyOk) : (s.takeInsertion p x y).moneyOk := by
  unfold State.takeInsertion
  split
  · exact moneyOk_reads.frame (State.relampPos_only _ p) (by decide)
      (State.moneyOk_afterInsertion _ _ (State.moneyOk_writeReceiver _ _ (State.moneyOk_occupy p _ hs)))
  · split
    · exact moneyOk_reads.frame (State.relampPos_only _ p) (by decide) (State.moneyOk_writeReceiver _ _ (State.moneyOk_occupy p _ hs))
    · exact moneyOk_reads.frame (State.raise_only _ _) (by decide) (State.moneyOk_occupy p _ hs)

theorem State.moneyOk_insertAt (p : PosId) (x : Serial) (y : BitVec 4) (hs : s.moneyOk) : (s.insertAt p x y).moneyOk := by
  refine State.moneyOk_takeInsertion p x y ?_
  unfold State.clearElsewhere
  split
  · exact moneyOk_reads.frame (State.removal_only s _ _ _) (by decide) hs
  · exact hs

theorem State.moneyOk_writeBattery (p : PosId) (e : RecvId) (y : BitVec 4) (hs : s.moneyOk) : (s.writeBattery p e y).moneyOk :=
  moneyOk_reads.frame (State.writeBattery_only s p e y) (by decide) hs

theorem State.moneyOk_writePosition (p : PosId) (g : Position → Position) (hs : s.moneyOk) : (s.writePosition p g).moneyOk :=
  moneyOk_reads.frame (State.writePosition_only s p g) (by decide) hs

theorem State.moneyOk_removal (p : PosId) (k : Nat) (x : Bool) (hs : s.moneyOk) : (s.removal p k x).moneyOk :=
  moneyOk_reads.frame (State.removal_only s p k x) (by decide) hs

theorem State.moneyOk_reseat (p : PosId) (e : RecvId) (y : BitVec 4) (hs : s.moneyOk) : (s.reseat p e y).moneyOk := by
  have reseated := State.moneyOk_writeBattery p e y (State.moneyOk_writePosition p (fun r => { r with state := .occupied }) hs)
  unfold State.reseat
  dsimp only
  split
  · exact keeps_ite (P := State.moneyOk) (State.moneyOk_endReservation _ _ _ reseated) reseated
  · exact reseated

theorem State.moneyOk_takeInsert (p : PosId) (x : Serial) (y : BitVec 4) (hs : s.moneyOk) : (s.takeInsert p x y).moneyOk :=
  State.takeInsert_elim (P := State.moneyOk) (fun e _ _ _ => State.moneyOk_reseat p e y hs)
    (fun _ _ _ _ => State.moneyOk_insertAt p x y (State.moneyOk_removal p _ _ hs)) (fun e _ _ _ => State.moneyOk_writeBattery p e y hs)
    (fun _ _ _ _ => State.moneyOk_insertAt p x y (State.moneyOk_removal p _ _ hs))
    (fun _ _ => State.moneyOk_insertAt p x y (State.moneyOk_writePosition p _ hs)) (fun _ => State.moneyOk_insertAt p x y hs)

theorem State.moneyOk_reconcile (p : PosId) (x : Option InventoryItem) (hs : s.moneyOk) : (s.reconcile p x).moneyOk :=
  State.reconcile_elim (P := State.moneyOk)
    (fun e i _ _ _ _ => State.moneyOk_writeBattery p e i.battery (State.moneyOk_writePosition p _ hs))
    (fun _ i _ _ _ _ => State.moneyOk_insertAt p i.serial i.battery (State.moneyOk_removal p _ _ hs))
    (fun _ _ _ _ => State.moneyOk_removal p _ _ hs) (fun _ _ _ => State.moneyOk_writePosition p _ hs)
    (fun i _ _ => State.moneyOk_takeInsert p i.serial i.battery hs) (fun _ _ => hs)

theorem State.moneyOk_failReservation (p : PosId) (hs : s.moneyOk) : (s.failReservation p).moneyOk := by
  unfold State.failReservation
  split
  · split
    · exact State.moneyOk_endReservation _ _ _ hs
    · exact hs
  · exact hs

theorem State.moneyOk_rackFault (r : RackId) (hs : s.moneyOk) : (s.rackFault r).moneyOk := by
  refine State.each_induct (fun _ p _ ht => State.moneyOk_failReservation p ht) ?_
  refine moneyOk_reads.frame (State.raise_only _ _) (by decide) ?_
  refine State.each_induct (fun _ p _ ht => ?_) (moneyOk_reads.frame (State.setRack_only s r _) (by decide) hs)
  exact moneyOk_reads.frame (State.setPreset_only _ p _) (by decide) (State.moneyOk_writePosition p _ ht)

end

theorem moneyOk_dockKeeps : DockKeeps State.moneyOk where
  takeInsert _ p x y _ hs := State.moneyOk_takeInsert p x y hs
  takeRemove s p hs := moneyOk_reads.frame (State.takeRemove_only s p) (by decide) hs
  writeBattery _ p e y hs := State.moneyOk_writeBattery p e y hs
  presetResult s e d hs := by
    unfold State.presetResult
    split
    · exact keeps_ite (P := State.moneyOk) (moneyOk_reads.frame (State.writeHire_only s _ _) (by decide) hs) hs
    · exact hs
  reconcile _ p x hs := State.moneyOk_reconcile p x hs
  rackFault _ r hs := State.moneyOk_rackFault r hs

/-! ## Restarts and the statement -/

theorem State.moneyOk_of_zero {s : State} (h : ∀ a : AcctId, ∃ x : Half, s.account a = { Account.zero with changes := x }) : s.moneyOk := by
  intro a
  obtain ⟨x, e⟩ := h a
  rw [e]
  exact Account.balanced_zero x

theorem State.moneyOk_completeStartup {s : State} (hs : s.moneyOk) : s.completeStartup.moneyOk := by
  refine keeps_ite (P := State.moneyOk) (State.moneyOk_of_zero fun a => ⟨0, ?_⟩) hs
  have same : s.powerOn.becomeReady.accounts = Vector.replicate 512 Account.zero := by
    unfold State.becomeReady
    dsimp only
    split <;> rfl
  simp [State.account, same, Account.zero]

theorem State.moneyOk_completeRestart {s : State} (hs : s.moneyOk) : s.completeRestart.moneyOk := by
  refine keeps_ite (P := State.moneyOk) (State.moneyOk_of_zero fun a => ⟨?_, ?_⟩) hs
  rotate_left
  · have same : ∀ u : State, u.softReset.becomeReady.accounts = u.accounts.map (fun r => { Account.zero with changes := r.changes + 2 }) := by
      intro u
      unfold State.becomeReady
      dsimp only
      split <;> rfl
    rw [State.account, same, Fin.getElem_fin, Vector.getElem_map]

theorem State.moneyOk_run (s : State) (i : Instr) (hs : s.moneyOk) : (s.run i).moneyOk := by
  have order (hi : i ∈ orderRows) : (s.run i).moneyOk :=
    moneyOk_reads.order (by decide) (fun k w hw u n hu => hw.moneyOk u n hu) hi hs
  have restart (v : Half) (e : ByteEnables) (w : Bool) : (s.restart v e w).moneyOk :=
    moneyOk_reads.restart (by decide) (fun k w hw u n hu => hw.moneyOk u n hu) v e w hs
  have frame (apart : ∀ f ∈ [StateField.accounts], f ∉ commandTouches i) : (s.run i).moneyOk := moneyOk_reads.run apart hs
  cases i with
  | startupComplete => exact State.moneyOk_completeStartup hs
  | softRestartComplete => exact State.moneyOk_completeRestart hs
  | restart v e w => exact restart v e w
  | ignoredRegisterWrite a v e =>
    exact portWrite_keeps a v e (moneyOk_reads.frame (s.post_only v e) (by decide) hs)
      (moneyOk_reads.frame (s.clearPending_only v e) (by decide) hs) (moneyOk_reads.frame (s.setEnabled_only v e) (by decide) hs)
      (restart v e false) hs
  | rackAnswer a => exact moneyOk_dockKeeps.rackAnswer moneyOk_reads (by decide) s a hs
  | inventoryAnswer inv =>
    exact moneyOk_dockKeeps.inventoryAnswer moneyOk_reads
      (fun u hu => moneyOk_reads.frame (State.raise_only u _) (by decide) hu) (by decide) s inv hs
  | answerWindowExpiry => exact moneyOk_dockKeeps.answerExpiry moneyOk_reads (by decide) s hs
  | reserveDeadlineExpiry h =>
    exact keeps_ite (P := State.moneyOk) (keeps_ite (P := State.moneyOk) (moneyOk_reads.frame (State.writeHire_only s h _) (by decide) hs)
      (State.moneyOk_endReservation h _ _ hs)) hs
  | unknownOrder | setNotice | setTimers | setLogPolicy | cancel | clearCountsLinks | clearCountsDocks | setClock | boothDefine | linkHold
  | linkRelease | boothIntake | seatAssign | channelDefine | channelClear | handover | setDistribution | issue | declareLost
  | retireReceiver | restoreReceiver | setTariff | accountOpen | accountPay | accountRefund | accountClose => exact order (by decide)
  | _ => exact frame (by dsimp only [commandTouches]; decide)

/-- Settles O60: every piece of work on an account keeps its law, and no command writes an account but by such pieces. -/
theorem stepsKeepTheMoneyLaw : Obligations.StepsKeepTheMoneyLaw :=
  fun _ _ step hs => moneyOk_reads.step (by decide) State.moneyOk_run step hs

end Sys2Proof.Machine
end

section
/-!
SUPPORT. The queue, the reset state, the reset input and the entry to READY: every record of the reset state by its power-on value, the laws
there, and the commands of section 1.9 that lead to READY.
-/
namespace Sys2Proof.Machine

/-! ## The records of the reset state -/

section

theorem get_replicate {α : Type} {k : Nat} (x : α) (i : Fin k) : (Vector.replicate k x)[i] = x := by simp

theorem State.reset_booth (b : BoothId) : State.reset.booth b = Booth.initial := get_replicate _ _
theorem State.reset_inside (b : BoothId) : State.reset.inside b = BoothInner.initial := get_replicate _ _
theorem State.reset_down (b : BoothId) : State.reset.down.get b = none := get_replicate none b
theorem State.reset_position (p : PosId) : State.reset.position p = Position.initial := get_replicate _ _
theorem State.reset_preset (p : PosId) : State.reset.presets.get p = none := get_replicate none p
theorem State.reset_rack (r : RackId) : State.reset.racks.get r = Rack.initial := get_replicate Rack.initial r
theorem State.reset_receiver (e : RecvId) : State.reset.receiver e = Receiver.zero := get_replicate _ _
theorem State.reset_hire (h : HireId) : State.reset.hire h = Hire.zero := get_replicate _ _
theorem State.reset_account (a : AcctId) : State.reset.account a = Account.zero := get_replicate _ _
theorem State.reset_tariff (k : TariffId) : State.reset.tariffs.get k = Tariff.zero := get_replicate Tariff.zero k

theorem State.reset_channel (c : ChannelId) : State.reset.channel c = if c = 0 then Channel.floorInitial else Channel.initial := by
  have set := get_set (Vector.replicate 32 Channel.initial) 0 c Channel.floorInitial
  rwa [get_replicate] at set

end

/-! ## The laws at reset -/

theorem State.reset_logOk : State.reset.logOk := ⟨rfl, by decide, fun h => absurd rfl h⟩

theorem State.reset_holder (n : SlotId) : State.reset.holder n = Holder.empty := by
  show (0 : Byte) ++ (0 : Byte) = Holder.empty
  rfl

theorem State.reset_slotsOk : State.reset.slotsOk := by
  refine ⟨rfl, List.nodup_nil, List.nodup_nil, fun n => ?_, fun n => ?_, fun n => ?_, fun _ => ⟨rfl, rfl⟩⟩
  · rw [State.reset_holder]
    exact ⟨fun h => absurd h List.not_mem_nil, fun h => absurd h (by decide)⟩
  · rw [State.reset_holder]
    exact ⟨fun h => absurd h List.not_mem_nil, fun h => absurd h (by decide)⟩
  · rw [State.reset_holder]
    decide

/-- With every intake at the floor there is no edge (R89). -/
theorem relayLaw_of_floor {chs : Vector Channel 32} {intakes : Vector ChannelId 24} (h : ∀ b : BoothId, intakes[b] = 0) :
    relayLaw chs intakes = true := by
  have none : ∀ x, relayNext chs intakes x = [] := fun x => by simp only [relayNext, h x, ne_eq, not_true_eq_false, false_and, if_false]
  simp only [relayLaw, none, List.all_nil, List.all_eq_true, implies_true]

theorem State.intakes_get (s : State) (b : BoothId) : s.intakes[b] = (s.booth b).role.intake := by
  simp [State.intakes, State.booth]

theorem State.reset_relayOk : State.reset.relayOk :=
  relayLaw_of_floor fun b => by rw [State.intakes_get, State.reset_booth]; rfl

theorem State.reset_namingOk : State.reset.namingOk := by
  have unnamed (c : ChannelId) : (State.reset.channel c).primary = none ∧ (State.reset.channel c).partner = none := by
    rw [State.reset_channel]
    split <;> exact ⟨rfl, rfl⟩
  refine ⟨by rw [State.reset_channel]; rfl, (unnamed 0).1, (unnamed 0).2, fun c _ => unnamed c, fun b c => ?_⟩
  rw [(unnamed c).1, (unnamed c).2, State.reset_booth]
  simp [Booth.initial, RoleFields.initial]

theorem State.reset_consolesOk : State.reset.consolesOk := by
  intro b
  rw [State.reset_booth]
  refine ⟨by decide, by decide, fun _ => ⟨rfl, rfl, rfl⟩, fun n h => ?_, fun n h => ?_⟩
  · simp [Booth.initial, ConsoleFields.initial] at h
  · have idle : (Booth.initial.cons.console n).turn = .idle := by simp [Booth.initial, ConsoleFields.initial, ConsoleRec.initial]
    exact nomatch idle.symm.trans h

theorem State.reset_hiresOk : State.reset.hiresOk := by
  have entry (e : RecvId) : (State.reset.receiver e).serial = 0 ∧ (State.reset.receiver e).state = .unenrolled := by
    rw [State.reset_receiver]
    exact ⟨rfl, rfl⟩
  have hire (h : HireId) : (State.reset.hire h).state = .free := by rw [State.reset_hire]; rfl
  refine ⟨fun e => by simp only [entry], fun h => by simp only [hire, reduceCtorEq, false_implies],
    fun h => by simp only [hire, reduceCtorEq, false_implies], fun e => by simp only [entry, reduceCtorEq, false_implies],
    fun e => by simp only [entry, reduceCtorEq, or_self, false_implies],
    fun e => by simp only [entry, reduceCtorEq, or_self, false_implies], List.nodup_nil, fun _ h => absurd h List.not_mem_nil, List.nodup_nil, fun h => ?_⟩
  rw [hire]
  exact ⟨fun h => (nomatch h), fun h => absurd h List.not_mem_nil⟩

theorem State.reset_racksOk : State.reset.racksOk := by
  refine ⟨fun p => ?_, fun x h => nomatch h⟩
  rw [State.reset_position, State.reset_rack]
  decide

theorem State.reset_docksOk : State.reset.docksOk := by
  have entry (e : RecvId) : (State.reset.receiver e).serial = 0 ∧ (State.reset.receiver e).state = .unenrolled := by
    rw [State.reset_receiver]
    exact ⟨rfl, rfl⟩
  have place (p : PosId) : (State.reset.position p).state = .empty ∧ (State.reset.position p).entry = none := by
    rw [State.reset_position]
    exact ⟨rfl, rfl⟩
  exact ⟨fun e d => by simp only [entry, ne_eq, not_true_eq_false, false_implies],
    fun p q e => by simp only [place, reduceCtorEq, false_implies], fun p e => by simp only [place, reduceCtorEq, false_implies],
    fun e => by simp only [entry, reduceCtorEq, or_self, false_implies],
    fun p => by simp only [place, reduceCtorEq, false_implies, implies_true, and_self]⟩

theorem State.reset_accountsOk : State.reset.accountsOk := by
  have hires : State.reset.hires.toList = List.replicate 1024 Hire.zero := Vector.toList_replicate
  intro a
  have idle : Hire.zero.runsOn a = false := rfl
  have hire (h : HireId) : (State.reset.hire h).state = .free := by rw [State.reset_hire]; rfl
  rw [hires, State.reset_account, List.countP_replicate, List.filter_replicate, idle]
  refine ⟨rfl, rfl, Nat.le_refl 0, Nat.le_refl 0, Nat.zero_le _, Nat.zero_le _, ?_, fun h => (nomatch h), fun _ => rfl⟩
  decide

theorem State.reset_moneyOk : State.reset.moneyOk := State.moneyOk_of_zero fun a => ⟨0, State.reset_account a⟩

/-- Settles O3: each law from the power-on values. -/
theorem resetIsLawful : Obligations.ResetIsLawful :=
  ⟨State.reset_logOk, Nat.zero_le 16, (by decide : (1 : BitVec 32) ≠ 0), State.reset_slotsOk, State.reset_relayOk, State.reset_namingOk, State.reset_consolesOk,
    State.reset_hiresOk, State.reset_racksOk, State.reset_docksOk, State.reset_accountsOk, State.reset_moneyOk⟩

/-! ## The queue and the reset state -/

/-- Settles O1: the step by its two cases; no word spells a command. -/
theorem stepRunsFrontCommand : Obligations.StepRunsFrontCommand := by
  refine ⟨fun c rest s => rfl, fun s idle => ?_, fun s nbits w => ⟨rfl, rfl⟩⟩
  rw [step, idle]

/-- The staged plan of the reset values is the one computed from them: mode OFF grants no slot (R92, R96). -/
theorem computePlan_reset : computePlan .stopped .standard State.reset.channels = Plan.floorOnly := rfl

/-- Settles O2: each table by the value of its records. -/
theorem resetLeavesPowerOnValues : Obligations.ResetLeavesPowerOnValues := by
  refine ⟨rfl, rfl, rfl, rfl, rfl, fun a => rfl, rfl, rfl, fun b => ⟨State.reset_booth b, State.reset_inside b, State.reset_down b⟩,
    fun c => ?channel, rfl, ?framer, fun p => ⟨State.reset_position p, State.reset_preset p⟩, State.reset_rack, rfl,
    State.reset_receiver, State.reset_hire, rfl, State.reset_account, State.reset_tariff, rfl⟩
  case channel =>
    rw [State.reset_channel]
    by_cases h : c = 0
    · simp only [h, if_true, decide_true]
      rfl
    · simp only [h, if_false, decide_false]
      rfl
  case framer =>
    rw [computePlan_reset]
    rfl

/-! ## The reset input and the entry to READY -/

theorem State.becomeReady_of_invalid {s : State} (h : s.clock.valid = false) :
    s.becomeReady = (({ s with part := .ready } : State).bumpHeader.snapshot).raise .clock := by
  unfold State.becomeReady
  simp [h]

theorem State.tick_of_release {s : State} (h : s.resetLow = false) (within : s.clock.run + 1 < 2 ^ 48) :
    s.tick = { s with clock := { s.clock with run := s.clock.run + 1, markDue := decide ((s.clock.run + 1) % 1024 = 0) } } := by
  have past : ¬ 2 ^ 48 ≤ s.clock.run + 1 := by omega
  have positive : decide (0 < s.clock.run + 1) = true := decide_eq_true (Nat.succ_pos _)
  unfold State.tick
  dsimp only
  rw [if_neg (by simp [h]), if_neg past, if_neg past, positive, Bool.true_and]

theorem State.tick_past_end {s : State} (h : s.resetLow = false) (past : 2 ^ 48 ≤ s.clock.run + 1) :
    ∃ (v : BitVec 48) (due : Bool), s.tick = { s with clock := { s.clock with run := v.toNat, markDue := due }, draws := s.draws + 1 } := by
  refine ⟨Config.runCounterAfterEnd s.draws, decide (0 < (Config.runCounterAfterEnd s.draws).toNat)
    && decide ((Config.runCounterAfterEnd s.draws).toNat % 1024 = 0), ?_⟩
  unfold State.tick
  dsimp only
  rw [if_neg (by simp [h]), if_pos past, if_pos past]

/-- Settles O10: each command by its branches; at STARTUP_COMPLETE the power-on values, then the entry to READY with the clock not valid. -/
theorem resetInputAndStartup : Obligations.ResetInputAndStartup := by
  refine ⟨fun s => rfl, fun s low => ?_, fun s high => ?_, fun s low => ?_, fun s high within => ?_, fun s high past => ?_,
    fun s starting high => ?_, fun s not => ?_⟩
  · exact congrArg Host.Outcome.next (by simp only [State.releaseReset, low, if_true])
  · exact congrArg Host.Outcome.next (by simp only [State.releaseReset, high, Bool.false_eq_true, if_false])
  · exact congrArg Host.Outcome.next (by simp only [State.tick, low, if_true])
  · exact congrArg Host.Outcome.next (State.tick_of_release high within)
  · obtain ⟨v, due, e⟩ := State.tick_past_end high past
    exact ⟨v, due, congrArg Host.Outcome.next e⟩
  · refine congrArg Host.Outcome.next ((if_pos ⟨starting, high⟩).trans ?_)
    rw [State.becomeReady_of_invalid rfl]
    rfl
  · refine congrArg Host.Outcome.next (if_neg fun h => ?_)
    rcases not with other | low
    · exact other h.1
    · exact nomatch low.symm.trans h.2

end Sys2Proof.Machine
end

section
/-!
SUPPORT. The parallel memory port: where a host write falls and what it does there (R1 to R6, R19), and what a host read gives (R1, R3).
-/
namespace Sys2Proof.Machine

/-! ## Where an offset stands -/

theorem slotAt_slotBase (n : SlotId) {k : Nat} (hk : k < 64) : slotAt (slotBase n + k) = some (n, k) := by
  have slot : index? 32 ((slotBase n + k - 0x200) / 64) = some n := index?_eq_some.mpr (by unfold slotBase; omega)
  have rest : (slotBase n + k - 0x200) % 64 = k := by unfold slotBase; omega
  have within : 0x200 ≤ slotBase n + k := by unfold slotBase; omega
  simp [slotAt, slot, rest, within]

theorem slotAt_eq_some {o k : Nat} {n : SlotId} (h : slotAt o = some (n, k)) : o = slotBase n + k ∧ k < 64 := by
  unfold slotAt at h
  split at h
  · obtain ⟨m, slot, e⟩ := Option.map_eq_some_iff.mp h
    rw [index?_eq_some] at slot
    obtain ⟨rfl, rfl⟩ := Prod.mk.inj e
    unfold slotBase
    omega
  · cases h

theorem hostsField_iff {k : Nat} : hostsField k = true ↔ k = 2 ∨ k = 4 ∨ 0x0A ≤ k ∧ k < 0x32 := by
  simp [hostsField, or_assoc]

theorem State.slotOpen_iff {s : State} {n : SlotId} :
    s.slotOpen n = true ↔ s.holder n = Holder.empty ∨ s.holder n = Holder.posted ∨ s.holder n = Holder.done := by
  simp [State.slotOpen, or_assoc]

/-! ## Host writes -/

section
variable {s : State}

theorem State.hostWrite_of_not_ready (h : s.part ≠ .ready) (o : Nat) (v : Half) (e : ByteEnables) : s.hostWrite o v e = s := if_pos h

theorem State.hostWrite_slot (h : s.part = .ready) (n : SlotId) {k : Nat} (hk : k < 64) (v : Half) (e : ByteEnables) :
    s.hostWrite (slotBase n + k) v e = s.writeSlot n k v e := by
  have bounds := slotBase_lt n
  unfold State.hostWrite
  rw [if_neg (by simp [h]), if_neg (by omega), if_neg (by omega), slotAt_slotBase n hk]

theorem State.hostWrite_holder (h : s.part = .ready) (n : SlotId) (v : Half) (e : ByteEnables) :
    s.hostWrite (slotBase n) v e = s.writeHolder n v e :=
  (State.hostWrite_slot h n (k := 0) (by decide) v e).trans (if_pos rfl)

/-- A write of a halfword the host owns (R2, R5). -/
theorem State.hostWrite_owned (h : s.part = .ready) {o : Nat} (owned : s.hostMay o) (v : Half) (e : ByteEnables) :
    s.hostWrite o v e = { s with mem := s.mem.writeEnabled o v e } := by
  rcases owned with ⟨low, high⟩ | ⟨n, k, rfl, field, open_⟩
  · unfold State.hostWrite
    rw [if_neg (by simp [h]), if_neg (by omega), if_pos ⟨by omega, high⟩]
  · rw [State.hostWrite_slot h n (by omega)]
    unfold State.writeSlot
    rw [if_neg (by omega), if_pos ⟨hostsField_iff.mpr field, State.slotOpen_iff.mpr open_⟩]

/-- A write anywhere else, but for the halfwords that have a row of their own, is a guard hit (R2). -/
theorem State.hostWrite_guarded (h : s.part = .ready) {o : Nat} (even : o % 2 = 0) (plain : isSpecialHalf o = false)
    (foreign : ¬ s.hostMay o) (v : Half) (e : ByteEnables) : s.hostWrite o v e = s.guarded := by
  simp only [isSpecialHalf, Bool.or_eq_false_iff, beq_eq_false_iff_ne, Bool.and_eq_false_iff, decide_eq_false_iff_not] at plain
  have spare : ¬ (0x100 ≤ o ∧ o < 0x200) := fun inside => foreign (.inl ⟨by omega, inside.2⟩)
  cases slot : slotAt o with
  | none =>
    unfold State.hostWrite
    rw [if_neg (by simp [h]), if_neg plain.1, if_neg spare, slot]
    rfl
  | some x =>
    obtain ⟨n, k⟩ := x
    obtain ⟨rfl, hk⟩ := slotAt_eq_some slot
    have bounds := slotBase_lt n
    have field : k ≠ 0 := by
      rintro rfl
      unfold slotBase at plain
      omega
    rw [State.hostWrite_slot h n hk]
    unfold State.writeSlot
    rw [if_neg field, if_neg fun may => foreign (.inr ⟨n, k, rfl, hostsField_iff.mp may.1, State.slotOpen_iff.mp may.2⟩)]
    rfl

/-- A holder word takes POSTED over EMPTY and EMPTY over DONE (R4). -/
theorem State.writeHolder_taken {n : SlotId} {v : Half} {e : ByteEnables} (both : e.both = true)
    (h : (s.holder n = Holder.empty ∧ v = Holder.posted) ∨ (s.holder n = Holder.done ∧ v = Holder.empty)) :
    s.writeHolder n v e = s.setHolder n v := by
  unfold State.writeHolder
  rcases h with ⟨old, rfl⟩ | ⟨old, rfl⟩
  · rw [if_pos ⟨both, old, rfl⟩]
  · rw [if_neg fun x => (by decide : ¬ Holder.empty = Holder.posted) x.2.2, if_pos ⟨both, old, rfl⟩]

theorem State.writeHolder_guarded {n : SlotId} {v : Half} {e : ByteEnables}
    (h : ¬ (e.both = true ∧ ((s.holder n = Holder.empty ∧ v = Holder.posted) ∨ (s.holder n = Holder.done ∧ v = Holder.empty)))) :
    s.writeHolder n v e = s.guarded := by
  unfold State.writeHolder
  rw [if_neg fun x => h ⟨x.1, .inl x.2⟩, if_neg fun x => h ⟨x.1, .inr x.2⟩]
  rfl

/-- A holder word written leaves every byte but its two (section 1.3). -/
theorem State.setHolder_bytes (h : s.memOk) (n : SlotId) (v : Half) :
    (s.setHolder n v).mem.read16 (slotBase n) = v
      ∧ ∀ x : Nat, x ≠ slotBase n → x ≠ slotBase n + 1 → (s.setHolder n v).mem.read8 x = s.mem.read8 x :=
  ⟨Memory.read16_write16 h _ _, fun x low high => s.setHolder_read8 n v x h (by omega)⟩

theorem State.complete_holder (h : s.memOk) (n : SlotId) (r : Result) : (s.complete n r).holder n = Holder.done :=
  (s.complete_shows n r h).1

/-- Settles O5: the two writes that are taken, every other a guard hit, and the two orders of a write and a completion. -/
theorem holderWordCycle : Obligations.HolderWordCycle := by
  refine ⟨fun n v e s other => congrArg Host.Outcome.next (State.hostWrite_of_not_ready other _ v e), fun n v e s ready mem => ?_⟩
  have written (u : State) (hu : u.part = .ready) : exec (.holderWordWrite n v e) u = .next (u.writeHolder n v e) :=
    congrArg Host.Outcome.next (State.hostWrite_holder hu n v e)
  refine ⟨fun ⟨both, taken⟩ => ?_, fun foreign => ?_, fun r both empty => ?_, fun r held => ?_⟩
  · obtain ⟨word, rest⟩ := State.setHolder_bytes mem n v
    exact ⟨(s.setHolder n v).mem, by rw [written s ready, State.writeHolder_taken both taken]; rfl, word, rest⟩
  · rw [written s ready, State.writeHolder_guarded foreign]
  · have done := State.complete_holder mem n r
    refine ⟨_, written (s.complete n r) ready, ?_⟩
    rw [State.writeHolder_taken both (.inr ⟨done, empty⟩), empty]
    exact Memory.read16_write16 (s.complete_wf n r mem) _ _
  · have foreign : ¬ (e.both = true ∧ ((s.holder n = Holder.empty ∧ v = Holder.posted) ∨ (s.holder n = Holder.done ∧ v = Holder.empty))) := by
      rintro ⟨-, ⟨old, -⟩ | ⟨old, -⟩⟩ <;> rw [old] at held <;> revert held <;> decide
    refine ⟨_, written s ready, ?_⟩
    rw [State.writeHolder_guarded foreign]
    exact State.complete_holder (s := s.guarded) mem n r

/-! ## Posts -/

/-- Settles O6: by the byte enables, the slot the number names, its holder word and the part state. -/
theorem postQueuesPostedSlots : Obligations.PostQueuesPostedSlots := by
  refine fun v e s mem => ⟨fun one => ?_, fun n both ready number posted => ?_, fun both refused => ?_⟩
  · exact congrArg Host.Outcome.next (if_pos one)
  · obtain ⟨word, rest⟩ := State.setHolder_bytes mem n Holder.queued
    refine ⟨(s.setHolder n Holder.queued).mem, congrArg Host.Outcome.next ?_, word, rest⟩
    have named : index? 32 v.toNat = some n := index?_eq_some.mpr number
    unfold State.post
    rw [if_neg (by simp [both]), named]
    exact if_pos ⟨ready, posted⟩
  · refine congrArg Host.Outcome.next ?_
    unfold State.post
    rw [if_neg (by simp [both])]
    split
    · rename_i n named
      refine if_neg fun taken => ?_
      rcases refused with other | none
      · exact other taken.1
      · exact none n (index?_eq_some.mp named) taken.2
    · rfl

end

/-! ## Host reads -/

theorem counterAt_of_eq {k o base size : Nat} {counters : Fin k → Half} (pos : 0 < size) {i : Fin k} (h : o = base + size * i.val) :
    counterAt o base size counters = some (counters i) := by
  subst h
  have rest : (base + size * i.val - base) % size = 0 := by rw [Nat.add_sub_cancel_left, Nat.mul_mod_right]
  have named : index? k ((base + size * i.val - base) / size) = some i :=
    index?_eq_some.mpr (by rw [Nat.add_sub_cancel_left, Nat.mul_div_cancel_left _ pos])
  rw [counterAt, if_pos ⟨Nat.le_add_right _ _, rest⟩, named]
  rfl

theorem counterAt_of_outside {k o base size : Nat} (counters : Fin k → Half) (pos : 0 < size) (h : o < base ∨ base + size * k ≤ o) :
    counterAt o base size counters = none := by
  unfold counterAt
  split
  · have beyond : k ≤ (o - base) / size := (Nat.le_div_iff_mul_le pos).mpr (by rw [Nat.mul_comm]; omega)
    rw [index?_eq_none.mpr beyond]
    rfl
  · rfl

theorem getD_leBytes : ∀ (k n i : Nat), i < k → (leBytes k n).getD i 0 = BitVec.ofNat 8 (n / 256 ^ i)
  | k + 1, n, 0, _ => by simp [leBytes]
  | k + 1, n, i + 1, h => by
    have ih := getD_leBytes k (n / 256) i (by omega)
    rw [leBytes, List.getD_cons_succ, ih, Nat.div_div_eq_div_mul, Nat.pow_succ, Nat.mul_comm (256 ^ i)]

/-- Two bytes of a number make its halfword. -/
theorem ofNat_bytes (n : Nat) : BitVec.ofNat 8 (n / 256) ++ BitVec.ofNat 8 n = BitVec.ofNat 16 n := by
  apply BitVec.eq_of_toNat_eq
  simp only [BitVec.toNat_append, BitVec.toNat_ofNat, Nat.shiftLeft_eq]
  rw [← Nat.shiftLeft_eq, ← Nat.shiftLeft_add_eq_or_of_lt (by omega), Nat.shiftLeft_eq]
  omega

section
variable (s : State)

theorem State.exchangeRead_header {w : Nat} (h : w < 128) :
    s.exchangeRead (BitVec.ofNat 17 w) = some (s.headerBytes.getD (2 * w + 1) 0 ++ s.headerBytes.getD (2 * w) 0) := by
  have offset : byteOffset (BitVec.ofNat 17 w) = 2 * w := by
    rw [byteOffset, BitVec.toNat_ofNat, Nat.mod_eq_of_lt (by omega)]
  unfold State.exchangeRead
  rw [offset]
  exact if_pos (by omega)

/-- A field of the header that stands at an even offset, read halfword by halfword. -/
theorem State.headerField_read {o k v : Nat} (even : o % 2 = 0) (within : o + 2 * k ≤ 256)
    (stands : (s.headerBytes.drop o).take (2 * k) = leBytes (2 * k) v) (j : Nat) (hj : j < k) :
    s.exchangeRead (BitVec.ofNat 17 (o / 2 + j)) = some (BitVec.ofNat 16 (v / 65536 ^ j)) := by
  have byte (i : Nat) (hi : i < 2 * k) : s.headerBytes.getD (o + i) 0 = BitVec.ofNat 8 (v / 256 ^ i) := by
    rw [← getD_leBytes (2 * k) v i hi, ← stands]
    simp [List.getD_eq_getElem?_getD, hi]
  have power : 256 ^ (2 * j) = 65536 ^ j := by rw [Nat.pow_mul]
  rw [s.exchangeRead_header (by omega), show 2 * (o / 2 + j) + 1 = o + (2 * j + 1) by omega, show 2 * (o / 2 + j) = o + 2 * j by omega,
    byte _ (by omega), byte _ (by omega), Nat.pow_succ, ← Nat.div_div_eq_div_mul, power, ofNat_bytes]

theorem State.exchangeRead_bytes {a : BitVec 17} (h : (0x100 ≤ byteOffset a ∧ byteOffset a < 0xA00) ∨ 0x30000 ≤ byteOffset a) :
    s.exchangeRead a = some (s.mem.read16 (byteOffset a)) := by
  have outside : outsideRegions (byteOffset a) = false := by
    simp only [outsideRegions, Bool.or_eq_false_iff, Bool.and_eq_false_iff, decide_eq_false_iff_not]
    omega
  have held : heldAsBytes (byteOffset a) = true := by
    simpa only [heldAsBytes, Bool.or_eq_true, Bool.and_eq_true, decide_eq_true_eq] using h
  unfold State.exchangeRead
  dsimp only
  rw [if_neg (by omega), outside, if_neg (by decide), if_pos held]

theorem State.exchangeRead_outside {a : BitVec 17} (h : (0xA00 ≤ byteOffset a ∧ byteOffset a < 0x1000)
    ∨ (0x4D00 ≤ byteOffset a ∧ byteOffset a < 0x5000) ∨ (0x7800 ≤ byteOffset a ∧ byteOffset a < 0x8000)) :
    s.exchangeRead a = some 0 := by
  have outside : outsideRegions (byteOffset a) = true := by
    simpa only [outsideRegions, Bool.or_eq_true, Bool.and_eq_true, decide_eq_true_eq, or_assoc] using h
  unfold State.exchangeRead
  dsimp only
  rw [if_neg (by omega), if_pos outside]

/-- The records that are given by their fields stand between 0x1000 and 0x30000, apart from the offsets outside all regions. -/
theorem State.exchangeRead_counter {a : BitVec 17} (low : 0x1000 ≤ byteOffset a) (high : byteOffset a < 0x30000)
    (inside : ¬ ((0x4D00 ≤ byteOffset a ∧ byteOffset a < 0x5000) ∨ (0x7800 ≤ byteOffset a ∧ byteOffset a < 0x8000))) :
    s.exchangeRead a = s.counterRead (byteOffset a) := by
  have outside : outsideRegions (byteOffset a) = false := by
    simp only [outsideRegions, Bool.or_eq_false_iff, Bool.and_eq_false_iff, decide_eq_false_iff_not]
    omega
  have held : heldAsBytes (byteOffset a) = false := by
    simp only [heldAsBytes, Bool.or_eq_false_iff, Bool.and_eq_false_iff, decide_eq_false_iff_not]
    omega
  unfold State.exchangeRead
  dsimp only
  rw [if_neg (by omega), outside, held, if_neg (by decide), if_neg (by decide)]

end

section
variable (s : State)

/-- The tables of the records given by their fields follow one another; an offset behind the first `i` of them is in none of these. -/
theorem counterRead_skip {α : Type} {x y : Option α} (none : x = none) : (x <|> y) = y := by rw [none]; rfl

theorem counterRead_stop {α : Type} {x y : Option α} {v : α} (found : x = some v) : (x <|> y) = some v := by rw [found]; rfl

theorem State.counterRead_booths (b : BoothId) {o : Nat} (h : o = 0x1000 + 512 * b.val) : s.counterRead o = some (s.booth b).changes := by
  have bound := b.isLt
  unfold State.counterRead
  exact counterRead_stop (counterAt_of_eq (by decide) h)

theorem State.counterRead_channels (c : ChannelId) {o : Nat} (h : o = 0x4000 + 64 * c.val) : s.counterRead o = some (s.channel c).changes := by
  have bound := c.isLt
  unfold State.counterRead
  rw [counterRead_skip (counterAt_of_outside _ (by decide) (by omega))]
  exact counterRead_stop (counterAt_of_eq (by decide) h)

theorem State.counterRead_framer {o : Nat} (h : o = 0x4800) : s.counterRead o = some s.framer.changes := by
  unfold State.counterRead
  rw [counterRead_skip (counterAt_of_outside _ (by decide) (by omega))]
  rw [counterRead_skip (counterAt_of_outside _ (by decide) (by omega))]
  exact counterRead_stop (counterAt_of_eq (i := 0) (by decide) h)

theorem State.counterRead_tariffs (k : TariffId) {o : Nat} (h : o = 0x4C00 + 64 * k.val) : s.counterRead o = some (s.tariffs.get k).changes := by
  have bound := k.isLt
  unfold State.counterRead
  rw [counterRead_skip (counterAt_of_outside _ (by decide) (by omega))]
  rw [counterRead_skip (counterAt_of_outside _ (by decide) (by omega))]
  rw [counterRead_skip (counterAt_of_outside _ (by decide) (by omega))]
  exact counterRead_stop (counterAt_of_eq (by decide) h)

theorem State.counterRead_positions (p : PosId) {o : Nat} (h : o = 0x5000 + 32 * p.val) : s.counterRead o = some (s.position p).changes := by
  have bound := p.isLt
  unfold State.counterRead
  rw [counterRead_skip (counterAt_of_outside _ (by decide) (by omega))]
  rw [counterRead_skip (counterAt_of_outside _ (by decide) (by omega))]
  rw [counterRead_skip (counterAt_of_outside _ (by decide) (by omega))]
  rw [counterRead_skip (counterAt_of_outside _ (by decide) (by omega))]
  exact counterRead_stop (counterAt_of_eq (by decide) h)

theorem State.counterRead_accounts (a : AcctId) {o : Nat} (h : o = 0x8000 + 64 * a.val) : s.counterRead o = some (s.account a).changes := by
  have bound := a.isLt
  unfold State.counterRead
  rw [counterRead_skip (counterAt_of_outside _ (by decide) (by omega))]
  rw [counterRead_skip (counterAt_of_outside _ (by decide) (by omega))]
  rw [counterRead_skip (counterAt_of_outside _ (by decide) (by omega))]
  rw [counterRead_skip (counterAt_of_outside _ (by decide) (by omega))]
  rw [counterRead_skip (counterAt_of_outside _ (by decide) (by omega))]
  exact counterRead_stop (counterAt_of_eq (by decide) h)

theorem State.counterRead_hires (k : HireId) {o : Nat} (h : o = 0x10000 + 64 * k.val) : s.counterRead o = some (s.hire k).changes := by
  have bound := k.isLt
  unfold State.counterRead
  rw [counterRead_skip (counterAt_of_outside _ (by decide) (by omega))]
  rw [counterRead_skip (counterAt_of_outside _ (by decide) (by omega))]
  rw [counterRead_skip (counterAt_of_outside _ (by decide) (by omega))]
  rw [counterRead_skip (counterAt_of_outside _ (by decide) (by omega))]
  rw [counterRead_skip (counterAt_of_outside _ (by decide) (by omega))]
  rw [counterRead_skip (counterAt_of_outside _ (by decide) (by omega))]
  exact counterRead_stop (counterAt_of_eq (by decide) h)

theorem State.counterRead_receivers (e : RecvId) {o : Nat} (h : o = 0x20000 + 32 * e.val) : s.counterRead o = some (s.receiver e).changes := by
  have bound := e.isLt
  unfold State.counterRead
  rw [counterRead_skip (counterAt_of_outside _ (by decide) (by omega))]
  rw [counterRead_skip (counterAt_of_outside _ (by decide) (by omega))]
  rw [counterRead_skip (counterAt_of_outside _ (by decide) (by omega))]
  rw [counterRead_skip (counterAt_of_outside _ (by decide) (by omega))]
  rw [counterRead_skip (counterAt_of_outside _ (by decide) (by omega))]
  rw [counterRead_skip (counterAt_of_outside _ (by decide) (by omega))]
  rw [counterRead_skip (counterAt_of_outside _ (by decide) (by omega))]
  exact counterAt_of_eq (by decide) h

end

/-- The fields of the header in order, each with its number of bytes (section 1.2). -/
def State.headerFields (s : State) : List (Nat × Nat) :=
  [(2, s.header.changes.toNat), (2, 0x2432), (2, 1), (2, s.part.code), (6, s.header.snapTicks), (2, if s.clock.valid then 1 else 0),
   (4, s.header.snapSeconds), (2, s.header.snapFraction), (2, 0), (4, s.header.postRefused), (4, s.header.guardHits),
   (2, s.log.writeCount.toNat), (2, s.log.policy.code.toNat), (4, s.log.lost), (4, s.notices.base.toNat), (2, s.notices.stride.toNat),
   (2, 0)] ++ (s.timers.list.map (fun v => (2, v)) ++ ((2, 0) :: s.beacons.list.map (fun v => (4, v))))

/-- The bytes of fields in order. -/
def fieldBytes (l : List (Nat × Nat)) : List Byte := l.flatMap (fun f => leBytes f.1 f.2)

theorem fieldBytes_length (l : List (Nat × Nat)) : (fieldBytes l).length = (l.map Prod.fst).sum := by
  simp [fieldBytes, List.length_flatMap]

/-- A field stands behind those before it. -/
theorem fieldBytes_slice : ∀ {l : List (Nat × Nat)} {i k v : Nat}, l[i]? = some (k, v) →
    ((fieldBytes l).drop ((l.take i).map Prod.fst).sum).take k = leBytes k v
  | [], i, k, v, h => by simp at h
  | f :: l, 0, k, v, h => by
    have e : f = (k, v) := by simpa using h
    subst e
    simp [fieldBytes]
  | f :: l, i + 1, k, v, h => by
    have ih := fieldBytes_slice (l := l) (i := i) (by simpa using h)
    have rest (n : Nat) : (fieldBytes (f :: l)).drop (f.1 + n) = (fieldBytes l).drop n := by
      have skip := List.drop_length_add_append (l₁ := leBytes f.1 f.2) (l₂ := fieldBytes l) n
      rwa [leBytes_length] at skip
    rw [List.take_succ_cons, List.map_cons, List.sum_cons, rest]
    exact ih

theorem State.headerBytes_eq (s : State) : s.headerBytes = padTo 256 (fieldBytes s.headerFields) := by
  simp only [State.headerBytes, State.headerFields, fieldBytes, halfBytes, List.flatMap_append, List.flatMap_cons, List.flatMap_nil,
    List.flatMap_map, List.append_assoc, List.append_nil]

theorem State.headerFields_sum (s : State) : (s.headerFields.map Prod.fst).sum = 128 := by
  simp [State.headerFields, Timers.list, BeaconCounts.list]

/-- A field of the header stands at the sum of the sizes before it. -/
theorem State.headerBytes_field (s : State) {i k v o : Nat} (field : s.headerFields[i]? = some (k, v))
    (place : ((s.headerFields.take i).map Prod.fst).sum = o) (within : o + k ≤ 128) :
    (s.headerBytes.drop o).take k = leBytes k v := by
  have length : (fieldBytes s.headerFields).length = 128 := by rw [fieldBytes_length, s.headerFields_sum]
  rw [s.headerBytes_eq, ← fieldBytes_slice field, place, padTo, List.drop_take, List.take_take, List.drop_append, length,
    List.take_append_of_le_length (by simp only [List.length_drop, length]; omega), Nat.min_eq_left (by omega)]

/-- Behind its fields the header is zero (section 1.2). -/
theorem State.headerBytes_rest (s : State) : (s.headerBytes.drop 0x80).take 128 = leBytes 128 0 := by
  have length : (fieldBytes s.headerFields).length = 128 := by rw [fieldBytes_length, s.headerFields_sum]
  have zeros : leBytes 128 0 = List.replicate 128 0 := by decide
  rw [s.headerBytes_eq, zeros, padTo, List.drop_take, List.drop_append, length, List.drop_eq_nil_of_le (by rw [length]), List.nil_append, List.drop_zero,
    List.take_take, List.take_replicate]
  rfl

/-- A field of the header, read halfword by halfword. -/
theorem State.headerField_reads (s : State) (i : Nat) {o k v : Nat} (field : s.headerFields[i]? = some (2 * k, v))
    (place : ((s.headerFields.take i).map Prod.fst).sum = o) (even : o % 2 = 0) (within : o + 2 * k ≤ 128) (j : Nat) (hj : j < k) :
    s.exchangeRead (BitVec.ofNat 17 (o / 2 + j)) = some (BitVec.ofNat 16 (v / 65536 ^ j)) :=
  s.headerField_read even (by omega) (s.headerBytes_field field place within) j hj

/-- Settles O4: a write by who owns its halfword; a read by its region, the header's fields by their places in its bytes. -/
theorem exchangeWriteObeysOwnership : Obligations.ExchangeWriteObeysOwnership := by
  refine ⟨fun a v e s plain mem => ⟨fun other => ?_, fun ready owned => ?_, fun ready foreign => ?_⟩, fun a s => ?reads, fun s => ?header⟩
  · exact congrArg Host.Outcome.next (State.hostWrite_of_not_ready other _ v e)
  · refine ⟨s.mem.writeEnabled (byteOffset a) v e, congrArg Host.Outcome.next (State.hostWrite_owned ready owned v e), fun x => ?_⟩
    rw [Memory.read8_writeEnabled mem]
    by_cases low : x = byteOffset a
    · subst low
      simp
    · simp [low]
  · have special : isSpecialHalf (byteOffset a) = false := by simpa [Instr.wellFormed] using plain
    exact congrArg Host.Outcome.next (State.hostWrite_guarded ready (by unfold byteOffset; omega) special foreign v e)
  case reads =>
    have within : byteOffset a < 0x40000 := by have := a.isLt; unfold byteOffset; omega
    refine ⟨s.exchangeRead_outside, s.exchangeRead_bytes, fun b at_ => ?_, fun c at_ => ?_, fun at_ => ?_, fun k at_ => ?_, fun p at_ => ?_,
      fun k at_ => ?_, fun h at_ => ?_, fun d at_ => ?_⟩
    · have bound := b.isLt
      rw [s.exchangeRead_counter (by omega) (by omega) (by omega), s.counterRead_booths b at_]
    · have bound := c.isLt
      rw [s.exchangeRead_counter (by omega) (by omega) (by omega), s.counterRead_channels c at_]
    · rw [s.exchangeRead_counter (by omega) (by omega) (by omega), s.counterRead_framer at_]
    · have bound := k.isLt
      rw [s.exchangeRead_counter (by omega) (by omega) (by omega), s.counterRead_tariffs k at_]
    · have bound := p.isLt
      rw [s.exchangeRead_counter (by omega) (by omega) (by omega), s.counterRead_positions p at_]
    · have bound := k.isLt
      rw [s.exchangeRead_counter (by omega) (by omega) (by omega), s.counterRead_accounts k at_]
    · have bound := h.isLt
      rw [s.exchangeRead_counter (by omega) (by omega) (by omega), s.counterRead_hires h at_]
    · have bound := d.isLt
      rw [s.exchangeRead_counter (by omega) (by omega) (by omega), s.counterRead_receivers d at_]
  case header =>
    have policy : s.log.policy.code.toNat = if s.log.policy = .keep then 0 else 1 := by cases s.log.policy <;> rfl
    refine ⟨s.headerField_reads 0 rfl (by simp [State.headerFields]) (by decide) (by decide),
      s.headerField_reads 1 rfl (by simp [State.headerFields]) (by decide) (by decide),
      s.headerField_reads 2 rfl (by simp [State.headerFields]) (by decide) (by decide),
      s.headerField_reads 3 rfl (by simp [State.headerFields]) (by decide) (by decide),
      s.headerField_reads 4 rfl (by simp [State.headerFields]) (by decide) (by decide),
      s.headerField_reads 5 rfl (by simp [State.headerFields]) (by decide) (by decide),
      s.headerField_reads 6 rfl (by simp [State.headerFields]) (by decide) (by decide),
      s.headerField_reads 7 rfl (by simp [State.headerFields]) (by decide) (by decide),
      s.headerField_reads 9 rfl (by simp [State.headerFields]) (by decide) (by decide),
      s.headerField_reads 10 rfl (by simp [State.headerFields]) (by decide) (by decide),
      s.headerField_reads 11 rfl (by simp [State.headerFields]) (by decide) (by decide),
      policy ▸ s.headerField_reads 12 rfl (by simp [State.headerFields]) (by decide) (by decide),
      s.headerField_reads 13 rfl (by simp [State.headerFields]) (by decide) (by decide),
      s.headerField_reads 14 rfl (by simp [State.headerFields]) (by decide) (by decide),
      s.headerField_reads 15 rfl (by simp [State.headerFields]) (by decide) (by decide),
      fun i v listed => ?_, fun i v listed => ?_, s.headerField_read (by decide) (by decide) s.headerBytes_rest⟩
    · obtain ⟨within, rfl⟩ := List.getElem?_eq_some_iff.mp listed
      have bound : i < 11 := within
      refine s.headerField_reads (17 + i) ?_ ?_ (by omega) (by omega)
      · interval_cases i <;> rfl
      · interval_cases i <;> simp [State.headerFields, Timers.list, BeaconCounts.list]
    · obtain ⟨within, rfl⟩ := List.getElem?_eq_some_iff.mp listed
      have bound : i < 14 := within
      refine s.headerField_reads (29 + i) ?_ ?_ (by omega) (by omega)
      · interval_cases i <;> rfl
      · interval_cases i <;> simp [State.headerFields, Timers.list, BeaconCounts.list]

end Sys2Proof.Machine
end

section
/-!
SUPPORT. How an order that leaves memory and queue alone completes, works done for each index of a list, and settings brought into range;
with them NoticeAndTimerSettings, ClearCountsGroups, BoothDefineWritesDefinition and SetDistributionStagesAPlan.
-/
namespace Sys2Proof.Machine

/-! ## An order taken and completed -/

/-- The state with other memory and another post queue: what the taking of an order's slot changes. -/
@[reducible] def State.taken (s : State) (m : Memory) (rest : List SlotId) : State :=
  { s with mem := m, orders := { s.orders with queue := rest } }

theorem State.takeSlot_taken (s : State) (n : SlotId) (rest : List SlotId) :
    s.takeSlot n rest = s.taken (s.takeSlot n rest).mem rest := State.takeSlot_eq s n rest

/-- An order of a kind with one row, whose work on the state taken is what it does to the state itself. -/
theorem State.completes_kind {s after u : State} {i : Instr} {n : SlotId} {rest : List SlotId} {r : Result} {k : Nat} {work : Work}
    (h : s.takes k n rest) (hi : exec i s = .next (s.runOrder (kindIs k) work)) (hw : work (s.takeSlot n rest) n = (u, some r))
    (hu : u = after.taken (s.takeSlot n rest).mem rest) (ha : after.mem = s.mem) : s.completes i n rest after r :=
  State.completes_same h (by simp [kindIs, h.2.2.1]) hi hw hu ha

/-- An order of a kind with one row, refused. -/
theorem State.refuses_kind {s : State} {i : Instr} {n : SlotId} {rest : List SlotId} {r : Reason} {k : Nat} {work : Work}
    (h : s.takes k n rest) (hi : exec i s = .next (s.runOrder (kindIs k) work))
    (hw : work (s.takeSlot n rest) n = refuse (s.takeSlot n rest) r) : s.refuses i n rest r :=
  State.completes_kind h hi hw (s.takeSlot_taken n rest) rfl

/-- `m` is the memory of `s` once the order unit has taken slot `n`: another at most in the bytes that taking and completing write. -/
structure SlotTaken (s : State) (n : SlotId) (m : Memory) : Prop where
  wf : m.wf = true
  outside : ∀ a : Nat, ¬ resultByte n a → m.read8 a = s.mem.read8 a

section
variable {s : State} {n : SlotId} {m : Memory} (h : SlotTaken s n m) (rest : List SlotId)
include h

theorem SlotTaken.param8 {i : Nat} (hi : i < 40) : (s.taken m rest).param8 n i = s.param8 n i := by
  simp only [State.param8]
  rw [h.outside _ (by unfold resultByte; omega)]

theorem SlotTaken.paramLE {i k : Nat} (hi : i + k ≤ 40) : (s.taken m rest).paramLE n i k = s.paramLE n i k := by
  simp only [State.paramLE]
  rw [Memory.readBytes_congr k _ (fun x h1 h2 => h.outside x (by unfold resultByte; omega))]

theorem SlotTaken.paramLang {i : Nat} (hi : i + 3 ≤ 40) : (s.taken m rest).paramLang n i = s.paramLang n i := by
  have e : ∀ j, j < 40 → m.read8 (slotBase n + 0x0A + j) = s.mem.read8 (slotBase n + 0x0A + j) :=
    fun j hj => h.outside _ (by unfold resultByte; omega)
  simp only [State.paramLang, Nat.add_assoc] at *
  rw [e _ (by omega), e _ (by omega), e _ (by omega)]

theorem SlotTaken.readCount : (s.taken m rest).readCount = s.readCount := by
  have := slotBase_lt n
  exact Memory.read16_of_eq (h.outside _ (by unfold resultByte; omega)) (h.outside _ (by unfold resultByte; omega))

end

theorem State.takeSlot_slotTaken (s : State) (n : SlotId) (rest : List SlotId) (h : s.memOk) : SlotTaken s n (s.takeSlot n rest).mem :=
  ⟨State.takeSlot_wf s n rest h, fun a ha => State.takeSlot_read8 s n rest h a ha⟩

/-- An order that its work completes, whatever the memory of the taken slot shows in the bytes of its result. -/
theorem State.completes_work {s after : State} {i : Instr} {n : SlotId} {rest : List SlotId} {r : Result} {k : Nat}
    {isMine : State → SlotId → Bool} {work : Work} (h : s.takes k n rest) (hm : isMine s n = true)
    (hi : exec i s = .next (s.runOrder isMine work)) (ha : after.mem = s.mem)
    (hw : ∀ m : Memory, SlotTaken s n m → work (s.taken m rest) n = (after.taken m rest, some r)) : s.completes i n rest after r :=
  State.completes_same h hm hi ((congrArg (fun t => work t n) (s.takeSlot_taken n rest)).trans
    (hw _ (s.takeSlot_slotTaken n rest h.2.2.2))) rfl ha

theorem State.takes_kind {s : State} {n : SlotId} {rest : List SlotId} {k : Nat} (h : s.takes k n rest) : kindIs k s n = true := by
  simp [kindIs, h.2.2.1]

/-! ## States by their fields -/

theorem State.eq_of_same {s t : State} (h : ∀ f : StateField, f.same s t) : t = s := by
  cases s; cases t
  simp only [State.mk.injEq]
  exact ⟨h .part, h .resetLow, h .hostData, h .header, h .timers, h .notices, h .clock, h .orders, h .mem, h .log, h .booths, h .inner,
    h .down, h .channels, h .audio, h .floor, h .framer, h .positions, h .presets, h .racks, h .bus, h .receivers, h .hires, h .nextHire,
    h .accounts, h .tariffs, h .beacons, h .draws, h .pending⟩

theorem StateField.same_symm {f : StateField} {s t : State} (h : f.same s t) : f.same t s := by cases f <;> exact h.symm

/-- What changes only some fields is known by them. -/
theorem State.onlyIn.eq {l : List StateField} {s t u : State} (h : s.onlyIn l t) (g : s.onlyIn l u) (same : ∀ f ∈ l, f.same u t) :
    t = u :=
  State.eq_of_same (fun f => if hf : f ∈ l then same f hf else StateField.same_trans (StateField.same_symm (g f hf)) (h f hf))

theorem State.onlyIn.booths_eq {s t : State} (h : s.onlyIn [.booths] t) : { s with booths := t.booths } = t :=
  (h.eq (s.booths_only _) (List.forall_mem_singleton.mpr rfl)).symm

theorem State.onlyIn.positions_eq {s t : State} (h : s.onlyIn [.positions] t) : { s with positions := t.positions } = t :=
  (h.eq (s.positions_only _) (List.forall_mem_singleton.mpr rfl)).symm

/-! ## Works in turn -/

/-- Works that a change of view goes through one by one, it goes through in turn. -/
theorem State.each_comm {ι : Type} {g : State → State} {f : State → ι → State} (h : ∀ t i, f (g t) i = g (f t i)) (l : List ι)
    (s : State) : (g s).each l f = g (s.each l f) := by
  induction l generalizing s with
  | nil => rfl
  | cons i l ih => exact (congrArg (fun t => State.each t l f) (h s i)).trans (ih (f s i))

/-- Works in turn for different indices, each at its own record: every record named is worked once, the others stay. -/
theorem State.each_get {ι α : Type} [DecidableEq ι] {I : State → Prop} (get : State → ι → α) (v g : ι → α) {f : State → ι → State}
    (keep : ∀ t i, I t → I (f t i)) (apart : ∀ t i j, I t → i ≠ j → get (f t j) i = get t i)
    (own : ∀ t i, I t → get t i = v i → get (f t i) i = g i) {l : List ι} (distinct : l.Nodup) {s : State} (hs : I s)
    (start : ∀ i, get s i = v i) (i : ι) : get (s.each l f) i = if i ∈ l then g i else v i := by
  suffices key : ∀ (l : List ι) (w : ι → α) (s : State), l.Nodup → I s → (∀ i, get s i = w i) → (∀ i ∈ l, w i = v i) →
      get (s.each l f) i = if i ∈ l then g i else w i from key l v s distinct hs start (fun _ _ => rfl)
  intro l
  induction l with
  | nil => intro w s _ _ hw _; simpa using hw i
  | cons j l ih =>
    intro w s hl hs hw hv
    have hj : j ∉ l := (List.nodup_cons.mp hl).1
    have next := ih (fun k => get (f s j) k) (f s j) (List.nodup_cons.mp hl).2 (keep s j hs) (fun _ => rfl)
      (fun k hk => by
        rw [apart s k j hs (fun e => hj (e ▸ hk)), hw k]
        exact hv k (List.mem_cons_of_mem j hk))
    rw [show s.each (j :: l) f = (f s j).each l f from rfl, next]
    by_cases hi : i = j
    · subst hi
      rw [if_neg hj, if_pos (List.mem_cons_self ..)]
      exact own s i hs ((hw i).trans (hv i (List.mem_cons_self ..)))
    · simp only [List.mem_cons, hi, false_or]
      rw [apart s i j hs hi, hw i]

theorem tblAll_nodup {α : Type} {n : Nat} (v : Vector α n) (p : α → Bool) : (tblAll v p).Nodup :=
  (tblAll_sorted v p).imp Fin.ne_of_lt

/-! ## Settings brought into range -/

theorem clampTo_fst {low high : Nat} (h : low ≤ high) (n : Nat) : (clampTo low high n).1 = max low (min high n) := by
  unfold clampTo
  split
  · dsimp only; omega
  · split <;> dsimp only <;> omega

/-- A setting is CLAMPED exactly when it comes out another. -/
theorem clampTo_snd {low high : Nat} (h : low ≤ high) (n : Nat) : (clampTo low high n).2 = decide ((clampTo low high n).1 ≠ n) := by
  rw [clampTo_fst h]
  unfold clampTo
  split
  · rw [eq_comm, decide_eq_true_iff]; omega
  · split
    · rw [eq_comm, decide_eq_true_iff]; omega
    · rw [eq_comm, decide_eq_false_iff_not]; omega

theorem clampRelief_fst (n : Nat) : (clampRelief n).1 = if n = 0 then 0 else max 300 (min 7200 n) := by
  unfold clampRelief
  split
  · rfl
  · exact clampTo_fst (by decide) n

theorem clampRelief_snd (n : Nat) : (clampRelief n).2 = decide ((clampRelief n).1 ≠ n) := by
  unfold clampRelief
  split
  · rename_i h; simp [h]
  · exact clampTo_snd (by decide) n

theorem clampSilent_fst (f n : Nat) : (clampSilent f n).1 = max (f + 10) (max 60 (min 3600 n)) := by
  have v := clampTo_fst (low := 60) (high := 3600) (by decide) n
  unfold clampSilent
  dsimp only
  split
  · dsimp only; omega
  · rw [v]; omega

theorem clampSilent_snd {f : Nat} (hf : f ≤ 120) (n : Nat) : (clampSilent f n).2 = decide ((clampSilent f n).1 ≠ n) := by
  have v := clampTo_fst (low := 60) (high := 3600) (by decide) n
  unfold clampSilent
  dsimp only
  split
  · rw [eq_comm, decide_eq_true_iff]; dsimp only; omega
  · exact clampTo_snd (by decide) n

/-! ## SET_NOTICE and SET_TIMERS -/

theorem State.timerParams_takeSlot (s : State) (n : SlotId) (rest : List SlotId) (h : s.mem.wf = true) :
    (s.takeSlot n rest).timerParams n = s.timerParams n := by
  unfold State.timerParams
  simp (disch := first | exact h | omega) only [State.paramLE_takeSlot]

theorem State.timerParams_clamped (s : State) (n : SlotId) :
    (s.timerParams n).2 = decide ((s.timerParams n).1.list ≠ (List.range 11).map (fun i => s.paramLE n (2 * i) 2)) := by
  have fresh : (clampTo 10 120 (s.paramLE n (2 * 2) 2)).1 ≤ 120 := by rw [clampTo_fst (by decide)]; omega
  simp only [State.timerParams, Timers.list, clampRelief_snd, clampSilent_snd fresh]
  rw [clampTo_snd (by decide), clampTo_snd (by decide), clampTo_snd (by decide), clampTo_snd (by decide), clampTo_snd (by decide),
    clampTo_snd (by decide), clampTo_snd (by decide), clampTo_snd (by decide), clampTo_snd (by decide)]
  simp only [List.range, List.range.loop, List.map_cons, List.map_nil, ne_eq, List.cons.injEq, and_true, ← Bool.decide_or,
    not_and_or, or_assoc]

/-- A lamp recomputed. -/
theorem rewritten_lamp (new : Position → DockLamp) (r : Position) :
    let t := rewritten Position.bump (fun r => { r with lamp := new r }) r
    t.lamp = new r ∧ t = { r with lamp := t.lamp, changes := t.changes } ∧ (t.lamp = r.lamp → t = r) := by
  dsimp only [rewritten]
  split
  · rename_i h
    exact ⟨(congrArg Position.lamp h).symm, rfl, fun _ => rfl⟩
  · rename_i h
    refine ⟨rfl, rfl, fun e => absurd ?_ h⟩
    rw [show new r = r.lamp from e]

theorem State.relampCharged_position (s : State) (p : PosId) :
    s.relampCharged.position p =
      if (s.position p).lamp = .ready ∨ (s.position p).lamp = .charging then
        rewritten Position.bump (fun r => { r with lamp := dockLamp s.timers.battery r.state (s.heldEntry p) }) (s.position p)
      else s.position p := by
  have := State.each_get (I := fun t => t.timers = s.timers ∧ t.receivers = s.receivers ∧ ∀ q, (t.position q).entry = (s.position q).entry)
    (get := State.position) (v := s.position)
    (g := fun p => rewritten Position.bump (fun r => { r with lamp := dockLamp s.timers.battery r.state (s.heldEntry p) }) (s.position p))
    (f := State.relampPos) (l := tblAll s.positions (fun p => p.lamp == .ready || p.lamp == .charging)) (s := s)
    (fun t i ⟨ht, hr, he⟩ => ⟨ht, hr, fun q => by
      rw [State.relampPos, State.position_rewritePosition]
      split
      · rename_i e; subst e; unfold rewritten; split <;> exact he q
      · exact he q⟩)
    (fun t i j _ hij => by rw [State.relampPos, State.position_rewritePosition, if_neg hij])
    (fun t i ⟨ht, hr, he⟩ hv => by
      rw [State.relampPos, State.position_rewritePosition, if_pos rfl, hv]
      have : t.heldEntry i = s.heldEntry i := by
        simp only [State.heldEntry, hr]
        exact congrArg _ (he i)
      rw [ht, this])
    (tblAll_nodup _ _) ⟨rfl, rfl, fun _ => rfl⟩ (fun _ => rfl) p
  rw [State.relampCharged, this]
  simp only [mem_tblAll, Bool.or_eq_true, beq_iff_eq]

theorem State.relampCharged_eq (s : State) : s.relampCharged = { s with positions := s.relampCharged.positions } :=
  s.relampCharged_only.eq (s.positions_only _) (List.forall_mem_singleton.mpr rfl)

/-- The lamps recomputed beside a change of view that the lamps do not meet. -/
theorem State.relampCharged_comm {g : State → State} (apart : ∀ t p, (g t).relampPos p = g (t.relampPos p))
    (same : ∀ t, (g t).positions = t.positions) (s : State) : (g s).relampCharged = g s.relampCharged := by
  rw [State.relampCharged, same]
  exact State.each_comm apart _ s

/-- Settles O14: each setting by its range, the lamps one by one. -/
theorem noticeAndTimerSettings : Obligations.NoticeAndTimerSettings := by
  refine ⟨fun s n rest h => ?_, fun s n rest h => ?_⟩
  · refine State.completes_kind h rfl (Prod.ext ?_ ?_) rfl rfl
    · dsimp only [workSetNotice]
      rw [s.paramLE_takeSlot n rest h.2.2.2 0 4 (by omega), s.paramLE_takeSlot n rest h.2.2.2 4 2 (by omega), clampTo_fst (by omega),
        Nat.zero_max, s.takeSlot_taken]
      rfl
    · dsimp only [workSetNotice]
      rw [s.paramLE_takeSlot n rest h.2.2.2 4 2 (by omega), clampTo_snd (by omega), clampTo_fst (by omega)]
      have e : (max 0 (min 16 (s.paramLE n 4 2)) ≠ s.paramLE n 4 2) = (16 < s.paramLE n 4 2) := propext (by omega)
      simp only [e, Result.doneClamped, Result.done]
  · let x := (s.timerParams n).1
    let u : State := { s with timers := x }
    have lamp := fun p => u.relampCharged_position p
    refine ⟨x, u.relampCharged.positions, State.completes_kind h rfl (Prod.ext ?_ ?_) rfl rfl, ?_⟩
    · dsimp only [workSetTimers]
      rw [s.timerParams_takeSlot n rest h.2.2.2, s.takeSlot_taken]
      generalize (s.takeSlot n rest).mem = m
      refine (State.relampCharged_comm (g := fun t => t.bumpHeader.taken m rest) (fun _ _ => rfl) (fun _ => rfl) u).trans ?_
      rw [u.relampCharged_eq]
      rfl
    · dsimp only [workSetTimers]
      rw [s.timerParams_takeSlot n rest h.2.2.2, s.timerParams_clamped]
      rfl
    · have clamp {low high i : Nat} (le : low ≤ high) : (clampTo low high (s.paramLE n i 2)).1 = max low (min high (s.paramLE n i 2)) :=
        clampTo_fst le _
      refine ⟨clamp (by decide), (clamp (by decide)).trans (Nat.zero_max _), clamp (by decide), clampSilent_fst _ _,
        (clamp (by decide)).trans (Nat.zero_max _), (clamp (by decide)).trans (Nat.zero_max _), clamp (by decide),
        (clamp (by decide)).trans (Nat.zero_max _), clampRelief_fst _, clamp (by decide), (clamp (by decide)).trans (Nat.zero_max _),
        fun p => ⟨fun charged => ?_, fun dark => (lamp p).trans (if_neg dark)⟩⟩
      have new := (lamp p).trans (if_pos charged)
      rw [show u.relampCharged.positions[p] = u.relampCharged.position p from rfl, new]
      exact ⟨(rewritten_lamp _ _).1, rewritten_lamp _ _ |>.2.1, (rewritten_lamp _ _).2.2⟩

/-! ## SET_DISTRIBUTION -/

theorem distMode?_code (m : DistMode) : distMode? m.code.toNat = some m := by cases m <;> rfl

theorem format?_code (q : Format) : format? q.code.toNat = some q := by cases q <;> rfl

theorem distMode?_none {k : Nat} (h : 2 < k) : distMode? k = none := by
  match k, h with
  | k + 3, _ => rfl

theorem format?_none {k : Nat} (h : 1 < k) : format? k = none := by
  match k, h with
  | k + 2, _ => rfl

theorem workSetDistribution_of {s : State} {n : SlotId} {m : DistMode} {q : Format} (hm : distMode? (s.param8 n 0) = some m)
    (hq : format? (s.param8 n 1) = some q) :
    workSetDistribution s n =
      if s.framer.mode = m ∧ s.framer.floorQuality = q then (s, some (Result.doneAlready [s.framer.mode.code, s.framer.floorQuality.code]))
      else
        ((({ s with framer := { s.framer with mode := m, floorQuality := q } }).writeChannel 0 (fun c => { c with quality := q })).stagePlan,
          some (Result.done [s.framer.mode.code, s.framer.floorQuality.code])) := by
  rw [workSetDistribution, hm, hq]

/-- Settles O39. -/
theorem setDistributionStagesAPlan : Obligations.SetDistributionStagesAPlan := by
  intro s n rest h
  refine ⟨fun wrong => State.completes_work h (State.takes_kind h) rfl rfl fun m hm => ?_, fun m q hm hq => ⟨fun same same' => ?_, fun other => ?_⟩⟩
  · rw [workSetDistribution, hm.param8 rest (by omega), hm.param8 rest (by omega)]
    rcases wrong with wrong | wrong
    · rw [distMode?_none wrong]
      rfl
    · rw [format?_none wrong]
      cases distMode? (s.param8 n 0) <;> rfl
  · refine State.completes_work h (State.takes_kind h) rfl rfl fun k hk => ?_
    rw [workSetDistribution_of (by rw [hk.param8 rest (by omega), hm, distMode?_code]) (by rw [hk.param8 rest (by omega), hq, format?_code]),
      if_pos ⟨same, same'⟩]
    rw [show (s.taken k rest).framer = s.framer from rfl, same, same']
  · refine State.completes_work h (State.takes_kind h) rfl rfl fun k hk => ?_
    rw [workSetDistribution_of (by rw [hk.param8 rest (by omega), hm, distMode?_code]) (by rw [hk.param8 rest (by omega), hq, format?_code]),
      if_neg other]
    rfl

/-! ## CLEAR_COUNTS -/

theorem index?_of_lt {k n : Nat} (h : n < k) : index? k n = some ⟨n, h⟩ := dif_pos h

theorem index?_val {k : Nat} (i : Fin k) : index? k i.val = some i := dif_pos i.isLt

theorem index?_of_le {k n : Nat} (h : k ≤ n) : index? k n = none := dif_neg (Nat.not_lt.mpr h)

/-- The counts of a position cleared. -/
def Position.cleared (r : Position) : Position := { r with changes := r.changes + 2, insertions := 0, removals := 0 }

theorem State.clearPositions_position {l : List PosId} (distinct : l.Nodup) (s : State) (p : PosId) :
    (s.each l (fun s p => s.writePosition p (fun x => { x with insertions := 0, removals := 0 }))).position p =
      if p ∈ l then (s.position p).cleared else s.position p :=
  State.each_get (I := fun _ => True) State.position s.position (fun p => (s.position p).cleared) (fun _ _ _ => trivial)
    (fun t i j _ hij => (t.position_writePosition j i _).trans (if_neg hij))
    (fun t i _ hv => ((t.position_writePosition i i _).trans (if_pos rfl)).trans (by rw [hv]; rfl)) distinct trivial (fun _ => rfl) p

theorem mem_rackPositions (r : RackId) (p : PosId) : p ∈ rackPositions r ↔ p.val / 40 = r.val := by
  simp only [rackPositions, List.mem_map, List.mem_finRange, true_and, posIndex, Fin.ext_iff]
  constructor
  · rintro ⟨k, e⟩; omega
  · intro e; exact ⟨⟨p.val % 40, by omega⟩, by simp only; omega⟩

theorem rackPositions_nodup (r : RackId) : (rackPositions r).Nodup :=
  (List.nodup_finRange 40).map (fun i j e => by simp only [posIndex, Fin.ext_iff] at e ⊢; omega)

theorem allRacks_nodup : ((List.finRange 8).flatMap rackPositions).Nodup := by
  refine List.nodup_flatMap.mpr ⟨fun r _ => rackPositions_nodup r, (List.nodup_finRange 8).imp fun {a b} hab p ha hb => hab ?_⟩
  exact Fin.ext (((mem_rackPositions a p).mp ha).symm.trans ((mem_rackPositions b p).mp hb))

theorem State.clearRacks_eq (s : State) :
    s.each (List.finRange 8) State.clearRack = s.each ((List.finRange 8).flatMap rackPositions)
      (fun s p => s.writePosition p (fun x => { x with insertions := 0, removals := 0 })) := List.foldl_flatMap.symm

theorem State.clearBooth_booth (s : State) (b c : BoothId) :
    (s.clearBooth b).booth c = if c = b then
      { s.booth c with
        changes := (s.booth c).changes + 4, link := { (s.booth c).link with counts := LinkCounts.zero }
        cons := { (s.booth c).cons with ignored := 0 } }
      else s.booth c := by
  rw [State.clearBooth, State.booth_writeBooth, State.booth_writeBooth, State.booth_writeBooth]
  split
  · rename_i e
    subst e
    rw [if_pos rfl]
    simp only [Booth.bump, LinkFields.count, add_assoc]
    rfl
  · rfl

theorem State.clearBooths_booth (s : State) (c : BoothId) :
    (s.each (List.finRange 24) State.clearBooth).booth c =
      { s.booth c with
        changes := (s.booth c).changes + 4, link := { (s.booth c).link with counts := LinkCounts.zero }
        cons := { (s.booth c).cons with ignored := 0 } } :=
  (State.each_get (I := fun _ => True) State.booth s.booth (fun c => { s.booth c with
      changes := (s.booth c).changes + 4, link := { (s.booth c).link with counts := LinkCounts.zero }
      cons := { (s.booth c).cons with ignored := 0 } }) (fun _ _ _ => trivial)
    (fun t i j _ hij => (t.clearBooth_booth j i).trans (if_neg hij))
    (fun t i _ hv => ((t.clearBooth_booth i i).trans (if_pos rfl)).trans (by rw [hv]))
    (List.nodup_finRange 24) trivial (fun _ => rfl) c).trans (if_pos (List.mem_finRange c))

theorem State.takes_clearsDocks {s : State} {n : SlotId} {rest : List SlotId} (h : s.takes 5 n rest) :
    clearsDocks s n = decide (s.param8 n 0 = 2) := by
  simp [clearsDocks, h.2.2.1, beq_eq_decide]

theorem State.takes_clearsLinks {s : State} {n : SlotId} {rest : List SlotId} (h : s.takes 5 n rest) :
    clearsLinks s n = decide (s.param8 n 0 ≠ 2) := by
  simp [clearsLinks, h.2.2.1, bne, beq_eq_decide]

theorem workClearLinks_all {s : State} {n : SlotId} (one : s.param8 n 0 = 1) (all : s.param8 n 1 = 255) :
    workClearLinks s n = (s.each (List.finRange 24) State.clearBooth, some (Result.done [])) := by
  rw [workClearLinks, if_neg (not_not.mpr one), if_pos all]

theorem workClearLinks_one {s : State} {n : SlotId} {b : BoothId} (one : s.param8 n 0 = 1) (which : s.param8 n 1 = b.val) :
    workClearLinks s n = (s.clearBooth b, some (Result.done [])) := by
  rw [workClearLinks, if_neg (not_not.mpr one), if_neg (by omega), which, index?_val]

theorem workClearLinks_refused {s : State} {n : SlotId} (wrong : s.param8 n 0 = 1 → 24 ≤ s.param8 n 1 ∧ s.param8 n 1 ≠ 255) :
    workClearLinks s n = refuse s .badArgument := by
  rw [workClearLinks]
  split
  · rfl
  · rename_i one
    obtain ⟨past, other⟩ := wrong (not_not.mp one)
    rw [if_neg other, index?_of_le past]

theorem workClearDocks_all {s : State} {n : SlotId} (all : s.param8 n 1 = 255) :
    workClearDocks s n = (s.each (List.finRange 8) State.clearRack, some (Result.done [])) := by
  rw [workClearDocks, if_pos all]

theorem workClearDocks_one {s : State} {n : SlotId} {r : RackId} (which : s.param8 n 1 = r.val) :
    workClearDocks s n = (s.clearRack r, some (Result.done [])) := by
  rw [workClearDocks, if_neg (by omega), which, index?_val]

theorem workClearDocks_refused {s : State} {n : SlotId} (past : 8 ≤ s.param8 n 1) (other : s.param8 n 1 ≠ 255) :
    workClearDocks s n = refuse s .badArgument := by
  rw [workClearDocks, if_neg other, index?_of_le past]

/-- Settles O17. -/
theorem clearCountsGroups : Obligations.ClearCountsGroups := by
  intro s n rest h
  have links (g : s.param8 n 0 ≠ 2) : clearsLinks s n = true := (State.takes_clearsLinks h).trans (decide_eq_true g)
  have docks (g : s.param8 n 0 = 2) : clearsDocks s n = true := (State.takes_clearsDocks h).trans (decide_eq_true g)
  refine ⟨fun one which => ?_, fun two which => ?_, fun one past other => ?_, fun two past other => ?_, fun not1 not2 => ?_⟩
  · by_cases all : s.param8 n 1 = 255
    · have only : s.onlyIn [.booths] (s.each (List.finRange 24) State.clearBooth) := State.each_only (fun u b _ => u.clearBooth_only b) s
      refine ⟨(s.each (List.finRange 24) State.clearBooth).booths, State.completes_work h (links (by omega)) rfl rfl fun m hm => ?_,
        fun b => by rw [if_pos (Or.inr all)]; exact s.clearBooths_booth b⟩
      rw [workClearLinks_all (by rw [hm.param8 rest (by omega), one]) (by rw [hm.param8 rest (by omega), all]),
        only.booths_eq]
      exact congrArg (·, _) (State.each_comm (g := fun u => u.taken m rest) (fun _ _ => rfl) _ s)
    · let c : BoothId := ⟨s.param8 n 1, which.resolve_right all⟩
      refine ⟨(s.clearBooth c).booths, State.completes_work h (links (by omega)) rfl rfl fun m hm => ?_,
        fun b => (s.clearBooth_booth c b).trans ?_⟩
      · rw [workClearLinks_one (b := c) (by rw [hm.param8 rest (by omega), one]) (hm.param8 rest (by omega))]
        rfl
      · simp only [Fin.ext_iff, c, all, or_false, eq_comm (a := b.val)]
  · by_cases all : s.param8 n 1 = 255
    · have only : s.onlyIn [.positions] (s.each (List.finRange 8) State.clearRack) := State.each_only (fun u r _ => u.clearRack_only r) s
      refine ⟨(s.each (List.finRange 8) State.clearRack).positions, State.completes_work h (docks two) rfl rfl fun m hm => ?_, fun p => ?_⟩
      · rw [workClearDocks_all (by rw [hm.param8 rest (by omega), all]), only.positions_eq]
        exact congrArg (·, _) (State.each_comm (g := fun u => u.taken m rest)
          (fun u r => State.each_comm (g := fun u => u.taken m rest) (fun _ _ => rfl) (rackPositions r) u) _ s)
      · rw [State.clearRacks_eq, if_pos (Or.inr all)]
        exact (s.clearPositions_position allRacks_nodup p).trans
          (if_pos (List.mem_flatMap.mpr ⟨rackOf p, List.mem_finRange _, (mem_rackPositions _ p).mpr rfl⟩))
    · let r : RackId := ⟨s.param8 n 1, which.resolve_right all⟩
      have only : s.onlyIn [.positions] (s.clearRack r) := s.clearRack_only r
      refine ⟨(s.clearRack r).positions, State.completes_work h (docks two) rfl rfl fun m hm => ?_, fun p => ?_⟩
      · rw [workClearDocks_one (r := r) (hm.param8 rest (by omega)), only.positions_eq]
        exact congrArg (·, _) (State.each_comm (g := fun u => u.taken m rest) (fun _ _ => rfl) (rackPositions r) s)
      · refine (s.clearPositions_position (rackPositions_nodup r) p).trans ?_
        simp only [mem_rackPositions, r, all, or_false, eq_comm (a := p.val / 40)]
        rfl
  · exact State.completes_work h (links (by omega)) rfl rfl fun m hm =>
      workClearLinks_refused fun _ => by rw [hm.param8 rest (by omega)]; exact ⟨past, other⟩
  · exact State.completes_work h (docks two) rfl rfl fun m hm =>
      workClearDocks_refused (by rw [hm.param8 rest (by omega)]; exact past) (by rw [hm.param8 rest (by omega)]; exact other)
  · exact State.completes_work h (links not2) rfl rfl fun m hm =>
      workClearLinks_refused fun one => absurd ((hm.param8 rest (by omega)).symm.trans one) not1

end Sys2Proof.Machine
end

section
/-!
SUPPORT. Orders that write definitions and settings: BoothDefineWritesDefinition, BoothIntakeKeepsTheLaw, RetireAndRestore; with them
FloorLockAndLoss.
-/
namespace Sys2Proof.Machine

/-! ## BOOTH_DEFINE -/

theorem format?_of_le {k : Nat} (h : k ≤ 1) : format? k = some (if k = 1 then .wide else .standard) := by
  match k, h with
  | 0, _ => rfl
  | 1, _ => rfl

theorem method?_of_le {k : Nat} (h : k ≤ 1) : method? k = some (if k = 1 then .fields else .bytes) := by
  match k, h with
  | 0, _ => rfl
  | 1, _ => rfl

theorem method?_none {k : Nat} (h : 1 < k) : method? k = none := by
  match k, h with
  | k + 2, _ => rfl

theorem SlotTaken.boothParams {s : State} {n : SlotId} {m : Memory} (h : SlotTaken s n m) (rest : List SlotId) :
    (s.taken m rest).boothParams n = s.boothParams n := by
  simp (disch := omega) only [State.boothParams, h.param8, h.paramLE, h.paramLang]

/-- A definition is refused for its language, format, method or masking. -/
theorem State.boothParams_none {s : State} {n : SlotId}
    (wrong : s.paramLang n 6 = none ∨ 1 < s.param8 n 9 ∨ 1 < s.param8 n 10 ∨ 1 < s.param8 n 11) : s.boothParams n = none := by
  unfold State.boothParams
  rcases wrong with lang | format | method | masking
  · rw [lang]
  · rw [format?_none format]
    cases s.paramLang n 6 <;> rfl
  · rw [method?_none method]
    cases s.paramLang n 6 <;> cases format? (s.param8 n 9) <;> rfl
  · cases s.paramLang n 6 <;> cases format? (s.param8 n 9) <;> cases method? (s.param8 n 10) <;> first | rfl | exact if_pos masking

/-- The definition an accepted BOOTH_DEFINE carries (R50). -/
def State.boothDef (s : State) (n : SlotId) (l : Lang) : BoothDef :=
  { defined := true, lang := l, consoles := max 1 (min 3 (s.param8 n 1)), serial := BitVec.ofNat 32 (s.paramLE n 2 4)
    format := if s.param8 n 9 = 1 then .wide else .standard, method := if s.param8 n 10 = 1 then .fields else .bytes
    threshold := if s.paramLE n 12 2 = 0 then 16 else min 255 (s.paramLE n 12 2), masking := decide (s.param8 n 11 = 0) }

theorem State.boothParams_some {s : State} {n : SlotId} {l : Lang} (lang : s.paramLang n 6 = some l) (format : s.param8 n 9 ≤ 1)
    (method : s.param8 n 10 ≤ 1) (masking : s.param8 n 11 ≤ 1) :
    s.boothParams n = some (s.boothDef n l, decide (s.param8 n 1 = 0 ∨ 3 < s.param8 n 1 ∨ 255 < s.paramLE n 12 2)) := by
  have count := clampTo_fst (low := 1) (high := 3) (by decide) (s.param8 n 1)
  have threshold := clampTo_fst (low := 1) (high := 255) (by decide) (s.paramLE n 12 2)
  rw [State.boothParams, lang, format?_of_le format, method?_of_le method]
  dsimp only
  rw [if_neg (Nat.not_lt.mpr masking), clampTo_snd (by decide) (s.param8 n 1), count, State.boothDef]
  by_cases zero : s.paramLE n 12 2 = 0
  · simp only [zero, if_true, beq_eq_decide, Bool.or_false]
    have e : (max 1 (min 3 (s.param8 n 1)) ≠ s.param8 n 1) = (s.param8 n 1 = 0 ∨ 3 < s.param8 n 1 ∨ 255 < 0) := propext (by omega)
    simp only [e]
  · have e : (max 1 (min 3 (s.param8 n 1)) ≠ s.param8 n 1 ∨ min 255 (s.paramLE n 12 2) ≠ s.paramLE n 12 2)
        = (s.param8 n 1 = 0 ∨ 3 < s.param8 n 1 ∨ 255 < s.paramLE n 12 2) := propext (by omega)
    have e' : max 1 (min 255 (s.paramLE n 12 2)) = min 255 (s.paramLE n 12 2) := by omega
    simp only [zero, if_false, clampTo_snd (low := 1) (high := 255) (by decide), threshold, beq_eq_decide, ← Bool.decide_or, e, e']

theorem Booth.define_console (r : Booth) (d : BoothDef) (k : ConsoleId) :
    (r.define d).cons.console k = if d.consoles ≤ k.val then { r.cons.console k with interpreter := 0 } else r.cons.console k :=
  Vector.getElem_ofFn k.isLt

theorem workBoothDefine_of {s : State} {n : SlotId} {b : BoothId} {d : BoothDef} {c : Bool} (hb : index? 24 (s.param8 n 0) = some b)
    (hd : s.boothParams n = some (d, c)) :
    workBoothDefine s n = if (s.booth b).link.state ≠ .held then refuse s .notHeld
      else (s.writeBooth b (fun r => r.define d), some (Result.doneClamped c [])) := by
  rw [workBoothDefine, hb, hd]

/-- Settles O19. -/
theorem boothDefineWritesDefinition : Obligations.BoothDefineWritesDefinition := by
  intro s n rest h
  refine ⟨fun wrong => State.completes_work h (State.takes_kind h) rfl rfl fun m hm => ?_, fun b good which => ?_⟩
  · rw [workBoothDefine, hm.boothParams, hm.param8 rest (by omega)]
    rcases wrong with booth | wrong
    · rw [index?_of_le booth]
      rfl
    · rw [State.boothParams_none wrong]
      cases index? 24 (s.param8 n 0) <;> rfl
  · simp only [not_or, not_lt] at good
    obtain ⟨_, lang, format, method, masking⟩ := good
    obtain ⟨l, lang⟩ := Option.ne_none_iff_exists'.mp lang
    have worked {m : Memory} (hm : SlotTaken s n m) := workBoothDefine_of (s := s.taken m rest) (n := n) (b := b)
      (by rw [hm.param8 rest (by omega), which, index?_val])
      ((hm.boothParams rest).trans (State.boothParams_some lang format method masking))
    refine ⟨fun other => ?_, fun held => ⟨((s.booth b).define (s.boothDef n l)).bump, l, lang, ?_, rfl, rfl, rfl, rfl, fun k => ?_⟩⟩
    · exact State.completes_work h (State.takes_kind h) rfl rfl fun m hm => (worked hm).trans (if_pos other)
    · exact State.completes_work h (State.takes_kind h) rfl rfl fun m hm => (worked hm).trans (if_neg (not_not.mpr held))
    · refine (Booth.define_console _ _ k).trans ?_
      by_cases above : max 1 (min 3 (s.param8 n 1)) ≤ k.val
      · rw [if_pos (show (s.boothDef n l).consoles ≤ k.val from above), if_neg (Nat.not_lt.mpr above)]
      · rw [if_neg (show ¬ (s.boothDef n l).consoles ≤ k.val from above), if_pos (Nat.not_le.mp above)]

/-! ## BOOTH_INTAKE -/

theorem workBoothIntake_of {s : State} {n : SlotId} {b : BoothId} {i : ChannelId} (hb : s.param8 n 0 = b.val) (hi : s.param8 n 1 = i.val) :
    workBoothIntake s n =
      if i ≠ 0 ∧ (s.channel i).defined = false then refuse s .notFound
      else if i = (s.booth b).role.intake then (s, some (Result.doneAlready (leBytes 1 (s.booth b).role.intake.val)))
      else if relayLaw s.channels (s.intakes.set b i) = false then refuse s .relayConflict
      else (s.writeBooth b (fun r => { r with role := { r.role with intake := i } }),
        some (Result.done (leBytes 1 (s.booth b).role.intake.val))) := by
  rw [workBoothIntake, hb, hi, index?_val, index?_val]

theorem State.intakes_writeIntake (s : State) (b : BoothId) (i : ChannelId) (r : Booth) (h : r.role.intake = i) :
    ({ s with booths := s.booths.set b r } : State).intakes = s.intakes.set b i := by
  rw [State.intakes, Vector.map_set, h]
  rfl

/-- Settles O30: what the router checks is the law of the state after. -/
theorem boothIntakeKeepsTheLaw : Obligations.BoothIntakeKeepsTheLaw := by
  intro s n rest h
  refine ⟨fun wrong => State.completes_work h (State.takes_kind h) rfl rfl fun m hm => ?_, fun b i hb hi => ?_⟩
  · rw [workBoothIntake, hm.param8 rest (by omega), hm.param8 rest (by omega)]
    rcases wrong with booth | channel
    · rw [index?_of_le booth]
      rfl
    · rw [index?_of_le channel]
      cases index? 24 (s.param8 n 0) <;> rfl
  · have worked {m : Memory} (hm : SlotTaken s n m) := workBoothIntake_of (s := s.taken m rest) (n := n) (b := b) (i := i)
      (by rw [hm.param8 rest (by omega), hb]) (by rw [hm.param8 rest (by omega), hi])
    have known : i = 0 ∨ (s.channel i).defined = true → ¬ (i ≠ 0 ∧ (s.channel i).defined = false) := by
      rintro (rfl | defined) ⟨nonzero, undefined⟩
      · exact nonzero rfl
      · exact absurd defined (by rw [undefined]; decide)
    have law : relayLaw s.channels (s.intakes.set b i) = false ↔
        ¬ ({ s with booths := s.booths.set b { s.booth b with
          changes := (s.booth b).changes + 2, role := { (s.booth b).role with intake := i } } } : State).relayOk := by
      unfold State.relayOk
      rw [s.intakes_writeIntake b i _ rfl, Bool.not_eq_true]
    refine ⟨fun nonzero undefined => ?_, fun found same => ?_, fun found other broken => ?_, fun found other kept => ?_⟩
    · exact State.completes_work h (State.takes_kind h) rfl rfl fun m hm => (worked hm).trans (if_pos ⟨nonzero, undefined⟩)
    · exact State.completes_work h (State.takes_kind h) rfl rfl fun m hm =>
        (worked hm).trans ((if_neg (known found)).trans (if_pos same))
    · exact State.completes_work h (State.takes_kind h) rfl rfl fun m hm =>
        (worked hm).trans ((if_neg (known found)).trans ((if_neg other).trans (if_pos (law.mpr broken))))
    · exact State.completes_work h (State.takes_kind h) rfl rfl fun m hm =>
        (worked hm).trans ((if_neg (known found)).trans ((if_neg other).trans (if_neg fun e => law.mp e kept)))

/-! ## RETIRE_RECEIVER and RESTORE_RECEIVER -/

theorem Memory.readBytes_length (m : Memory) : ∀ (a k : Nat), (m.readBytes a k).length = k
  | _, 0 => rfl
  | a, k + 1 => congrArg (· + 1) (Memory.readBytes_length m (a + 1) k)

theorem State.paramLE_lt (s : State) (n : SlotId) (i k : Nat) : s.paramLE n i k < 256 ^ k := by
  have := ofBytes_lt (s.mem.readBytes (slotBase n + 0x0A + i) k)
  rwa [Memory.readBytes_length] at this

theorem State.paramSerial_eq_zero (s : State) (n : SlotId) : s.paramSerial n = 0 ↔ s.paramLE n 0 3 = 0 := by
  have := s.paramLE_lt n 0 3
  rw [State.paramSerial, ← BitVec.toNat_inj, BitVec.toNat_ofNat, Nat.mod_eq_of_lt (by omega)]
  rfl

theorem workRetireReceiver_zero {s : State} {n : SlotId} (hx : s.paramLE n 0 3 = 0) : workRetireReceiver s n = refuse s .badArgument :=
  if_pos ((s.paramSerial_eq_zero n).mpr hx)

theorem workRetireReceiver_none {s : State} {n : SlotId} (hx : s.paramLE n 0 3 ≠ 0) (none : s.entryOf (s.paramSerial n) = none) :
    workRetireReceiver s n = refuse s .notFound := by
  rw [workRetireReceiver, if_neg (fun e => hx ((s.paramSerial_eq_zero n).mp e)), none]

theorem workRetireReceiver_some {s : State} {n : SlotId} {e : RecvId} (hx : s.paramLE n 0 3 ≠ 0)
    (found : s.entryOf (s.paramSerial n) = some e) :
    workRetireReceiver s n = if (s.receiver e).state.retirable = false then refuse s .state
      else ((s.writeReceiver e (fun r => { r with state := .retired })).relampHolder e,
        some (Result.done (leBytes 2 e.val ++ [(s.receiver e).state.code]))) := by
  rw [workRetireReceiver, if_neg (fun e => hx ((s.paramSerial_eq_zero n).mp e)), found]

theorem workRestoreReceiver_zero {s : State} {n : SlotId} (hx : s.paramLE n 0 3 = 0) : workRestoreReceiver s n = refuse s .badArgument :=
  if_pos ((s.paramSerial_eq_zero n).mpr hx)

theorem workRestoreReceiver_none {s : State} {n : SlotId} (hx : s.paramLE n 0 3 ≠ 0) (none : s.entryOf (s.paramSerial n) = none) :
    workRestoreReceiver s n = refuse s .notFound := by
  rw [workRestoreReceiver, if_neg (fun e => hx ((s.paramSerial_eq_zero n).mp e)), none]

theorem workRestoreReceiver_some {s : State} {n : SlotId} {e : RecvId} (hx : s.paramLE n 0 3 ≠ 0)
    (found : s.entryOf (s.paramSerial n) = some e) :
    workRestoreReceiver s n = if (s.receiver e).state ≠ .retired then refuse s .state
      else ((s.writeReceiver e (fun r => { r with state := if (s.posHolding e).isSome then .docked else .adrift })).relampHolder e,
        some (Result.done (leBytes 2 e.val ++ [(if (s.posHolding e).isSome then RecvState.docked else .adrift).code]))) := by
  rw [workRestoreReceiver, if_neg (fun e => hx ((s.paramSerial_eq_zero n).mp e)), found]

theorem RecvState.retirable_iff (x : RecvState) : x.retirable = true ↔ x = .docked ∨ x = .adrift ∨ x = .lost := by
  cases x <;> decide

/-- The lamp of the position that holds a retired or a restored entry. -/
theorem State.relampHolder_position (s : State) (e : RecvId) (p : PosId) :
    (s.relampHolder e).position p =
      if s.posHolding e = some p then
        rewritten Position.bump (fun r => { r with lamp := dockLamp s.timers.battery r.state (s.heldEntry p) }) (s.position p)
      else s.position p := by
  unfold State.relampHolder
  cases hp : s.posHolding e with
  | none => rw [if_neg (by simp)]
  | some q =>
    dsimp only
    rw [State.relampPos, State.position_rewritePosition]
    by_cases hq : p = q
    · subst hq
      rw [if_pos rfl, if_pos rfl]
    · rw [if_neg hq, if_neg (fun e => hq (Option.some.inj e).symm)]

/-- The state of an entry written, and the lamp of the position that holds it: the common work of RETIRE_RECEIVER and RESTORE_RECEIVER. -/
def State.restate (s : State) (e : RecvId) (x : RecvState) : State := (s.writeReceiver e (fun r => { r with state := x })).relampHolder e

theorem State.restate_eq (s : State) (e : RecvId) (x : RecvState) :
    s.restate e x = { s with
      positions := (s.restate e x).positions
      receivers := s.receivers.set e { s.receiver e with state := x, changes := (s.receiver e).changes + 2 } } :=
  (State.relampHolder_only (s.writeReceiver e (fun r => { r with state := x })) e).positions_eq.symm

theorem State.restate_taken (s : State) (e : RecvId) (x : RecvState) (m : Memory) (rest : List SlotId) :
    (s.taken m rest).restate e x = (s.restate e x).taken m rest := by
  unfold State.restate State.relampHolder
  cases h : (s.writeReceiver e (fun r => { r with state := x })).posHolding e with
  | none =>
    rw [show ((s.taken m rest).writeReceiver e (fun r => { r with state := x })).posHolding e = none from h]
    rfl
  | some p =>
    rw [show ((s.taken m rest).writeReceiver e (fun r => { r with state := x })).posHolding e = some p from h]
    rfl

theorem State.restate_position (s : State) (e : RecvId) (x : RecvState) (p : PosId) :
    (s.restate e x).position p = { s.position p with lamp := ((s.restate e x).position p).lamp, changes := ((s.restate e x).position p).changes }
      ∧ (s.posHolding e = some p → ((s.restate e x).position p).lamp =
          dockLamp s.timers.battery (s.position p).state (some { s.receiver e with state := x, changes := (s.receiver e).changes + 2 }))
      ∧ (s.posHolding e ≠ some p → (s.restate e x).position p = s.position p) := by
  have at' := State.relampHolder_position (s.writeReceiver e (fun r => { r with state := x })) e p
  by_cases h : s.posHolding e = some p
  · have held : (s.writeReceiver e (fun r => { r with state := x })).heldEntry p
        = some { s.receiver e with state := x, changes := (s.receiver e).changes + 2 } := by
      have entry := State.posHolding_entry h
      rw [State.heldEntry, show (s.writeReceiver e (fun r => { r with state := x })).positions[p].entry = some e from entry]
      exact congrArg some ((State.receiver_writeReceiver s e e _).trans (if_pos rfl))
    have new := at'.trans (if_pos h)
    rw [held] at new
    rw [show (s.restate e x).position p = _ from new]
    have lamp := rewritten_lamp (fun r => dockLamp s.timers.battery r.state
      (some { s.receiver e with state := x, changes := (s.receiver e).changes + 2 })) (s.position p)
    exact ⟨lamp.2.1, fun _ => lamp.1, fun other => absurd h other⟩
  · have same := at'.trans (if_neg h)
    rw [show (s.restate e x).position p = s.position p from same]
    exact ⟨rfl, fun held => absurd held h, fun _ => rfl⟩

/-- Settles O45. -/
theorem retireAndRestore : Obligations.RetireAndRestore := by
  refine ⟨fun s n rest h => ?_, fun s n rest h => ?_⟩
  · have same {m : Memory} (hm : SlotTaken s n m) : (s.taken m rest).paramLE n 0 3 = s.paramLE n 0 3 := hm.paramLE rest (by omega)
    have entry {m : Memory} (hm : SlotTaken s n m) :
        (s.taken m rest).entryOf ((s.taken m rest).paramSerial n) = s.entryOf (BitVec.ofNat 24 (s.paramLE n 0 3)) := by
      rw [State.paramSerial, same hm]
      rfl
    refine ⟨fun zero => ?_, fun some none => ?_, fun e nonzero found => ⟨fun other => ?_, fun allowed => ?_⟩⟩
    · exact State.completes_work h (State.takes_kind h) rfl rfl fun m hm => workRetireReceiver_zero ((same hm).trans zero)
    · exact State.completes_work h (State.takes_kind h) rfl rfl fun m hm =>
        workRetireReceiver_none (by rw [same hm]; exact some) ((entry hm).trans none)
    · exact State.completes_work h (State.takes_kind h) rfl rfl fun m hm =>
        (workRetireReceiver_some (by rw [same hm]; exact nonzero) ((entry hm).trans found)).trans
          (if_pos (Bool.not_eq_true _ ▸ fun r => other ((RecvState.retirable_iff _).mp r)))
    · refine ⟨(s.restate e .retired).positions, State.completes_work h (State.takes_kind h) rfl rfl fun m hm => ?_, fun p => ?_⟩
      · rw [← s.restate_eq, ← s.restate_taken]
        exact (workRetireReceiver_some (by rw [same hm]; exact nonzero) ((entry hm).trans found)).trans
          (if_neg (by rw [Bool.not_eq_false]; exact (RecvState.retirable_iff _).mpr allowed))
      · obtain ⟨fields, lamp, same⟩ := s.restate_position e .retired p
        refine ⟨fields, fun held => (lamp held).trans ?_, same⟩
        cases (s.position p).state <;> rfl
  · have same {m : Memory} (hm : SlotTaken s n m) : (s.taken m rest).paramLE n 0 3 = s.paramLE n 0 3 := hm.paramLE rest (by omega)
    have entry {m : Memory} (hm : SlotTaken s n m) :
        (s.taken m rest).entryOf ((s.taken m rest).paramSerial n) = s.entryOf (BitVec.ofNat 24 (s.paramLE n 0 3)) := by
      rw [State.paramSerial, same hm]
      rfl
    refine ⟨fun zero => ?_, fun some none => ?_, fun e nonzero found => ⟨fun other => ?_, fun allowed => ?_⟩⟩
    · exact State.completes_work h (State.takes_kind h) rfl rfl fun m hm => workRestoreReceiver_zero ((same hm).trans zero)
    · exact State.completes_work h (State.takes_kind h) rfl rfl fun m hm =>
        workRestoreReceiver_none (by rw [same hm]; exact some) ((entry hm).trans none)
    · exact State.completes_work h (State.takes_kind h) rfl rfl fun m hm =>
        (workRestoreReceiver_some (by rw [same hm]; exact nonzero) ((entry hm).trans found)).trans (if_pos other)
    · refine ⟨(s.restate e (if (s.posHolding e).isSome then .docked else .adrift)).positions,
        State.completes_work h (State.takes_kind h) rfl rfl fun m hm => ?_, fun p => ?_⟩
      · rw [← s.restate_eq, ← s.restate_taken]
        exact (workRestoreReceiver_some (by rw [same hm]; exact nonzero) ((entry hm).trans found)).trans (if_neg (not_not.mpr allowed))
      · obtain ⟨fields, lamp, same⟩ := s.restate_position e (if (s.posHolding e).isSome then .docked else .adrift) p
        refine ⟨fields, fun held => (lamp held).trans ?_, same⟩
        rw [held]
        cases (s.position p).state <;> rfl

/-! ## The floor input -/

theorem exec_floorFrame {s : State} (ready : s.part = .ready) (a : Option Audio) :
    exec (.floorFrame a) s = .next (if (s.floor.take a).locked = s.floor.locked then { s with floor := s.floor.take a }
      else (({ s with floor := s.floor.take a } : State).writeChannel 0 id).raise .floor) :=
  congrArg Host.Outcome.next (if_neg (not_not.mpr ready))

/-- The floor input changes state: what FLOOR_FRAME then writes. -/
theorem State.floorChanged {s : State} {a : Option Audio} (ready : s.part = .ready) (changed : (s.floor.take a).locked ≠ s.floor.locked) :
    ∃ t : State, exec (.floorFrame a) s = .next t ∧ t.floor = s.floor.take a ∧ t.isPending .floor = true
      ∧ t = { s with
          floor := t.floor, notices := { s.notices with waiting := s.notices.waiting ||| Notice.floor.bit }
          channels := s.channels.set 0 { s.channel (0 : ChannelId) with changes := (s.channel (0 : ChannelId)).changes + 2 } } := by
  refine ⟨_, (exec_floorFrame ready a).trans (congrArg Host.Outcome.next (if_neg changed)), rfl, ?_, rfl⟩
  rw [State.isPending_raise]
  exact Bool.or_true _

/-- Settles O38. -/
theorem floorLockAndLoss : Obligations.FloorLockAndLoss := by
  refine ⟨fun a s other => congrArg Host.Outcome.next (if_pos other), fun a s ready out run => ?_, fun a s ready out run => ?_,
    fun s ready out => ?_, fun a s ready locked => ?_, fun s ready locked run => ?_, fun s ready locked run => ?_⟩
  · have taken : s.floor.take (some a) = { s.floor with lockRun := s.floor.lockRun + 1, handed := some a } :=
      (if_neg (by rw [out]; decide)).trans (if_neg (by omega))
    rw [exec_floorFrame ready, taken, if_pos rfl]
  · have taken : s.floor.take (some a) = { s.floor with locked := true, lockRun := 0, missRun := 0, handed := some a } :=
      (if_neg (by rw [out]; decide)).trans (if_pos (by omega))
    obtain ⟨t, next, floor, raised, fields⟩ := State.floorChanged (a := some a) ready (by rw [taken, out]; exact Bool.noConfusion)
    rw [taken] at floor
    exact ⟨t, next, by rw [floor], by rw [floor], by rw [floor], by rw [floor], raised, fields⟩
  · have taken : s.floor.take none = { s.floor with lockRun := 0, handed := some .silence } := if_neg (by rw [out]; decide)
    rw [exec_floorFrame ready, taken, if_pos rfl]
  · have taken : s.floor.take (some a) = { s.floor with missRun := 0, handed := some a } := if_pos locked
    rw [exec_floorFrame ready, taken, if_pos rfl]
  · have taken : s.floor.take none = { s.floor with missRun := s.floor.missRun + 1, handed := some .silence } :=
      (if_pos locked).trans (if_neg (by omega))
    rw [exec_floorFrame ready, taken, if_pos rfl]
  · have taken : s.floor.take none =
        { s.floor with locked := false, losses := satAdd 16 s.floor.losses 1, lockRun := 0, missRun := 0, handed := some .silence } :=
      (if_pos locked).trans (if_pos (by omega))
    obtain ⟨t, next, floor, raised, fields⟩ := State.floorChanged (a := none) ready (by rw [taken, locked]; exact Bool.noConfusion)
    rw [taken] at floor
    exact ⟨t, next, by rw [floor], by rw [floor], by rw [floor]; rfl, raised, fields⟩

end Sys2Proof.Machine
end

section
/-!
SUPPORT. The tally log writer: what a record written leaves in memory and counts, and waiting records written in turn.
-/
namespace Sys2Proof.Machine

/-! ## Bytes -/

theorem Memory.readBytes_eq {m : Memory} {a : Nat} : ∀ {k : Nat} {l : List Byte}, l.length = k →
    (∀ i : Nat, i < k → m.read8 (a + i) = l.getD i 0) → m.readBytes a k = l
  | 0, [], _, _ => rfl
  | k + 1, b :: bs, hl, h => by
    rw [Memory.readBytes, show m.read8 a = b from h 0 (Nat.succ_pos k),
      Memory.readBytes_eq (a := a + 1) (l := bs) (Nat.succ.inj hl) (fun i hi => by
        rw [Nat.add_right_comm]
        exact h (i + 1) (Nat.succ_lt_succ hi))]

theorem leBytes_two_half (v : Half) : leBytes 2 v.toNat = [v.extractLsb' 0 8, v.extractLsb' 8 8] := by
  have h0 : BitVec.ofNat 8 v.toNat = v.extractLsb' 0 8 := by
    apply BitVec.eq_of_toNat_eq
    simp [BitVec.extractLsb'_toNat]
  have h1 : BitVec.ofNat 8 (v.toNat / 256) = v.extractLsb' 8 8 := by
    apply BitVec.eq_of_toNat_eq
    simp [BitVec.extractLsb'_toNat, Nat.shiftRight_eq_div_pow]
  simp only [leBytes, h0, h1]

theorem getD_last {a : List Byte} (b : List Byte) {k i : Nat} (h : a.length = k) : (a ++ b).getD (k + i) 0 = b.getD i 0 := by
  subst h
  simp [List.getD_eq_getElem?_getD, List.getElem?_append_right]

theorem getD_middle {a : List Byte} (b c : List Byte) {k i : Nat} (h : a.length = k) (hi : i < b.length) :
    (a ++ b ++ c).getD (k + i) 0 = b.getD i 0 := by
  rw [List.append_assoc, getD_last _ h]
  simp [List.getD_eq_getElem?_getD, List.getElem?_append_left, hi]

/-! ## A record written -/

theorem tallyBase_bounds (c : Half) : 0x30000 ≤ tallyBase c ∧ tallyBase c + 64 ≤ 0x40000 := by
  unfold tallyBase; omega

/-- The places of two records apart by less than 1024 do not overlap. -/
theorem tallyBase_far (c : Half) {i j : Nat} (h : i < j) (hj : j < i + 1024) :
    tallyBase (c + BitVec.ofNat 16 i) + 64 ≤ tallyBase (c + BitVec.ofNat 16 j)
      ∨ tallyBase (c + BitVec.ofNat 16 j) + 64 ≤ tallyBase (c + BitVec.ofNat 16 i) := by
  simp only [tallyBase, BitVec.toNat_add, BitVec.toNat_ofNat]
  omega

theorem TallyRecord.body_length (r : TallyRecord) : r.body.length ≤ 52 := by
  cases r <;> simp only [TallyRecord.body, Stamp.bytes, List.length_append, leBytes_length] <;> omega

/-- Under OVERWRITE the log is full: the oldest unread record makes way (R164). -/
def State.overwrites (s : State) : Prop := s.log.policy = .overwrite ∧ 1024 ≤ s.unread

section
variable {s : State}

theorem State.makeRoom_of_full (h : s.overwrites) :
    s.makeRoom = ({ s with mem := s.mem.write16 0x100 (s.readCount + 1), log := { s.log with lost := satAdd 32 s.log.lost 1 } }).bumpHeader :=
  if_pos h

theorem State.makeRoom_of_room (h : ¬ s.overwrites) : s.makeRoom = s := if_neg h

theorem State.makeRoom_wf (h : s.memOk) : s.makeRoom.memOk := by
  by_cases full : s.overwrites
  · rw [State.makeRoom_of_full full]
    exact Memory.wf_write16 _ _ h
  · rwa [State.makeRoom_of_room full]

theorem State.makeRoom_read8 (h : s.memOk) {a : Nat} (h0 : a ≠ 0x100) (h1 : a ≠ 0x101) : s.makeRoom.mem.read8 a = s.mem.read8 a := by
  by_cases full : s.overwrites
  · rw [State.makeRoom_of_full full]
    exact (Memory.read8_write16 h _ _ _).trans ((if_neg h1).trans (if_neg h0))
  · rw [State.makeRoom_of_room full]

theorem State.makeRoom_writeCount : s.makeRoom.log.writeCount = s.log.writeCount := by
  unfold State.makeRoom; split <;> rfl

theorem State.makeRoom_clock : s.makeRoom.clock = s.clock := by
  unfold State.makeRoom; split <;> rfl

variable (r : TallyRecord)

/-- The memory once a record is written. -/
theorem State.writeTally_mem : (s.writeTally r).mem = s.makeRoom.mem.writeBytes (tallyBase s.log.writeCount)
    (tallyBytes (s.makeRoom.mem.read16 (tallyBase s.log.writeCount) + 2) s.log.writeCount s.clock.run r) := by
  rw [← State.makeRoom_writeCount, ← State.makeRoom_clock]
  unfold State.writeTally
  generalize s.makeRoom = u
  dsimp only
  split
  · rw [State.raise_mem, State.bumpHeader_mem]
  · rw [State.bumpHeader_mem]

theorem State.writeTally_wf (h : s.memOk) : (s.writeTally r).memOk := by
  rw [State.memOk, State.writeTally_mem]
  exact Memory.wf_writeBytes _ _ (State.makeRoom_wf h)

theorem tallyBytes_length (c q : Half) (t : Nat) : (tallyBytes c q t r).length = 64 := padTo_length 64 _

/-- A record written leaves every byte but the read count's and those of its place. -/
theorem State.writeTally_read8 (h : s.memOk) {a : Nat} (h0 : a ≠ 0x100) (h1 : a ≠ 0x101)
    (far : a < tallyBase s.log.writeCount ∨ tallyBase s.log.writeCount + 64 ≤ a) : (s.writeTally r).mem.read8 a = s.mem.read8 a := by
  rw [State.writeTally_mem, Memory.read8_writeBytes _ _ _ (State.makeRoom_wf h), tallyBytes_length, if_neg (by omega),
    State.makeRoom_read8 h h0 h1]

/-- The bytes of a record's place once it is written. -/
theorem State.writeTally_byte (h : s.memOk) {i : Nat} (hi : i < 64) :
    (s.writeTally r).mem.read8 (tallyBase s.log.writeCount + i) =
      (leBytes 2 (s.makeRoom.mem.read16 (tallyBase s.log.writeCount) + 2).toNat ++ [r.kind, 0] ++ leBytes 2 s.log.writeCount.toNat
        ++ leBytes 6 s.clock.run ++ r.body).getD i 0 := by
  rw [State.writeTally_mem, Memory.read8_writeBytes _ _ _ (State.makeRoom_wf h), tallyBytes_length, if_pos (by omega), Nat.add_sub_cancel_left]
  exact padTo_getD _ hi

end

/-- What the place of a record shows (section 11.2): its kind, its sequence, the written run ticks and its body. -/
structure Memory.Tally (m : Memory) (count : Half) (ticks : Nat) (r : TallyRecord) : Prop where
  kind : m.read8 (tallyBase count + 2) = r.kind
  sequence : m.read16 (tallyBase count + 4) = count
  ticks : m.readBytes (tallyBase count + 6) 6 = leBytes 6 ticks
  body : m.readBytes (tallyBase count + 0x0C) r.body.length = r.body

theorem State.writeTally_tally {s : State} (r : TallyRecord) (h : s.memOk) :
    (s.writeTally r).mem.Tally s.log.writeCount s.clock.run r := by
  have byte {i : Nat} (hi : i < 64) := State.writeTally_byte r h hi
  have seq := leBytes_two_half s.log.writeCount
  refine ⟨byte (by omega), ?_, ?_, ?_⟩
  · rw [Memory.read16, Nat.add_assoc, byte (by omega), byte (by omega), seq]
    exact half_bytes s.log.writeCount
  · refine Memory.readBytes_eq (leBytes_length 6 _) fun i hi => ?_
    rw [Nat.add_assoc, byte (by omega), seq]
    exact getD_middle (a := _ ++ [r.kind, 0] ++ _) _ r.body rfl hi
  · refine Memory.readBytes_eq rfl fun i hi => ?_
    have := r.body_length
    rw [Nat.add_assoc, byte (by omega), seq]
    exact getD_last (a := _ ++ [r.kind, 0] ++ _ ++ leBytes 6 _) r.body rfl

/-! ## The counts of the log -/

section
variable {s : State}

theorem State.makeRoom_readCount (h : s.memOk) : (s.overwrites → s.makeRoom.readCount = s.readCount + 1)
    ∧ (¬ s.overwrites → s.makeRoom.readCount = s.readCount) := by
  refine ⟨fun full => ?_, fun room => by rw [State.makeRoom_of_room room]⟩
  rw [State.makeRoom_of_full full]
  exact Memory.read16_write16 h _ _

theorem State.makeRoom_lost : (s.overwrites → s.makeRoom.log.lost = satAdd 32 s.log.lost 1)
    ∧ (¬ s.overwrites → s.makeRoom.log.lost = s.log.lost) :=
  ⟨fun full => by rw [State.makeRoom_of_full full]; rfl, fun room => by rw [State.makeRoom_of_room room]⟩

variable (r : TallyRecord)

theorem State.writeTally_log :
    (s.writeTally r).log = { s.log with writeCount := s.log.writeCount + 1, lost := s.makeRoom.log.lost } := by
  have room : s.makeRoom.log = { s.log with lost := s.makeRoom.log.lost } := by
    unfold State.makeRoom; split <;> rfl
  unfold State.writeTally
  rw [show s.log.writeCount = s.makeRoom.log.writeCount from State.makeRoom_writeCount.symm]
  generalize hu : s.makeRoom = u at room
  dsimp only
  split
  · rw [State.raise_log, State.bumpHeader_log, room]
  · rw [State.bumpHeader_log, room]

theorem State.writeTally_readCount (h : s.memOk) : (s.writeTally r).readCount = s.makeRoom.readCount := by
  have far := tallyBase_bounds s.log.writeCount
  rw [State.readCount, State.writeTally_mem]
  refine Memory.read16_of_eq ?_ ?_ <;>
    rw [Memory.read8_writeBytes _ _ _ (State.makeRoom_wf h), if_neg (by omega)]

/-- The number of unread records once one is written: one more, but never past 1024 (R161, R164). -/
theorem State.writeTally_unread (h : s.memOk) (room : s.logRoom = true) (le : s.unread ≤ 1024) :
    (s.writeTally r).unread = min 1024 (s.unread + 1) := by
  have count : (s.writeTally r).log.writeCount = s.log.writeCount + 1 := by rw [State.writeTally_log]
  rw [State.unread, count, State.writeTally_readCount r h]
  by_cases full : s.overwrites
  · rw [(State.makeRoom_readCount h).1 full]
    have := full.2
    rw [State.unread] at *
    bv_omega
  · rw [(State.makeRoom_readCount h).2 full]
    have : s.unread < 1024 := by
      simp only [State.logRoom, Bool.or_eq_true, decide_eq_true_eq, beq_iff_eq] at room
      rcases room with lt | policy
      · exact lt
      · exact Nat.lt_of_not_le fun ge => full ⟨policy, ge⟩
    rw [State.unread] at *
    bv_omega

end

/-! ## The log law -/

/-- A log with its law but for the wait list: canonical memory and at most 1024 unread records. -/
def State.logSound (s : State) : Prop := s.memOk ∧ s.unread ≤ 1024

theorem State.logSound_writeTally {s : State} (h : s.logSound) (room : s.logRoom = true) (r : TallyRecord) : (s.writeTally r).logSound :=
  ⟨State.writeTally_wf r h.1, by rw [State.writeTally_unread r h.1 room h.2]; exact Nat.min_le_left _ _⟩

theorem State.logOk_of_empty {s : State} (h : s.logSound) (none : s.log.waiting = []) : s.logOk := ⟨h.1, h.2, fun w => absurd none w⟩

theorem State.logOk.sound {s : State} (h : s.logOk) : s.logSound := ⟨h.1, h.2.1⟩

/-- Without room the log is full under KEEP. -/
theorem State.full_of_not_logRoom {s : State} (h : s.logSound) (room : s.logRoom = false) : s.log.policy = .keep ∧ s.unread = 1024 := by
  simp only [State.logRoom, Bool.or_eq_false_iff, decide_eq_false_iff_not, beq_eq_false_iff_ne] at room
  refine ⟨?_, Nat.le_antisymm h.2 (Nat.not_lt.mp room.1)⟩
  cases hp : s.log.policy with
  | keep => rfl
  | overwrite => exact absurd hp room.2

theorem State.not_logBlocked {s : State} (h : s.logOk) (free : s.logBlocked = false) : s.logRoom = true ∧ s.log.waiting = [] := by
  simp only [State.logBlocked, Bool.and_eq_false_iff, beq_eq_false_iff_ne, Bool.or_eq_false_iff, Bool.not_eq_eq_eq_not, Bool.not_false,
    List.isEmpty_iff] at free
  rcases free with policy | free
  · refine ⟨?_, ?_⟩
    · cases hp : s.log.policy with
      | keep => exact absurd hp policy
      | overwrite => simp [State.logRoom, hp]
    · by_contra some
      exact policy (h.2.2 some).1
  · exact free

theorem State.logBlocked_full {s : State} (h : s.logOk) (blocked : s.logBlocked = true) : s.log.policy = .keep ∧ s.unread = 1024 := by
  simp only [State.logBlocked, Bool.and_eq_true, beq_iff_eq, Bool.or_eq_true, Bool.not_eq_eq_eq_not, Bool.not_true] at blocked
  rcases blocked.2 with full | some
  · exact State.full_of_not_logRoom h.sound full
  · exact h.2.2 (fun e => by rw [e] at some; exact Bool.noConfusion some)

/-! ## Waiting records written -/

/-- The state with another wait list. -/
def State.setWaiting (s : State) (x : List WaitEntry) : State := { s with log := { s.log with waiting := x } }

/-- A waiting record written, and what it belonged to released (R165). -/
def State.writeEntry (s : State) (w : WaitEntry) : State := (s.writeTally w.record).release w.owner

/-- Waiting records written in turn. -/
def State.writeEntries (s : State) (l : List WaitEntry) : State := l.foldl State.writeEntry s

theorem State.makeRoom_setWaiting (s : State) (x : List WaitEntry) : (s.setWaiting x).makeRoom = s.makeRoom.setWaiting x := by
  by_cases full : s.overwrites
  · rw [State.makeRoom_of_full full, State.makeRoom_of_full (s := s.setWaiting x) full]
    rfl
  · rw [State.makeRoom_of_room full, State.makeRoom_of_room (s := s.setWaiting x) full]

theorem State.writeTally_setWaiting (s : State) (x : List WaitEntry) (r : TallyRecord) :
    (s.setWaiting x).writeTally r = (s.writeTally r).setWaiting x := by
  unfold State.writeTally
  rw [State.makeRoom_setWaiting]
  generalize s.makeRoom = u
  dsimp only
  by_cases c : u.unread = 767
  · rw [if_pos c, if_pos (show (u.setWaiting x).unread = 767 from c)]
    rfl
  · rw [if_neg c, if_neg (show ¬ (u.setWaiting x).unread = 767 from c)]
    rfl

theorem State.release_setWaiting (s : State) (x : List WaitEntry) (o : WaitOwner) : (s.setWaiting x).release o = (s.release o).setWaiting x := by
  cases o <;> rfl

theorem State.writeEntry_setWaiting (s : State) (x : List WaitEntry) (w : WaitEntry) :
    (s.setWaiting x).writeEntry w = (s.writeEntry w).setWaiting x := by
  rw [State.writeEntry, State.writeTally_setWaiting, State.release_setWaiting]
  rfl

theorem State.writeEntries_setWaiting (x : List WaitEntry) : ∀ (l : List WaitEntry) (s : State),
    (s.setWaiting x).writeEntries l = (s.writeEntries l).setWaiting x
  | [], _ => rfl
  | w :: l, s => by
    rw [show (s.setWaiting x).writeEntries (w :: l) = ((s.setWaiting x).writeEntry w).writeEntries l from rfl,
      State.writeEntry_setWaiting, State.writeEntries_setWaiting x l]
    rfl

section
variable {s : State}

theorem State.release_core (o : WaitOwner) : (s.release o).log = s.log ∧ (s.release o).mem = s.mem ∧ (s.release o).clock = s.clock :=
  have only := s.release_only o
  ⟨only .log (by decide), only .mem (by decide), only .clock (by decide)⟩

theorem State.writeTally_clock (r : TallyRecord) : (s.writeTally r).clock = s.clock := s.writeTally_only r .clock (by decide)

theorem State.writeEntry_log (w : WaitEntry) :
    (s.writeEntry w).log = { s.log with writeCount := s.log.writeCount + 1, lost := s.makeRoom.log.lost } :=
  State.release_core _ |>.1.trans (State.writeTally_log _)

theorem State.writeEntry_mem (w : WaitEntry) : (s.writeEntry w).mem = (s.writeTally w.record).mem := (State.release_core _).2.1

theorem State.writeEntry_clock (w : WaitEntry) : (s.writeEntry w).clock = s.clock :=
  (State.release_core _).2.2.trans (State.writeTally_clock _)

theorem State.writeEntry_unread (w : WaitEntry) (h : s.logSound) (room : s.logRoom = true) :
    (s.writeEntry w).unread = min 1024 (s.unread + 1) := by
  rw [← State.writeTally_unread w.record h.1 room h.2]
  simp only [State.unread, State.readCount, State.writeEntry_mem, State.writeEntry_log, State.writeTally_log]

theorem State.logSound_writeEntry (w : WaitEntry) (h : s.logSound) (room : s.logRoom = true) : (s.writeEntry w).logSound := by
  have sound := State.logSound_writeTally h room w.record
  refine ⟨?_, by rw [State.writeEntry_unread w h room]; exact Nat.min_le_left _ _⟩
  rw [State.memOk, State.writeEntry_mem]
  exact sound.1

theorem State.logRoom_iff : s.logRoom = true ↔ s.unread < 1024 ∨ s.log.policy = .overwrite := by
  simp [State.logRoom]

end

/-- The log has room for `k` records, one after another. -/
def State.roomFor (s : State) (k : Nat) : Prop := s.log.policy = .overwrite ∨ s.unread + k ≤ 1024

section
variable {s : State}

theorem State.writeEntry_wf (w : WaitEntry) (h : s.memOk) : (s.writeEntry w).memOk := by
  rw [State.memOk, State.writeEntry_mem]
  exact State.writeTally_wf w.record h

theorem State.logSound.roomFor (h : s.logSound) : s.roomFor 0 := Or.inr h.2

/-- A list of records to be written starts with one for which there is room. -/
theorem State.roomFor_cons {w : WaitEntry} {k : Nat} (h : s.memOk) (room : s.roomFor (k + 1)) :
    s.logRoom = true ∧ (s.writeEntry w).memOk ∧ (s.writeEntry w).roomFor k := by
  have one : s.logRoom = true := State.logRoom_iff.mpr (room.symm.imp (fun h => by omega) id)
  refine ⟨one, State.writeEntry_wf w h, room.imp (fun p => ?_) (fun u => ?_)⟩
  · rw [State.writeEntry_log]
    exact p
  · rw [State.writeEntry_unread w ⟨h, by omega⟩ one]
    omega

/-- How many of the waiting records `ws` the log has room for. -/
def State.drainCount (s : State) (ws : List WaitEntry) : Nat :=
  if s.log.policy = .overwrite then ws.length else min ws.length (1024 - s.unread)

theorem State.roomFor_drainCount (ws : List WaitEntry) (h : s.roomFor 0) : s.roomFor (ws.take (s.drainCount ws)).length := by
  rw [List.length_take]
  by_cases ow : s.log.policy = .overwrite
  · exact Or.inl ow
  · have := h.resolve_left ow
    refine Or.inr ?_
    rw [State.drainCount, if_neg ow]
    omega

end

/-- Waiting records written while room lasts: the first of the list written, the others left waiting (R165). -/
theorem State.drainList_eq : ∀ (ws : List WaitEntry) {s : State}, s.memOk → s.roomFor 0 →
    State.drainList ws s = (s.writeEntries (ws.take (s.drainCount ws))).setWaiting (ws.drop (s.drainCount ws))
  | [], _, _, _ => by
    simp only [List.take_nil, List.drop_nil]
    rfl
  | w :: ws, s, h, bound => by
    have next : (({ s with log := { s.log with waiting := ws } } : State).writeTally w.record).release w.owner
        = (s.writeEntry w).setWaiting ws := State.writeEntry_setWaiting s ws w
    rw [State.drainList]
    have go (room : s.logRoom = true) (bound' : (s.writeEntry w).roomFor 0)
        (count : s.drainCount (w :: ws) = (s.writeEntry w).drainCount ws + 1) :
        State.drainList ws ((({ s with log := { s.log with waiting := ws } } : State).writeTally w.record).release w.owner)
          = (s.writeEntries ((w :: ws).take (s.drainCount (w :: ws)))).setWaiting ((w :: ws).drop (s.drainCount (w :: ws))) := by
      rw [next, State.drainList_eq ws (s := (s.writeEntry w).setWaiting ws) (State.writeEntry_wf w h) bound', count,
        State.writeEntries_setWaiting]
      rfl
    have policy : (s.writeEntry w).log.policy = s.log.policy := by rw [State.writeEntry_log]
    by_cases ow : s.log.policy = .overwrite
    · have room : s.logRoom = true := State.logRoom_iff.mpr (Or.inr ow)
      rw [if_pos room]
      refine go room (Or.inl (policy.trans ow)) ?_
      rw [State.drainCount, State.drainCount, policy, if_pos ow, if_pos ow, List.length_cons]
    · have sound : s.logSound := ⟨h, bound.resolve_left ow⟩
      by_cases room : s.logRoom = true
      · have lt : s.unread < 1024 := (State.logRoom_iff.mp room).resolve_right ow
        have unread := State.writeEntry_unread w sound room
        rw [if_pos room]
        refine go room (Or.inr (by omega)) ?_
        rw [State.drainCount, State.drainCount, policy, if_neg ow, if_neg ow, List.length_cons]
        omega
      · have full := State.full_of_not_logRoom sound (Bool.eq_false_iff.mpr room)
        have count : s.drainCount (w :: ws) = 0 := by
          rw [State.drainCount, if_neg ow, full.2]
          simp
        rw [if_neg room, count]
        rfl

theorem State.writeEntries_log : ∀ (l : List WaitEntry) {s : State},
    (s.writeEntries l).log = { s.log with writeCount := s.log.writeCount + BitVec.ofNat 16 l.length, lost := (s.writeEntries l).log.lost }
      ∧ (s.writeEntries l).clock = s.clock
  | [], s => ⟨by simp [State.writeEntries], rfl⟩
  | w :: l, s => by
    obtain ⟨log, clock⟩ := State.writeEntries_log l (s := s.writeEntry w)
    rw [State.writeEntry_log, State.writeEntry_clock] at *
    refine ⟨?_, clock⟩
    rw [show s.writeEntries (w :: l) = (s.writeEntry w).writeEntries l from rfl]
    conv_lhs => rw [log]
    simp only [List.length_cons, BitVec.ofNat_add, add_assoc]
    rw [add_comm (BitVec.ofNat 16 l.length)]
    rfl

theorem State.writeEntries_wf : ∀ (l : List WaitEntry) {s : State}, s.memOk → (s.writeEntries l).memOk
  | [], _, h => h
  | w :: l, _, h => State.writeEntries_wf l (State.writeEntry_wf w h)

/-- Under KEEP each record written is one more unread, and the read count and the lost count stay. -/
theorem State.writeEntries_keep : ∀ (l : List WaitEntry) {s : State}, s.memOk → s.log.policy = .keep → s.unread + l.length ≤ 1024 →
    (s.writeEntries l).unread = s.unread + l.length ∧ (s.writeEntries l).readCount = s.readCount
      ∧ (s.writeEntries l).log.lost = s.log.lost
  | [], _, _, _, _ => ⟨rfl, rfl, rfl⟩
  | w :: l, s, h, keep, le => by
    rw [List.length_cons] at le
    have room : s.logRoom = true := State.logRoom_iff.mpr (Or.inl (by omega))
    have some : ¬ s.overwrites := fun e => absurd (keep.symm.trans e.1) (by decide)
    have one := State.writeEntry_unread w ⟨h, by omega⟩ room
    obtain ⟨unread, read, lost⟩ := State.writeEntries_keep l (State.writeEntry_wf w h) (by rw [State.writeEntry_log]; exact keep)
      (by omega)
    refine ⟨unread.trans ?_, read.trans ?_, lost.trans ?_⟩
    · rw [one, List.length_cons]
      omega
    · rw [State.readCount, State.writeEntry_mem]
      exact (State.writeTally_readCount w.record h).trans ((State.makeRoom_readCount h).2 some)
    · rw [State.writeEntry_log]
      exact State.makeRoom_lost.2 some

/-- What is sound stays sound as records are written while there is room. -/
theorem State.writeEntries_sound : ∀ (l : List WaitEntry) {s : State}, s.logSound → s.roomFor l.length → (s.writeEntries l).logSound
  | [], _, h, _ => h
  | w :: l, _, h, room =>
    have ⟨one, _, rest⟩ := State.roomFor_cons (w := w) h.1 room
    State.writeEntries_sound l (State.logSound_writeEntry w h one) rest

theorem State.writeEntries_read8 : ∀ (l : List WaitEntry) {s : State}, s.memOk → s.roomFor l.length → ∀ {a : Nat}, a ≠ 0x100 → a ≠ 0x101 →
    (∀ j : Nat, j < l.length → a < tallyBase (s.log.writeCount + BitVec.ofNat 16 j) ∨ tallyBase (s.log.writeCount + BitVec.ofNat 16 j) + 64 ≤ a) →
    (s.writeEntries l).mem.read8 a = s.mem.read8 a
  | [], _, _, _, _, _, _, _ => rfl
  | w :: l, s, h, room, a, h0, h1, far => by
    obtain ⟨one, sound, rest⟩ := State.roomFor_cons (w := w) h room
    refine (State.writeEntries_read8 l sound rest h0 h1 fun j hj => ?_).trans ?_
    · have := far (j + 1) (Nat.succ_lt_succ hj)
      rw [State.writeEntry_log]
      rwa [Nat.add_comm j 1, BitVec.ofNat_add, ← add_assoc] at this
    · have := far 0 (Nat.succ_pos _)
      rw [State.writeEntry_mem]
      exact State.writeTally_read8 w.record h h0 h1 (by simpa using this)

/-- A record stays in its place while its bytes stay. -/
theorem Memory.Tally.of_eq {m k : Memory} {c : Half} {t : Nat} {r : TallyRecord} (h : m.Tally c t r)
    (same : ∀ a, tallyBase c ≤ a → a < tallyBase c + 64 → k.read8 a = m.read8 a) : k.Tally c t r := by
  have len := r.body_length
  refine ⟨?_, ?_, ?_, ?_⟩
  · rw [same _ (by omega) (by omega)]
    exact h.kind
  · rw [Memory.read16_of_eq (same _ (by omega) (by omega)) (same _ (by omega) (by omega))]
    exact h.sequence
  · rw [Memory.readBytes_congr 6 _ fun x h1 h2 => same x (by omega) (by omega)]
    exact h.ticks
  · rw [Memory.readBytes_congr r.body.length _ fun x h1 h2 => same x (by omega) (by omega)]
    exact h.body

/-- The last 1024 of the records written in turn stand in the log, each in its place. -/
theorem State.writeEntries_tally : ∀ (l : List WaitEntry) {s : State}, s.memOk → s.roomFor l.length →
    ∀ {i : Nat} {w : WaitEntry}, l[i]? = some w → l.length ≤ i + 1024 →
      (s.writeEntries l).mem.Tally (s.log.writeCount + BitVec.ofNat 16 i) s.clock.run w.record
  | [], _, _, _, _, _, hx, _ => nomatch hx
  | w :: l, s, h, room, i, x, hx, len => by
    obtain ⟨one, sound, rest⟩ := State.roomFor_cons (w := w) h room
    cases i with
    | zero =>
      obtain rfl : w = x := by simpa using hx
      have here : (s.writeEntry w).mem.Tally (s.log.writeCount + BitVec.ofNat 16 0) s.clock.run w.record := by
        rw [State.writeEntry_mem, show s.log.writeCount + BitVec.ofNat 16 0 = s.log.writeCount from BitVec.add_zero _]
        exact State.writeTally_tally w.record h
      have bounds := tallyBase_bounds (s.log.writeCount + BitVec.ofNat 16 0)
      refine here.of_eq fun a lo hi => State.writeEntries_read8 l sound rest (by omega) (by omega) fun j hj => ?_
      have far := tallyBase_far s.log.writeCount (i := 0) (j := j + 1) (by omega) (by simp only [List.length_cons] at len; omega)
      rw [State.writeEntry_log]
      rw [Nat.add_comm j 1, BitVec.ofNat_add, ← add_assoc] at far
      rcases far with far | far
      · exact Or.inl (lt_of_lt_of_le hi far)
      · exact Or.inr (le_trans far lo)
    | succ i =>
      have ih := State.writeEntries_tally l sound rest (i := i) (w := x) (by simpa using hx)
        (by simp only [List.length_cons] at len; omega)
      rw [State.writeEntry_log, State.writeEntry_clock] at ih
      rw [Nat.add_comm i 1, BitVec.ofNat_add, ← add_assoc]
      exact ih

/-! ## What written records release -/

section
variable {s : State} (w : WaitEntry)

theorem State.writeEntry_hire (h : HireId) :
    (w.owner = .hire h → ((s.writeEntry w).hire h).state = .free) ∧ (w.owner ≠ .hire h → (s.writeEntry w).hire h = s.hire h) := by
  have tally : (s.writeTally w.record).hires = s.hires := s.writeTally_only w.record .hires (by decide)
  have same : (s.writeTally w.record).hire h = s.hire h := by rw [State.hire, tally]
  cases hw : w.owner with
  | hire k =>
    have new := (s.writeTally w.record).hire_writeHire k h (fun r => { r with state := .free })
    rw [State.writeEntry, hw]
    refine ⟨fun e => ?_, fun e => (new.trans (if_neg fun hk => e (by rw [hk]))).trans same⟩
    obtain rfl : k = h := by injection e
    rw [State.release, show State.hire _ k = _ from new, if_pos rfl]
    rfl
  | console b n => rw [State.writeEntry, hw]; exact ⟨fun e => WaitOwner.noConfusion e, fun _ => same⟩
  | receiver e => rw [State.writeEntry, hw]; exact ⟨fun e => WaitOwner.noConfusion e, fun _ => same⟩

theorem State.writeEntry_receiver (d : RecvId) :
    (w.owner = .receiver d → ((s.writeEntry w).receiver d).foundWaiting = false)
      ∧ (w.owner ≠ .receiver d → (s.writeEntry w).receiver d = s.receiver d) := by
  have tally : (s.writeTally w.record).receivers = s.receivers := s.writeTally_only w.record .receivers (by decide)
  have same : (s.writeTally w.record).receiver d = s.receiver d := by rw [State.receiver, tally]
  cases hw : w.owner with
  | receiver k =>
    have new := (s.writeTally w.record).receiver_writeReceiver k d (fun r => { r with foundWaiting := false })
    rw [State.writeEntry, hw]
    refine ⟨fun e => ?_, fun e => (new.trans (if_neg fun hk => e (by rw [hk]))).trans same⟩
    obtain rfl : k = d := by injection e
    rw [State.release, show State.receiver _ k = _ from new, if_pos rfl]
    rfl
  | console b n => rw [State.writeEntry, hw]; exact ⟨fun e => WaitOwner.noConfusion e, fun _ => same⟩
  | hire e => rw [State.writeEntry, hw]; exact ⟨fun e => WaitOwner.noConfusion e, fun _ => same⟩

end

/-- A hire is released by the writing of its record, and no other hire changes. -/
theorem State.writeEntries_hire : ∀ (l : List WaitEntry) (s : State) (h : HireId),
    ((∃ w ∈ l, w.owner = .hire h) → ((s.writeEntries l).hire h).state = .free)
      ∧ ((∀ w ∈ l, w.owner ≠ .hire h) → (s.writeEntries l).hire h = s.hire h)
  | [], _, _ => ⟨fun ⟨_, mem, _⟩ => absurd mem (List.not_mem_nil), fun _ => rfl⟩
  | w :: l, s, h => by
    obtain ⟨freed, kept⟩ := State.writeEntries_hire l (s.writeEntry w) h
    obtain ⟨freed', kept'⟩ := s.writeEntry_hire w h
    refine ⟨fun some => ?_, fun none => ?_⟩
    · by_cases later : ∃ x ∈ l, x.owner = .hire h
      · exact freed later
      · have now : w.owner = .hire h := by
          obtain ⟨x, mem, owner⟩ := some
          rcases List.mem_cons.mp mem with rfl | mem
          · exact owner
          · exact absurd ⟨x, mem, owner⟩ later
        rw [show s.writeEntries (w :: l) = (s.writeEntry w).writeEntries l from rfl, kept fun x mem e => later ⟨x, mem, e⟩]
        exact freed' now
    · exact (kept fun x mem => none x (List.mem_cons_of_mem w mem)).trans (kept' (none w (List.mem_cons_self ..)))

/-- A finding is released by the writing of its record, and no other entry changes. -/
theorem State.writeEntries_receiver : ∀ (l : List WaitEntry) (s : State) (d : RecvId),
    ((∃ w ∈ l, w.owner = .receiver d) → ((s.writeEntries l).receiver d).foundWaiting = false)
      ∧ ((∀ w ∈ l, w.owner ≠ .receiver d) → (s.writeEntries l).receiver d = s.receiver d)
  | [], _, _ => ⟨fun ⟨_, mem, _⟩ => absurd mem (List.not_mem_nil), fun _ => rfl⟩
  | w :: l, s, d => by
    obtain ⟨freed, kept⟩ := State.writeEntries_receiver l (s.writeEntry w) d
    obtain ⟨freed', kept'⟩ := s.writeEntry_receiver w d
    refine ⟨fun some => ?_, fun none => ?_⟩
    · by_cases later : ∃ x ∈ l, x.owner = .receiver d
      · exact freed later
      · have now : w.owner = .receiver d := by
          obtain ⟨x, mem, owner⟩ := some
          rcases List.mem_cons.mp mem with rfl | mem
          · exact owner
          · exact absurd ⟨x, mem, owner⟩ later
        rw [show s.writeEntries (w :: l) = (s.writeEntry w).writeEntries l from rfl, kept fun x mem e => later ⟨x, mem, e⟩]
        exact freed' now
    · exact (kept fun x mem => none x (List.mem_cons_of_mem w mem)).trans (kept' (none w (List.mem_cons_self ..)))

/-- Draining keeps the log law, whatever waited (R161, R163). -/
theorem State.logOk_drain {s : State} (h : s.logSound) : s.drain.logOk := by
  have room := s.roomFor_drainCount s.log.waiting h.roomFor
  rw [State.drain, State.drainList_eq _ h.1 h.roomFor]
  have sound := State.writeEntries_sound _ h room
  refine ⟨sound.1, sound.2, fun left => ?_⟩
  have short : s.drainCount s.log.waiting < s.log.waiting.length := Nat.lt_of_not_le fun ge => left (List.drop_eq_nil_of_le ge)
  have keep : s.log.policy = .keep := by
    cases hp : s.log.policy with
    | keep => rfl
    | overwrite => rw [State.drainCount, if_pos hp] at short; exact absurd short (lt_irrefl _)
  have count : s.drainCount s.log.waiting = min s.log.waiting.length (1024 - s.unread) := if_neg (by rw [keep]; decide)
  have := h.2
  have written := State.writeEntries_keep (s.log.waiting.take (s.drainCount s.log.waiting)) h.1 keep (by rw [List.length_take]; omega)
  refine ⟨by rw [State.setWaiting, (State.writeEntries_log _).1]; exact keep, written.1.trans ?_⟩
  rw [List.length_take]
  omega

end Sys2Proof.Machine
end

section
/-!
SUPPORT. Orders whose work writes the exchange memory: the work on the state taken beside the work on the state itself. With it
LogPolicySet and ReadCountLetsWaitingRecordsIn (chapter 11).
-/
namespace Sys2Proof.Machine

/-! ## The state taken beside the state -/

/-- `t` is `s` but for the post queue and for memory bytes that the taking and the completion of the order in slot `n` write. -/
def State.Beside (n : SlotId) (rest : List SlotId) (s t : State) : Prop := s.memOk ∧ ∃ m : Memory, SlotTaken s n m ∧ t = s.taken m rest

section
variable {s t : State} {n : SlotId} {rest : List SlotId}

theorem State.takes.beside {k : Nat} (h : s.takes k n rest) : State.Beside n rest s (s.takeSlot n rest) :=
  ⟨h.2.2.2, _, s.takeSlot_slotTaken n rest h.2.2.2, s.takeSlot_taken n rest⟩

/-- A change that neither reads nor writes memory and queue. -/
theorem State.Beside.map {f : State → State} (h : s.Beside n rest t) (comm : ∀ m, f (s.taken m rest) = (f s).taken m rest)
    (mem : (f s).mem = s.mem) : (f s).Beside n rest (f t) := by
  obtain ⟨ok, m, taken, rfl⟩ := h
  refine ⟨by rw [State.memOk, mem]; exact ok, m, ⟨taken.wf, fun a ha => ?_⟩, comm m⟩
  rw [mem]
  exact taken.outside a ha

theorem State.Beside.wf (h : s.Beside n rest t) : t.memOk := by
  obtain ⟨_, m, taken, rfl⟩ := h
  exact taken.wf

theorem State.Beside.read8 (h : s.Beside n rest t) {a : Nat} (ha : ¬ resultByte n a) : t.mem.read8 a = s.mem.read8 a := by
  obtain ⟨_, m, taken, rfl⟩ := h
  exact taken.outside a ha

/-- What memory and queue do not show is the same of both. -/
theorem State.Beside.same {α : Type} (g : State → α) (h : s.Beside n rest t) (free : ∀ m, g (s.taken m rest) = g s) : g t = g s := by
  obtain ⟨_, m, _, rfl⟩ := h
  exact free m

theorem State.Beside.readCount (h : s.Beside n rest t) : t.readCount = s.readCount := by
  obtain ⟨_, m, taken, rfl⟩ := h
  exact taken.readCount rest

theorem State.Beside.unread (h : s.Beside n rest t) : t.unread = s.unread := by
  rw [State.unread, State.unread, h.readCount, h.same (fun u => u.log) (fun _ => rfl)]

/-- Memories that differ only in bytes a slot's order writes stay so through the writing of the same bytes. -/
theorem State.Beside.writeBytes (h : s.Beside n rest t) (a : Nat) (l : List Byte) :
    State.Beside n rest { s with mem := s.mem.writeBytes a l } { t with mem := t.mem.writeBytes a l } := by
  obtain ⟨ok, m, taken, rfl⟩ := h
  refine ⟨Memory.wf_writeBytes _ _ ok, m.writeBytes a l, ⟨Memory.wf_writeBytes _ _ taken.wf, fun x hx => ?_⟩, rfl⟩
  rw [Memory.read8_writeBytes _ _ _ taken.wf, Memory.read8_writeBytes _ _ _ ok, taken.outside x hx]

theorem State.Beside.write16 (h : s.Beside n rest t) (a : Nat) (v : Half) :
    State.Beside n rest { s with mem := s.mem.write16 a v } { t with mem := t.mem.write16 a v } := by
  obtain ⟨ok, m, taken, rfl⟩ := h
  refine ⟨Memory.wf_write16 _ _ ok, m.write16 a v, ⟨Memory.wf_write16 _ _ taken.wf, fun x hx => ?_⟩, rfl⟩
  rw [Memory.read8_write16 taken.wf, Memory.read8_write16 ok, taken.outside x hx]

theorem State.Beside.raise (h : s.Beside n rest t) (c : Notice) : (s.raise c).Beside n rest (t.raise c) :=
  h.map (f := fun u => u.raise c) (fun _ => rfl) rfl

theorem State.Beside.writeResult (h : s.Beside n rest t) (k : SlotId) (x y : Byte) (f : Half) (v : List Byte) :
    (s.writeResult k x y f v).Beside n rest (t.writeResult k x y f v) := by
  have written := (h.writeBytes (slotBase k + 0x06) [x, y, f.extractLsb' 0 8, f.extractLsb' 8 8]).writeBytes (slotBase k + 0x32) (padTo 12 v)
  exact written

theorem State.Beside.setHolder (h : s.Beside n rest t) (k : SlotId) (v : Half) : (s.setHolder k v).Beside n rest (t.setHolder k v) :=
  h.write16 _ v

theorem State.Beside.complete (h : s.Beside n rest t) (k : SlotId) (r : Result) : (s.complete k r).Beside n rest (t.complete k r) := by
  unfold State.complete
  exact ((h.writeResult k _ _ _ _).setHolder k _).raise .order

theorem State.Beside.makeRoom (h : s.Beside n rest t) : s.makeRoom.Beside n rest t.makeRoom := by
  have log := h.same (fun u => u.log) (fun _ => rfl)
  have same : t.overwrites ↔ s.overwrites := by rw [State.overwrites, State.overwrites, h.unread, log]
  by_cases full : s.overwrites
  · rw [State.makeRoom_of_full full, State.makeRoom_of_full (same.mpr full), h.readCount, log]
    exact (h.write16 0x100 (s.readCount + 1)).map
      (f := fun u => ({ u with log := { s.log with lost := satAdd 32 s.log.lost 1 } } : State).bumpHeader) (fun _ => rfl) rfl
  · rwa [State.makeRoom_of_room full, State.makeRoom_of_room (fun e => full (same.mp e))]

theorem State.Beside.read16 (h : s.Beside n rest t) {a : Nat} (h0 : ¬ resultByte n a) (h1 : ¬ resultByte n (a + 1)) :
    t.mem.read16 a = s.mem.read16 a := Memory.read16_of_eq (h.read8 h0) (h.read8 h1)

theorem State.Beside.writeTally (h : s.Beside n rest t) (r : TallyRecord) : (s.writeTally r).Beside n rest (t.writeTally r) := by
  have room := h.makeRoom
  have unread := room.unread
  have bounds := tallyBase_bounds s.makeRoom.log.writeCount
  have slot := slotBase_lt n
  have changes := room.read16 (a := tallyBase s.makeRoom.log.writeCount) (by unfold resultByte; omega) (by unfold resultByte; omega)
  have written := room.writeBytes (tallyBase s.makeRoom.log.writeCount)
    (tallyBytes (s.makeRoom.mem.read16 (tallyBase s.makeRoom.log.writeCount) + 2) s.makeRoom.log.writeCount s.makeRoom.clock.run r)
  unfold State.writeTally
  generalize s.makeRoom = u at *
  obtain ⟨_, m, _, e⟩ := room
  rw [e] at unread changes written ⊢
  dsimp only at changes ⊢
  rw [changes, unread]
  generalize tallyBytes _ _ _ r = bytes at written ⊢
  have counted := written.map
    (f := fun x => ({ x with log := { x.log with writeCount := x.log.writeCount + 1 } } : State).bumpHeader) (fun _ => rfl) rfl
  split
  · exact counted.raise .log
  · exact counted

theorem State.Beside.release (h : s.Beside n rest t) (o : WaitOwner) : (s.release o).Beside n rest (t.release o) :=
  h.map (f := fun u => u.release o) (fun _ => by cases o <;> rfl) (State.release_core o).2.1

theorem State.Beside.writeEntries (l : List WaitEntry) : ∀ {s t : State}, s.Beside n rest t →
    (s.writeEntries l).Beside n rest (t.writeEntries l) := by
  induction l with
  | nil => exact fun h => h
  | cons w l ih => exact fun h => ih ((h.writeTally w.record).release w.owner)

theorem State.Beside.drain (h : s.Beside n rest t) (room : s.roomFor 0) : s.drain.Beside n rest t.drain := by
  have log : t.log = s.log := h.same (fun u => u.log) (fun _ => rfl)
  have count : t.drainCount s.log.waiting = s.drainCount s.log.waiting := by
    rw [State.drainCount, State.drainCount, log, h.unread]
  rw [State.drain, State.drain, log, State.drainList_eq _ h.1 room, State.drainList_eq _ h.wf (by rwa [State.roomFor, log, h.unread]),
    count]
  exact (State.Beside.writeEntries _ h).map (f := fun u => u.setWaiting (s.log.waiting.drop (s.drainCount s.log.waiting)))
    (fun _ => rfl) rfl

/-- An order completes when its work on the state beside comes out beside what it leaves. -/
theorem State.completes_beside {after u : State} {i : Instr} {r : Result} {k : Nat} {isMine : State → SlotId → Bool} {work : Work}
    (h : s.takes k n rest) (hm : isMine s n = true) (hi : exec i s = .next (s.runOrder isMine work))
    (hw : work (s.takeSlot n rest) n = (u, some r)) (beside : after.Beside n rest u) : s.completes i n rest after r := by
  obtain ⟨_, m, taken, rfl⟩ := beside
  exact State.completes_of h hm hi hw rfl taken.wf taken.outside

end

/-! ## SET_LOG_POLICY -/

theorem policy?_code (p : LogPolicy) : policy? p.code.toNat = some p := by cases p <;> rfl

theorem policy?_none {k : Nat} (h : 1 < k) : policy? k = none := by
  match k, h with
  | k + 2, _ => rfl

theorem workSetLogPolicy_same {s : State} {n : SlotId} (h : policy? (s.param8 n 0) = some s.log.policy) :
    workSetLogPolicy s n = (s, some (Result.doneAlready [s.log.policy.code, 0, 0])) := by
  rw [workSetLogPolicy, h]
  exact if_pos rfl

theorem workSetLogPolicy_keep {s : State} {n : SlotId} (h : policy? (s.param8 n 0) = some .keep) (was : s.log.policy = .overwrite) :
    workSetLogPolicy s n = (({ s with log := { s.log with policy := .keep } } : State).bumpHeader, some (Result.done [1, 0, 0])) := by
  rw [workSetLogPolicy, h]
  dsimp only
  rw [was, if_neg (by decide), if_neg (by decide), if_neg (by decide)]
  rfl

/-- OVERWRITE set, with its bracket of the header (R167). -/
def State.setOverwrite (s : State) : State := ({ s with log := { s.log with policy := .overwrite } } : State).bumpHeader

theorem workSetLogPolicy_overwrite {s : State} {n : SlotId} (h : policy? (s.param8 n 0) = some .overwrite) (was : s.log.policy = .keep) :
    workSetLogPolicy s n = (s.setOverwrite.drain, some (Result.done (0 :: leBytes 2 s.log.waiting.length))) := by
  rw [workSetLogPolicy, h]
  dsimp only
  rw [was, if_neg (by decide), if_pos rfl, if_pos rfl]
  rfl

/-- Under OVERWRITE every waiting record is written. -/
theorem State.drain_setOverwrite {s : State} (h : s.memOk) :
    s.setOverwrite.drain = (s.setOverwrite.writeEntries s.log.waiting).setWaiting [] := by
  rw [State.drain, State.drainList_eq _ (s := s.setOverwrite) h (Or.inl rfl),
    show s.setOverwrite.drainCount s.setOverwrite.log.waiting = s.setOverwrite.log.waiting.length from if_pos rfl, List.take_length,
    List.drop_length]
  rfl

/-- Settles O15. -/
theorem logPolicySet : Obligations.LogPolicySet := by
  intro s n rest h
  refine ⟨fun wrong => ?_, fun p hp same => ?_, fun keep was => ?_, fun ow was => ?_⟩
  · refine State.completes_work h (State.takes_kind h) rfl rfl fun m hm => ?_
    rw [workSetLogPolicy, hm.param8 rest (by omega), policy?_none wrong]
    rfl
  · subst same
    refine State.completes_work h (State.takes_kind h) rfl rfl fun m hm => workSetLogPolicy_same ?_
    rw [hm.param8 rest (by omega), hp, policy?_code]
  · refine State.completes_work h (State.takes_kind h) rfl rfl fun m hm => workSetLogPolicy_keep ?_ was
    rw [hm.param8 rest (by omega), keep]
    rfl
  · let v := s.setOverwrite
    have ok : v.memOk := h.2.2.2
    have room : v.roomFor s.log.waiting.length := Or.inl rfl
    have drained := State.drain_setOverwrite h.2.2.2
    have log := (State.writeEntries_log s.log.waiting (s := v)).1
    refine ⟨v.drain, ?_, ?_, ?_, ?_, fun i w hw => ⟨fun last => ?_, fun k hk => ?_, fun d hd => ?_⟩, fun k hk => ?_, fun d hd => ?_,
      fun a far h0 h1 => ?_, ?_⟩
    · have beside : v.Beside n rest (s.takeSlot n rest).setOverwrite := h.beside.map (f := State.setOverwrite) (fun _ => rfl) rfl
      refine State.completes_beside h (State.takes_kind h) rfl (workSetLogPolicy_overwrite ?_ was) (beside.drain (Or.inl rfl))
      exact congrArg policy? ((s.param8_takeSlot n rest h.2.2.2 0 (by omega)).trans ow)
    · rw [drained, State.setWaiting, log]
      rfl
    · rw [drained]
      rfl
    · rw [drained, State.setWaiting, log]
      rfl
    · rw [drained]
      obtain ⟨kind, sequence, ticks, body⟩ := State.writeEntries_tally _ ok room hw last
      exact ⟨kind, sequence, ticks, body⟩
    · rw [drained]
      exact (State.writeEntries_hire _ v k).1 ⟨w, List.mem_of_getElem? hw, hk⟩
    · rw [drained]
      exact (State.writeEntries_receiver _ v d).1 ⟨w, List.mem_of_getElem? hw, hd⟩
    · rw [drained]
      exact (State.writeEntries_hire _ v k).2 hk
    · rw [drained]
      exact (State.writeEntries_receiver _ v d).2 hd
    · rw [drained]
      refine State.writeEntries_read8 _ ok room h0 h1 fun j _ => ?_
      have := tallyBase_bounds (v.log.writeCount + BitVec.ofNat 16 j)
      omega
    · have all : s.onlyIn [.header, .notices, .mem, .log, .booths, .receivers, .hires] v.drain :=
        (((State.log_only s _).sub (by decide)).next (State.bumpHeader_only _) (by decide)).next (State.drain_only v) (by decide)
      exact all.eq (by intro f hf; cases f <;> first | exact absurd (by decide) hf | rfl)
        (by intro f hf; cases f <;> first | exact absurd hf (by decide) | rfl)

/-! ## The log read count -/

/-- The log read count written, before the waiting records that this lets in. -/
def State.setReadCount (s : State) (v : Half) : State := { s with mem := s.mem.write16 0x100 v }

section
variable {s : State} {v : Half}

theorem State.setReadCount_wf (h : s.memOk) : (s.setReadCount v).memOk := Memory.wf_write16 _ _ h

theorem State.setReadCount_readCount (h : s.memOk) : (s.setReadCount v).readCount = v := Memory.read16_write16 h _ _

theorem State.setReadCount_unread (h : s.memOk) : (s.setReadCount v).unread = (s.log.writeCount - v).toNat := by
  rw [State.unread, State.setReadCount_readCount h]
  rfl

theorem State.setReadCount_read8 (h : s.memOk) {a : Nat} (h0 : a ≠ 0x100) (h1 : a ≠ 0x101) :
    (s.setReadCount v).mem.read8 a = s.mem.read8 a := (Memory.read8_write16 h _ _ _).trans ((if_neg h1).trans (if_neg h0))

end

theorem State.hostWrite_readCount {s : State} {v : Half} {e : ByteEnables} (ready : s.part = .ready) :
    s.hostWrite 0x100 v e = if e.both = true ∧ (s.log.writeCount - v).toNat ≤ 1024 then
      if v = s.readCount then s else (s.setReadCount v).drain else s.guardHit :=
  (if_neg (not_not.mpr ready)).trans (if_pos rfl)

/-- Settles O52. -/
theorem readCountLetsWaitingRecordsIn : Obligations.ReadCountLetsWaitingRecordsIn := by
  intro v e s h
  have taken (ready : s.part = .ready) (both : e.both = true) (le : (s.log.writeCount - v).toNat ≤ 1024) (other : v ≠ s.readCount) :
      s.hostWrite 0x100 v e = (s.setReadCount v).drain :=
    (State.hostWrite_readCount ready).trans ((if_pos ⟨both, le⟩).trans (if_neg other))
  have ok : (s.setReadCount v).memOk := State.setReadCount_wf h
  have unread := State.setReadCount_unread (v := v) h
  refine ⟨fun other => ?_, fun ready wrong => ?_, fun ready both le same => ?_, fun ready both le other none => ?_,
    fun ready both le other keep => ?_⟩
  · exact congrArg Host.Outcome.next (if_pos other)
  · exact congrArg Host.Outcome.next ((State.hostWrite_readCount ready).trans (if_neg fun g =>
      wrong.elim (fun w => absurd g.1 (by rw [w]; decide)) (fun w => absurd g.2 (Nat.not_le.mpr w))))
  · exact congrArg Host.Outcome.next ((State.hostWrite_readCount ready).trans ((if_pos ⟨both, le⟩).trans (if_pos same)))
  · refine ⟨(s.setReadCount v).mem, congrArg Host.Outcome.next ((taken ready both le other).trans ?_), State.setReadCount_readCount h,
      fun x h0 h1 => State.setReadCount_read8 h h0 h1⟩
    rw [State.drain, show (s.setReadCount v).log.waiting = [] from none]
    exact congrArg (fun w => ({ s.setReadCount v with log := { s.log with waiting := w } } : State)) none.symm
  · intro k
    have bound : (s.setReadCount v).roomFor 0 := Or.inr (by rw [unread]; exact le)
    have count : (s.setReadCount v).drainCount s.log.waiting = k := by
      rw [State.drainCount, if_neg (show ¬ (s.setReadCount v).log.policy = .overwrite from fun e => absurd (keep.symm.trans e) (by decide)),
        unread]
    have room := (s.setReadCount v).roomFor_drainCount s.log.waiting bound
    have drained := State.drainList_eq s.log.waiting ok bound
    rw [count] at room drained
    have written := State.writeEntries_keep (s.log.waiting.take k) ok keep (by
      rw [List.length_take, unread]
      omega)
    have log := (State.writeEntries_log (s.log.waiting.take k) (s := s.setReadCount v)).1
    have length : (s.log.waiting.take k).length = k := by rw [List.length_take]; omega
    have entry {i : Nat} {w : WaitEntry} (hi : i < k) (hw : s.log.waiting[i]? = some w) : (s.log.waiting.take k)[i]? = some w := by
      rw [List.getElem?_take, if_pos hi, hw]
    have mem {i : Nat} {w : WaitEntry} (hi : i < k) (hw : s.log.waiting[i]? = some w) : w ∈ s.log.waiting.take k :=
      List.mem_of_getElem? (entry hi hw)
    refine ⟨(s.setReadCount v).drain, congrArg Host.Outcome.next (taken ready both le other), ?_, ?_, fun i w hi hw => ?_,
      fun x lo hi => ?_, ?_⟩
    · rw [State.drain, show (s.setReadCount v).log.waiting = s.log.waiting from rfl, drained]
      exact written.2.1.trans (State.setReadCount_readCount h)
    · rw [State.drain, show (s.setReadCount v).log.waiting = s.log.waiting from rfl, drained, State.setWaiting, log, written.2.2, length]
      rfl
    · rw [State.drain, show (s.setReadCount v).log.waiting = s.log.waiting from rfl, drained]
      obtain ⟨kind, sequence, _, body⟩ := State.writeEntries_tally _ ok room (entry hi hw) (by rw [length]; omega)
      exact ⟨kind, sequence, body, fun g owner => (State.writeEntries_hire _ _ g).1 ⟨w, mem hi hw, owner⟩,
        fun d owner => (State.writeEntries_receiver _ _ d).1 ⟨w, mem hi hw, owner⟩⟩
    · rw [State.drain, show (s.setReadCount v).log.waiting = s.log.waiting from rfl, drained]
      refine (State.writeEntries_read8 _ ok room (by omega) (by omega) fun j _ => ?_).trans
        (State.setReadCount_read8 h (by omega) (by omega))
      have := tallyBase_bounds ((s.setReadCount v).log.writeCount + BitVec.ofNat 16 j)
      omega
    · have all : s.onlyIn [.header, .notices, .mem, .log, .booths, .receivers, .hires] (s.setReadCount v).drain :=
        ((State.mem_only s _).sub (by decide)).next (State.drain_only _) (by decide)
      exact all.eq (by intro f hf; cases f <;> first | exact absurd (by decide) hf | rfl)
        (by intro f hf; cases f <;> first | exact absurd hf (by decide) | rfl)

end Sys2Proof.Machine
end

section
/-!
SUPPORT. The tariff and account orders (chapter 10): TariffAndAccountOrders.
-/
namespace Sys2Proof.Machine

/-! ## SET_TARIFF -/

theorem SlotTaken.tariffParams {s : State} {n : SlotId} {m : Memory} (h : SlotTaken s n m) (rest : List SlotId) :
    (s.taken m rest).tariffParams n = s.tariffParams n := by
  simp (disch := omega) only [State.tariffParams, h.paramLE]

theorem State.tariffParams_eq (s : State) (n : SlotId) :
    let v := fun i : Nat => s.paramLE n (2 + 2 * i) 2
    s.tariffParams n = ({
      changes := 0, grace := min 60 (v 0), baseMinutes := max 1 (min 1440 (v 1)), baseCharge := v 2, stepMinutes := max 1 (min 240 (v 3))
      stepCharge := v 4, cap := v 5, hold := v 6, lossFee := v 7 }, decide (60 < v 0 ∨ v 1 = 0 ∨ 1440 < v 1 ∨ v 3 = 0 ∨ 240 < v 3)) := by
  intro v
  refine Prod.ext ?_ ?_
  · simp only [State.tariffParams, clampTo_fst (show 0 ≤ 60 by decide), clampTo_fst (show 1 ≤ 1440 by decide),
      clampTo_fst (show 1 ≤ 240 by decide), Nat.zero_max]
    rfl
  · dsimp only [State.tariffParams]
    rw [clampTo_snd (by decide), clampTo_snd (by decide), clampTo_snd (by decide), clampTo_fst (by decide), clampTo_fst (by decide),
      clampTo_fst (by decide), ← Bool.decide_or, ← Bool.decide_or, decide_eq_decide]
    dsimp only [v]
    omega

theorem State.setTariff {s : State} {n : SlotId} {rest : List SlotId} (h : s.takes 20 n rest) :
    (3 < s.param8 n 0 → s.refuses .setTariff n rest .badArgument)
    ∧ ∀ k : TariffId, s.param8 n 0 = k.val → s.completes .setTariff n rest (s.writeTariff k (fun _ => (s.tariffParams n).1))
        (Result.doneClamped (s.tariffParams n).2 []) := by
  refine ⟨fun wrong => ?_, fun k hk => ?_⟩
  · refine State.completes_work h (State.takes_kind h) rfl rfl fun m hm => ?_
    rw [workSetTariff, hm.param8 rest (by omega), index?_of_le wrong]
    rfl
  · refine State.completes_work h (State.takes_kind h) rfl rfl fun m hm => ?_
    rw [workSetTariff, hm.param8 rest (by omega), hk, index?_val, hm.tariffParams]
    rfl

/-! ## Account orders -/

theorem SlotTaken.paramAccount {s : State} {n : SlotId} {m : Memory} (h : SlotTaken s n m) (rest : List SlotId) :
    (s.taken m rest).paramAccount n = s.paramAccount n := by
  rw [State.paramAccount, h.paramLE rest (by omega)]
  rfl

theorem State.paramAccount_some {s : State} {n : SlotId} {a : AcctId} (h : s.paramLE n 0 2 = a.val) : s.paramAccount n = some a := by
  rw [State.paramAccount, h, index?_val]

theorem State.paramAccount_none {s : State} {n : SlotId} (h : 511 < s.paramLE n 0 2) : s.paramAccount n = none :=
  index?_of_le h

theorem workAccountOpen_of {s : State} {n : SlotId} {a : AcctId} {k : TariffId} (ha : s.paramAccount n = some a)
    (hk : s.param8 n 6 = k.val) :
    workAccountOpen s n = if (s.account a).state ≠ .free then refuse s .state
      else (s.writeAccount a (fun r => r.opened (BitVec.ofNat 32 (s.paramLE n 2 4)) k
          (if s.param8 n 7 = 0 then (2, false) else clampTo 1 8 (s.param8 n 7)).1 (s.paramLE n 8 4)),
        some (Result.doneClamped (if s.param8 n 7 = 0 then (2, false) else clampTo 1 8 (s.param8 n 7)).2
          (leBytes 1 (if s.param8 n 7 = 0 then (2, false) else clampTo 1 8 (s.param8 n 7)).1))) := by
  rw [workAccountOpen, ha, hk, index?_val]

theorem openLimit (x : Nat) : (if x = 0 then (2, false) else clampTo 1 8 x) = (if x = 0 then 2 else min 8 x, decide (8 < x)) := by
  by_cases zero : x = 0
  · subst zero; rfl
  · have e : (max 1 (min 8 x) ≠ x) = (8 < x) := propext (by omega)
    rw [if_neg zero, if_neg zero]
    refine Prod.ext ((clampTo_fst (by decide) x).trans (by dsimp only; omega)) ((clampTo_snd (by decide) x).trans ?_)
    simp only [clampTo_fst (show 1 ≤ 8 by decide), e]

theorem workAccountPay_of {s : State} {n : SlotId} {a : AcctId} (ha : s.paramAccount n = some a) :
    workAccountPay s n = if (s.account a).state = .free then refuse s .notFound
      else (s.rewriteAccount a (fun r => r.pay (s.paramLE n 2 4)),
        some (Result.doneClamped
          (decide ((s.account a).toDeposit (s.paramLE n 2 4) < s.paramLE n 2 4 - (s.account a).toOwed (s.paramLE n 2 4)))
          (leBytes 4 ((s.account a).toOwed (s.paramLE n 2 4)) ++ leBytes 4 ((s.account a).toDeposit (s.paramLE n 2 4))
            ++ leBytes 4 ((s.account a).owed - (s.account a).toOwed (s.paramLE n 2 4))))) := by
  rw [workAccountPay, ha]

theorem workAccountRefund_of {s : State} {n : SlotId} {a : AcctId} (ha : s.paramAccount n = some a) :
    workAccountRefund s n = if (s.account a).state = .free then refuse s .notFound
      else if (s.account a).state = .held then refuse s .accountHeld
      else (s.rewriteAccount a (fun r => r.refund (min (s.paramLE n 2 4) (s.account a).free)),
        some (Result.doneClamped (decide ((s.account a).free < s.paramLE n 2 4))
          (leBytes 4 (min (s.paramLE n 2 4) (s.account a).free)
            ++ leBytes 4 ((s.account a).deposit - min (s.paramLE n 2 4) (s.account a).free)))) := by
  rw [workAccountRefund, ha]

theorem workAccountClose_of {s : State} {n : SlotId} {a : AcctId} (ha : s.paramAccount n = some a) :
    workAccountClose s n = if (s.account a).state = .free then refuse s .notFound
      else if 0 < (s.account a).count ∨ 0 < (s.account a).owed then refuse s .state
      else if s.logBlocked then refuse s .logFull
      else ((s.writeAccount a Account.closed).writeTally (.accountClosed ((s.account a).closeRecord a)),
        some (Result.done (leBytes 4 (s.account a).deposit))) := by
  rw [workAccountClose, ha]

/-- An account order that names no account, or none it may name, is refused. -/
theorem State.account_refused {s : State} {i : Instr} {k : Nat} {n : SlotId} {rest : List SlotId} {work : Work} (h : s.takes k n rest)
    (hi : exec i s = .next (s.runOrder (kindIs k) work)) (wrong : 511 < s.paramLE n 0 2)
    (refuses : ∀ t : State, t.paramAccount n = none → work t n = refuse t .badArgument) : s.refuses i n rest .badArgument :=
  State.completes_work h (State.takes_kind h) hi rfl fun _ hm =>
    refuses _ ((hm.paramAccount rest).trans (State.paramAccount_none wrong))

theorem Account.pay_eq (r : Account) (amount : Nat) :
    let toOwed := min amount r.owed
    let toDeposit := min (amount - toOwed) (4294967295 - r.deposit)
    r.pay amount = { r with
      owed := r.owed - toOwed, deposit := r.deposit + toDeposit, paid := min (2 ^ 48 - 1) (r.paid + (toOwed + toDeposit))
      state := if r.state = .held ∧ 0 < r.owed ∧ r.owed ≤ amount then .active else r.state } := by
  have e : (r.owed - min amount r.owed = 0) = (r.owed ≤ amount) := propext (by omega)
  intro toOwed toDeposit
  simp only [Account.pay, Account.toOwed, e]
  rfl

/-- A payment of nothing leaves the record as it was. -/
theorem Account.pay_zero {r : Account} (h : r.paid < 2 ^ 48) : r.pay 0 = r := by
  rw [Account.pay_eq]
  have state : ¬ (r.state = .held ∧ 0 < r.owed ∧ r.owed ≤ 0) := fun g => absurd g.2.1 (Nat.not_lt.mpr g.2.2)
  rw [if_neg state]
  simp only [Nat.zero_min, Nat.sub_zero, Nat.add_zero]
  rw [show min (2 ^ 48 - 1) r.paid = r.paid by omega]

theorem State.accountOpen {s : State} {n : SlotId} {rest : List SlotId} (h : s.takes 21 n rest) :
    ((511 < s.paramLE n 0 2 ∨ 3 < s.param8 n 6) → s.refuses .accountOpen n rest .badArgument)
      ∧ ∀ (a : AcctId) (k : TariffId), s.paramLE n 0 2 = a.val → s.param8 n 6 = k.val →
        ((s.account a).state ≠ .free → s.refuses .accountOpen n rest .state)
        ∧ ((s.account a).state = .free → s.completes .accountOpen n rest
            (s.writeAccount a (fun r => r.opened (BitVec.ofNat 32 (s.paramLE n 2 4)) k
              (if s.param8 n 7 = 0 then 2 else min 8 (s.param8 n 7)) (s.paramLE n 8 4)))
            (Result.doneClamped (decide (8 < s.param8 n 7)) (leBytes 1 (if s.param8 n 7 = 0 then 2 else min 8 (s.param8 n 7))))) := by
  refine ⟨fun wrong => ?_, fun a k ha hk => ⟨fun other => ?_, fun free => ?_⟩⟩
  · refine State.completes_work h (State.takes_kind h) rfl rfl fun m hm => ?_
    rw [workAccountOpen, hm.paramAccount, hm.param8 rest (by omega)]
    rcases wrong with wrong | wrong
    · rw [State.paramAccount_none wrong]
      rfl
    · rw [index?_of_le wrong]
      cases s.paramAccount n <;> rfl
  · exact State.completes_work h (State.takes_kind h) rfl rfl fun m hm =>
      (workAccountOpen_of ((hm.paramAccount rest).trans (State.paramAccount_some ha)) ((hm.param8 rest (by omega)).trans hk)).trans
        (if_pos other)
  · refine State.completes_work h (State.takes_kind h) rfl rfl fun m hm =>
      (workAccountOpen_of ((hm.paramAccount rest).trans (State.paramAccount_some ha)) ((hm.param8 rest (by omega)).trans hk)).trans
        ((if_neg (not_not.mpr free)).trans ?_)
    rw [hm.param8 rest (by omega), hm.paramLE rest (by omega), hm.paramLE rest (by omega), openLimit]
    rfl

theorem State.accountPay {s : State} {n : SlotId} {rest : List SlotId} (h : s.takes 22 n rest) {a : AcctId}
    (ha : s.paramLE n 0 2 = a.val) :
    ((s.account a).state = .free → s.refuses .accountPay n rest .notFound)
      ∧ ((s.account a).state ≠ .free → s.completes .accountPay n rest (s.rewriteAccount a (fun r => r.pay (s.paramLE n 2 4)))
        (Result.doneClamped
          (decide ((s.account a).toDeposit (s.paramLE n 2 4) < s.paramLE n 2 4 - (s.account a).toOwed (s.paramLE n 2 4)))
          (leBytes 4 ((s.account a).toOwed (s.paramLE n 2 4)) ++ leBytes 4 ((s.account a).toDeposit (s.paramLE n 2 4))
            ++ leBytes 4 ((s.account a).owed - (s.account a).toOwed (s.paramLE n 2 4))))) := by
  have worked {m : Memory} (hm : SlotTaken s n m) :=
    workAccountPay_of (s := s.taken m rest) ((hm.paramAccount rest).trans (State.paramAccount_some ha))
  refine ⟨fun free => ?_, fun other => ?_⟩
  · exact State.completes_work h (State.takes_kind h) rfl rfl fun m hm => (worked hm).trans (if_pos free)
  · refine State.completes_work h (State.takes_kind h) rfl rfl fun m hm => (worked hm).trans ((if_neg other).trans ?_)
    rw [hm.paramLE rest (by omega)]
    rfl

theorem State.accountRefund {s : State} {n : SlotId} {rest : List SlotId} (h : s.takes 23 n rest) {a : AcctId}
    (ha : s.paramLE n 0 2 = a.val) :
    ((s.account a).state = .free → s.refuses .accountRefund n rest .notFound)
      ∧ ((s.account a).state = .held → s.refuses .accountRefund n rest .accountHeld)
      ∧ ((s.account a).state = .active → s.completes .accountRefund n rest
          (s.rewriteAccount a (fun r => r.refund (min (s.paramLE n 2 4) (s.account a).free)))
          (Result.doneClamped (decide ((s.account a).free < s.paramLE n 2 4))
            (leBytes 4 (min (s.paramLE n 2 4) (s.account a).free)
              ++ leBytes 4 ((s.account a).deposit - min (s.paramLE n 2 4) (s.account a).free)))) := by
  have worked {m : Memory} (hm : SlotTaken s n m) :=
    workAccountRefund_of (s := s.taken m rest) ((hm.paramAccount rest).trans (State.paramAccount_some ha))
  refine ⟨fun free => ?_, fun held => ?_, fun active => ?_⟩
  · exact State.completes_work h (State.takes_kind h) rfl rfl fun m hm => (worked hm).trans (if_pos free)
  · exact State.completes_work h (State.takes_kind h) rfl rfl fun m hm =>
      (worked hm).trans ((if_neg (fun e => absurd (held.symm.trans e) (by decide))).trans (if_pos held))
  · refine State.completes_work h (State.takes_kind h) rfl rfl fun m hm => (worked hm).trans
      ((if_neg (fun e => absurd (active.symm.trans e) (by decide))).trans
        ((if_neg (fun e => absurd (active.symm.trans e) (by decide))).trans ?_))
    rw [hm.paramLE rest (by omega)]
    rfl

theorem Account.bump_closed (r : Account) : r.closed.bump =
    { r with changes := r.changes + 2, state := .free, deposit := 0, refunded := min (2 ^ 48 - 1) (r.refunded + r.deposit) } := by
  rw [Account.closed, Account.refund, Nat.sub_self]
  rfl

theorem owing_iff {count owed : Nat} : (0 < count ∨ 0 < owed) ↔ ¬ (count = 0 ∧ owed = 0) := by omega

theorem State.accountClose {s : State} {n : SlotId} {rest : List SlotId} (h : s.takes 24 n rest) {a : AcctId}
    (ha : s.paramLE n 0 2 = a.val) :
    ((s.account a).state = .free → s.refuses .accountClose n rest .notFound)
      ∧ ((s.account a).state ≠ .free → ¬ ((s.account a).count = 0 ∧ (s.account a).owed = 0) → s.refuses .accountClose n rest .state)
      ∧ ((s.account a).state ≠ .free → (s.account a).count = 0 ∧ (s.account a).owed = 0 →
          (s.logBlocked = true → s.refuses .accountClose n rest .logFull)
          ∧ (s.logBlocked = false → s.completes .accountClose n rest
            ((s.writeAccount a Account.closed).writeTally (.accountClosed ((s.account a).closeRecord a)))
            (Result.done (leBytes 4 (s.account a).deposit)))) := by
  have worked {m : Memory} (hm : SlotTaken s n m) :=
    workAccountClose_of (s := s.taken m rest) ((hm.paramAccount rest).trans (State.paramAccount_some ha))
  have blocked {m : Memory} (hm : SlotTaken s n m) : (s.taken m rest).logBlocked = s.logBlocked := by
    have unread : (s.taken m rest).unread = s.unread := by rw [State.unread, State.unread, hm.readCount]
    rw [State.logBlocked, State.logBlocked, State.logRoom, State.logRoom, unread]
  refine ⟨fun free => ?_, fun other unclear => ?_, fun other clear => ⟨fun full => ?_, fun room => ?_⟩⟩
  · exact State.completes_work h (State.takes_kind h) rfl rfl fun m hm => (worked hm).trans (if_pos free)
  · exact State.completes_work h (State.takes_kind h) rfl rfl fun m hm =>
      (worked hm).trans ((if_neg other).trans (if_pos (owing_iff.mpr unclear)))
  · exact State.completes_work h (State.takes_kind h) rfl rfl fun m hm =>
      (worked hm).trans ((if_neg other).trans ((if_neg (fun e => owing_iff.mp e clear)).trans (if_pos ((blocked hm).trans full))))
  · have hm := s.takeSlot_slotTaken n rest h.2.2.2
    have work := (worked hm).trans ((if_neg other).trans ((if_neg (fun e => owing_iff.mp e clear)).trans
      (if_neg (fun e => absurd ((blocked hm).symm.trans e) (by rw [room]; decide)))))
    rw [← s.takeSlot_taken] at work
    refine State.completes_beside h (State.takes_kind h) rfl work ?_
    exact (h.beside.map (f := fun u => u.writeAccount a Account.closed) (fun _ => rfl) rfl).writeTally _

/-- Settles O50. -/
theorem tariffAndAccountOrders : Obligations.TariffAndAccountOrders := by
  refine ⟨fun s n rest h => ?_, fun s n rest h => ?_, fun s n rest h => ?_, fun s n rest h => ?_, fun s n rest h => ?_⟩
  · obtain ⟨refused, set⟩ := State.setTariff h
    refine ⟨refused, fun k hk => ?_⟩
    have done := set k hk
    rw [s.tariffParams_eq n] at done
    exact done
  · obtain ⟨refused, opened⟩ := State.accountOpen h
    exact ⟨refused, fun a k ha hk => opened a k ha hk⟩
  · refine ⟨fun wrong => State.account_refused h rfl wrong fun t none => by rw [workAccountPay, none], fun a ha => ?_⟩
    obtain ⟨missing, paid⟩ := State.accountPay h ha
    refine ⟨missing, fun other => ⟨rewritten Account.bump (fun r => r.pay (s.paramLE n 2 4)) (s.account a), paid other, ?_⟩⟩
    have new := (s.account a).pay_eq (s.paramLE n 2 4)
    dsimp only at new
    by_cases same : (s.account a).pay (s.paramLE n 2 4) = s.account a
    · rw [rewritten, if_pos same, ite_self]
      exact same.symm.trans new
    · have some : ¬ (s.paramLE n 2 4 = 0 ∧ (s.account a).paid < 2 ^ 48) := fun g => same (g.1 ▸ Account.pay_zero g.2)
      rw [rewritten, if_neg same, if_neg some, new]
      rfl
  · refine ⟨fun wrong => State.account_refused h rfl wrong fun t none => by rw [workAccountRefund, none], fun a ha => ?_⟩
    obtain ⟨missing, held, refunded⟩ := State.accountRefund h ha
    refine ⟨missing, held, fun active => ⟨rewritten Account.bump (fun r => r.refund (min (s.paramLE n 2 4) (s.account a).free)) (s.account a),
      refunded active, ?_⟩⟩
    by_cases same : (s.account a).refund (min (s.paramLE n 2 4) (s.account a).free) = s.account a
    · rw [rewritten, if_pos same]
      exact same.symm
    · rw [rewritten, if_neg same]
      rfl
  · refine ⟨fun wrong => State.account_refused h rfl wrong fun t none => by rw [workAccountClose, none], fun a ha => ?_⟩
    obtain ⟨missing, unclear, cleared⟩ := State.accountClose h ha
    refine ⟨missing, unclear, fun other clear => (cleared other clear).1, fun other clear room => ?_⟩
    have ok : (s.writeAccount a Account.closed).memOk := h.2.2.2
    obtain ⟨kind, sequence, ticks, body⟩ := State.writeTally_tally (.accountClosed ((s.account a).closeRecord a)) ok
    refine ⟨_, (cleared other clear).2 room, ?_, kind, sequence, ticks, body, fun x h0 h1 far _ =>
      State.writeTally_read8 (s := s.writeAccount a Account.closed) _ ok h0 h1 far⟩
    have only := State.writeTally_only (s.writeAccount a Account.closed) (.accountClosed ((s.account a).closeRecord a))
    have log := State.writeTally_log (s := s.writeAccount a Account.closed) (.accountClosed ((s.account a).closeRecord a))
    have closed := congrArg (fun r => s.accounts.set a r) (s.account a).bump_closed
    refine only.eq ?_ ?_
    · intro f hf; cases f <;> first | exact absurd (by decide) hf | rfl | exact closed.symm
    · intro f hf; cases f <;> first | exact absurd hf (by decide) | rfl | exact log.trans (by rw [log]; rfl)

end Sys2Proof.Machine
end

section
/-!
SUPPORT. A law through the work of the console controller, the booth link receivers, the channel router and the framer: what holds of a notice
raised, a TURN record handed, a scheduled handover ended, and of booth and channel records changed but in what names them, holds of every
piece of that work.
-/
namespace Sys2Proof.Machine

/-- A booth record with the naming and the intake of another (R73, R89). -/
def Booth.namedAs (r q : Booth) : Prop := r.role.named = q.role.named ∧ r.role.role = q.role.role ∧ r.role.intake = q.role.intake

/-- A channel record with the definition, the booths and the scheduled handover of another (R71, R72, R86). -/
def Channel.namedAs (r q : Channel) : Prop :=
  r.defined = q.defined ∧ r.primary = q.primary ∧ r.partner = q.partner ∧ r.schedule = q.schedule

/-- The fields a law of the hall reads. -/
def hallFields : List StateField := [.part, .notices, .orders, .mem, .log, .booths, .channels, .receivers, .hires, .nextHire]

/-- A law that the dealings of the hall's blocks with notices, orders, the tally log and their own records keep. -/
structure HallKeeps (P : State → Prop) : Prop where
  reads : Reads P hallFields
  raise : ∀ (s : State) (c : Notice), P s → P (s.raise c)
  handTurn : ∀ (s : State) (r : TurnRecord), P s → P (s.handTurn r)
  endSchedule : ∀ (s : State) (c : ChannelId) (x : ResultCode) (y : Reason) (z : Bool) (t : Nat), P s → P (s.endSchedule c x y z t)
  setPhase : ∀ (s : State) (c : ChannelId) (h h' : Schedule), (s.channel c).schedule = some h → P s → P (s.setPhase c h')
  booths : ∀ (s : State) (v : Vector Booth 24), (∀ b : BoothId, v[b].namedAs (s.booth b)) → P s → P { s with booths := v }
  channels : ∀ (s : State) (v : Vector Channel 32), (∀ c : ChannelId, v[c].namedAs (s.channel c)) → P s → P { s with channels := v }

theorem Booth.namedAs_refl (r : Booth) : r.namedAs r := ⟨rfl, rfl, rfl⟩

theorem Booth.namedAs_ite {p : Prop} [Decidable p] {r q x : Booth} (h : r.namedAs x) (g : q.namedAs x) : (if p then r else q).namedAs x := by
  split <;> assumption

theorem Booth.namedAs_bump {r x : Booth} (h : r.namedAs x) : r.bump.namedAs x := h

theorem Channel.namedAs_refl (r : Channel) : r.namedAs r := ⟨rfl, rfl, rfl, rfl⟩

theorem Channel.namedAs_ite {p : Prop} [Decidable p] {r q x : Channel} (h : r.namedAs x) (g : q.namedAs x) :
    (if p then r else q).namedAs x := by
  split <;> assumption

theorem Channel.namedAs_bump {r x : Channel} (h : r.namedAs x) : r.bump.namedAs x := h

/-- What a state has, it has beside what a work gives with it. -/
theorem fst_keeps {α : Type} {P : State → Prop} {t : State} {r : α} (h : P t) : P (t, r).1 := h

namespace HallKeeps

variable {P : State → Prop} (k : HallKeeps P) {s : State} (hs : P s)
include k hs

theorem frame {l : List StateField} {t : State} (only : s.onlyIn l t) (apart : hallFields.all (fun f => !l.contains f) = true) : P t :=
  k.reads.frame only (fun f hf hl => by
    have other := List.all_eq_true.mp apart f hf
    simp [hl] at other) hs

/-! ## Records changed -/

theorem updBooth (b : BoothId) (f : Booth → Booth) (same : (f (s.booth b)).namedAs (s.booth b)) : P (s.updBooth b f) := by
  refine k.booths s _ (fun d => ?_) hs
  by_cases e : d = b
  · subst e
    rw [get_set, if_pos rfl]
    exact same
  · rw [get_set, if_neg e]
    exact Booth.namedAs_refl _

theorem updLink (b : BoothId) (f : LinkFields → LinkFields) : P (s.updLink b f) := k.updBooth hs b _ (Booth.namedAs_refl _)

theorem updCons (b : BoothId) (f : ConsoleFields → ConsoleFields) : P (s.updCons b f) := k.updBooth hs b _ (Booth.namedAs_refl _)

theorem updConsole (b : BoothId) (n : ConsoleId) (f : ConsoleRec → ConsoleRec) : P (s.updConsole b n f) :=
  k.updBooth hs b _ (Booth.namedAs_refl _)

theorem writeBooth (b : BoothId) (f : Booth → Booth) (same : (f (s.booth b)).namedAs (s.booth b)) : P (s.writeBooth b f) :=
  k.updBooth hs b _ same

theorem rewriteBooth (b : BoothId) (f : Booth → Booth) (same : (f (s.booth b)).namedAs (s.booth b)) : P (s.rewriteBooth b f) :=
  k.updBooth hs b _ (Booth.namedAs_ite (Booth.namedAs_refl _) same)

theorem closeBooth (o : State) (b : BoothId) : P (s.closeBooth o b) :=
  k.updBooth hs b _ (Booth.namedAs_ite (Booth.namedAs_refl _) (Booth.namedAs_refl _))

theorem closeCons (o : State) (b : BoothId) : P (s.closeCons o b) :=
  k.updBooth hs b _ (Booth.namedAs_ite (Booth.namedAs_refl _) (Booth.namedAs_refl _))

theorem relight (b : BoothId) : P (s.relight b) := k.updBooth hs b _ (Booth.namedAs_refl _)

theorem relamp (b : BoothId) : P (s.relamp b) := k.rewriteBooth hs b _ (Booth.namedAs_refl _)

theorem relampOpt (b : Option BoothId) : P (s.relampOpt b) := by
  cases b with
  | none => exact hs
  | some b => exact k.relamp hs b

theorem relampChannel (c : ChannelId) : P (s.relampChannel c) := k.relampOpt (k.relampOpt hs _) _

theorem updInner (b : BoothId) (f : BoothInner → BoothInner) : P (s.updInner b f) := k.frame hs (State.updInner_only s b f) rfl

theorem updChannel (c : ChannelId) (f : Channel → Channel) (same : (f (s.channel c)).namedAs (s.channel c)) : P (s.updChannel c f) := by
  refine k.channels s _ (fun d => ?_) hs
  by_cases e : d = c
  · subst e
    rw [get_set, if_pos rfl]
    exact same
  · rw [get_set, if_neg e]
    exact Channel.namedAs_refl _

theorem writeChannel (c : ChannelId) (f : Channel → Channel) (same : (f (s.channel c)).namedAs (s.channel c)) : P (s.writeChannel c f) :=
  k.updChannel hs c _ same

theorem closeChannel (o : State) (c : ChannelId) : P (s.closeChannel o c) :=
  k.updChannel hs c _ (Channel.namedAs_ite (Channel.namedAs_refl _) (Channel.namedAs_refl _))

theorem settleChannel (o : State) (c : ChannelId) : P (s.settleChannel o c) := k.relampChannel (k.closeChannel hs o c) c

theorem checkPairing (c : ChannelId) : P (s.checkPairing c) := k.updChannel hs c _ (Channel.namedAs_refl _)

/-! ## Consoles -/

theorem endTurn (b : BoothId) (n : ConsoleId) (c : TurnEnd) : P (s.endTurn b n c) :=
  keeps_ite (k.handTurn _ _ (k.updConsole hs b n _)) hs

theorem consolesDown (b : BoothId) : P (s.consolesDown b) := by
  have ended := State.each_induct (P := P) (l := consoles) (f := fun s n => s.endTurn b n .link) (fun t n _ ht => k.endTurn ht b n _) hs
  exact k.closeBooth (k.updInner (k.updCons ended b _) b _) s b

theorem consolesUp (b : BoothId) : P (s.consolesUp b) := k.closeBooth (k.relight (k.updCons hs b _) b) s b

theorem busyExpiry (b : BoothId) (n : ConsoleId) : P (s.busyExpiry b n) := by
  unfold State.busyExpiry
  split
  · exact keeps_ite (k.closeBooth (k.relight (k.updConsole hs b n _) b) s b) hs
  · exact hs

theorem offerExpiry (b : BoothId) : P (s.offerExpiry b) := by
  unfold State.offerExpiry
  split
  · exact keeps_ite (k.closeBooth (k.relight (k.updCons hs b _) b) s b) hs
  · exact hs

theorem gapExpiry (b : BoothId) (n : ConsoleId) : P (s.gapExpiry b n) :=
  keeps_ite (k.closeBooth (k.relight (k.endTurn hs b n _) b) s b) hs

theorem seat (b : BoothId) (n : ConsoleId) (who : BitVec 24) : P (s.seat b n who) := by
  unfold State.seat
  extract_lets s1 s2
  have h1 : P s1 := k.updConsole (k.endTurn hs b n .seat) b n _
  have h2 : P s2 := keeps_ite (k.updConsole h1 b n _) h1
  exact k.closeBooth (k.relight h2 b) s b

/-! ## Console events -/

theorem refuseKey (b : BoothId) (n : ConsoleId) : P (s.refuseKey b n).1 := by
  unfold State.refuseKey
  exact fst_keeps (P := P) (k.updConsole hs b n _)

theorem keyMicOn (b : BoothId) (n : ConsoleId) : P (s.keyMicOn b n).1 := by
  unfold State.keyMicOn
  split
  · exact fst_keeps (P := P) (k.updInner (k.updCons hs b _) b _)
  · split
    · exact hs
    · exact k.refuseKey hs b n

theorem keyMicOff (b : BoothId) (n : ConsoleId) : P (s.keyMicOff b n).1 := by
  unfold State.keyMicOff
  split
  · exact fst_keeps (P := P) (k.updInner (k.updCons hs b _) b _)
  · exact hs

theorem keyOffer (b : BoothId) (n : ConsoleId) : P (s.keyOffer b n).1 := by
  unfold State.keyOffer
  split
  · exact fst_keeps (P := P) (k.updCons hs b _)
  · exact k.refuseKey hs b n

theorem keyAccept (b : BoothId) (n : ConsoleId) : P (s.keyAccept b n).1 := by
  unfold State.keyAccept
  split
  · split
    · exact fst_keeps (P := P) (k.writeChannel hs _ _ (Channel.namedAs_refl _))
    · exact k.keyMicOn hs b n
  · split
    · exact fst_keeps (P := P) (k.updInner (k.updCons hs b _) b _)
    · exact k.keyMicOn hs b n

theorem keyCancel (b : BoothId) (n : ConsoleId) : P (s.keyCancel b n).1 := by
  unfold State.keyCancel
  split
  · exact fst_keeps (P := P) (k.updCons hs b _)
  · split
    · split
      · exact fst_keeps (P := P) (k.relampOpt (k.writeChannel hs _ _ (Channel.namedAs_refl _)) _)
      · exact hs
    · exact hs

theorem keyOfferOut (b : BoothId) (n : ConsoleId) : P (s.keyOfferOut b n).1 := by
  unfold State.keyOfferOut
  split
  · split
    · split
      · exact fst_keeps (P := P) (k.relampOpt (k.writeChannel hs _ _ (Channel.namedAs_refl _)) _)
      · exact k.refuseKey hs b n
    · exact k.refuseKey hs b n
  · exact k.refuseKey hs b n

theorem keyWork (b : BoothId) (n : ConsoleId) (x : EventKind) : P (s.keyWork b n x).1 := by
  cases x with
  | micOn => exact k.keyMicOn hs b n
  | micOff => exact k.keyMicOff hs b n
  | offer => exact k.keyOffer hs b n
  | accept => exact k.keyAccept hs b n
  | cancel => exact k.keyCancel hs b n
  | offerOut => exact k.keyOfferOut hs b n
  | unknown => exact hs

theorem takeEvent (b : BoothId) (x : EventKind) (n : ConsoleId) : P (s.takeEvent b x n) := by
  unfold State.takeEvent
  split
  · exact k.writeBooth hs b _ (Booth.namedAs_refl _)
  · exact k.closeBooth (k.relight (k.updConsole (k.keyWork hs b n x) b n _) b) s b

theorem dropEvent (b : BoothId) : P (s.dropEvent b) := k.updBooth hs b _ (Booth.namedAs_refl _)

theorem deliver (b : BoothId) (x : EventKind) (n : Fin 4) : P (s.deliver b x n) := by
  unfold State.deliver
  refine keeps_ite ?_ hs
  split
  · exact k.takeEvent hs b x _
  · exact k.closeBooth (k.dropEvent hs b) s b

/-! ## Links -/

theorem routerUp (b : BoothId) : P (s.routerUp b) := by
  unfold State.routerUp
  split
  · exact k.relampChannel (k.closeChannel (k.checkPairing hs _) s _) _
  · exact hs

theorem routerDown (b : BoothId) : P (s.routerDown b) := by
  unfold State.routerDown
  split
  · rename_i c _
    have down : P (s.updChannel c (fun r => if r.defined ∧ r.ownerBooth = some b then { r with downSince := s.clock.run } else r)) :=
      k.updChannel hs c _ (Channel.namedAs_ite (Channel.namedAs_refl _) (Channel.namedAs_refl _))
    exact k.relampChannel (k.closeChannel (k.checkPairing down c) s c) c
  · exact hs

theorem linkDown (b : BoothId) : P (s.linkDown b) := k.routerDown (k.consolesDown hs b) b

theorem leave (o : State) (b : BoothId) : P (s.leave o b) :=
  have closed := k.closeBooth hs o b
  keeps_ite (k.linkDown closed b) closed

theorem lose (o : State) (b : BoothId) : P (s.lose o b) := k.raise _ _ (k.leave (k.updLink hs b _) o b)

theorem degrade (b : BoothId) : P (s.degrade b) := k.raise _ _ (k.leave (k.updLink hs b _) s b)

theorem enterLive (o : State) (b : BoothId) : P (s.enterLive o b) := by
  unfold State.enterLive
  extract_lets s1 s2
  have h1 : P s1 := k.updLink hs b _
  have h2 : P s2 := k.closeBooth (k.updInner h1 b _) o b
  exact k.routerUp (k.consolesUp (k.raise _ _ h2) b) b

theorem handGood (b : BoothId) (a : AudioTriple) : P (s.handGood b a) := k.updInner (k.updLink hs b _) b _

theorem handReplacement (b : BoothId) : P (s.handReplacement b) := by
  unfold State.handReplacement
  exact k.updInner (k.updLink hs b _) b _

theorem missMarker (b : BoothId) : P (s.missMarker b) := by
  have counted (g : LinkFields → LinkFields) : P (s.updLink b g) := k.updLink hs b g
  unfold State.missMarker
  refine keeps_ite hs ?_
  split
  · exact hs
  · exact k.closeBooth (counted _) s b
  · exact keeps_ite (k.lose (counted _) s b) (k.closeBooth (counted _) s b)
  · exact keeps_ite (k.lose (counted _) s b) (k.closeBooth (counted _) s b)
  · exact keeps_ite (k.lose (counted _) s b) (k.closeBooth (k.handReplacement (counted _) b) s b)

theorem takeLiveFrame (b : BoothId) (a : AudioFrame) : P (s.takeLiveFrame b a) := by
  unfold State.takeLiveFrame
  extract_lets masking s1 s2 s3
  have h1 : P s1 := k.updLink hs b _
  have h2 : P s2 := keeps_ite (k.handReplacement h1 b) (k.handGood h1 b _)
  have h3 : P s3 := by
    dsimp only [s3]
    split
    · exact k.closeBooth h2 s b
    · exact k.closeBooth (k.dropEvent h2 b) s b
    · exact k.takeEvent (k.closeBooth h2 s b) b _ _
  exact keeps_ite (k.degrade h3 b) h3

theorem takeAudioFrame (b : BoothId) (a : AudioFrame) : P (s.takeAudioFrame b a) := by
  have closed (g : LinkFields → LinkFields) : P ((s.updLink b g).closeBooth s b) := k.closeBooth (k.updLink hs b g) s b
  unfold State.takeAudioFrame
  refine keeps_ite hs ?_
  split
  · exact hs
  · exact closed _
  · exact closed _
  · exact closed _
  · exact k.takeLiveFrame hs b a

theorem badAnnounce (o : State) (b : BoothId) : P (s.badAnnounce o b) := by
  have counted := fun g => k.updLink hs b g
  exact keeps_ite (k.raise _ _ (k.leave (k.updLink (counted _) b _) o b)) (k.closeBooth (counted _) o b)

theorem enterMismatch (o : State) (b : BoothId) : P (s.enterMismatch o b) := k.raise _ _ (k.leave (k.updLink hs b _) o b)

theorem goodAnnounce (o : State) (b : BoothId) (x : MismatchReason) : P (s.goodAnnounce o b x) := by
  unfold State.goodAnnounce
  split
  · exact k.closeBooth hs o b
  · exact k.enterLive hs o b
  · exact k.closeBooth hs o b
  · exact k.enterMismatch hs o b

theorem checkAnnounce (b : BoothId) (f : AnnounceFrame) : P (s.checkAnnounce b f) := by
  unfold State.checkAnnounce
  extract_lets d s1 s2 reason
  have h1 : P s1 := k.updLink hs b _
  have h2 : P s2 := keeps_ite (k.handReplacement h1 b) h1
  exact keeps_ite (k.goodAnnounce (k.updLink h2 b _) s b _) (k.badAnnounce h2 s b)

theorem takeAnnounce (b : BoothId) (f : AnnounceFrame) : P (s.takeAnnounce b f) := by
  unfold State.takeAnnounce
  refine keeps_ite hs ?_
  split
  · exact hs
  · exact k.closeBooth (k.updLink hs b _) s b
  · exact k.checkAnnounce hs b f
  · exact k.checkAnnounce hs b f
  · exact k.checkAnnounce hs b f

/-! ## Channels -/

theorem outgoingLapse (c : ChannelId) : P (s.outgoingLapse c) := by
  unfold State.outgoingLapse
  split
  · exact keeps_ite (k.relampChannel (k.writeChannel hs c _ (Channel.namedAs_refl _)) c) hs
  · exact hs

theorem warn (c : ChannelId) : P (s.warn c) := by
  unfold State.warn
  split
  · rename_i h planned
    exact keeps_ite (k.setPhase s c h _ planned hs) hs
  · exact hs

theorem target (c : ChannelId) : P (s.target c) := by
  unfold State.target
  split
  · rename_i h planned
    exact keeps_ite hs (keeps_ite (k.endSchedule s c _ _ _ _ hs) (k.setPhase s c h _ planned hs))
  · exact hs

theorem compareSchedule (c : ChannelId) : P (s.compareSchedule c) := by
  unfold State.compareSchedule
  split
  · rename_i h _
    have warned : P (if s.clock.reached h.warnCal ∨ s.clock.reached h.targetCal then s.warn c else s) := by
      split
      · exact k.warn hs c
      · exact hs
    split
    · exact hs
    · dsimp only
      split
      · exact k.target warned c
      · exact warned
  · exact hs

theorem compareSchedules : P s.compareSchedules := by
  unfold State.compareSchedules
  exact State.each_induct (P := P) (f := fun t c => (t.compareSchedule c).settleChannel t c)
    (fun t c _ ht => k.settleChannel (k.compareSchedule ht c) t c) hs

theorem warningReached (c : ChannelId) : P (s.warningReached c) := by
  unfold State.warningReached
  split
  · exact keeps_ite (k.settleChannel (k.warn hs c) s c) hs
  · exact hs

theorem targetReached (c : ChannelId) : P (s.targetReached c) := by
  unfold State.targetReached
  split
  · exact keeps_ite (k.settleChannel (k.target (k.warn hs c) c) s c) hs
  · exact hs

theorem waitExpiry (c : ChannelId) : P (s.waitExpiry c) := by
  unfold State.waitExpiry
  split
  · exact keeps_ite (k.settleChannel (k.endSchedule s c _ _ _ _ hs) s c) hs
  · exact hs

theorem cancelHandover (c : ChannelId) : P (s.cancelHandover c) := k.settleChannel (k.endSchedule s c _ _ _ _ hs) s c

/-! ## The frame boundary -/

theorem quitLive (b : BoothId) : P (s.quitLive b) := by
  unfold State.quitLive
  split
  · exact keeps_ite (k.endTurn hs b _ _) (k.updConsole hs b _ _)
  · exact hs

theorem goQuiet (b : BoothId) : P (s.goQuiet b) := by
  unfold State.goQuiet
  dsimp only
  split
  · exact k.updChannel (k.updCons hs b _) _ _ (Channel.namedAs_refl _)
  · exact k.updCons hs b _

theorem changeLive (b : BoothId) : P (s.changeLive b) := by
  have left := k.updCons (k.quitLive hs b) b (fun g => { g with live := s.booths[b].cons.claimed })
  have set (n : ConsoleId) (g : ConsoleRec → ConsoleRec) := k.updConsole left b n g
  unfold State.changeLive
  dsimp only
  refine k.updInner ?_ b _
  split
  · exact hs
  · split
    · split
      · exact k.raise _ _ (set _ _)
      · exact set _ _
    · exact k.goQuiet left b

theorem openTurn (o : State) (b : BoothId) : P (s.openTurn o b) := by
  unfold State.openTurn
  split
  · exact keeps_ite (k.updConsole hs b _ _) hs
  · exact hs

theorem meterBooth (o : State) (b : BoothId) : P (State.meterBooth o s b) := by
  have opened := k.updCons (k.openTurn hs o b) b (fun f => { f with each := f.each.map (fun c => c.takeFed s.booths[b].role.fed) })
  exact keeps_ite (k.raise _ _ (k.updCons opened b _)) opened

theorem moveOwner (c : ChannelId) : P (s.moveOwner c) := by
  unfold State.moveOwner
  split
  · rename_i r _
    have moved : P ((s.updChannel c (fun ch => ch.movedTo r)).raise .handover) :=
      k.raise _ _ (k.updChannel hs c _ (Channel.namedAs_refl _))
    exact keeps_ite (k.endSchedule _ c _ _ _ _ moved) moved
  · exact hs

theorem chooseSource (c : ChannelId) : P (s.chooseSource c) := by
  unfold State.chooseSource
  extract_lets ch new enters s1
  have h1 : P s1 := k.updChannel hs c _ (Channel.namedAs_refl _)
  exact keeps_ite (k.raise _ _ h1) h1

theorem routeChannel (c : ChannelId) : P (s.routeChannel c) := keeps_ite (k.chooseSource (k.moveOwner hs c) c) hs

theorem endFormer (o : State) (c : ChannelId) : P (State.endFormer o s c) := by
  unfold State.endFormer
  refine keeps_ite ?_ hs
  split
  · exact k.endTurn hs _ _ _
  · exact hs

theorem writeFed (b : BoothId) : P (s.writeFed b) := by
  unfold State.writeFed
  exact k.rewriteBooth hs b _ (Booth.namedAs_refl _)

theorem workBoundary : P s.workBoundary := by
  unfold State.workBoundary
  extract_lets s1 s2 s3 s4 s5 s6 s7
  have h1 : P s1 := State.each_induct (P := P) (f := State.changeLive) (fun t b _ ht => k.changeLive ht b) hs
  have h2 : P s2 := State.each_induct (P := P) (f := State.routeChannel) (fun t c _ ht => k.routeChannel ht c) h1
  have h3 : P s3 := State.each_induct (P := P) (f := fun t c => t.closeChannel s c) (fun t c _ ht => k.closeChannel ht s c) h2
  have h4 : P s4 := State.each_induct (P := P) (f := State.writeFed) (fun t b _ ht => k.writeFed ht b) h3
  have h5 : P s5 := State.each_induct (P := P) (f := State.meterBooth s) (fun t b _ ht => k.meterBooth ht s b) h4
  have h6 : P s6 := State.each_induct (P := P) (f := State.endFormer s1) (fun t c _ ht => k.endFormer ht s1 c) h5
  have h7 : P s7 := State.each_induct (P := P) (f := fun t b => (t.relight b).closeCons s b)
    (fun t b _ ht => k.closeCons (k.relight ht b) s b) h6
  exact k.frame (k.frame h7 (State.sendFrames_only _) rfl) (State.sendOrDue_only _) rfl

theorem frameBoundary : P s.frameBoundary := by
  have counted := k.frame hs (State.countFrame_only s) rfl
  unfold State.frameBoundary
  split
  · exact k.workBoundary counted
  · exact k.frame (k.frame counted (State.sendFrames_only _) rfl) (State.framer_only _ _) rfl
  · exact keeps_ite hs counted

/-! ## The framer and the floor -/

theorem framer (f : Framer) : P { s with framer := f } := k.frame hs (State.framer_only s f) rfl

theorem swapPlan (p : Plan) : P (s.swapPlan p) := by
  unfold State.swapPlan
  extract_lets old chs dir
  have swapped : P { s with channels := chs } := k.channels s chs (fun c => by
    rw [Fin.getElem_fin, Vector.getElem_ofFn]
    exact Channel.namedAs_ite (Channel.namedAs_refl _) (Channel.namedAs_refl _)) hs
  exact k.raise _ _ (k.framer swapped _)

theorem workSuperframe : P s.workSuperframe := by
  unfold State.workSuperframe
  extract_lets _ s1 s2 s3 s4
  have h1 : P s1 := k.framer hs _
  have h2 : P s2 := by
    dsimp only [s2]
    split
    · exact k.swapPlan h1 _
    · exact h1
  have h3 : P s3 := keeps_ite h2 (k.frame h2 (State.buildDirectory_only _) rfl)
  have h4 : P s4 := keeps_ite (k.framer h3 _) h3
  exact k.framer h4 _

theorem superframe : P s.superframe := by
  have passed : P { s with framer := { s.framer with due := false } } := k.framer hs _
  unfold State.superframe
  refine keeps_ite hs ?_
  dsimp only
  split
  · exact k.workSuperframe hs
  · exact k.framer passed _
  · exact passed

theorem floorFrame (a : Option Audio) : P (s.floorFrame a) :=
  have taken : P { s with floor := s.floor.take a } := k.frame hs (State.floor_only s _) rfl
  keeps_ite hs (keeps_ite taken (k.raise _ _ (k.writeChannel taken 0 id (Channel.namedAs_refl _))))

theorem writeStranded (c : ChannelId) (v : Bool) : P (s.writeStranded c v) := by
  unfold State.writeStranded
  exact k.framer (k.writeChannel hs c (fun r => { r with stranded := v }) (Channel.namedAs_refl _)) _

theorem framerCleared (c : ChannelId) : P (s.framerCleared c) := by
  have cleared : P { s with framer := { s.framer with cleared := s.framer.cleared.set c true } } := k.framer hs _
  exact keeps_ite (k.writeStranded cleared c true) cleared

theorem stagePlan : P s.stagePlan := k.framer hs _

/-! ## The channel records at a census -/

theorem writeListeners (v : Vector Nat 32) : P (s.writeListeners v) := by
  refine k.channels s _ (fun c => ?_) hs
  rw [Fin.getElem_fin, Vector.getElem_ofFn]
  exact Channel.namedAs_ite (Channel.namedAs_refl _) (Channel.namedAs_refl _)

theorem clearStranded (v : Vector Nat 32) : P (s.clearStranded v) := by
  unfold State.clearStranded
  refine State.each_induct (P := P) (fun t c _ ht => ?_) hs
  split
  · exact k.writeStranded ht c false
  · exact ht

theorem creditMinutes : P s.creditMinutes := by
  refine k.channels s _ (fun c => ?_) hs
  rw [Fin.getElem_fin, Vector.getElem_map]
  exact Channel.namedAs_ite (Channel.namedAs_refl _) (Channel.namedAs_refl _)

/-! ## Works -/

theorem linkHold (n : SlotId) : P (workLinkHold s n).1 := by
  unfold workLinkHold
  split
  · dsimp only
    split
    · exact hs
    · exact fst_keeps (P := P) (k.leave (k.updLink hs _ _) s _)
  · exact hs

theorem seatAssign (n : SlotId) : P (workSeatAssign s n).1 := by
  have seated (b : BoothId) (m : ConsoleId) (who : BitVec 24) (r : Option Result) : P (s.seat b m who, r).1 := k.seat hs b m who
  unfold workSeatAssign
  split
  · dsimp only
    split
    · exact hs
    · split
      · exact hs
      · split
        · exact hs
        · exact seated _ _ _ _
  · exact hs

end HallKeeps

end Sys2Proof.Machine
end

section
/-!
SUPPORT. Laws of the order unit's lists, the exchange memory and the tally log: whatever a notice raised, a standing order ended, a record
handed and a hire numbered keep, every block's work keeps that does not write the lists itself.
-/
namespace Sys2Proof.Machine

/-- The branches of a REMOVE taken at a position (R108). -/
theorem State.takeRemove_elim {P : State → Prop} {s : State} {p : PosId}
    (gone : ∀ e, (s.position p).state = .occupied → (s.position p).entry = some e → s.timers.settle = 0 →
      P ((s.writePosition p (fun r => { r with
        state := .settlingOut, rawRemoval := s.clock.run, settleDeadline := s.clock.run + msTicks s.timers.settle, lamp := .dark })).removal
          p s.clock.run false))
    (settling : ∀ e, (s.position p).state = .occupied → (s.position p).entry = some e → s.timers.settle ≠ 0 →
      P (s.writePosition p (fun r => { r with
        state := .settlingOut, rawRemoval := s.clock.run, settleDeadline := s.clock.run + msTicks s.timers.settle, lamp := .dark })))
    (emptied : (s.position p).state = .occupied → (s.position p).entry = none →
      P (s.writePosition p (fun r => { r with state := .empty, lamp := .dark, removals := satAdd 16 r.removals 1 })))
    (same : (s.position p).state ≠ .occupied → P s) : P (s.takeRemove p) := by
  unfold State.takeRemove
  cases state : s.positions[p].state with
  | empty | settlingOut | fault =>
    have other : (s.position p).state ≠ .occupied := fun h => nomatch state.symm.trans h
    simpa only [state] using same other
  | occupied =>
    cases entry : s.positions[p].entry with
    | none => simpa only [state, entry] using emptied state entry
    | some e =>
      by_cases none : s.timers.settle = 0
      · simpa only [state, entry, if_pos none] using gone e state entry none
      · simpa only [state, entry, if_neg none] using settling e state entry none

/-- What the order unit and the log writer keep: the fields their laws read. -/
def coreFields : List StateField := [.part, .notices, .orders, .mem, .log, .nextHire]

/-- A law of these fields that the other blocks' dealings with them keep. -/
structure CoreKeeps (P : State → Prop) : Prop where
  reads : Reads P coreFields
  raise : ∀ (s : State) (c : Notice), P s → P (s.raise c)
  endOwner : ∀ (s : State) (o : StandingOwner) (r : Result), P s → P (s.endOwner o r)
  handTally : ∀ (s : State) (o : WaitOwner) (r : TallyRecord), P s → P (s.handTally o r)
  merged : ∀ (s : State) (o : WaitOwner) (r : TurnRecord), P s →
    P { s with log := { s.log with waiting := mergeWaiting o r s.log.waiting } }
  numbered : ∀ s : State, P s → P { s with nextHire := nextHireNumber s.nextHire }

namespace CoreKeeps

variable {P : State → Prop} (k : CoreKeeps P) {s : State} (hs : P s)
include k hs

theorem frame {l : List StateField} {t : State} (only : s.onlyIn l t)
    (apart : coreFields.all (fun f => !l.contains f) = true) : P t :=
  k.reads.frame only (fun f hf hl => by
    have other := List.all_eq_true.mp apart f hf
    simp [hl] at other) hs

omit hs in
/-- The law through the work of the hall's blocks. -/
theorem hall : HallKeeps P where
  reads s t same := k.reads s t (fun f hf => same f (by revert f; decide))
  raise := k.raise
  handTurn s r hs := keeps_ite (k.merged s _ r hs) (k.handTally s _ _ hs)
  endSchedule s c _ _ _ _ hs := k.endOwner _ _ _ (k.frame hs (State.updChannel_only s c _) rfl)
  setPhase s c _ h' _ hs := k.frame hs (State.setPhase_only s c h') rfl
  booths s v _ hs := k.frame hs (State.booths_only s v) rfl
  channels s v _ hs := k.frame hs (State.channels_only s v) rfl

theorem clearChannel (c : ChannelId) : P (s.clearChannel c) := by
  unfold State.clearChannel
  extract_lets s1 s2 s3 s4 s5
  have h1 : P s1 := keeps_ite (k.hall.endSchedule s c _ _ _ _ hs) hs
  have h2 : P s2 := k.frame (k.frame h1 (State.updChannel_only _ c _) rfl) (State.updChannel_only _ c _) rfl
  have h3 : P s3 := k.frame h2 (State.rename_only _ c none none) rfl
  have h4 : P s4 := State.each_induct (fun t b _ ht => k.frame ht (State.rewriteBooth_only t b _) rfl) h3
  have h5 : P s5 := k.frame (k.frame h4 (State.relampOpt_only _ _) rfl) (State.relampOpt_only _ _) rfl
  exact k.frame (k.frame h5 (State.framerCleared_only _ c) rfl) (State.stagePlan_only _) rfl

/-! ## Hires -/

theorem dropReservation (h : HireId) (x : ResultCode) (y : Reason) : P (s.dropReservation h x y) := by
  unfold State.dropReservation
  extract_lets r s1 s2 s3
  have h1 : P s1 := k.frame (k.frame hs (State.updAccount_only s _ _) rfl) (State.withdrawPreset_only _ _) rfl
  have h2 : P s2 := k.frame h1 (State.writeReceiver_only s1 _ _) rfl
  have h3 : P s3 := k.frame (k.frame h2 (State.relampHolder_only s2 _) rfl) (State.writeHire_only _ h _) rfl
  exact k.endOwner _ _ _ h3

theorem endReservation (h : HireId) (x : ResultCode) (y : Reason) : P (s.endReservation h x y) :=
  k.frame (k.dropReservation hs h x y) (State.closeAccount_only _ s _) rfl

theorem dropReservations (a : AcctId) : P (s.dropReservations a) :=
  State.each_induct (P := P) (f := fun t h => t.dropReservation h .refused .accountHeld) (fun _ h _ ht => k.dropReservation ht h _ _) hs

theorem openHire (e : RecvId) (t : Nat) : P (s.openHire e t) := by
  unfold State.openHire
  split
  · rename_i h _
    extract_lets stamp s1 s2
    have h2 : P s2 := k.frame (k.frame hs (State.writeHire_only s h _) rfl) (State.writeReceiver_only s1 e _) rfl
    exact k.endOwner _ _ _ h2
  · exact hs

theorem settleHire (h : HireId) : P (s.settleHire h) := by
  unfold State.settleHire
  extract_lets r s1 a minutes charge s2 s3 s4 s5
  have h2 : P s2 := k.frame (k.frame hs (State.updAccount_only s _ _) rfl) (State.updAccount_only s1 _ _) rfl
  have h3 : P s3 := keeps_ite (k.dropReservations h2 _) h2
  have h4 : P s4 := k.frame (k.frame h3 (State.updAccount_only s3 _ _) rfl) (State.writeHire_only _ h _) rfl
  have h5 : P s5 := keeps_ite (k.raise _ _ h4) h4
  exact k.handTally _ _ _ h5

theorem closeHire (h : HireId) (t : Nat) (x : CloseCause) : P (s.closeHire h t x) := by
  unfold State.closeHire
  exact k.settleHire (k.frame hs (State.writeHire_only s h _) rfl) h

theorem returnHire (h : Option HireId) (t : Nat) : P (s.returnHire h t) := by
  unfold State.returnHire
  split
  · exact keeps_ite (k.closeHire hs _ _ _) hs
  · exact hs

theorem createHire (h : HireId) (x : Hire) : P (s.createHire h x) := by
  unfold State.createHire
  extract_lets s1 s2
  have h2 : P s2 := k.numbered s1 (k.frame hs (State.writeHire_only s h _) rfl)
  exact k.frame h2 (State.writeAccount_only _ _ _) rfl

theorem adopt (h : HireId) (x : Hire) (c : ChannelId) : P (s.adopt h x c) := by
  unfold State.adopt
  exact k.frame (k.createHire hs h _) (State.writeReceiver_only _ _ _) rfl

theorem declareLost (h : HireId) : P (s.declareLost h) := by
  unfold State.declareLost
  exact k.closeHire (k.frame hs (State.writeReceiver_only s _ _) rfl) h _ _

theorem reserveExpiry (h : HireId) : P (s.reserveExpiry h) :=
  keeps_ite (keeps_ite (k.frame hs (State.writeHire_only s h _) rfl) (k.endReservation hs h _ _)) hs

/-! ## Docks -/

theorem removal (p : PosId) (t : Nat) (f : Bool) : P (s.removal p t f) := by
  unfold State.removal
  extract_lets pos s1
  have h1 : P s1 := k.frame (k.frame hs (State.writePosition_only s p _) rfl) (State.dropWaiting_only _ p) rfl
  split
  · exact h1
  · split
    · exact k.raise _ _ (k.frame h1 (State.writeReceiver_only s1 _ _) rfl)
    · exact k.openHire h1 _ t
    · exact k.frame h1 (State.writeReceiver_only s1 _ _) rfl
    all_goals exact h1

theorem takeRemove (p : PosId) : P (s.takeRemove p) := by
  have written (g : Position → Position) : P (s.writePosition p g) := k.frame hs (State.writePosition_only s p g) rfl
  exact State.takeRemove_elim (P := P) (fun _ _ _ _ => k.removal (written _) p _ _) (fun _ _ _ _ => written _) (fun _ _ => written _)
    (fun _ => hs)

theorem settleExpiry (p : PosId) : P (s.settleExpiry p) := keeps_ite (k.removal hs p _ _) hs

theorem writeBattery (p : PosId) (e : RecvId) (y : BitVec 4) : P (s.writeBattery p e y) := k.frame hs (State.writeBattery_only s p e y) rfl

theorem reseat (p : PosId) (e : RecvId) (y : BitVec 4) : P (s.reseat p e y) := by
  have written : P ((s.writePosition p (fun r => { r with state := .occupied })).writeBattery p e y) :=
    k.writeBattery (k.frame hs (State.writePosition_only s p _) rfl) p e y
  unfold State.reseat
  dsimp only
  split
  · exact keeps_ite (k.endReservation written _ _ _) written
  · exact written

theorem handFound (e : RecvId) (x : FoundWhere) (w : Bool) : P (s.handFound e x w) := keeps_ite hs (k.handTally _ _ _ hs)

theorem afterInsertion (e : RecvId) (was : Receiver) : P (s.afterInsertion e was) := by
  unfold State.afterInsertion
  split
  · exact k.returnHire hs _ _
  · exact k.returnHire hs _ _
  · exact k.handFound (k.raise _ _ hs) e _ _
  all_goals exact hs

theorem takeInsertion (p : PosId) (x : Serial) (y : BitVec 4) : P (s.takeInsertion p x y) := by
  have occupied (e : Option RecvId) : P (s.occupy p e) := k.frame hs (State.writePosition_only s p _) rfl
  unfold State.takeInsertion
  split
  · dsimp only
    exact k.frame (k.afterInsertion (k.frame (occupied _) (State.writeReceiver_only _ _ _) rfl) _ _) (State.relampPos_only _ p) rfl
  · split
    · exact k.frame (k.frame (occupied _) (State.writeReceiver_only _ _ _) rfl) (State.relampPos_only _ p) rfl
    · exact k.raise _ _ (occupied _)

theorem insertAt (p : PosId) (x : Serial) (y : BitVec 4) : P (s.insertAt p x y) := by
  have cleared : P (s.clearElsewhere x) := by
    unfold State.clearElsewhere
    split
    · exact k.removal hs _ _ _
    · exact hs
  exact k.takeInsertion cleared p x y

theorem takeInsert (p : PosId) (x : Serial) (y : BitVec 4) : P (s.takeInsert p x y) := by
  have removed (t : Nat) : P ((s.removal p t false).insertAt p x y) := k.insertAt (k.removal hs p t false) p x y
  exact State.takeInsert_elim (P := P) (fun e _ _ _ => k.reseat hs p e y) (fun _ _ _ _ => removed _) (fun e _ _ _ => k.writeBattery hs p e y)
    (fun _ _ _ _ => removed _) (fun _ _ => k.insertAt (k.frame hs (State.writePosition_only s p _) rfl) p x y) (fun _ => k.insertAt hs p x y)

theorem presetResult (e : RecvId) (d : Bool) : P (s.presetResult e d) := by
  unfold State.presetResult
  split
  · exact keeps_ite (k.frame hs (State.writeHire_only s _ _) rfl) hs
  · exact hs

theorem reconcile (p : PosId) (x : Option InventoryItem) : P (s.reconcile p x) := by
  have written (g : Position → Position) : P (s.writePosition p g) := k.frame hs (State.writePosition_only s p g) rfl
  exact State.reconcile_elim (P := P) (fun e _ _ _ _ _ => k.writeBattery (written _) p e _)
    (fun _ i _ _ _ _ => k.insertAt (k.removal hs p _ false) p i.serial i.battery) (fun _ _ _ _ => k.removal hs p _ false)
    (fun _ _ _ => written _) (fun i _ _ => k.takeInsert hs p i.serial i.battery) (fun _ _ => hs)

theorem failReservation (p : PosId) : P (s.failReservation p) := by
  unfold State.failReservation
  split
  · split
    · exact k.endReservation hs _ _ _
    · exact hs
  · exact hs

theorem rackFault (r : RackId) : P (s.rackFault r) := by
  unfold State.rackFault
  dsimp only
  refine State.each_induct (P := P) (f := State.failReservation) (fun t p _ ht => k.failReservation ht p) (k.raise _ _ ?_)
  exact State.each_induct (P := P) (l := rackPositions r)
    (f := fun t p => (t.writePosition p (fun x => { x with state := .fault, lamp := .dark })).setPreset p none)
    (fun t p _ ht => k.frame (k.frame ht (State.writePosition_only t p _) rfl) (State.setPreset_only _ p none) rfl)
    (k.frame hs (State.setRack_only s r _) rfl)

omit hs in
/-- The law through the pieces of an answer. -/
theorem docks : DockKeeps P where
  takeInsert _ p x y _ hs := k.takeInsert hs p x y
  takeRemove _ p hs := k.takeRemove hs p
  writeBattery _ p e y hs := k.writeBattery hs p e y
  presetResult _ e d hs := k.presetResult hs e d
  reconcile _ p x hs := k.reconcile hs p x
  rackFault _ r hs := k.rackFault hs r

/-! ## Beacons and the census -/

theorem countBeacon (g : BeaconCounts → BeaconCounts) : P (s.countBeacon g) := k.frame hs (State.countBeacon_only s g) rfl

theorem stray (d : Bool) : P (s.stray d) := keeps_ite (k.raise _ _ (k.countBeacon hs _)) (k.countBeacon hs _)

theorem acceptBeacon (e : RecvId) (m : HubMessage) : P (s.acceptBeacon e m) := by
  unfold State.acceptBeacon
  extract_lets r s1 s2
  have h2 : P s2 := k.frame (k.countBeacon hs _) (State.writeReceiver_only s1 e _) rfl
  exact keeps_ite (k.handFound (k.raise _ _ h2) e _ _) h2

theorem beacon (m : HubMessage) : P (s.beacon m) := by
  unfold State.beacon
  refine keeps_ite hs (keeps_ite (k.countBeacon hs _) ?_)
  split
  · unfold State.workBeacon
    split
    all_goals first
      | exact k.stray hs true
      | exact keeps_ite (k.countBeacon hs _) (k.acceptBeacon hs _ m)
  · exact k.stray hs false

theorem workCensusMark : P s.workCensusMark := by
  unfold State.workCensusMark
  extract_lets counts s1 s2
  have taken : P (s.takeCensus counts) := by
    unfold State.takeCensus
    extract_lets silent t1 t2
    have h1 : P t1 := k.frame (k.frame hs (State.receivers_only s _) rfl) (State.writeListeners_only _ counts) rfl
    have h2 : P t2 := k.countBeacon h1 _
    exact keeps_ite (k.raise _ _ h2) h2
  have h1 : P s1 := k.frame taken (State.clearStranded_only _ counts) rfl
  have h2 : P s2 := keeps_ite (k.frame h1 (State.creditMinutes_only s1) rfl) h1
  exact k.frame h2 (State.snapshot_only s2) rfl

theorem censusMark : P s.censusMark := by
  have passed : P { s with clock := { s.clock with markDue := false } } := k.frame hs (State.clock_only s _) rfl
  exact keeps_ite hs (keeps_ite (k.workCensusMark passed) passed)

/-! ## Works -/

theorem cancelStanding (o : StandingOwner) : P (s.cancelStanding o) := by
  cases o with
  | issue h => exact k.endReservation hs h _ _
  | handover c => exact k.hall.cancelHandover hs c

theorem markClockSet : P s.markClockSet := k.frame hs (State.markClockSet_only s) rfl

theorem setClock (n : SlotId) : P (workSetClock s n).1 := by
  unfold workSetClock
  extract_lets fraction was values s1 s2
  have h1 : P s1 := k.frame hs (State.clock_only s _) rfl
  have h2 : P s2 := keeps_ite (k.raise _ _ (k.hall.compareSchedules (k.markClockSet h1))) h1
  exact k.frame h2 (State.snapshot_only s2) rfl

theorem relampCharged : P s.relampCharged := k.frame hs (State.relampCharged_only s) rfl

theorem stagePlan : P s.stagePlan := k.frame hs (State.stagePlan_only s) rfl

theorem channelClear (n : SlotId) : P (workChannelClear s n).1 := by
  unfold workChannelClear
  split
  · split
    · exact hs
    · split
      · exact hs
      · exact k.clearChannel hs _
  · exact hs

theorem workLost (n : SlotId) : P (workDeclareLost s n).1 := by
  unfold workDeclareLost
  dsimp only
  split
  · exact hs
  · split
    · exact hs
    · split
      · exact hs
      · exact fst_keeps (P := P) (k.declareLost hs _)

end CoreKeeps

/-- Every work but those of HANDOVER and ISSUE, whose orders may stand, gives a result (R8, R9). -/
theorem OrderWork.answered {i : Nat} {w : Work} (h : OrderWork i w) (handover : i ≠ 14) (issue : i ≠ 16) (s : State) (n : SlotId) :
    ∃ r, (w s n).2 = some r := by
  rw [← Option.isSome_iff_exists]
  cases h with
  | setNotice | setTimers | setClock => rfl
  | unknown => rfl
  | handover => exact absurd rfl handover
  | issue => exact absurd rfl issue
  | setLogPolicy => unfold workSetLogPolicy; grind [refuse]
  | cancel => unfold workCancel; grind [refuse]
  | clearDocks => unfold workClearDocks; grind [refuse]
  | clearLinks => unfold workClearLinks; grind [refuse]
  | boothDefine => unfold workBoothDefine; grind [refuse]
  | linkHold => unfold workLinkHold; grind [refuse]
  | linkRelease => unfold workLinkRelease; grind [refuse]
  | boothIntake => unfold workBoothIntake; grind [refuse]
  | seatAssign => unfold workSeatAssign; grind [refuse]
  | channelDefine => unfold workChannelDefine; grind [refuse]
  | channelClear => unfold workChannelClear; grind [refuse]
  | setDistribution => unfold workSetDistribution; grind [refuse]
  | declareLost => unfold workDeclareLost; grind [refuse]
  | retireReceiver => unfold workRetireReceiver; grind [refuse]
  | restoreReceiver => unfold workRestoreReceiver; grind [refuse]
  | setTariff => unfold workSetTariff; grind [refuse]
  | accountOpen => unfold workAccountOpen; grind [refuse]
  | accountPay => unfold workAccountPay; grind [refuse]
  | accountRefund => unfold workAccountRefund; grind [refuse]
  | accountClose => unfold workAccountClose; grind [refuse]

/-- A law `P` while an order of slot `n` is WORKING, and the law `Q` when it has completed or stands: what the order unit's own dealings with
the slot do to them. -/
structure OrderKeeps (n : SlotId) (P Q : State → Prop) : Prop where
  working : CoreKeeps P
  after : CoreKeeps Q
  complete : ∀ (s : State) (r : Result), P s → Q (s.complete n r)
  stand : ∀ (s : State) (o : StandingOwner) (c : Bool), P s → Q (s.makeStanding n o c)
  cancelQueued : ∀ (s : State) (t : SlotId), s.holder t = Holder.queued → P s → P (s.cancelQueued t)
  setNotice : ∀ s : State, P s → P (workSetNotice s n).1
  setPolicy : ∀ (s : State) (p : LogPolicy), P s → p ≠ s.log.policy →
    P (if p = .overwrite then ({ s with log := { s.log with policy := p } }).bumpHeader.drain
       else ({ s with log := { s.log with policy := p } }).bumpHeader)

/-- An order's work ended: with a result under the law `P`, or standing under the law `Q`. -/
def Ended (P Q : State → Prop) (x : State × Option Result) : Prop := (∀ r : Result, x.2 = some r → P x.1) ∧ (x.2 = none → Q x.1)

theorem Ended.result {P Q : State → Prop} {t : State} (r : Result) (ht : P t) : Ended P Q (t, some r) :=
  ⟨fun _ _ => ht, fun none => nomatch none⟩

theorem Ended.stands {P Q : State → Prop} {t : State} (ht : Q t) : Ended P Q (t, none) := ⟨fun _ some => (nomatch some), fun _ => ht⟩

/-- Where the two laws are one, the work keeps it. -/
theorem Ended.same {P : State → Prop} {x : State × Option Result} (h : Ended P P x) : P x.1 := by
  cases result : x.2 with
  | none => exact h.2 result
  | some r => exact h.1 r result

theorem Ended.refused {P Q : State → Prop} {t : State} (r : Reason) (ht : P t) : Ended P Q (refuse t r) := Ended.result _ ht

namespace OrderKeeps

variable {P Q : State → Prop} {n : SlotId} (k : OrderKeeps n P Q) {s : State} (hs : P s)
include k

/-- The law after an order has ended. -/
theorem finish {x : State × Option Result} (h : Ended P Q x) : Q (finishOrder n x) := by
  obtain ⟨t, result⟩ := x
  cases result with
  | none => exact h.2 rfl
  | some r => exact k.complete t r (h.1 r rfl)

include hs

theorem cancel : P (workCancel s n).1 := by
  unfold workCancel
  split
  · rename_i t _
    split
    · exact k.working.cancelStanding hs _
    · split
      · rename_i queued
        exact k.cancelQueued s t queued hs
      · exact hs
  · exact hs

theorem setLogPolicy : P (workSetLogPolicy s n).1 := by
  unfold workSetLogPolicy
  split
  · rename_i p _
    split
    · exact hs
    · rename_i other
      exact k.setPolicy s p hs other
  · exact hs

theorem handover : Ended P Q (workHandover s n) := by
  have refused (c : ChannelId) (r : Reason) : Ended P Q (s.refuseHandover c r) := .result _ hs
  unfold workHandover
  split
  · rename_i c target _ _
    dsimp only
    split
    · exact refused _ _
    · split
      · exact refused _ _
      · split
        · exact refused _ _
        · split
          · exact refused _ _
          · refine .stands ?_
            unfold State.schedule
            extract_lets s1 s2
            have h1 : Q s1 := k.stand _ _ _ (k.working.frame hs (State.setPhase_only s c _) rfl)
            have h2 : Q s2 := keeps_ite (k.after.hall.target (k.after.hall.warn h1 c) c) (k.after.hall.compareSchedule h1 c)
            exact k.after.hall.settleChannel h2 s c
  · exact refused _ _
  · exact .refused _ hs

theorem issue : Ended P Q (workIssue s n) := by
  unfold workIssue
  split
  · exact .refused _ hs
  · dsimp only
    split
    · exact .refused _ hs
    · split
      · exact .refused _ hs
      · split
        · exact .refused _ hs
        · split
          · exact .refused _ hs
          · split
            · exact .refused _ hs
            · split
              · exact .refused _ hs
              · exact .refused _ hs
              · unfold State.issue
                dsimp only
                split
                · exact .result _ (k.working.adopt hs _ _ _)
                · refine .stands ?_
                  unfold State.reserve
                  extract_lets s1 s2
                  have h2 : P s2 := k.working.frame (k.working.createHire hs _ _) (State.writeReceiver_only s1 _ _) rfl
                  exact k.stand _ _ _ (k.working.frame (k.working.frame h2 (State.relampHolder_only s2 _) rfl)
                    (State.requestPreset_only _ _ _) rfl)

theorem accountClose : P (workAccountClose s n).1 := by
  unfold workAccountClose
  split
  · rename_i a _
    dsimp only
    split
    · exact hs
    · split
      · exact hs
      · split
        · exact hs
        · rename_i room
          have closed : P (s.writeAccount a Account.closed) := k.working.frame hs (State.writeAccount_only s a _) rfl
          have written := k.working.handTally _ (.hire 0) (.accountClosed (s.accounts[a].closeRecord a)) closed
          rwa [State.handTally, if_neg (show ¬ (s.writeAccount a Account.closed).logBlocked = true from room)] at written
  · exact hs

/-- What the work of any order leaves. -/
theorem work {i : Nat} {w : Work} (h : OrderWork i w) : Ended P Q (w s n) := by
  have framed (apart : coreFields.all (fun f => !(kindTouches i).contains f) = true) : P (w s n).1 :=
    k.working.frame hs (h.only s n) apart
  have answered (handover : i ≠ 14) (issue : i ≠ 16) (worked : P (w s n).1) : Ended P Q (w s n) := by
    obtain ⟨r, result⟩ := h.answered handover issue s n
    exact ⟨fun _ _ => worked, fun none => nomatch none.symm.trans result⟩
  cases h with
  | handover => exact k.handover hs
  | issue => exact k.issue hs
  | setNotice => exact answered (by decide) (by decide) (k.setNotice s hs)
  | setLogPolicy => exact answered (by decide) (by decide) (k.setLogPolicy hs)
  | cancel => exact answered (by decide) (by decide) (k.cancel hs)
  | setClock => exact answered (by decide) (by decide) (k.working.setClock hs n)
  | linkHold => exact answered (by decide) (by decide) (k.working.hall.linkHold hs n)
  | seatAssign => exact answered (by decide) (by decide) (k.working.hall.seatAssign hs n)
  | channelClear => exact answered (by decide) (by decide) (k.working.channelClear hs n)
  | declareLost => exact answered (by decide) (by decide) (k.working.workLost hs n)
  | accountClose => exact answered (by decide) (by decide) (k.accountClose hs)
  | unknown => exact .refused _ hs
  | setTimers | clearDocks | clearLinks | boothDefine | linkRelease | boothIntake | channelDefine | setDistribution | retireReceiver
  | restoreReceiver | setTariff | accountOpen | accountPay | accountRefund => exact answered (by decide) (by decide) (framed rfl)

end OrderKeeps

/-- The rows that are neither orders, host writes, nor the entries to STARTING, RESTARTING and READY. -/
theorem CoreKeeps.run {P : State → Prop} (k : CoreKeeps P) (notices : ∀ (s : State) (x : Notices), x.stride = s.notices.stride → P s →
      P { s with notices := x })
    (hostWrite : ∀ (s : State) (o : Nat) (v : Half) (e : ByteEnables), o % 2 = 0 → P s → P (s.hostWrite o v e))
    (post : ∀ (s : State) (v : Half) (e : ByteEnables), P s → P (s.post v e))
    (order : ∀ i ∈ orderRows, ∀ s : State, P s → P (s.run i))
    (restart : ∀ (s : State) (v : Half) (e : ByteEnables) (w : Bool), P s → P (s.restart v e w))
    (reset : ∀ s : State, P s → P s.assertReset) (ready : ∀ s : State, P s → P s.completeStartup ∧ P s.completeRestart)
    (s : State) (i : Instr) (hs : P s) : P (s.run i) := by
  have pending (v : Half) (e : ByteEnables) : P (s.clearPending v e) := keeps_ite (notices s _ rfl hs) hs
  have enable (v : Half) (e : ByteEnables) : P (s.setEnabled v e) := keeps_ite (notices s _ rfl hs) hs
  have framed (apart : coreFields.all (fun f => !(commandTouches i).contains f) = true) : P (s.run i) := k.frame hs (s.run_only i) apart
  cases i with
  | resetAssert => exact reset s hs
  | startupComplete => exact (ready s hs).1
  | softRestartComplete => exact (ready s hs).2
  | exchangeWrite _ v e => exact hostWrite s _ v e (Nat.mul_mod_right 2 _) hs
  | holderWordWrite n v e => exact hostWrite s _ v e (by unfold slotBase; omega) hs
  | logReadCountWrite v e => exact hostWrite s _ v e rfl hs
  | post v e => exact post s v e hs
  | noticePendingWrite v e => exact pending v e
  | noticeEnableWrite v e => exact enable v e
  | noticeVectorLowRead =>
    exact k.frame (notices s { s.notices with vectorHigh := some (s.notices.vector.extractLsb' 16 16) } rfl hs)
      (State.hostData_only _ (s.notices.vector.extractLsb' 0 16)) rfl
  | noticeVectorHighRead =>
    exact k.frame (notices s { s.notices with vectorHigh := none } rfl hs)
      (State.hostData_only _ (s.notices.vectorHigh.getD (s.notices.vector.extractLsb' 16 16))) rfl
  | restart v e w => exact restart s v e w hs
  | ignoredRegisterWrite a v e => exact portWrite_keeps a v e (post s v e hs) (pending v e) (enable v e) (restart s v e false hs) hs
  | frameBoundary => exact k.hall.frameBoundary hs
  | superframeBoundary => exact k.hall.superframe hs
  | audioFrame b a => exact k.hall.takeAudioFrame hs b a
  | announceFrame b f => exact k.hall.takeAnnounce hs b f
  | missingMarker b => exact k.hall.missMarker hs b
  | gapDeadlineExpiry b n => exact k.hall.gapExpiry hs b n
  | targetReached c => exact k.hall.targetReached hs c
  | waitDeadlineExpiry c => exact k.hall.waitExpiry hs c
  | floorFrame a => exact k.hall.floorFrame hs a
  | rackAnswer a => exact k.docks.rackAnswer k.reads (by decide) s a hs
  | inventoryAnswer inv => exact k.docks.inventoryAnswer k.reads (fun t ht => k.raise t _ ht) (by decide) s inv hs
  | answerWindowExpiry => exact k.docks.answerExpiry k.reads (by decide) s hs
  | settleDeadlineExpiry p => exact k.settleExpiry hs p
  | reserveDeadlineExpiry h => exact k.reserveExpiry hs h
  | beacon m => exact k.beacon hs m
  | censusMark => exact k.censusMark hs
  | resetRelease | micOn | micOff | offer | accept | consoleCancel | offerOut | busyDeadlineExpiry | offerDeadlineExpiry
  | outgoingOfferLapse | warningReached | pollSend | runCounterTick => exact framed rfl
  | unknownOrder | setNotice | setTimers | setLogPolicy | cancel | clearCountsLinks | clearCountsDocks | setClock | boothDefine | linkHold
  | linkRelease | boothIntake | seatAssign | channelDefine | channelClear | handover | setDistribution | issue | declareLost
  | retireReceiver | restoreReceiver | setTariff | accountOpen | accountPay | accountRefund | accountClose =>
    exact order _ (by decide) s hs

end Sys2Proof.Machine
end

section
/-!
SUPPORT. The law of the tally log, the notice stride and the hire-number counter, over the state's operations and over every command (O53).
-/
namespace Sys2Proof.Machine

/-! ## The law over the state's operations -/

section
variable {s t : State}

/-- The law of the log reads the log, the canonical form of the memory and the read count. -/
theorem State.logOk_of (h : s.logOk) (log : t.log = s.log) (wf : t.memOk)
    (count : ∀ a, a = 0x100 ∨ a = 0x101 → t.mem.read8 a = s.mem.read8 a) : t.logOk := by
  have read : t.readCount = s.readCount := Memory.read16_of_eq (count _ (.inl rfl)) (count _ (.inr rfl))
  have unread : t.unread = s.unread := by rw [State.unread, State.unread, log, read]
  exact ⟨wf, by rw [unread]; exact h.2.1, by rw [unread, log]; exact h.2.2⟩

theorem logOk_reads : Reads State.logOk [.mem, .log] := by
  intro s t same h
  have mem : t.mem = s.mem := same .mem (by decide)
  exact State.logOk_of h (same .log (by decide)) (by rw [State.memOk, mem]; exact h.1) (fun a _ => by rw [mem])

theorem strideOk_reads : Reads State.strideOk [.notices] := by
  intro s t same h
  have notices : t.notices = s.notices := same .notices (by decide)
  rwa [State.strideOk, notices]

theorem hireNumberOk_reads : Reads State.hireNumberOk [.nextHire] := by
  intro s t same h
  have next : t.nextHire = s.nextHire := same .nextHire (by decide)
  rwa [State.hireNumberOk, next]

/-- The bytes of the read count lie in no order slot. -/
theorem not_resultByte_readCount (n : SlotId) {a : Nat} (h : a = 0x100 ∨ a = 0x101) : ¬ resultByte n a := by
  have := slotBase_lt n
  unfold resultByte; omega

theorem State.logOk_complete (h : s.logOk) (n : SlotId) (r : Result) : (s.complete n r).logOk :=
  State.logOk_of h rfl (State.complete_wf s n r h.1) (fun a ha => State.complete_read8 s n r h.1 a (not_resultByte_readCount n ha))

theorem State.logOk_takeSlot (h : s.logOk) (n : SlotId) (rest : List SlotId) : (s.takeSlot n rest).logOk :=
  State.logOk_of h rfl (State.takeSlot_wf s n rest h.1) (fun a ha => State.takeSlot_read8 s n rest h.1 a (not_resultByte_readCount n ha))

theorem State.logOk_setHolder (h : s.logOk) (n : SlotId) (v : Half) : (s.setHolder n v).logOk :=
  State.logOk_of h rfl (State.setHolder_wf s n v h.1)
    (fun a ha => State.setHolder_read8 s n v a h.1 (by have := slotBase_lt n; omega))

theorem State.logOk_endOwner (h : s.logOk) (o : StandingOwner) (r : Result) : (s.endOwner o r).logOk := by
  unfold State.endOwner
  split
  · exact State.logOk_complete (s := { s with orders := _ }) h _ _
  · exact h

theorem State.logOk_handTally (h : s.logOk) (o : WaitOwner) (r : TallyRecord) : (s.handTally o r).logOk := by
  unfold State.handTally
  split
  · rename_i blocked
    have full := State.logBlocked_full h blocked
    have waits : ({ s with log := { s.log with waiting := s.log.waiting ++ [{ owner := o, record := r }] } } : State).logOk :=
      ⟨h.1, h.2.1, fun _ => full⟩
    exact keeps_ite waits waits
  · rename_i free
    have ⟨room, waits⟩ := State.not_logBlocked h (Bool.not_eq_true _ ▸ free)
    exact State.logOk_of_empty (State.logSound_writeTally h.sound room r) (by rw [State.writeTally_log]; exact waits)

theorem State.logOk_merged (h : s.logOk) (o : WaitOwner) (r : TurnRecord) :
    ({ s with log := { s.log with waiting := mergeWaiting o r s.log.waiting } } : State).logOk :=
  ⟨h.1, h.2.1, fun some => h.2.2 (fun none => some (by
    show mergeWaiting o r s.log.waiting = []
    rw [none]; rfl))⟩

theorem nextHireNumber_ne_zero {n : BitVec 32} : nextHireNumber n ≠ 0 := by
  unfold nextHireNumber
  split
  · decide
  · rename_i last
    intro zero
    exact last (by bv_omega)

/-- A change of the log policy (R167). -/
theorem State.logOk_setPolicy (h : s.logOk) {p : LogPolicy} (other : p ≠ s.log.policy) :
    State.logOk (if p = .overwrite then ({ s with log := { s.log with policy := p } }).bumpHeader.drain
      else ({ s with log := { s.log with policy := p } }).bumpHeader) := by
  split
  · exact State.logOk_drain ⟨h.1, h.2.1⟩
  · rename_i keep
    have keep : p = .keep := by cases p <;> simp_all
    refine State.logOk_of_empty ⟨h.1, h.2.1⟩ (Decidable.byContradiction fun some => ?_)
    exact other (keep.trans (h.2.2 some).1.symm)

/-- A host write keeps the law: an accepted read count leaves at most 1024 unread and lets waiting records in (R162, R165). -/
theorem State.logOk_hostWrite (h : s.logOk) {o : Nat} (even : o % 2 = 0) (v : Half) (e : ByteEnables) : (s.hostWrite o v e).logOk := by
  have hit : s.guardHit.logOk := logOk_reads.frame (State.guardHit_only s) (by decide) h
  have enabled (a : Nat) (far : 0x102 ≤ a) : ({ s with mem := s.mem.writeEnabled a v e } : State).logOk :=
    State.logOk_of h rfl (Memory.wf_writeEnabled a v e h.1) (fun x hx => by
      rw [Memory.read8_writeEnabled h.1, if_neg (by omega), if_neg (by omega)])
  unfold State.hostWrite
  refine keeps_ite h ?_
  split
  · unfold State.writeReadCount
    split
    · rename_i accepted
      refine keeps_ite h (State.logOk_drain ⟨Memory.wf_write16 _ v h.1, ?_⟩)
      have read : ({ s with mem := s.mem.write16 0x100 v } : State).readCount = v := Memory.read16_write16 h.1 _ v
      rw [State.unread, read]
      exact accepted.2
    · exact hit
  · split
    · exact enabled o (by omega)
    · split
      · rename_i n k _
        have := slotBase_lt n
        exact keeps_ite (keeps_ite (State.logOk_setHolder h n _) (keeps_ite (State.logOk_setHolder h n _) hit))
          (keeps_ite (enabled _ (by omega)) hit)
      · exact hit

end

/-! ## The law over every command -/

/-- What O53 says every step keeps. -/
def State.tallyLaw (s : State) : Prop := s.logOk ∧ s.strideOk ∧ s.hireNumberOk

theorem tallyLaw_reads : Reads State.tallyLaw [.mem, .log, .notices, .nextHire] :=
  (logOk_reads.and (strideOk_reads.and hireNumberOk_reads) : Reads _ ([.mem, .log] ++ ([.notices] ++ [.nextHire])))

/-- The law through operations that leave the stride and the hire-number counter. -/
theorem State.tallyLaw_of {s t : State} (h : s.tallyLaw) (log : t.logOk) (stride : t.notices.stride = s.notices.stride)
    (next : t.nextHire = s.nextHire) : t.tallyLaw := by
  obtain ⟨_, hstride, hnext⟩ := h
  exact ⟨log, by rwa [State.strideOk, stride], by rwa [State.hireNumberOk, next]⟩

theorem State.writeTally_stride (s : State) (r : TallyRecord) : (s.writeTally r).notices.stride = s.notices.stride := by
  have room : s.makeRoom.notices = s.notices := s.makeRoom_only .notices (by decide)
  unfold State.writeTally
  dsimp only
  split
  · show s.makeRoom.notices.stride = s.notices.stride
    rw [room]
  · show s.makeRoom.notices.stride = s.notices.stride
    rw [room]

theorem State.handTally_stride (s : State) (o : WaitOwner) (r : TallyRecord) : (s.handTally o r).notices.stride = s.notices.stride := by
  unfold State.handTally
  split
  · unfold State.waitTally
    dsimp only
    split <;> rfl
  · exact s.writeTally_stride r

theorem State.drainList_stride : ∀ (l : List WaitEntry) (s : State), (State.drainList l s).notices.stride = s.notices.stride
  | [], _ => rfl
  | w :: l, s => by
    unfold State.drainList
    split
    · rw [State.drainList_stride l, show ∀ t : State, (t.release w.owner).notices = t.notices from fun t =>
        State.release_only t _ .notices (by decide), State.writeTally_stride]
    · rfl

theorem tallyLaw_keeps : CoreKeeps State.tallyLaw where
  reads s t same h := tallyLaw_reads s t (fun f hf => same f (by revert f; decide)) h
  raise _ _ h := ⟨h.1, h.2⟩
  endOwner s o r h := State.tallyLaw_of h (State.logOk_endOwner h.1 o r) (by unfold State.endOwner; split <;> rfl)
    (State.endOwner_only s o r .nextHire (by decide))
  handTally s o r h := State.tallyLaw_of h (State.logOk_handTally h.1 o r) (State.handTally_stride s o r)
    (State.handTally_only s o r .nextHire (by decide))
  merged _ o r h := State.tallyLaw_of h (State.logOk_merged h.1 o r) rfl rfl
  numbered _ h := ⟨h.1, h.2.1, nextHireNumber_ne_zero⟩

theorem tallyLaw_order (n : SlotId) : OrderKeeps n State.tallyLaw State.tallyLaw where
  working := tallyLaw_keeps
  after := tallyLaw_keeps
  complete _ r h := ⟨State.logOk_complete h.1 n r, h.2⟩
  stand _ _ _ h := ⟨State.logOk_setHolder h.1 n _, h.2⟩
  cancelQueued s t _ h := ⟨State.logOk_complete (s := { s with orders := _ }) h.1 t _, h.2⟩
  setNotice s h := by
    refine ⟨h.1, ?_, h.2.2⟩
    have range := clampTo_fst (Nat.zero_le 16) (s.paramLE n 4 2)
    show (BitVec.ofNat 16 (clampTo 0 16 (s.paramLE n 4 2)).1).toNat ≤ 16
    rw [BitVec.toNat_ofNat]
    omega
  setPolicy s p h other := by
    refine State.tallyLaw_of h (State.logOk_setPolicy h.1 other) ?_ ?_
    · split
      · exact State.drainList_stride _ _
      · rfl
    · split
      · exact State.drain_only _ .nextHire (by decide)
      · rfl

theorem State.tallyLaw_post {s : State} (h : s.tallyLaw) (v : Half) (e : ByteEnables) : (s.post v e).tallyLaw := by
  have refused : s.postRefusal.tallyLaw := ⟨h.1, h.2⟩
  unfold State.post
  refine keeps_ite (P := State.tallyLaw) h ?_
  split
  · exact keeps_ite (P := State.tallyLaw) ⟨State.logOk_setHolder h.1 _ _, h.2⟩ refused
  · exact refused

theorem State.tallyLaw_abortOrders {s : State} (h : s.tallyLaw) (w : Option (SlotId × Result)) : (s.abortOrders w).tallyLaw := by
  have completed : ∀ (t : State) (n : SlotId) (r : Result), t.tallyLaw → (t.complete n r).tallyLaw := fun t n r ht =>
    ⟨State.logOk_complete ht.1 n r, ht.2⟩
  unfold State.abortOrders
  extract_lets s1 s2
  have h1 : s1.tallyLaw := by
    refine State.each_induct (P := State.tallyLaw) (f := State.abortStanding) (fun t x _ ht => ?_) ?_
    · obtain ⟨n, owner, c⟩ := x
      cases owner with
      | issue i => exact completed _ _ _ ht
      | handover c => exact completed _ _ _ (tallyLaw_keeps.frame ht (State.writeChannel_only t c _) rfl)
    · cases w with
      | none => exact h
      | some x => exact completed _ _ _ h
  have h2 : s2.tallyLaw := State.each_induct (P := State.tallyLaw) (f := State.abortQueued) (fun t n _ ht => completed t n _ ht) h1
  exact h2

theorem State.tallyLaw_restart {s : State} (h : s.tallyLaw) (v : Half) (e : ByteEnables) (working : Bool) :
    (s.restart v e working).tallyLaw := by
  have entered (t : State) (ht : t.tallyLaw) (w : Option (SlotId × Result)) : (t.enterRestarting.abortOrders w).tallyLaw :=
    State.tallyLaw_abortOrders (s := t.enterRestarting) ⟨ht.1, (Nat.zero_le 16 : (0 : Half).toNat ≤ 16), ht.2.2⟩ w
  have finished : s.finishWorking.1.tallyLaw := by
    unfold State.finishWorking
    split
    · exact h
    · rename_i n rest _
      have taken : (s.takeSlot n rest).tallyLaw := ⟨State.logOk_takeSlot h.1 n rest, h.2⟩
      exact ((tallyLaw_order n).work taken (orderWork_kind s n)).same
  refine keeps_ite (P := State.tallyLaw) ?_ h
  cases working with
  | false => exact entered s h none
  | true => exact entered _ finished _

theorem State.hostWrite_stride (s : State) (o : Nat) (v : Half) (e : ByteEnables) : (s.hostWrite o v e).notices.stride = s.notices.stride := by
  unfold State.hostWrite
  split
  · rfl
  · split
    · unfold State.writeReadCount
      split
      · split
        · rfl
        · exact State.drainList_stride _ _
      · rfl
    · split
      · rfl
      · split
        · unfold State.writeSlot State.writeHolder
          grind [State.setHolder, State.guardHit, State.raise, State.bumpHeader]
        · rfl

theorem State.tallyLaw_becomeReady {s : State} (h : s.tallyLaw) : s.becomeReady.tallyLaw :=
  keeps_ite (P := State.tallyLaw) ⟨h.1, h.2⟩ ⟨h.1, h.2⟩

theorem State.tallyLaw_ready {s : State} (h : s.tallyLaw) : s.completeStartup.tallyLaw ∧ s.completeRestart.tallyLaw := by
  refine ⟨keeps_ite (P := State.tallyLaw) (State.tallyLaw_becomeReady ?_) h, keeps_ite (P := State.tallyLaw) (State.tallyLaw_becomeReady ?_) h⟩
  · exact ⟨State.reset_logOk, h.2.1, (by decide : (1 : BitVec 32) ≠ 0)⟩
  · have tally : s.restartTally.tallyLaw := by
      unfold State.restartTally
      split
      · exact ⟨h.1, h.2⟩
      · rename_i free
        have written := tallyLaw_keeps.handTally s (.hire 0) (.restarted s.restartCounts) h
        rwa [State.handTally, if_neg free] at written
    exact ⟨⟨tally.1.1, tally.1.2.1, fun some => absurd rfl some⟩, tally.2⟩

/-- The law over every command. -/
theorem State.tallyLaw_run (s : State) (i : Instr) (h : s.tallyLaw) : (s.run i).tallyLaw :=
  tallyLaw_keeps.run (fun _ _ same ht => State.tallyLaw_of ht ht.1 same rfl)
    (fun s o v e even ht => State.tallyLaw_of ht (State.logOk_hostWrite ht.1 even v e) (s.hostWrite_stride o v e)
      (s.hostWrite_only o v e .nextHire (by decide)))
    (fun _ v e ht => State.tallyLaw_post ht v e)
    (fun _ hi _ ht => order_keeps hi (fun _ _ hw _ n rest _ _ hu => (tallyLaw_order n).finish ((tallyLaw_order n).work
      ⟨State.logOk_takeSlot hu.1 n rest, hu.2⟩ hw)) ht)
    (fun _ v e w ht => State.tallyLaw_restart ht v e w)
    (fun _ ht => ⟨ht.1, (Nat.zero_le 16 : (0 : Half).toNat ≤ 16), ht.2.2⟩)
    (fun _ ht => State.tallyLaw_ready ht) s i h

/-- Settles O53. -/
theorem stepsKeepTheLogLaw : Obligations.StepsKeepTheLogLaw := by
  intro s t run log stride next
  exact tallyLaw_reads.step (by decide) State.tallyLaw_run run ⟨log, stride, next⟩

end Sys2Proof.Machine
end

section
/-!
SUPPORT. The order unit's lists against the holder words, while one order may be WORKING, over the state's operations and over every
command (O54).
-/
namespace Sys2Proof.Machine

/-! ## Holder words over the state's operations -/

section
variable {s t : State}

theorem State.holder_eq (h : ∀ n : SlotId, ∀ a, slotBase n ≤ a → a < slotBase n + 2 → t.mem.read8 a = s.mem.read8 a) (n : SlotId) :
    t.holder n = s.holder n := Memory.read16_of_eq (h n _ (by omega) (by omega)) (h n _ (by omega) (by omega))

theorem State.writeResult_holder (h : s.memOk) (n k : SlotId) (c r : Byte) (f : Half) (v : List Byte) :
    (s.writeResult n c r f v).holder k = s.holder k := by
  have far := slotBase_far (n := n) (k := k)
  refine State.holder_eq (fun k a h0 h1 => ?_) k
  rw [State.writeResult_read8 s n c r f v a h]
  by_cases same : n = k
  · subst same
    rw [if_neg (by omega), if_neg (by omega)]
  · have far := slotBase_far same
    rw [if_neg (by omega), if_neg (by omega)]

theorem State.holder_complete (h : s.memOk) (n k : SlotId) (r : Result) :
    (s.complete n r).holder k = if k = n then Holder.done else s.holder k := by
  show ((s.writeResult n r.code.code r.reason.code r.flags r.values).setHolder n Holder.done).holder k = _
  rw [State.setHolder_holder _ n k _ (State.writeResult_wf s n _ _ _ _ h), State.writeResult_holder h]

theorem State.takeSlot_holder (h : s.memOk) (n k : SlotId) (rest : List SlotId) :
    (s.takeSlot n rest).holder k = if k = n then Holder.working else s.holder k := by
  have taken : ({ s with orders := { s.orders with queue := rest } } : State).memOk := h
  show ((({ s with orders := { s.orders with queue := rest } } : State).setHolder n Holder.working).writeResult n _ _ _ _).holder k = _
  rw [State.writeResult_holder (State.setHolder_wf _ n _ taken), State.setHolder_holder _ n k _ taken]
  rfl

theorem State.writeTally_holder (h : s.memOk) (r : TallyRecord) (n : SlotId) : (s.writeTally r).holder n = s.holder n := by
  have place := tallyBase_bounds s.log.writeCount
  refine State.holder_eq (fun n a h0 h1 => ?_) n
  have := slotBase_lt n
  exact State.writeTally_read8 r h (by omega) (by omega) (by omega)

end

/-! ## The law of the lists while an order may be WORKING -/

/-- The law of the order unit's lists while the order of slot `w`, if one is named, is WORKING. -/
structure State.SlotsHold (w : Option SlotId) (s : State) : Prop where
  mem : s.memOk
  queueNodup : s.orders.queue.Nodup
  standingNodup : (s.orders.standing.map (fun t => t.slot)).Nodup
  queued : ∀ n : SlotId, n ∈ s.orders.queue ↔ s.holder n = Holder.queued
  standing : ∀ n : SlotId, n ∈ s.orders.standing.map (fun t => t.slot) ↔ s.holder n = Holder.standing
  working : ∀ n : SlotId, s.holder n = Holder.working ↔ w = some n
  restarting : s.part = .restarting → s.orders.queue = [] ∧ s.orders.standing = [] ∧ w = none

theorem State.slotsHold_none {s : State} : s.SlotsHold none ↔ s.slotsOk := by
  constructor
  · intro ⟨mem, queueNodup, standingNodup, queued, standing, working, restarting⟩
    exact ⟨mem, queueNodup, standingNodup, queued, standing, fun n h => (nomatch (working n).mp h),
      fun h => ⟨(restarting h).1, (restarting h).2.1⟩⟩
  · intro ⟨mem, queueNodup, standingNodup, queued, standing, working, restarting⟩
    exact ⟨mem, queueNodup, standingNodup, queued, standing, fun n => ⟨fun h => absurd h (working n), fun h => (nomatch h)⟩,
      fun h => ⟨(restarting h).1, (restarting h).2, rfl⟩⟩

/-- What leaves part, lists and holder words keeps the law. -/
theorem State.SlotsHold.of {w : Option SlotId} {s t : State} (h : s.SlotsHold w) (mem : t.memOk) (part : t.part = s.part)
    (orders : t.orders = s.orders) (holder : ∀ n, t.holder n = s.holder n) : t.SlotsHold w where
  mem := mem
  queueNodup := by rw [orders]; exact h.queueNodup
  standingNodup := by rw [orders]; exact h.standingNodup
  queued n := by rw [orders, holder]; exact h.queued n
  standing n := by rw [orders, holder]; exact h.standing n
  working n := by rw [holder]; exact h.working n
  restarting := by rw [part, orders]; exact h.restarting

/-- One slot's holder word changed, and with it the lists the slot is in. -/
theorem State.SlotsHold.move {w x : Option SlotId} {s t : State} (h : s.SlotsHold w) (n : SlotId) (v : Half) (mem : t.memOk)
    (holder : ∀ k, t.holder k = if k = n then v else s.holder k)
    (queueNodup : t.orders.queue.Nodup) (standingNodup : (t.orders.standing.map (fun t => t.slot)).Nodup)
    (queue : ∀ k, k ≠ n → (k ∈ t.orders.queue ↔ k ∈ s.orders.queue)) (queued : n ∈ t.orders.queue ↔ v = Holder.queued)
    (stands : ∀ k, k ≠ n → (k ∈ t.orders.standing.map (fun t => t.slot) ↔ k ∈ s.orders.standing.map (fun t => t.slot)))
    (standing : n ∈ t.orders.standing.map (fun t => t.slot) ↔ v = Holder.standing)
    (works : ∀ k, k ≠ n → (x = some k ↔ w = some k)) (working : x = some n ↔ v = Holder.working)
    (restarting : t.part = .restarting → t.orders.queue = [] ∧ t.orders.standing = [] ∧ x = none) : t.SlotsHold x where
  mem := mem
  queueNodup := queueNodup
  standingNodup := standingNodup
  queued k := by
    rw [holder]
    by_cases e : k = n
    · rw [if_pos e, e, queued]
    · rw [if_neg e, queue k e, h.queued k]
  standing k := by
    rw [holder]
    by_cases e : k = n
    · rw [if_pos e, e, standing]
    · rw [if_neg e, stands k e, h.standing k]
  working k := by
    rw [holder]
    by_cases e : k = n
    · rw [if_pos e, e, working]
    · rw [if_neg e, works k e, h.working k]
  restarting := restarting

theorem slotsHold_reads (w : Option SlotId) : Reads (State.SlotsHold w) [.part, .mem, .orders] := by
  intro s t same h
  have mem : t.mem = s.mem := same .mem (by decide)
  exact h.of (by rw [State.memOk, mem]; exact h.mem) (same .part (by decide)) (same .orders (by decide))
    (fun n => by rw [State.holder, State.holder, mem])

/-! ## The order unit's own dealings -/

section
variable {s : State} {n : SlotId}

/-- A holder word of one value has no other. -/
theorem holder_other {x a b : Half} (h : x = a) (other : a ≠ b) : ¬ x = b := fun e => other (h.symm.trans e)

theorem State.SlotsHold.workingUnlisted (h : s.SlotsHold (some n)) :
    n ∉ s.orders.queue ∧ n ∉ s.orders.standing.map (fun t => t.slot) := by
  have works : s.holder n = Holder.working := (h.working n).mpr rfl
  exact ⟨fun m => absurd ((h.queued n).mp m) (holder_other works (by decide)),
    fun m => absurd ((h.standing n).mp m) (holder_other works (by decide))⟩

/-- No slot but the one that is WORKING is. -/
theorem workingSlot_iff {k : SlotId} (other : k ≠ n) : (none = some k ↔ some n = some k) :=
  ⟨fun e => (nomatch e), fun e => absurd (Option.some.inj e).symm other⟩

theorem State.SlotsHold.complete (h : s.SlotsHold (some n)) (r : Result) : (s.complete n r).SlotsHold none := by
  obtain ⟨unqueued, unstanding⟩ := h.workingUnlisted
  exact h.move n Holder.done (State.complete_wf s n r h.mem) (fun k => State.holder_complete h.mem n k r) h.queueNodup h.standingNodup
    (fun _ _ => Iff.rfl) (iff_of_false unqueued (by decide)) (fun _ _ => Iff.rfl) (iff_of_false unstanding (by decide))
    (fun k other => workingSlot_iff other) (iff_of_false (fun e => nomatch e) (by decide))
    (fun part => nomatch (h.restarting part).2.2)

theorem State.SlotsHold.makeStanding (h : s.SlotsHold (some n)) (o : StandingOwner) (c : Bool) : (s.makeStanding n o c).SlotsHold none := by
  obtain ⟨unqueued, unstanding⟩ := h.workingUnlisted
  have listed : (s.makeStanding n o c).orders.standing.map (fun t => t.slot) = s.orders.standing.map (fun t => t.slot) ++ [n] := by
    simp [State.makeStanding, State.setHolder]
  refine h.move n Holder.standing (State.setHolder_wf s n _ h.mem) (fun k => State.setHolder_holder s n k _ h.mem) h.queueNodup ?_
    (fun _ _ => Iff.rfl) (iff_of_false unqueued (by decide)) (fun k other => ?_) (iff_of_true ?_ rfl)
    (fun k other => workingSlot_iff other) (iff_of_false (fun e => nomatch e) (by decide))
    (fun part => nomatch (h.restarting part).2.2)
  · rw [listed]
    exact List.nodup_append.mpr ⟨h.standingNodup, List.nodup_singleton n, fun a ha b hb e =>
      unstanding (List.mem_singleton.mp hb ▸ e ▸ ha)⟩
  · simp [listed, other]
  · simp [listed]

theorem State.SlotsHold.takeSlot {rest : List SlotId} (h : s.SlotsHold none) (queue : s.orders.queue = n :: rest) (ready : s.part = .ready) :
    (s.takeSlot n rest).SlotsHold (some n) := by
  have nodup := h.queueNodup
  rw [queue, List.nodup_cons] at nodup
  have queued : s.holder n = Holder.queued := (h.queued n).mp (by rw [queue]; exact List.mem_cons_self ..)
  refine h.move n Holder.working (State.takeSlot_wf s n rest h.mem) (fun k => State.takeSlot_holder h.mem n k rest) nodup.2 h.standingNodup
    (fun k other => ?_) (iff_of_false nodup.1 (by decide)) (fun _ _ => Iff.rfl)
    (iff_of_false (fun m => absurd ((h.standing n).mp m) (holder_other queued (by decide))) (by decide))
    (fun k other => (workingSlot_iff other).symm) (iff_of_true rfl rfl) (fun part => nomatch ready.symm.trans part)
  rw [queue]
  exact ⟨List.mem_cons_of_mem n, fun m => (List.mem_cons.mp m).resolve_left other⟩

/-- A standing order that ends leaves the list and is DONE. -/
theorem State.SlotsHold.endStanding {w : Option SlotId} {t : Standing} (h : s.SlotsHold w) (listed : t ∈ s.orders.standing) (r : Result) :
    (s.endStanding t r).SlotsHold w := by
  have stands : s.holder t.slot = Holder.standing := (h.standing t.slot).mp (List.mem_map_of_mem listed)
  have left : (s.endStanding t r).orders.standing = s.orders.standing.filter (fun u => u.slot ≠ t.slot) := rfl
  have mem (k : SlotId) : k ∈ (s.endStanding t r).orders.standing.map (fun t => t.slot) ↔
      k ∈ s.orders.standing.map (fun t => t.slot) ∧ k ≠ t.slot := by
    rw [left, List.mem_map, List.mem_map]
    constructor
    · rintro ⟨u, hu, rfl⟩
      have ⟨stood, other⟩ := List.mem_filter.mp hu
      exact ⟨⟨u, stood, rfl⟩, of_decide_eq_true other⟩
    · rintro ⟨⟨u, hu, rfl⟩, other⟩
      exact ⟨u, List.mem_filter.mpr ⟨hu, decide_eq_true other⟩, rfl⟩
  refine h.move t.slot Holder.done (State.complete_wf _ _ _ h.mem) (fun k => State.holder_complete (s := { s with orders := _ }) h.mem _ k _)
    h.queueNodup ?_ (fun _ _ => Iff.rfl)
    (iff_of_false (fun m => absurd ((h.queued _).mp m) (holder_other stands (by decide))) (by decide))
    (fun k other => by rw [mem]; exact and_iff_left other) (iff_of_false (fun m => ((mem _).mp m).2 rfl) (by decide))
    (fun _ _ => Iff.rfl) (iff_of_false (fun e => absurd ((h.working _).mpr e) (holder_other stands (by decide))) (by decide))
    (fun part => ?_)
  · rw [left]
    exact h.standingNodup.sublist (List.filter_sublist.map _)
  · have none : s.orders.standing = [] := (h.restarting part).2.1
    rw [none] at listed
    exact nomatch listed

theorem State.SlotsHold.endOwner {w : Option SlotId} (h : s.SlotsHold w) (o : StandingOwner) (r : Result) : (s.endOwner o r).SlotsHold w := by
  unfold State.endOwner
  split
  · rename_i t found
    exact h.endStanding (List.mem_of_find?_eq_some found) r
  · exact h

theorem State.SlotsHold.cancelQueued {w : Option SlotId} (h : s.SlotsHold w) (queued : s.holder n = Holder.queued) :
    (s.cancelQueued n).SlotsHold w := by
  have left : (s.cancelQueued n).orders.queue = s.orders.queue.filter (fun u => u ≠ n) := rfl
  have listed := (h.queued n).mpr queued
  refine h.move n Holder.done (State.complete_wf _ _ _ h.mem) (fun k => State.holder_complete (s := { s with orders := _ }) h.mem _ k _)
    ?_ h.standingNodup (fun k other => ?_) (iff_of_false (fun m => ?_) (by decide)) (fun _ _ => Iff.rfl)
    (iff_of_false (fun m => absurd ((h.standing _).mp m) (holder_other queued (by decide))) (by decide))
    (fun _ _ => Iff.rfl) (iff_of_false (fun e => absurd ((h.working _).mpr e) (holder_other queued (by decide))) (by decide))
    (fun part => ?_)
  · rw [left]
    exact h.queueNodup.sublist List.filter_sublist
  · rw [left, List.mem_filter]
    exact and_iff_left (decide_eq_true other)
  · rw [left, List.mem_filter] at m
    exact of_decide_eq_true m.2 rfl
  · have none : s.orders.queue = [] := (h.restarting part).1
    rw [none] at listed
    exact nomatch listed

theorem State.SlotsHold.post (h : s.SlotsHold none) (v : Half) (e : ByteEnables) : (s.post v e).SlotsHold none := by
  have refused : s.postRefusal.SlotsHold none := h.of h.mem rfl rfl (fun _ => rfl)
  unfold State.post
  refine keeps_ite (P := State.SlotsHold none) h ?_
  split
  · rename_i n _
    split
    · rename_i taken
      obtain ⟨ready, posted⟩ := taken
      have unqueued : n ∉ s.orders.queue := fun m => absurd ((h.queued n).mp m) (holder_other posted (by decide))
      refine h.move n Holder.queued (State.setHolder_wf s n _ h.mem) (fun k => State.setHolder_holder s n k _ h.mem) ?_ h.standingNodup
        (fun k other => ?_) (iff_of_true ?_ rfl) (fun _ _ => Iff.rfl)
        (iff_of_false (fun m => absurd ((h.standing n).mp m) (holder_other posted (by decide))) (by decide))
        (fun _ _ => Iff.rfl) (iff_of_false (fun e => nomatch e) (by decide)) (fun part => nomatch ready.symm.trans part)
      · exact List.nodup_append.mpr ⟨h.queueNodup, List.nodup_singleton n, fun a ha b hb e =>
          unqueued (List.mem_singleton.mp hb ▸ e ▸ ha)⟩
      · show k ∈ s.orders.queue ++ [n] ↔ _
        simp [other]
      · exact List.mem_append_right _ (List.mem_singleton.mpr rfl)
    · exact refused
  · exact refused

/-- A host write of a holder word of a slot in neither list. -/
theorem State.SlotsHold.setHolder (h : s.SlotsHold none) {v : Half} (old : s.holder n = Holder.empty ∨ s.holder n = Holder.done)
    (new : v = Holder.posted ∨ v = Holder.empty) : (s.setHolder n v).SlotsHold none := by
  have outside {x : Half} (e0 : Holder.empty ≠ x) (e1 : Holder.done ≠ x) : ¬ s.holder n = x :=
    fun e => old.elim (fun o => e0 (o.symm.trans e)) (fun o => e1 (o.symm.trans e))
  have writes {x : Half} (e0 : Holder.posted ≠ x) (e1 : Holder.empty ≠ x) : ¬ v = x :=
    fun e => new.elim (fun o => e0 (o.symm.trans e)) (fun o => e1 (o.symm.trans e))
  exact h.move n v (State.setHolder_wf s n _ h.mem) (fun k => State.setHolder_holder s n k _ h.mem) h.queueNodup h.standingNodup
    (fun _ _ => Iff.rfl) (iff_of_false (fun m => outside (by decide) (by decide) ((h.queued n).mp m)) (writes (by decide) (by decide)))
    (fun _ _ => Iff.rfl) (iff_of_false (fun m => outside (by decide) (by decide) ((h.standing n).mp m)) (writes (by decide) (by decide)))
    (fun _ _ => Iff.rfl) (iff_of_false (fun e => nomatch e) (writes (by decide) (by decide))) h.restarting

end

/-! ## The tally log and the host's writes -/

section
variable {s : State} {w : Option SlotId}

theorem State.SlotsHold.writeTally (h : s.SlotsHold w) (r : TallyRecord) : (s.writeTally r).SlotsHold w :=
  have only := s.writeTally_only r
  h.of (State.writeTally_wf r h.mem) (only .part (by decide)) (only .orders (by decide)) (State.writeTally_holder h.mem r)

theorem State.SlotsHold.handTally (h : s.SlotsHold w) (o : WaitOwner) (r : TallyRecord) : (s.handTally o r).SlotsHold w :=
  keeps_ite (P := State.SlotsHold w) ((slotsHold_reads w).frame (s.waitTally_only o r) (by decide) h) (h.writeTally r)

theorem State.SlotsHold.drainList : ∀ (l : List WaitEntry) {s : State}, s.SlotsHold w → (State.drainList l s).SlotsHold w
  | [], s, h => (slotsHold_reads w).frame (s.log_only _) (by decide) h
  | e :: l, s, h => by
    have taken : ({ s with log := { s.log with waiting := l } } : State).SlotsHold w :=
      (slotsHold_reads w).frame (s.log_only _) (by decide) h
    unfold State.drainList
    split
    · exact State.SlotsHold.drainList l ((slotsHold_reads w).frame (State.release_only _ _) (by decide) (taken.writeTally e.record))
    · exact (slotsHold_reads w).frame (s.log_only _) (by decide) h

theorem State.SlotsHold.drain (h : s.SlotsHold w) : s.drain.SlotsHold w := State.SlotsHold.drainList _ h

/-- Two bytes written outside the holder words. -/
theorem State.SlotsHold.writeEnabled (h : s.SlotsHold w) {a : Nat} (v : Half) (e : ByteEnables)
    (apart : ∀ n : SlotId, a + 1 < slotBase n ∨ slotBase n + 2 ≤ a) : ({ s with mem := s.mem.writeEnabled a v e } : State).SlotsHold w := by
  refine h.of (Memory.wf_writeEnabled a v e h.mem) rfl rfl (State.holder_eq fun n x h0 h1 => ?_)
  have := apart n
  rw [Memory.read8_writeEnabled h.mem, if_neg (by omega), if_neg (by omega)]

theorem State.SlotsHold.writeReadCount (h : s.SlotsHold w) (v : Half) (e : ByteEnables) : (s.writeReadCount v e).SlotsHold w := by
  have hit : s.guardHit.SlotsHold w := (slotsHold_reads w).frame s.guardHit_only (by decide) h
  refine keeps_ite (P := State.SlotsHold w) (keeps_ite (P := State.SlotsHold w) h (State.SlotsHold.drain ?_)) hit
  refine h.of (Memory.wf_write16 _ v h.mem) rfl rfl (State.holder_eq fun n x h0 h1 => ?_)
  have := slotBase_lt n
  rw [Memory.read8_write16 h.mem, if_neg (by omega), if_neg (by omega)]

theorem State.SlotsHold.writeSlot (h : s.SlotsHold none) (n : SlotId) (k : Nat) (v : Half) (e : ByteEnables) :
    (s.writeSlot n k v e).SlotsHold none := by
  have hit : s.guardHit.SlotsHold none := (slotsHold_reads none).frame s.guardHit_only (by decide) h
  unfold State.writeSlot State.writeHolder
  split
  · split
    · rename_i posts
      obtain ⟨_, empty, _⟩ := posts
      exact h.setHolder (.inl empty) (.inl rfl)
    · split
      · rename_i frees
        obtain ⟨_, done, _⟩ := frees
        exact h.setHolder (.inr done) (.inr rfl)
      · exact hit
  · split
    · rename_i host
      have field := host.1
      simp only [hostsField, Bool.or_eq_true, Bool.and_eq_true, beq_iff_eq, decide_eq_true_eq] at field
      refine h.writeEnabled v e (fun j => ?_)
      by_cases same : n = j
      · subst same; omega
      · have := slotBase_far same; omega
    · exact hit

theorem State.SlotsHold.hostWrite (h : s.SlotsHold none) {o : Nat} (even : o % 2 = 0) (v : Half) (e : ByteEnables) :
    (s.hostWrite o v e).SlotsHold none := by
  unfold State.hostWrite
  refine keeps_ite (P := State.SlotsHold none) h (keeps_ite (P := State.SlotsHold none) (h.writeReadCount v e) ?_)
  split
  · exact h.writeEnabled v e (fun n => by have := slotBase_lt n; omega)
  · split
    · exact h.writeSlot _ _ v e
    · exact (slotsHold_reads none).frame s.guardHit_only (by decide) h

end

/-! ## Orders -/

theorem slotsHold_keeps (w : Option SlotId) : CoreKeeps (State.SlotsHold w) where
  reads s t same h := slotsHold_reads w s t (fun f hf => same f (by revert f; decide)) h
  raise s c h := (slotsHold_reads w).frame (s.raise_only c) (by decide) h
  endOwner _ o r h := h.endOwner o r
  handTally _ o r h := h.handTally o r
  merged s _ _ h := (slotsHold_reads w).frame (s.log_only _) (by decide) h
  numbered s h := (slotsHold_reads w).frame (s.nextHire_only _) (by decide) h

theorem slotsHold_order (n : SlotId) : OrderKeeps n (State.SlotsHold (some n)) (State.SlotsHold none) where
  working := slotsHold_keeps (some n)
  after := slotsHold_keeps none
  complete _ r h := h.complete r
  stand _ o c h := h.makeStanding o c
  cancelQueued _ _ queued h := h.cancelQueued queued
  setNotice s h := (slotsHold_reads _).frame (workSetNotice_only s n) (by decide) h
  setPolicy s p h _ := by
    have changed : (({ s with log := { s.log with policy := p } }).bumpHeader).SlotsHold (some n) := h.of h.mem rfl rfl (fun _ => rfl)
    exact keeps_ite (P := State.SlotsHold (some n)) changed.drain changed

/-! ## Restarts -/

/-- The holder word of a slot after orders have completed in turn. -/
theorem State.each_complete_holder {ι : Type} (slot : ι → SlotId) {f : State → ι → State}
    (completes : ∀ s i, s.memOk → (f s i).memOk ∧ ∀ k, (f s i).holder k = if k = slot i then Holder.done else s.holder k) :
    ∀ (l : List ι) {s : State}, s.memOk → (s.each l f).memOk
      ∧ ∀ k, (s.each l f).holder k = if k ∈ l.map slot then Holder.done else s.holder k
  | [], _, h => ⟨h, fun k => by simp [State.each]⟩
  | i :: l, s, h => by
    obtain ⟨wf, first⟩ := completes s i h
    obtain ⟨wfs, rest⟩ := State.each_complete_holder slot completes l wf
    refine ⟨wfs, fun k => ?_⟩
    show ((f s i).each l f).holder k = _
    rw [rest k, first k, List.map_cons]
    by_cases listed : k ∈ l.map slot
    · rw [if_pos listed, if_pos (List.mem_cons_of_mem _ listed)]
    · by_cases same : k = slot i
      · rw [if_neg listed, if_pos same, if_pos (same ▸ List.mem_cons_self ..)]
      · rw [if_neg listed, if_neg same, if_neg (by simpa [same] using listed)]

theorem State.abortStanding_holder (s : State) (x : Standing) (h : s.memOk) : (s.abortStanding x).memOk
    ∧ ∀ k, (s.abortStanding x).holder k = if k = x.slot then Holder.done else s.holder k := by
  obtain ⟨n, owner, c⟩ := x
  cases owner with
  | issue i => exact ⟨State.complete_wf s n _ h, fun k => State.holder_complete h n k _⟩
  | handover c =>
    have written : (s.writeChannel c (fun ch => { ch with schedule := none })).memOk := h
    exact ⟨State.complete_wf _ n _ written, fun k => State.holder_complete written n k _⟩

/-- The end of the orders in hand leaves no slot in hand and both lists empty (R20). -/
theorem State.SlotsHold.abortOrders {s : State} {w : Option SlotId} (h : s.SlotsHold w) {x : Option (SlotId × Result)}
    (named : ∀ n, w = some n → ∃ r, x = some (n, r)) : (s.enterRestarting.abortOrders x).SlotsHold none := by
  have first : (s.enterRestarting.abortWorking x).memOk ∧ ∀ k, (s.enterRestarting.abortWorking x).holder k = Holder.done
      ∨ w ≠ some k ∧ (s.enterRestarting.abortWorking x).holder k = s.holder k := by
    cases x with
    | none => exact ⟨h.mem, fun k => .inr ⟨fun e => by obtain ⟨_, h⟩ := named k e; exact (nomatch h), rfl⟩⟩
    | some y =>
      obtain ⟨n, r⟩ := y
      refine ⟨State.complete_wf _ n r h.mem, fun k => ?_⟩
      have holder := State.holder_complete (s := s.enterRestarting) h.mem n k r
      by_cases same : k = n
      · exact .inl (holder.trans (if_pos same))
      · refine .inr ⟨fun e => ?_, holder.trans (if_neg same)⟩
        obtain ⟨_, e⟩ := named k e
        cases e
        exact same rfl
  obtain ⟨wf, first⟩ := first
  obtain ⟨wf, second⟩ := State.each_complete_holder (fun t : Standing => t.slot) State.abortStanding_holder s.orders.standing wf
  obtain ⟨wf, third⟩ := State.each_complete_holder (fun n : SlotId => n) (f := State.abortQueued)
    (fun t n ht => ⟨State.complete_wf t n _ ht, fun k => State.holder_complete ht n k _⟩) s.orders.queue wf
  have ended (k : SlotId) : ∀ v ∈ [Holder.queued, Holder.working, Holder.standing],
      (s.enterRestarting.abortOrders x).holder k ≠ v := by
    intro v hv e
    have e : (((s.enterRestarting.abortWorking x).each s.orders.standing State.abortStanding).each s.orders.queue State.abortQueued).holder k
      = v := e
    have done : Holder.done ≠ v := by
      rintro rfl
      exact absurd hv (by decide)
    rw [third k] at e
    split at e
    · exact done e
    · rename_i unqueued
      rw [List.map_id'] at unqueued
      rw [second k] at e
      split at e
      · exact done e
      · rename_i unstanding
        rcases first k with ended | ⟨other, same⟩
        · exact done (ended.symm.trans e)
        · rw [same] at e
          simp only [List.mem_cons, List.not_mem_nil, or_false] at hv
          rcases hv with rfl | rfl | rfl
          · exact unqueued ((h.queued k).mpr e)
          · exact other ((h.working k).mp e)
          · exact unstanding ((h.standing k).mpr e)
  exact { mem := wf, queueNodup := List.nodup_nil, standingNodup := List.nodup_nil
          queued := fun k => iff_of_false (fun m => nomatch m) (ended k _ (by decide))
          standing := fun k => iff_of_false (fun m => nomatch m) (ended k _ (by decide))
          working := fun k => iff_of_false (ended k _ (by decide)) (fun e => nomatch e)
          restarting := fun _ => ⟨rfl, rfl, rfl⟩ }

theorem State.SlotsHold.restart {s : State} (h : s.SlotsHold none) (v : Half) (e : ByteEnables) (working : Bool) :
    (s.restart v e working).SlotsHold none := by
  unfold State.restart
  split
  · rename_i taken
    cases working with
    | false => exact h.abortOrders (x := none) (fun n e => nomatch e)
    | true =>
      show (s.finishWorking.1.enterRestarting.abortOrders s.finishWorking.2).SlotsHold none
      unfold State.finishWorking
      split
      · exact h.abortOrders (x := none) (fun n e => nomatch e)
      · rename_i n rest queue
        have worked := (slotsHold_order n).work (h.takeSlot queue taken.1) (orderWork_kind s n)
        dsimp only
        cases result : (orderWork s n (s.takeSlot n rest) n).2 with
        | none => exact (worked.2 result).abortOrders (fun k e => nomatch e)
        | some r =>
          refine (worked.1 r result).abortOrders (fun k e => ?_)
          cases e
          exact ⟨_, rfl⟩
  · exact h

/-! ## The law over every command -/

/-- The law where the part enters STARTING or READY with the lists and the holder words of `s`. -/
theorem State.SlotsHold.enter {s t : State} (h : s.SlotsHold none) (part : t.part ≠ .restarting) (mem : t.mem = s.mem)
    (orders : t.orders = s.orders) : t.SlotsHold none where
  mem := by rw [State.memOk, mem]; exact h.mem
  queueNodup := by rw [orders]; exact h.queueNodup
  standingNodup := by rw [orders]; exact h.standingNodup
  queued n := by rw [orders, State.holder, mem]; exact h.queued n
  standing n := by rw [orders, State.holder, mem]; exact h.standing n
  working n := by rw [State.holder, mem]; exact h.working n
  restarting e := absurd e part

theorem State.becomeReady_only (s : State) : s.onlyIn [.part, .header, .notices] s.becomeReady := by
  unfold State.becomeReady
  dsimp only
  split
  · intro f hf; cases f <;> first | exact absurd (by decide) hf | rfl
  · intro f hf; cases f <;> first | exact absurd (by decide) hf | rfl

theorem State.becomeReady_part (s : State) : s.becomeReady.part = .ready := by
  unfold State.becomeReady
  dsimp only
  split <;> rfl

theorem State.SlotsHold.becomeReady {s t : State} (h : s.SlotsHold none) (mem : t.mem = s.mem) (orders : t.orders = s.orders) :
    t.becomeReady.SlotsHold none :=
  have only := t.becomeReady_only
  h.enter (by rw [t.becomeReady_part]; decide) ((only .mem (by decide)).trans mem) ((only .orders (by decide)).trans orders)

theorem State.SlotsHold.completeStartup {s : State} (h : s.SlotsHold none) : s.completeStartup.SlotsHold none :=
  keeps_ite (P := State.SlotsHold none) ((State.slotsHold_none.mpr State.reset_slotsOk).becomeReady rfl rfl) h

theorem State.SlotsHold.completeRestart {s : State} (h : s.SlotsHold none) : s.completeRestart.SlotsHold none := by
  unfold State.completeRestart
  split
  · rename_i restarting
    have tally : s.restartTally.SlotsHold none :=
      keeps_ite (P := State.SlotsHold none) (h.of h.mem rfl rfl (fun _ => rfl)) (h.writeTally _)
    have part : s.restartTally.part = s.part := by
      unfold State.restartTally
      split
      · rfl
      · exact s.writeTally_only _ .part (by decide)
    obtain ⟨queue, standing, _⟩ := tally.restarting (part.trans restarting)
    have empty : s.restartTally.orders = State.reset.orders := by
      rw [← show Orders.mk s.restartTally.orders.queue s.restartTally.orders.standing = s.restartTally.orders from rfl, queue, standing]
      rfl
    exact tally.becomeReady rfl empty.symm
  · exact h

/-- The law over every command. -/
theorem State.SlotsHold.run (s : State) (i : Instr) (h : s.SlotsHold none) : (s.run i).SlotsHold none :=
  (slotsHold_keeps none).run (fun s x _ h => (slotsHold_reads none).frame (s.notices_only x) (by decide) h)
    (fun _ _ v e even h => h.hostWrite even v e)
    (fun _ v e h => h.post v e)
    (fun _ hi _ h => order_keeps hi (fun _ _ hw _ n _ ready queue hu => (slotsHold_order n).finish ((slotsHold_order n).work
      (hu.takeSlot queue ready) hw)) h)
    (fun _ v e w h => h.restart v e w)
    (fun _ h => h.enter (fun e => nomatch e) rfl rfl)
    (fun _ h => ⟨h.completeStartup, h.completeRestart⟩) s i h

/-- Settles O54. -/
theorem stepsKeepOrdersAndHolders : Obligations.StepsKeepOrdersAndHolders := by
  intro s t run h
  exact State.slotsHold_none.mp ((slotsHold_reads none).step (by decide) State.SlotsHold.run run (State.slotsHold_none.mpr h))

end Sys2Proof.Machine
end

section
/-!
SUPPORT. Who names whom: what every command but the three orders that define channels and intakes keeps of the channels' booths, the booths'
channels and their intakes, what those three do to the naming and to the relay law, and both laws over every command (O55).
-/
namespace Sys2Proof.Machine

/-! ## Naming kept -/

/-- The channels and booths of `t` name one another, and the booths hear, as those of `s` do. -/
def State.sameNames (s t : State) : Prop :=
  (∀ b : BoothId, (t.booth b).namedAs (s.booth b))
    ∧ ∀ c : ChannelId, (t.channel c).defined = (s.channel c).defined ∧ (t.channel c).primary = (s.channel c).primary
        ∧ (t.channel c).partner = (s.channel c).partner

theorem State.sameNames_refl (s : State) : s.sameNames s := ⟨fun _ => Booth.namedAs_refl _, fun _ => ⟨rfl, rfl, rfl⟩⟩

theorem Booth.namedAs.trans {r q x : Booth} (h : r.namedAs q) (g : q.namedAs x) : r.namedAs x :=
  ⟨h.1.trans g.1, h.2.1.trans g.2.1, h.2.2.trans g.2.2⟩

theorem State.sameNames_reads (s : State) : Reads s.sameNames [.booths, .channels] := by
  intro t u same h
  have booths : u.booths = t.booths := same .booths (by decide)
  have channels : u.channels = t.channels := same .channels (by decide)
  exact ⟨fun b => by rw [State.booth, booths]; exact h.1 b, fun c => by rw [State.channel, channels]; exact h.2 c⟩

section
variable {s t : State}

theorem State.sameNames.booths (h : s.sameNames t) {v : Vector Booth 24} (same : ∀ b : BoothId, v[b].namedAs (t.booth b)) :
    s.sameNames { t with booths := v } := ⟨fun b => (same b).trans (h.1 b), h.2⟩

theorem State.sameNames.updBooth (h : s.sameNames t) (b : BoothId) {f : Booth → Booth} (same : ∀ r : Booth, (f r).namedAs r) :
    s.sameNames (t.updBooth b f) := by
  refine h.booths (fun d => ?_)
  rw [get_set]
  split
  · rename_i e
    exact e ▸ same _
  · exact Booth.namedAs_refl _

theorem State.sameNames.channels (h : s.sameNames t) {v : Vector Channel 32}
    (same : ∀ c : ChannelId, v[c].defined = (t.channel c).defined ∧ v[c].primary = (t.channel c).primary
      ∧ v[c].partner = (t.channel c).partner) : s.sameNames { t with channels := v } :=
  ⟨h.1, fun c => ⟨(same c).1.trans (h.2 c).1, (same c).2.1.trans (h.2 c).2.1, (same c).2.2.trans (h.2 c).2.2⟩⟩

theorem State.sameNames.updChannel (h : s.sameNames t) (c : ChannelId) {f : Channel → Channel}
    (same : ∀ r : Channel, (f r).defined = r.defined ∧ (f r).primary = r.primary ∧ (f r).partner = r.partner) :
    s.sameNames (t.updChannel c f) := by
  refine h.channels (fun d => ?_)
  rw [get_set]
  split
  · rename_i e
    exact e ▸ same _
  · exact ⟨rfl, rfl, rfl⟩

theorem State.sameNames.frame (h : s.sameNames t) {l : List StateField} {u : State} (only : t.onlyIn l u)
    (apart : ∀ f ∈ [StateField.booths, .channels], f ∉ l) : s.sameNames u := s.sameNames_reads.frame only apart h

theorem State.sameNames.endSchedule (h : s.sameNames t) (c : ChannelId) (x : ResultCode) (y : Reason) (z : Bool) (k : Nat) :
    s.sameNames (t.endSchedule c x y z k) := by
  have ended : s.sameNames (t.updChannel c (fun ch => { ch with schedule := none })) := h.updChannel c (fun _ => ⟨rfl, rfl, rfl⟩)
  exact ended.frame (State.endOwner_only _ _ _) (by decide)

theorem State.sameNames.setPhase (h : s.sameNames t) (c : ChannelId) (x : Schedule) : s.sameNames (t.setPhase c x) :=
  h.updChannel c (fun _ => ⟨rfl, rfl, rfl⟩)

/-- The naming through the work of the hall's blocks. -/
theorem State.sameNames_hall (s : State) : HallKeeps s.sameNames where
  reads t u same h := s.sameNames_reads t u (fun f hf => same f (by revert f; decide)) h
  raise t c h := h.frame (t.raise_only c) (by decide)
  handTurn t r h := h.frame (t.handTurn_only r) (by decide)
  endSchedule t c _ _ _ _ h := h.endSchedule c _ _ _ _
  setPhase t c _ h' _ h := h.setPhase c h'
  booths t v same h := h.booths same
  channels t v same h := h.channels (fun c => ⟨(same c).1, (same c).2.1, (same c).2.2.1⟩)

theorem State.sameNames.drainList : ∀ (l : List WaitEntry) {t : State}, s.sameNames t → s.sameNames (State.drainList l t)
  | [], t, h => h.frame (t.log_only _) (by decide)
  | w :: l, t, h => by
    unfold State.drainList
    split
    · have written : s.sameNames (({ t with log := { t.log with waiting := l } } : State).writeTally w.record) :=
        (h.frame (t.log_only _) (by decide)).frame (State.writeTally_only _ _) (by decide)
      refine State.sameNames.drainList l ?_
      cases w.owner with
      | hire i => exact written.frame (State.writeHire_only _ _ _) (by decide)
      | receiver e => exact written.frame (State.writeReceiver_only _ _ _) (by decide)
      | console b n => exact written.updBooth b (fun _ => ⟨rfl, rfl, rfl⟩)
    · exact h.frame (t.log_only _) (by decide)

theorem State.sameNames.drain (h : s.sameNames t) : s.sameNames t.drain := h.drainList _

end

theorem State.sameNames.workCensusMark {s t : State} (h : s.sameNames t) : s.sameNames t.workCensusMark := by
  have hall := s.sameNames_hall
  unfold State.workCensusMark
  extract_lets counts s1 s2
  have taken : s.sameNames (t.takeCensus counts) := by
    unfold State.takeCensus
    extract_lets silent t1 t2
    have h1 : s.sameNames t1 := hall.writeListeners (h.frame (t.receivers_only _) (by decide)) counts
    have h2 : s.sameNames t2 := h1.frame (t1.countBeacon_only _) (by decide)
    exact keeps_ite (P := s.sameNames) (hall.raise _ _ h2) h2
  have h1 : s.sameNames s1 := hall.clearStranded taken counts
  have h2 : s.sameNames s2 := keeps_ite (P := s.sameNames) (hall.creditMinutes h1) h1
  exact h2.frame s2.snapshot_only (by decide)

theorem State.sameNames.censusMark {s t : State} (h : s.sameNames t) : s.sameNames t.censusMark := by
  have passed : s.sameNames { t with clock := { t.clock with markDue := false } } := h.frame (t.clock_only _) (by decide)
  exact keeps_ite (P := s.sameNames) h (keeps_ite (P := s.sameNames) passed.workCensusMark passed)

/-- The works that define no channel and no intake. -/
theorem OrderWork.sameNames {k : Nat} {w : Work} (h : OrderWork k w) (intake : k ≠ 10) (define : k ≠ 12) (clear : k ≠ 13) (s : State)
    (n : SlotId) : s.sameNames (w s n).1 := by
  have same := s.sameNames_refl
  have hall := s.sameNames_hall
  have framed (apart : ∀ f ∈ [StateField.booths, .channels], f ∉ kindTouches k) : s.sameNames (w s n).1 :=
    same.frame (h.only s n) apart
  cases h with
  | boothIntake => exact absurd rfl intake
  | channelDefine => exact absurd rfl define
  | channelClear => exact absurd rfl clear
  | setLogPolicy =>
    unfold workSetLogPolicy
    split
    · rename_i p _
      have changed : s.sameNames ({ s with log := { s.log with policy := p } }).bumpHeader := same
      split
      · exact same
      · exact keeps_ite (P := s.sameNames) changed.drain changed
    · exact same
  | cancel =>
    unfold workCancel
    split
    · split
      · rename_i u _
        cases u.owner with
        | issue i => exact same.frame (State.endReservation_only s i _ _) (by decide)
        | handover c => exact hall.cancelHandover same c
      · split
        · exact same
        · exact same
    · exact same
  | clearDocks => exact same.frame (workClearDocks_only s n) (by decide)
  | clearLinks =>
    have cleared (t : State) (b : BoothId) (ht : s.sameNames t) : s.sameNames (t.clearBooth b) := by
      unfold State.clearBooth
      exact hall.writeBooth (hall.writeBooth ht b _ (Booth.namedAs_refl _)) b _ (Booth.namedAs_refl _)
    unfold workClearLinks
    split
    · exact same
    · split
      · exact State.each_induct (P := s.sameNames) (f := State.clearBooth) (fun t b _ ht => cleared t b ht) same
      · split
        · exact cleared s _ same
        · exact same
  | setClock =>
    unfold workSetClock
    extract_lets fraction was values s1 s2
    have h1 : s.sameNames s1 := same
    have marked : s.sameNames s1.markClockSet := by
      unfold State.markClockSet
      extract_lets m1
      have hires : s.sameNames m1 :=
        h1.frame (State.each_only (fun t k _ => t.writeHire_only k _) s1) (by decide)
      exact State.each_induct (P := s.sameNames) (fun t b _ ht => hall.rewriteBooth ht b _ (Booth.namedAs_refl _)) hires
    exact keeps_ite (P := s.sameNames) (hall.raise _ _ (hall.compareSchedules marked)) h1
  | boothDefine =>
    unfold workBoothDefine
    split
    · split
      · exact same
      · exact same.updBooth _ (fun _ => ⟨rfl, rfl, rfl⟩)
    · exact same
  | linkHold => exact hall.linkHold same n
  | linkRelease =>
    unfold workLinkRelease
    split
    · split
      · exact same
      · split
        · exact same
        · exact same.updBooth _ (fun _ => ⟨rfl, rfl, rfl⟩)
    · exact same
  | seatAssign => exact hall.seatAssign same n
  | handover =>
    unfold workHandover
    split
    · rename_i c target _ _
      dsimp only
      split
      · exact same
      · split
        · exact same
        · split
          · exact same
          · split
            · exact same
            · unfold State.schedule
              extract_lets s1 s2
              have h1 : s.sameNames s1 := (same.setPhase c _).frame (State.makeStanding_only _ _ _ _) (by decide)
              have h2 : s.sameNames s2 := keeps_ite (P := s.sameNames) (hall.target (hall.warn h1 c) c) (hall.compareSchedule h1 c)
              exact hall.settleChannel h2 s c
    · exact same
    · exact same
  | setDistribution =>
    unfold workSetDistribution
    split
    · dsimp only
      split
      · exact same
      · exact fst_keeps (P := s.sameNames) (hall.stagePlan (hall.writeChannel (hall.framer same _) 0 _ (Channel.namedAs_refl _)))
    · exact same
  | setNotice | setTimers | issue | declareLost | retireReceiver | restoreReceiver | setTariff | accountOpen | accountPay | accountRefund
  | accountClose => exact framed (by decide)
  | unknown => exact same

/-! ## The two laws where the naming is kept -/

section
variable {s t : State}

/-- The relay graph's edges out of a booth, over the records (R89). -/
theorem State.relayNext_eq (s : State) (x : BoothId) :
    relayNext s.channels s.intakes x = if (s.booth x).role.intake ≠ 0 ∧ (s.channel (s.booth x).role.intake).defined = true
      then (s.channel (s.booth x).role.intake).named else [] := by
  have intake := s.intakes_get x
  show (if s.intakes[x] ≠ 0 ∧ (s.channel s.intakes[x]).defined = true then (s.channel s.intakes[x]).named else []) = _
  rw [intake]

theorem relayLaw_iff {chs : Vector Channel 32} {intakes : Vector ChannelId 24} :
    relayLaw chs intakes = true ↔ ∀ x, ∀ y ∈ relayNext chs intakes x, ∀ z ∈ relayNext chs intakes y, relayNext chs intakes z = [] := by
  simp only [relayLaw, List.all_eq_true, List.mem_finRange, true_imp_iff, List.isEmpty_iff]

/-- A graph whose edges are among those of a lawful one is lawful. -/
theorem relayLaw_of_fewer {chs old : Vector Channel 32} {intakes were : Vector ChannelId 24} (law : relayLaw old were = true)
    (fewer : ∀ x, relayNext chs intakes x = relayNext old were x ∨ relayNext chs intakes x = []) : relayLaw chs intakes = true := by
  have edge {x y : BoothId} (h : y ∈ relayNext chs intakes x) : y ∈ relayNext old were x := by
    rcases fewer x with same | none
    · exact same ▸ h
    · rw [none] at h
      exact nomatch h
  rw [relayLaw_iff] at law ⊢
  intro x y hy z hz
  rcases fewer z with same | none
  · rw [same, law x y (edge hy) z (edge hz)]
  · exact none

theorem State.sameNames.named (h : s.sameNames t) (c : ChannelId) : (t.channel c).named = (s.channel c).named := by
  rw [Channel.named, Channel.named, (h.2 c).2.1, (h.2 c).2.2]

theorem State.sameNames.relayOk (h : s.sameNames t) (law : s.relayOk) : t.relayOk :=
  relayLaw_of_fewer law fun x => .inl (by
    rw [State.relayNext_eq, State.relayNext_eq, (h.1 x).2.2, (h.2 _).1, h.named])

theorem State.sameNames.namingOk (h : s.sameNames t) (law : s.namingOk) : t.namingOk := by
  obtain ⟨defined, primary, partner, undefined, names⟩ := law
  refine ⟨(h.2 0).1.trans defined, (h.2 0).2.1.trans primary, (h.2 0).2.2.trans partner, fun c hc => ?_, fun b c => ?_⟩
  · rw [(h.2 c).2.1, (h.2 c).2.2]
    exact undefined c ((h.2 c).1.symm.trans hc)
  · rw [(h.2 c).2.1, (h.2 c).2.2, (h.1 b).1, (h.1 b).2.1]
    exact names b c

end

/-- What O55 says every step keeps. -/
def State.hallLaw (s t : State) : Prop := s.namingOk → t.namingOk ∧ (s.relayOk → t.relayOk)

theorem State.sameNames.hallLaw {s t : State} (h : s.sameNames t) : s.hallLaw t := fun law => ⟨h.namingOk law, h.relayOk⟩

/-! ## The orders that name -/

/-- BOOTH_INTAKE writes only an intake the relay law allows (R90). -/
theorem workBoothIntake_hallLaw (s : State) (n : SlotId) : s.hallLaw (workBoothIntake s n).1 := by
  have same := s.sameNames_refl.hallLaw
  unfold workBoothIntake
  split
  · rename_i b i _ _
    dsimp only
    split
    · exact same
    · split
      · exact same
      · split
        · exact same
        · rename_i kept
          intro law
          obtain ⟨defined, primary, partner, undefined, names⟩ := law
          refine ⟨⟨defined, primary, partner, undefined, fun d c => ?_⟩, fun _ => ?_⟩
          · have role : ∀ d, ((s.writeBooth b (fun r => { r with role := { r.role with intake := i } })).booth d).role.named
                = (s.booth d).role.named
              ∧ ((s.writeBooth b (fun r => { r with role := { r.role with intake := i } })).booth d).role.role = (s.booth d).role.role := by
              intro d
              rw [State.booth_writeBooth]
              split
              · rename_i e
                subst e
                exact ⟨rfl, rfl⟩
              · exact ⟨rfl, rfl⟩
            show ((s.channel c).primary = some d ↔ _) ∧ ((s.channel c).partner = some d ↔ _)
            rw [(role d).1, (role d).2]
            exact names d c
          · show relayLaw s.channels (State.intakes (s.writeBooth b _)) = true
            rw [show (s.writeBooth b (fun r => { r with role := { r.role with intake := i } })).intakes = s.intakes.set b i from
              s.intakes_writeIntake b i _ rfl]
            exact Bool.not_eq_false _ ▸ kept
  · exact same

/-- Every booth's naming after a renaming (R75, R76). -/
theorem State.rename_booth (s : State) (c : ChannelId) (p q : Option BoothId) (b : BoothId) :
    (s.rename c p q).booth b
      = rewritten Booth.bump (fun r => { r with role := r.role.naming c (p == some b) (q == some b) }) (s.booth b) := by
  unfold State.rename
  rw [State.each_get (I := fun _ => True) State.booth s.booth
    (fun b => rewritten Booth.bump (fun r => { r with role := r.role.naming c (p == some b) (q == some b) }) (s.booth b))
    (fun _ _ _ => trivial) (fun t b d _ other => by rw [State.booth_rewriteBooth, if_neg other])
    (fun t b _ same => by rw [State.booth_rewriteBooth, if_pos rfl, same]) (List.nodup_finRange 24) trivial (fun _ => rfl) b,
    if_pos (List.mem_finRange b)]

/-- A booth record rewritten holds what was to be written. -/
theorem rewritten_role (f : Booth → Booth) (r : Booth) : (rewritten Booth.bump f r).role = (f r).role := by
  unfold rewritten
  split
  · rename_i same
    rw [same]
  · rfl

theorem State.rename_role (s : State) (c : ChannelId) (p q : Option BoothId) (b : BoothId) :
    ((s.rename c p q).booth b).role = (s.booth b).role.naming c (p == some b) (q == some b) := by
  rw [State.rename_booth, rewritten_role]

theorem RoleFields.naming_intake (r : RoleFields) (c : ChannelId) (p q : Bool) : (r.naming c p q).intake = r.intake := by
  unfold RoleFields.naming
  split
  · rfl
  · split
    · rfl
    · split <;> rfl

theorem State.rename_channels (s : State) (c : ChannelId) (p q : Option BoothId) : (s.rename c p q).channels = s.channels :=
  s.rename_only c p q .channels (by decide)

theorem State.rename_channel (s : State) (c d : ChannelId) (p q : Option BoothId) : (s.rename c p q).channel d = s.channel d := by
  rw [State.channel, s.rename_channels]

theorem RoleFields.naming_named (r : RoleFields) (c : ChannelId) (p q : Bool) :
    (r.naming c p q).named = if p = true ∨ q = true then some c else if r.named = some c then none else r.named := by
  unfold RoleFields.naming
  cases p <;> cases q <;> simp
  split <;> rfl

theorem RoleFields.naming_role (r : RoleFields) (c : ChannelId) (p q : Bool) :
    (r.naming c p q).role = if p = true then .primary else if q = true then .partner else r.role := by
  unfold RoleFields.naming
  cases p <;> cases q <;> simp
  split <;> rfl

/-- A renaming changes no edge of the relay graph. -/
theorem State.relayOk_rename {s : State} (law : s.relayOk) (c : ChannelId) (p q : Option BoothId) : (s.rename c p q).relayOk :=
  relayLaw_of_fewer law fun x => .inl (by
    rw [State.relayNext_eq, State.relayNext_eq, State.rename_role, RoleFields.naming_intake, State.rename_channel])

/-- A renaming of a state with the same names. -/
theorem State.sameNames.rename {s t : State} (h : s.sameNames t) (c : ChannelId) (p q : Option BoothId) :
    (s.rename c p q).sameNames (t.rename c p q) := by
  refine ⟨fun b => ?_, fun d => ?_⟩
  · obtain ⟨named, role, intake⟩ := h.1 b
    unfold Booth.namedAs
    rw [State.rename_role, State.rename_role, RoleFields.naming_intake, RoleFields.naming_intake]
    refine ⟨?_, ?_, intake⟩
    all_goals
      unfold RoleFields.naming
      rw [named]
      split
      · rfl
      · split
        · rfl
        · split <;> first | rfl | assumption
  · rw [State.channel, State.channel, State.rename_channels, State.rename_channels]
    exact h.2 d

/-- The names CHANNEL_DEFINE leaves are those of the definition written and the booths renamed (R75). -/
theorem State.defineChannel_names (s : State) (c : ChannelId) (p : ChannelParams) :
    ((s.updChannel c (fun r => r.define p)).rename c (some p.primary) p.partner).sameNames (s.defineChannel c p) := by
  unfold State.defineChannel
  extract_lets s1 s2 s3 s4
  have same := s1.sameNames_hall
  have h2 : s1.sameNames s2 :=
    keeps_ite (P := s1.sameNames) s1.sameNames_refl (s1.sameNames_refl.updChannel c (fun _ => ⟨rfl, rfl, rfl⟩))
  have h3 : s1.sameNames s3 := same.updChannel (same.checkPairing h2 c) c _ (Channel.namedAs_refl _)
  have named := h3.rename c (some p.primary) p.partner
  have hall := State.sameNames_hall (s1.rename c (some p.primary) p.partner)
  exact hall.stagePlan (hall.relampOpt (hall.relampOpt (hall.relampChannel named c) _) _)

/-- Every booth's intake after those on a channel have been set to the floor (R76). -/
theorem State.toFloor_booth (s : State) (c : ChannelId) (b : BoothId) :
    (s.each (List.finRange 24) (fun s b =>
      s.rewriteBooth b (fun r => if r.role.intake = c then { r with role := { r.role with intake := 0 } } else r))).booth b
      = rewritten Booth.bump (fun r => if r.role.intake = c then { r with role := { r.role with intake := 0 } } else r) (s.booth b) := by
  rw [State.each_get (I := fun _ => True) State.booth s.booth
    (fun b => rewritten Booth.bump (fun r => if r.role.intake = c then { r with role := { r.role with intake := 0 } } else r) (s.booth b))
    (fun _ _ _ => trivial) (fun t b d _ other => by rw [State.booth_rewriteBooth, if_neg other])
    (fun t b _ same => by rw [State.booth_rewriteBooth, if_pos rfl, same]) (List.nodup_finRange 24) trivial (fun _ => rfl) b,
    if_pos (List.mem_finRange b)]

/-- What CHANNEL_CLEAR leaves of the names (R76). -/
theorem State.clearChannel_names (s : State) (c : ChannelId) :
    (∀ d, d ≠ c → ((s.clearChannel c).channel d).defined = (s.channel d).defined
        ∧ ((s.clearChannel c).channel d).primary = (s.channel d).primary ∧ ((s.clearChannel c).channel d).partner = (s.channel d).partner)
      ∧ ((s.clearChannel c).channel c).defined = false ∧ ((s.clearChannel c).channel c).primary = none
      ∧ ((s.clearChannel c).channel c).partner = none
      ∧ ∀ b, ((s.clearChannel c).booth b).role.named = (if (s.booth b).role.named = some c then none else (s.booth b).role.named)
        ∧ ((s.clearChannel c).booth b).role.role = (s.booth b).role.role
        ∧ ((s.clearChannel c).booth b).role.intake = (if (s.booth b).role.intake = c then 0 else (s.booth b).role.intake) := by
  unfold State.clearChannel
  extract_lets s1 s2 s3 s4 s5
  have h1 : s.sameNames s1 := keeps_ite (P := s.sameNames) (s.sameNames_refl.endSchedule c _ _ _ _) s.sameNames_refl
  have only : s1.onlyIn [.channels] s2 := (State.updChannel_only s1 c _).seq (State.updChannel_only _ c _)
  have booths2 : s2.booths = s1.booths := only .booths (by decide)
  have cleared (d : ChannelId) : s2.channel d = if d = c then (s1.channel c).cleared.bump else s1.channel d := by
    show ((s1.updChannel c Channel.cleared).updChannel c Channel.bump).channel d = _
    rw [State.channel_updChannel]
    split
    · rw [State.channel_updChannel, if_pos rfl]
    · rename_i other
      rw [State.channel_updChannel, if_neg other]
  have channels4 : s4.channels = s2.channels :=
    (State.each_only (l := [.booths]) (fun t b _ => State.rewriteBooth_only t b _) s3 .channels (by decide)).trans (s2.rename_channels c _ _)
  have channel4 (d : ChannelId) : s4.channel d = s2.channel d := by rw [State.channel, channels4]
  have role3 (b : BoothId) : (s3.booth b).role = (s1.booth b).role.naming c false false := by
    show ((s2.rename c none none).booth b).role = _
    rw [State.rename_role, State.booth, booths2]
    rfl
  have role4 (b : BoothId) : (s4.booth b).role
      = if (s3.booth b).role.intake = c then { (s3.booth b).role with intake := 0 } else (s3.booth b).role := by
    rw [show s4.booth b = _ from s3.toFloor_booth c b, rewritten_role]
    dsimp only
    split <;> rfl
  have hall := s4.sameNames_hall
  have last := hall.stagePlan (hall.framerCleared (hall.relampOpt (hall.relampOpt s4.sameNames_refl s.channels[c].primary)
    s.channels[c].partner) c)
  refine ⟨fun d other => ?_, ?_, ?_, ?_, fun b => ?_⟩
  · obtain ⟨defined, primary, partner⟩ := last.2 d
    rw [channel4, cleared, if_neg other] at defined primary partner
    exact ⟨defined.trans (h1.2 d).1, primary.trans (h1.2 d).2.1, partner.trans (h1.2 d).2.2⟩
  · rw [show _ = _ from (last.2 c).1, channel4, cleared, if_pos rfl]; rfl
  · rw [show _ = _ from (last.2 c).2.1, channel4, cleared, if_pos rfl]; rfl
  · rw [show _ = _ from (last.2 c).2.2, channel4, cleared, if_pos rfl]; rfl
  · obtain ⟨named, role, intake⟩ := last.1 b
    obtain ⟨named1, role1, intake1⟩ := h1.1 b
    rw [named, role, intake, role4, role3, ← named1, ← role1, ← intake1]
    unfold RoleFields.naming
    grind

/-- A channel's definition and a booth's naming after CHANNEL_DEFINE (R75). -/
theorem State.defined_names (s : State) (c : ChannelId) (p : ChannelParams) :
    (∀ d, ((s.defineChannel c p).channel d).defined = (if d = c then true else (s.channel d).defined)
        ∧ ((s.defineChannel c p).channel d).primary = (if d = c then some p.primary else (s.channel d).primary)
        ∧ ((s.defineChannel c p).channel d).partner = (if d = c then p.partner else (s.channel d).partner))
      ∧ ∀ b, ((s.defineChannel c p).booth b).role.named
          = (if p.primary = b ∨ p.partner = some b then some c else if (s.booth b).role.named = some c then none else (s.booth b).role.named)
        ∧ ((s.defineChannel c p).booth b).role.role
          = (if p.primary = b then .primary else if p.partner = some b then .partner else (s.booth b).role.role) := by
  obtain ⟨booths, channels⟩ := s.defineChannel_names c p
  refine ⟨fun d => ?_, fun b => ?_⟩
  · have names := channels d
    rw [State.rename_channel, State.channel_updChannel] at names
    obtain ⟨defined, primary, partner⟩ := names
    rw [defined, primary, partner]
    split <;> exact ⟨rfl, rfl, rfl⟩
  · obtain ⟨named, role, _⟩ := booths b
    rw [named, role, State.rename_role, RoleFields.naming_named, RoleFields.naming_role]
    simp only [beq_iff_eq, Option.some.injEq]
    exact ⟨rfl, rfl⟩

/-- A booth that no other channel names has no name but, at most, this channel's (R74). -/
theorem State.not_takenBy {s : State} {c d : ChannelId} {b : BoothId} (free : s.takenBy c b = false) (named : (s.booth b).role.named = some d) :
    d = c := by
  unfold State.takenBy at free
  split at free
  · rename_i e
    cases named.symm.trans e
    exact of_decide_eq_true (by simpa using free)
  · rename_i e
    exact nomatch named.symm.trans e

/-- The booths of a CHANNEL_DEFINE's parameters are two (R74). -/
theorem State.channelParams_two {s : State} {n : SlotId} {p : ChannelParams} (h : s.channelParams n = some p) : p.partner ≠ some p.primary := by
  unfold State.channelParams at h
  split at h
  · split at h
    · exact nomatch h
    · rename_i bad
      cases h
      exact (not_or.mp bad).1
  · exact nomatch h

/-- CHANNEL_DEFINE that passes its checks keeps both laws (R74, R75). -/
theorem State.defineChannel_hallLaw {s : State} {c : ChannelId} {p : ChannelParams} (spoken : c ≠ 0) (two : p.partner ≠ some p.primary)
    (freePrimary : s.takenBy c p.primary = false) (freePartner : ∀ q, p.partner = some q → s.takenBy c q = false)
    (kept : relayLaw (s.channels.set c ((s.channel c).define p)) s.intakes = true) : s.hallLaw (s.defineChannel c p) := by
  obtain ⟨channels, booths⟩ := s.defined_names c p
  rintro ⟨defined, primary, partner, undefined, names⟩
  refine ⟨⟨?_, ?_, ?_, fun d hd => ?_, fun b d => ?_⟩, fun _ => ?_⟩
  · rw [(channels 0).1, if_neg spoken.symm, defined]
  · rw [(channels 0).2.1, if_neg spoken.symm, primary]
  · rw [(channels 0).2.2, if_neg spoken.symm, partner]
  · obtain ⟨definedD, primaryD, partnerD⟩ := channels d
    rw [definedD] at hd
    rw [primaryD, partnerD]
    split at hd
    · exact nomatch hd
    · rename_i other
      rw [if_neg other, if_neg other]
      exact undefined d hd
  · obtain ⟨_, primaryD, partnerD⟩ := channels d
    obtain ⟨namedB, roleB⟩ := booths b
    obtain ⟨wasPrimary, wasPartner⟩ := names b d
    rw [primaryD, partnerD, namedB, roleB]
    have freeB (h : p.primary = b ∨ p.partner = some b) (e : (s.booth b).role.named = some d) : d = c :=
      State.not_takenBy (h.elim (fun e => e ▸ freePrimary) (fun e => freePartner b e)) e
    by_cases same : d = c
    · subst same
      rw [if_pos rfl, if_pos rfl]
      by_cases isPrimary : p.primary = b
      · subst isPrimary
        simp [two]
      · by_cases isPartner : p.partner = some b
        · simp [isPrimary, isPartner]
        · simp [isPrimary, isPartner]
    · rw [if_neg same, if_neg same, wasPrimary, wasPartner]
      by_cases named : p.primary = b ∨ p.partner = some b
      · have unnamed : (s.booth b).role.named ≠ some d := fun e => same (freeB named e)
        have other : c ≠ d := fun e => same e.symm
        rw [if_pos named]
        exact ⟨iff_of_false (fun e => unnamed e.1) (fun e => other (Option.some.inj e.1)),
          iff_of_false (fun e => unnamed e.1) (fun e => other (Option.some.inj e.1))⟩
      · obtain ⟨notPrimary, notPartner⟩ := not_or.mp named
        rw [if_neg named, if_neg notPrimary, if_neg notPartner]
        by_cases was : (s.booth b).role.named = some c
        · have other : c ≠ d := fun e => same e.symm
          rw [if_pos was, was]
          exact ⟨iff_of_false (fun e => other (Option.some.inj e.1)) (fun e => nomatch e.1),
            iff_of_false (fun e => other (Option.some.inj e.1)) (fun e => nomatch e.1)⟩
        · rw [if_neg was]
          exact ⟨Iff.rfl, Iff.rfl⟩
  · have written : (s.updChannel c (fun r => r.define p)).relayOk := kept
    exact (s.defineChannel_names c p).relayOk (State.relayOk_rename written c _ _)

/-- CHANNEL_CLEAR keeps both laws (R76). -/
theorem State.clearChannel_hallLaw {s : State} {c : ChannelId} (spoken : c ≠ 0) : s.hallLaw (s.clearChannel c) := by
  obtain ⟨others, undefinedC, primaryC, partnerC, booths⟩ := s.clearChannel_names c
  rintro ⟨defined, primary, partner, undefined, names⟩
  obtain ⟨defined0, primary0, partner0⟩ := others 0 spoken.symm
  refine ⟨⟨defined0.trans defined, primary0.trans primary, partner0.trans partner, fun d hd => ?_, fun b d => ?_⟩, fun law => ?_⟩
  · by_cases same : d = c
    · subst same
      exact ⟨primaryC, partnerC⟩
    · obtain ⟨definedD, primaryD, partnerD⟩ := others d same
      rw [primaryD, partnerD]
      exact undefined d (definedD.symm.trans hd)
  · obtain ⟨namedB, roleB, _⟩ := booths b
    obtain ⟨wasPrimary, wasPartner⟩ := names b d
    rw [namedB, roleB]
    by_cases same : d = c
    · subst same
      rw [primaryC, partnerC]
      simp
    · obtain ⟨_, primaryD, partnerD⟩ := others d same
      rw [primaryD, partnerD, wasPrimary, wasPartner]
      by_cases was : (s.booth b).role.named = some c
      · have other : c ≠ d := fun e => same e.symm
        rw [if_pos was, was]
        exact ⟨iff_of_false (fun e => other (Option.some.inj e.1)) (fun e => nomatch e.1),
          iff_of_false (fun e => other (Option.some.inj e.1)) (fun e => nomatch e.1)⟩
      · rw [if_neg was]
        exact ⟨Iff.rfl, Iff.rfl⟩
  · refine relayLaw_of_fewer law fun x => ?_
    rw [State.relayNext_eq, State.relayNext_eq, (booths x).2.2]
    by_cases hears : (s.booth x).role.intake = c
    · right
      rw [if_pos hears, if_neg (fun h => h.1 rfl)]
    · left
      obtain ⟨definedD, primaryD, partnerD⟩ := others _ hears
      rw [if_neg hears, definedD, Channel.named, primaryD, partnerD, Channel.named]

/-! ## Every command -/

/-- The works of all orders keep both laws. -/
theorem OrderWork.hallLaw {k : Nat} {w : Work} (h : OrderWork k w) (s : State) (n : SlotId) : s.hallLaw (w s n).1 := by
  have same := s.sameNames_refl.hallLaw
  cases h with
  | boothIntake => exact workBoothIntake_hallLaw s n
  | channelDefine =>
    unfold workChannelDefine
    split
    · rename_i c p _ params
      split
      · exact same
      · rename_i spoken
        split
        · exact same
        · rename_i free
          split
          · exact same
          · rename_i kept
            split
            · exact same
            · obtain ⟨freePrimary, freePartner⟩ := not_or.mp free
              refine State.defineChannel_hallLaw spoken (State.channelParams_two params) (Bool.not_eq_true _ ▸ freePrimary) (fun q hq => ?_)
                (Bool.not_eq_false _ ▸ kept)
              rw [hq] at freePartner
              exact Bool.not_eq_true _ ▸ freePartner
    · exact same
  | channelClear =>
    unfold workChannelClear
    split
    · split
      · exact same
      · rename_i spoken
        split
        · exact same
        · exact State.clearChannel_hallLaw spoken
    · exact same
  | unknown => exact same
  | _ => exact (OrderWork.sameNames (by constructor) (by decide) (by decide) (by decide) s n).hallLaw

theorem State.hallLaw.trans {s t u : State} (h : s.hallLaw t) (g : t.hallLaw u) : s.hallLaw u := fun law =>
  have first := h law
  have second := g first.1
  ⟨second.1, fun relay => second.2 (first.2 relay)⟩

theorem State.hallLaw_reads (s : State) : Reads s.hallLaw [.booths, .channels] := fun t u same h =>
  h.trans (State.sameNames.hallLaw (t.sameNames_reads t u same t.sameNames_refl))

/-- The end of the orders in hand leaves every name (R20, R71). -/
theorem State.sameNames.abortOrders {s t : State} (h : s.sameNames t) (w : Option (SlotId × Result)) : s.sameNames (t.abortOrders w) := by
  have completed (t : State) (n : SlotId) (r : Result) (ht : s.sameNames t) : s.sameNames (t.complete n r) :=
    ht.frame (t.complete_only n r) (by decide)
  have first : s.sameNames (t.abortWorking w) := by
    cases w with
    | none => exact h
    | some x => exact completed t _ _ h
  have second : s.sameNames ((t.abortWorking w).each t.orders.standing State.abortStanding) := by
    refine State.each_induct (P := s.sameNames) (fun u x _ hu => ?_) first
    obtain ⟨slot, owner, clamped⟩ := x
    cases owner with
    | issue i => exact completed u _ _ hu
    | handover c => exact completed _ _ _ (hu.updChannel c (f := fun ch => { ch with schedule := none, changes := ch.changes + 2 })
        (fun _ => ⟨rfl, rfl, rfl⟩))
  exact State.each_induct (P := s.sameNames) (f := State.abortQueued) (fun u n _ hu => completed u n _ hu) second

theorem State.hallLaw_restart (s : State) (v : Half) (e : ByteEnables) (working : Bool) : s.hallLaw (s.restart v e working) := by
  have aborted (t : State) (w : Option (SlotId × Result)) (h : s.hallLaw t) : s.hallLaw (t.enterRestarting.abortOrders w) :=
    h.trans (State.sameNames.hallLaw
      ((t.sameNames_refl.frame t.enterRestarting_only (by decide)).abortOrders w))
  have finished : s.hallLaw s.finishWorking.1 := by
    unfold State.finishWorking
    split
    · exact s.sameNames_refl.hallLaw
    · rename_i n rest _
      exact (s.sameNames_refl.frame (s.takeSlot_only n rest) (by decide)).hallLaw.trans ((orderWork_kind s n).hallLaw _ n)
  unfold State.restart
  split
  · unfold State.beginRestart
    cases working with
    | true => exact aborted _ _ finished
    | false => exact aborted s none s.sameNames_refl.hallLaw
  · exact s.sameNames_refl.hallLaw

/-- A state with the names of the reset state has both laws. -/
theorem State.hallLaw_of_reset {s t : State} (h : State.reset.sameNames t) : s.hallLaw t := fun _ =>
  ⟨h.namingOk State.reset_namingOk, fun _ => h.relayOk State.reset_relayOk⟩

theorem State.hallLaw_ready (s : State) : s.hallLaw s.completeStartup ∧ s.hallLaw s.completeRestart := by
  have same := s.sameNames_refl.hallLaw
  have ready (t : State) (h : State.reset.sameNames t) : s.hallLaw t.becomeReady :=
    State.hallLaw_of_reset (h.frame t.becomeReady_only (by decide))
  refine ⟨keeps_ite (P := s.hallLaw) (ready _ State.reset.sameNames_refl) same, keeps_ite (P := s.hallLaw) (ready _ ?_) same⟩
  refine ⟨fun b => ?_, fun c => ?_⟩
  · have record : (s.restartTally.loseWaiting.softReset.booth b) = { Booth.initial with changes := (s.restartTally.booth b).changes + 2 } := by
      show (s.restartTally.booths.map _)[b] = _
      rw [Fin.getElem_fin, Vector.getElem_map]
      rfl
    rw [record, State.reset_booth]
    exact ⟨rfl, rfl, rfl⟩
  · have record : (s.restartTally.loseWaiting.softReset.channel c)
        = { Channel.table[c] with changes := (s.restartTally.channel c).changes + 2 } := by
      show (Vector.ofFn _)[c] = _
      rw [Fin.getElem_fin, Vector.getElem_ofFn]
      rfl
    rw [record]
    exact ⟨rfl, rfl, rfl⟩

/-- Both laws over every command. -/
theorem State.hallLaw_run (s : State) (i : Instr) : s.hallLaw (s.run i) := by
  have same := s.sameNames_refl
  have hall := s.sameNames_hall
  have framed (booths : (commandTouches i).contains .booths = false) (channels : (commandTouches i).contains .channels = false) :
      s.hallLaw (s.run i) :=
    (same.frame (s.run_only i) (by simp_all)).hallLaw
  have written (o : Nat) (v : Half) (e : ByteEnables) : s.hallLaw (s.hostWrite o v e) := by
    refine State.sameNames.hallLaw (keeps_ite (P := s.sameNames) same (keeps_ite (P := s.sameNames) ?_ ?_))
    · exact keeps_ite (P := s.sameNames) (keeps_ite (P := s.sameNames) same (State.sameNames.drain same)) same
    · refine keeps_ite (P := s.sameNames) same ?_
      split
      · exact same.frame (s.writeSlot_only _ _ v e) (by decide)
      · exact same
  cases i with
  | startupComplete => exact s.hallLaw_ready.1
  | softRestartComplete => exact s.hallLaw_ready.2
  | exchangeWrite a v e => exact written _ v e
  | holderWordWrite n v e => exact written _ v e
  | logReadCountWrite v e => exact written _ v e
  | restart v e w => exact s.hallLaw_restart v e w
  | ignoredRegisterWrite a v e =>
    exact portWrite_keeps (P := s.hallLaw) a v e (same.frame (s.post_only v e) (by decide)).hallLaw
      (same.frame (s.clearPending_only v e) (by decide)).hallLaw (same.frame (s.setEnabled_only v e) (by decide)).hallLaw
      (s.hallLaw_restart v e false) same.hallLaw
  | frameBoundary => exact (hall.frameBoundary same).hallLaw
  | superframeBoundary => exact (hall.superframe same).hallLaw
  | audioFrame b a => exact (hall.takeAudioFrame same b a).hallLaw
  | announceFrame b f => exact (hall.takeAnnounce same b f).hallLaw
  | missingMarker b => exact (hall.missMarker same b).hallLaw
  | micOn b k | micOff b k | offer b k | accept b k | consoleCancel b k | offerOut b k => exact (hall.deliver same b _ k).hallLaw
  | busyDeadlineExpiry b k => exact (hall.busyExpiry same b k).hallLaw
  | offerDeadlineExpiry b => exact (hall.offerExpiry same b).hallLaw
  | gapDeadlineExpiry b k => exact (hall.gapExpiry same b k).hallLaw
  | outgoingOfferLapse c => exact (hall.outgoingLapse same c).hallLaw
  | warningReached c => exact (hall.warningReached same c).hallLaw
  | targetReached c => exact (hall.targetReached same c).hallLaw
  | waitDeadlineExpiry c => exact (hall.waitExpiry same c).hallLaw
  | floorFrame a => exact (hall.floorFrame same a).hallLaw
  | censusMark => exact (same.censusMark).hallLaw
  | resetAssert | resetRelease | post | noticePendingWrite | noticeEnableWrite | noticeVectorLowRead | noticeVectorHighRead | pollSend
  | rackAnswer | inventoryAnswer | answerWindowExpiry | settleDeadlineExpiry | reserveDeadlineExpiry | beacon | runCounterTick =>
    exact framed rfl rfl
  | unknownOrder | setNotice | setTimers | setLogPolicy | cancel | clearCountsLinks | clearCountsDocks | setClock | boothDefine | linkHold
  | linkRelease | boothIntake | seatAssign | channelDefine | channelClear | handover | setDistribution | issue | declareLost
  | retireReceiver | restoreReceiver | setTariff | accountOpen | accountPay | accountRefund | accountClose =>
    exact s.hallLaw_reads.order (by decide) (fun _ _ hw t n ht => ht.trans (hw.hallLaw t n)) (by decide) same.hallLaw

/-- Settles O55. -/
theorem stepsKeepRelayAndNaming : Obligations.StepsKeepRelayAndNaming := by
  intro s t run law
  rcases step_cases run with ⟨_, rfl⟩ | ⟨i, rest, _, rfl⟩
  · exact ⟨law, id⟩
  · exact State.hallLaw_run { s with pending := rest } i law

end Sys2Proof.Machine
end

section
/-!
SUPPORT. The interlock: the law of one booth's consoles, what each piece of a booth's work does to it, and the law over every command (O56).
-/
namespace Sys2Proof.Machine

/-! ## The law of one booth -/

/-- No console is live or claimed and no offer stands (R70). -/
def ConsoleFields.Idle (f : ConsoleFields) : Prop := f.live = none ∧ f.claimed = none ∧ f.offer = none

/-- The law of a booth's consoles, whatever its link is (R54, R56). -/
structure ConsoleFields.Seated (f : ConsoleFields) : Prop where
  least : 1 ≤ f.inUse
  most : f.inUse ≤ 3
  live : ∀ n : ConsoleId, f.live = some n → n.val < f.inUse
  claimed : ∀ n : ConsoleId, f.claimed = some n → n.val < f.inUse
  offer : ∀ o : InternalOffer, f.offer = some o → o.offerer.val < f.inUse
  running : ∀ n : ConsoleId, (f.console n).turn = .running → f.live = some n

/-- The interlock's law of a booth (R54, R56, R70). -/
structure Booth.Interlocked (r : Booth) : Prop where
  seated : r.cons.Seated
  idle : r.link.state ≠ .live → r.cons.Idle

theorem State.consolesOk_iff {s : State} : s.consolesOk ↔ ∀ b : BoothId, (s.booth b).Interlocked := by
  constructor
  · intro h b
    obtain ⟨least, most, idle, within, running⟩ := h b
    exact ⟨⟨least, most, fun n e => within n (.inl e), fun n e => within n (.inr (.inl e)),
      fun o e => within o.offerer (.inr (.inr ⟨o, e, rfl⟩)), running⟩, idle⟩
  · intro h b
    obtain ⟨⟨least, most, live, claimed, offer, running⟩, idle⟩ := h b
    refine ⟨least, most, idle, fun n within => ?_, running⟩
    rcases within with e | e | ⟨o, e, rfl⟩
    · exact live n e
    · exact claimed n e
    · exact offer o e

/-- Booth records alike in what the interlock's law reads. -/
def Booth.seatedAs (r q : Booth) : Prop :=
  r.link.state = q.link.state ∧ r.cons.inUse = q.cons.inUse ∧ r.cons.live = q.cons.live ∧ r.cons.claimed = q.cons.claimed
    ∧ r.cons.offer = q.cons.offer ∧ ∀ n : ConsoleId, (r.cons.console n).turn = (q.cons.console n).turn

theorem Booth.seatedAs_refl (r : Booth) : r.seatedAs r := ⟨rfl, rfl, rfl, rfl, rfl, fun _ => rfl⟩

theorem Booth.seatedAs.trans {r q x : Booth} (h : r.seatedAs q) (g : q.seatedAs x) : r.seatedAs x := by
  obtain ⟨link, inUse, live, claimed, offer, turn⟩ := h
  obtain ⟨link', inUse', live', claimed', offer', turn'⟩ := g
  exact ⟨link.trans link', inUse.trans inUse', live.trans live', claimed.trans claimed', offer.trans offer',
    fun n => (turn n).trans (turn' n)⟩

theorem Booth.seatedAs.ite {p : Prop} [Decidable p] {r q x : Booth} (h : r.seatedAs x) (g : q.seatedAs x) :
    (if p then r else q).seatedAs x := by
  split <;> assumption

theorem Booth.seatedAs_bump (r : Booth) : r.bump.seatedAs r := r.seatedAs_refl

/-- A change of each console that leaves its turn. -/
theorem Booth.seatedAs_map (r : Booth) {f : ConsoleRec → ConsoleRec} (turn : ∀ c, (f c).turn = c.turn) :
    ({ r with cons := { r.cons with each := r.cons.each.map f } } : Booth).seatedAs r :=
  ⟨rfl, rfl, rfl, rfl, rfl, fun n => by
    show ((r.cons.each.map f)[n]).turn = _
    rw [Fin.getElem_fin, Vector.getElem_map]
    exact turn _⟩

theorem Booth.seatedAs_relit (r : Booth) (w c : Bool) : (r.relit w c).seatedAs r :=
  ⟨rfl, rfl, rfl, rfl, rfl, fun n => by
    show ((Vector.ofFn (fun n : ConsoleId => { r.cons.each[n] with lamp := r.lampOf w c n }))[n]).turn = _
    rw [Fin.getElem_fin, Vector.getElem_ofFn]⟩

theorem Booth.seatedAs.interlocked {r q : Booth} (h : r.seatedAs q) (law : q.Interlocked) : r.Interlocked := by
  obtain ⟨link, inUse, live, claimed, offer, turn⟩ := h
  obtain ⟨⟨least, most, hlive, hclaimed, hoffer, running⟩, idle⟩ := law
  refine ⟨⟨by rwa [inUse], by rwa [inUse], ?_, ?_, ?_, ?_⟩, ?_⟩
  · rwa [live, inUse]
  · rwa [claimed, inUse]
  · rwa [offer, inUse]
  · rw [live]
    exact fun n e => running n ((turn n).symm.trans e)
  · rwa [link, ConsoleFields.Idle, live, claimed, offer]

/-! ## What leaves the seats of every booth -/

/-- Every booth of `t` is seated as that of `s`. -/
def State.sameSeats (s t : State) : Prop := ∀ b : BoothId, (t.booth b).seatedAs (s.booth b)

section
variable {s t : State}

theorem State.sameSeats_refl (s : State) : s.sameSeats s := fun _ => Booth.seatedAs_refl _

theorem State.sameSeats_reads (s : State) : Reads s.sameSeats [.booths] := by
  intro t u same h b
  rw [State.booth, show u.booths = t.booths from same .booths (by decide)]
  exact h b

theorem State.sameSeats.frame (h : s.sameSeats t) {l : List StateField} {u : State} (only : t.onlyIn l u) (apart : StateField.booths ∉ l) :
    s.sameSeats u := s.sameSeats_reads.frame only (by simpa using apart) h

theorem State.sameSeats.updBooth (h : s.sameSeats t) (b : BoothId) (f : Booth → Booth) (same : ∀ r, (f r).seatedAs r) :
    s.sameSeats (t.updBooth b f) := by
  intro d
  rw [State.booth_updBooth]
  split
  · rename_i e
    subst e
    exact (same _).trans (h d)
  · exact h d

theorem State.sameSeats.closeBooth (h : s.sameSeats t) (o : State) (b : BoothId) : s.sameSeats (t.closeBooth o b) :=
  h.updBooth b _ (fun r => r.seatedAs_refl.ite r.seatedAs_bump)

theorem State.sameSeats.closeCons (h : s.sameSeats t) (o : State) (b : BoothId) : s.sameSeats (t.closeCons o b) :=
  h.updBooth b _ (fun r => r.seatedAs_refl.ite r.seatedAs_bump)

theorem State.sameSeats.rewriteBooth (h : s.sameSeats t) (b : BoothId) (f : Booth → Booth) (same : ∀ r, (f r).seatedAs r) :
    s.sameSeats (t.rewriteBooth b f) := h.updBooth b _ (fun r => r.seatedAs_refl.ite ((f r).seatedAs_bump.trans (same r)))

theorem State.sameSeats.relight (h : s.sameSeats t) (b : BoothId) : s.sameSeats (t.relight b) :=
  h.updBooth b _ (fun r => r.seatedAs_relit _ _)

theorem State.sameSeats.relampOpt (h : s.sameSeats t) (b : Option BoothId) : s.sameSeats (t.relampOpt b) := by
  cases b with
  | none => exact h
  | some b => exact h.rewriteBooth b _ (fun r => r.seatedAs_relit _ _)

theorem State.sameSeats.relampChannel (h : s.sameSeats t) (c : ChannelId) : s.sameSeats (t.relampChannel c) := (h.relampOpt _).relampOpt _

theorem State.sameSeats.settleChannel (h : s.sameSeats t) (o : State) (c : ChannelId) : s.sameSeats (t.settleChannel o c) :=
  (h.frame (t.closeChannel_only o c) (by decide)).relampChannel c

theorem State.sameSeats.routerUp (h : s.sameSeats t) (b : BoothId) : s.sameSeats (t.routerUp b) := by
  unfold State.routerUp
  split
  · exact State.sameSeats.relampChannel ((h.frame (t.checkPairing_only _) (by decide)).frame (State.closeChannel_only _ t _) (by decide)) _
  · exact h

theorem State.sameSeats.routerDown (h : s.sameSeats t) (b : BoothId) : s.sameSeats (t.routerDown b) := by
  unfold State.routerDown
  split
  · exact State.sameSeats.relampChannel (((h.frame (t.updChannel_only _ _) (by decide)).frame (State.checkPairing_only _ _) (by decide)).frame
      (State.closeChannel_only _ t _) (by decide)) _
  · exact h

theorem State.sameSeats.compareSchedules (h : s.sameSeats t) : s.sameSeats t.compareSchedules := by
  unfold State.compareSchedules
  exact State.each_induct (P := s.sameSeats) (fun u c _ hu => (hu.frame (u.compareSchedule_only c) (by decide)).settleChannel u c) h

theorem State.sameSeats.drainList : ∀ (l : List WaitEntry) {t : State}, s.sameSeats t → s.sameSeats (State.drainList l t)
  | [], t, h => h.frame (t.log_only _) (by decide)
  | w :: l, t, h => by
    unfold State.drainList
    split
    · have written : s.sameSeats (({ t with log := { t.log with waiting := l } } : State).writeTally w.record) :=
        (h.frame (t.log_only _) (by decide)).frame (State.writeTally_only _ _) (by decide)
      refine State.sameSeats.drainList l ?_
      cases w.owner with
      | hire i => exact written.frame (State.writeHire_only _ _ _) (by decide)
      | receiver e => exact written.frame (State.writeReceiver_only _ _ _) (by decide)
      | console b n => exact written.updBooth b _ (fun r => r.seatedAs_bump)
    · exact h.frame (t.log_only _) (by decide)

theorem State.sameSeats.stagePlan (h : s.sameSeats t) : s.sameSeats t.stagePlan := h.frame t.stagePlan_only (by decide)

theorem State.sameSeats.rename (h : s.sameSeats t) (c : ChannelId) (p q : Option BoothId) : s.sameSeats (t.rename c p q) := by
  unfold State.rename
  refine State.each_induct (P := s.sameSeats) (fun u b _ hu => ?_) h
  exact hu.rewriteBooth b _ (fun r => ⟨rfl, rfl, rfl, rfl, rfl, fun _ => rfl⟩)

theorem State.sameSeats.defineChannel (h : s.sameSeats t) (c : ChannelId) (p : ChannelParams) : s.sameSeats (t.defineChannel c p) := by
  unfold State.defineChannel
  extract_lets s1 s2 s3 s4
  have h1 : s.sameSeats s1 := h.frame (t.updChannel_only c _) (by decide)
  have h2 : s.sameSeats s2 := keeps_ite (P := s.sameSeats) h1 (h1.frame (s1.updChannel_only c _) (by decide))
  have h3 : s.sameSeats s3 := (h2.frame (s2.checkPairing_only c) (by decide)).frame (State.updChannel_only _ c _) (by decide)
  exact ((((h3.rename c _ _).relampChannel c).relampOpt _).relampOpt _).stagePlan

theorem State.sameSeats.clearChannel (h : s.sameSeats t) (c : ChannelId) : s.sameSeats (t.clearChannel c) := by
  unfold State.clearChannel
  extract_lets s1 s2 s3 s4 s5
  have h1 : s.sameSeats s1 := keeps_ite (P := s.sameSeats) (h.frame (t.endSchedule_only c _ _ _ _) (by decide)) h
  have h2 : s.sameSeats s2 := (h1.frame (s1.updChannel_only c _) (by decide)).frame (State.updChannel_only _ c _) (by decide)
  have h4 : s.sameSeats s4 := by
    refine State.each_induct (P := s.sameSeats) (fun u b _ hu => ?_) (h2.rename c none none)
    refine hu.rewriteBooth b _ (fun r => Booth.seatedAs.ite ?_ r.seatedAs_refl)
    exact ⟨rfl, rfl, rfl, rfl, rfl, fun _ => rfl⟩
  exact State.sameSeats.stagePlan (((h4.relampOpt _).relampOpt _).frame (State.framerCleared_only _ c) (by decide))

end

/-! ## The law with the live consoles known -/

/-- The law holds and the live console of each booth is the one that `l` names. -/
def State.livesAre (l : BoothId → Option ConsoleId) (t : State) : Prop := ∀ b : BoothId, (t.booth b).Interlocked ∧ (t.booth b).cons.live = l b

/-- The law and the live consoles of `s`. -/
abbrev State.keepsLive (s t : State) : Prop := t.livesAre (fun b => (s.booth b).cons.live)

theorem State.keepsLive_refl {s : State} (ok : s.consolesOk) : s.keepsLive s := fun b => ⟨State.consolesOk_iff.mp ok b, rfl⟩

section
variable {l : BoothId → Option ConsoleId} {t : State}

theorem State.livesAre.consolesOk (h : t.livesAre l) : t.consolesOk := State.consolesOk_iff.mpr (fun b => (h b).1)

theorem State.sameSeats.livesAre {u : State} (h : t.sameSeats u) (law : t.livesAre l) : u.livesAre l := fun b =>
  ⟨(h b).interlocked (law b).1, (h b).2.2.1.trans (law b).2⟩

theorem State.livesAre.frame (law : t.livesAre l) {k : List StateField} {u : State} (only : t.onlyIn k u) (apart : StateField.booths ∉ k) :
    u.livesAre l := (t.sameSeats_refl.frame only apart).livesAre law

/-- One booth's record changed under the law, its live console as it was. -/
theorem State.livesAre.updBooth (law : t.livesAre l) (b : BoothId) (f : Booth → Booth)
    (keeps : (t.booth b).Interlocked → (f (t.booth b)).Interlocked) (live : (f (t.booth b)).cons.live = (t.booth b).cons.live) :
    (t.updBooth b f).livesAre l := by
  intro d
  rw [State.booth_updBooth]
  split
  · rename_i e
    subst e
    exact ⟨keeps (law d).1, live.trans (law d).2⟩
  · exact law d

theorem State.livesAre.relight (law : t.livesAre l) (b : BoothId) : (t.relight b).livesAre l := (t.sameSeats_refl.relight b).livesAre law

theorem State.livesAre.closeBooth (law : t.livesAre l) (o : State) (b : BoothId) : (t.closeBooth o b).livesAre l :=
  (t.sameSeats_refl.closeBooth o b).livesAre law

theorem State.livesAre.updInner (law : t.livesAre l) (b : BoothId) (f : BoothInner → BoothInner) : (t.updInner b f).livesAre l :=
  law.frame (t.updInner_only b f) (by decide)

/-- Consoles changed so that none runs but the live one and those that ran. -/
theorem Booth.Interlocked.each {r : Booth} (law : r.Interlocked) (each : Vector ConsoleRec 3)
    (running : ∀ n : ConsoleId, each[n].turn = .running → r.cons.live = some n ∨ (r.cons.console n).turn = .running) :
    ({ r with cons := { r.cons with each := each } } : Booth).Interlocked where
  seated := { law.seated with running := fun n e => (running n e).elim id (law.seated.running n) }
  idle := law.idle

/-- One console changed that is live or does not run thereafter. -/
theorem State.livesAre.updConsole (law : t.livesAre l) (b : BoothId) (n : ConsoleId) (f : ConsoleRec → ConsoleRec)
    (running : (f (t.booth b).cons.each[n]).turn = .running → (t.booth b).cons.live = some n ∨ ((t.booth b).cons.console n).turn = .running) :
    (t.updConsole b n f).livesAre l := by
  refine law.updBooth b _ (fun ok => ok.each _ (fun k => ?_)) rfl
  rw [get_set]
  split
  · rename_i e
    subst e
    exact running
  · exact .inr

/-- Every console changed in what is not its turn. -/
theorem State.livesAre.updEach (law : t.livesAre l) (b : BoothId) (f : ConsoleRec → ConsoleRec) (turn : ∀ c, (f c).turn = c.turn) :
    (t.updCons b (fun g => { g with each := g.each.map f })).livesAre l :=
  (t.sameSeats_refl.updBooth b _ (fun r => r.seatedAs_map turn)).livesAre law

theorem ConsoleRec.ended_turn (c : ConsoleRec) (k : Nat) : (c.ended k).turn = .idle := by
  unfold ConsoleRec.ended
  split <;> rfl

theorem State.livesAre.endTurn (law : t.livesAre l) (b : BoothId) (n : ConsoleId) (x : TurnEnd) : (t.endTurn b n x).livesAre l := by
  have ended : (t.updConsole b n (fun _ => (t.booths[b].cons.each[n]).ended t.clock.run)).livesAre l :=
    law.updConsole b n _ (fun e => by rw [ConsoleRec.ended_turn] at e; cases e)
  unfold State.endTurn
  dsimp only
  split
  · exact ended.frame (State.handTurn_only _ _) (by decide)
  · exact law

/-! ## Console events, deadlines and seats -/

/-- A claim and an offer written on a booth that is LIVE (R57, R58, R62). -/
theorem State.livesAre.claim (law : t.livesAre l) {b : BoothId} (up : (t.booth b).link.state = .live) {f : ConsoleFields → ConsoleFields}
    (kept : ∀ g, (f g).inUse = g.inUse ∧ (f g).live = g.live ∧ (f g).each = g.each)
    (claimed : ∀ m, (f (t.booth b).cons).claimed = some m → m.val < (t.booth b).cons.inUse)
    (offer : ∀ o, (f (t.booth b).cons).offer = some o → o.offerer.val < (t.booth b).cons.inUse) : (t.updCons b f).livesAre l := by
  obtain ⟨inUse, live, each⟩ := kept (t.booth b).cons
  refine law.updBooth b _ (fun ok => ⟨?_, fun off => absurd up off⟩) live
  refine ⟨inUse ▸ ok.seated.least, inUse ▸ ok.seated.most, ?_, inUse ▸ claimed, inUse ▸ offer, ?_⟩
  · rw [inUse, live]
    exact ok.seated.live
  · intro k running
    have same : (f (t.booth b).cons).console k = (t.booth b).cons.console k := by
      show (f (t.booth b).cons).each[k] = _
      rw [each]
    rw [live]
    exact ok.seated.running k (same ▸ running)

theorem ConsoleFields.withdraw_offer {f : ConsoleFields} {n : ConsoleId} {o : InternalOffer} (h : (f.withdraw n).offer = some o) :
    f.offer = some o := by
  unfold ConsoleFields.withdraw at h
  dsimp only at h
  split at h
  · cases h
  · exact h

section
variable (law : t.livesAre l) {b : BoothId} {n : ConsoleId}
include law

theorem State.livesAre.refuseKey : (t.refuseKey b n).1.livesAre l := law.updConsole b n _ (fun e => .inr e)

theorem State.livesAre.busyExpiry : (t.busyExpiry b n).livesAre l := by
  unfold State.busyExpiry
  split
  · exact keeps_ite (P := State.livesAre l) (State.livesAre.closeBooth ((law.updConsole b n _ (fun e => .inr e)).relight b) t b) law
  · exact law

theorem State.livesAre.offerExpiry : (t.offerExpiry b).livesAre l := by
  have lapsed : (t.updCons b (fun f => { f with offer := none })).livesAre l := by
    refine law.updBooth b _ (fun ok => ⟨{ ok.seated with offer := fun _ e => nomatch e }, fun off => ?_⟩) rfl
    obtain ⟨live, claimed, _⟩ := ok.idle off
    exact ⟨live, claimed, rfl⟩
  unfold State.offerExpiry
  split
  · exact keeps_ite (P := State.livesAre l) ((lapsed.relight b).closeBooth t b) law
  · exact law

theorem State.livesAre.gapExpiry : (t.gapExpiry b n).livesAre l :=
  keeps_ite (P := State.livesAre l) (((law.endTurn b n _).relight b).closeBooth t b) law

/-- SEAT_ASSIGN's work: a turn opens anew at the live console alone (R69). -/
theorem State.livesAre.seat (who : BitVec 24) : (t.seat b n who).livesAre l := by
  have ended := law.endTurn b n .seat
  have seated : ((t.endTurn b n .seat).updConsole b n (fun c => { c with interpreter := who })).livesAre l :=
    ended.updConsole b n _ (fun e => .inr e)
  have opened (live : t.booths[b].cons.live = some n) (g : ConsoleRec → ConsoleRec) :
      (((t.endTurn b n .seat).updConsole b n (fun c => { c with interpreter := who })).updConsole b n g).livesAre l :=
    seated.updConsole b n g (fun _ => .inl ((seated b).2.trans ((law b).2.symm.trans live)))
  unfold State.seat
  dsimp only
  split
  · rename_i live
    exact ((opened live _).relight b).closeBooth t b
  · exact (seated.relight b).closeBooth t b

variable (up : (t.booth b).link.state = .live)
include up

theorem State.livesAre.claimBy (within : n.val < (t.booth b).cons.inUse) (f : ConsoleFields → ConsoleFields) (g : BoothInner → BoothInner)
    (set : ∀ x, f x = { x with claimed := some n } ∨ f x = { x with offer := none, claimed := some n }) :
    ((t.updCons b f).updInner b g).livesAre l := by
  refine State.livesAre.updInner (law.claim up (fun x => ?_) (fun m e => ?_) (fun o e => ?_)) b g
  · rcases set x with h | h <;> rw [h] <;> exact ⟨rfl, rfl, rfl⟩
  · rcases set (t.booth b).cons with h | h <;> rw [h] at e <;> cases e <;> exact within
  · rcases set (t.booth b).cons with h | h <;> rw [h] at e
    · exact (law b).1.seated.offer o e
    · cases e

theorem State.livesAre.keyMicOn (within : n.val < (t.booth b).cons.inUse) : (t.keyMicOn b n).1.livesAre l := by
  unfold State.keyMicOn
  split
  · exact fst_keeps (P := State.livesAre l) (law.claimBy up within _ _ (fun _ => .inl rfl))
  · split
    · exact law
    · exact law.refuseKey

theorem State.livesAre.keyMicOff : (t.keyMicOff b n).1.livesAre l := by
  unfold State.keyMicOff
  split
  · refine fst_keeps (P := State.livesAre l) (State.livesAre.updInner ?_ b _)
    exact law.claim up (fun _ => ⟨rfl, rfl, rfl⟩) (fun _ e => nomatch e)
      (fun o e => (law b).1.seated.offer o (ConsoleFields.withdraw_offer e))
  · exact law

theorem State.livesAre.keyOffer (within : n.val < (t.booth b).cons.inUse) : (t.keyOffer b n).1.livesAre l := by
  unfold State.keyOffer
  split
  · refine fst_keeps (P := State.livesAre l) (law.claim up (fun _ => ⟨rfl, rfl, rfl⟩) (law b).1.seated.claimed (fun o e => ?_))
    cases e
    exact within
  · exact law.refuseKey

theorem State.livesAre.keyAccept (within : n.val < (t.booth b).cons.inUse) : (t.keyAccept b n).1.livesAre l := by
  unfold State.keyAccept
  split
  · split
    · exact fst_keeps (P := State.livesAre l) (law.frame (t.writeChannel_only _ _) (by decide))
    · exact law.keyMicOn up within
  · split
    · exact fst_keeps (P := State.livesAre l) (law.claimBy up within _ _ (fun _ => .inr rfl))
    · exact law.keyMicOn up within

theorem State.livesAre.keyCancel : (t.keyCancel b n).1.livesAre l := by
  unfold State.keyCancel
  split
  · exact fst_keeps (P := State.livesAre l) (law.claim up (fun _ => ⟨rfl, rfl, rfl⟩) (law b).1.seated.claimed
      (fun o e => (law b).1.seated.offer o (ConsoleFields.withdraw_offer e)))
  · split
    · split
      · exact ((t.sameSeats_refl.frame (t.writeChannel_only _ _) (by decide)).relampOpt _).livesAre law
      · exact law
    · exact law

omit up in
theorem State.livesAre.keyOfferOut : (t.keyOfferOut b n).1.livesAre l := by
  unfold State.keyOfferOut
  split
  · split
    · split
      · exact ((t.sameSeats_refl.frame (t.writeChannel_only _ _) (by decide)).relampOpt _).livesAre law
      · exact law.refuseKey
    · exact law.refuseKey
  · exact law.refuseKey

/-- A console event worked on a LIVE booth (R55). -/
theorem State.livesAre.takeEvent (k : EventKind) : (t.takeEvent b k n).livesAre l := by
  unfold State.takeEvent
  split
  · refine State.sameSeats.livesAre ?_ law
    exact t.sameSeats_refl.updBooth b _ (fun r => ⟨rfl, rfl, rfl, rfl, rfl, fun _ => rfl⟩)
  · rename_i used
    have within : n.val < (t.booth b).cons.inUse := Nat.lt_of_not_le used
    have worked : (t.keyWork b n k).1.livesAre l := by
      cases k with
      | micOn => exact law.keyMicOn up within
      | micOff => exact law.keyMicOff up
      | offer => exact law.keyOffer up within
      | accept => exact law.keyAccept up within
      | cancel => exact law.keyCancel up
      | offerOut => exact law.keyOfferOut
      | unknown => exact law
    exact ((worked.updConsole b n _ (fun e => .inr e)).relight b).closeBooth t b

end
end

end Sys2Proof.Machine
end

section
/-!
SUPPORT. Turns that end (R67), and the consoles and the channel router when a link leaves LIVE (R49, R70, R77).
-/
namespace Sys2Proof.Machine

/-! ## The tally log writer reads no hall record -/

/-- The state with other booth records, booth blocks and channel records. -/
def State.setHall (s : State) (v : Vector Booth 24) (x : Vector BoothInner 24) (c : Vector Channel 32) : State :=
  { s with booths := v, inner := x, channels := c }

section
variable (s : State) (v : Vector Booth 24) (x : Vector BoothInner 24) (c : Vector Channel 32)

theorem State.setHall_ite {p : Prop} [Decidable p] (t : State) :
    (if p then s else t).setHall v x c = if p then s.setHall v x c else t.setHall v x c := apply_ite (fun u : State => u.setHall v x c) _ _ _

theorem State.makeRoom_setHall : (s.setHall v x c).makeRoom = s.makeRoom.setHall v x c := by
  unfold State.makeRoom
  dsimp only
  rw [State.setHall_ite]
  rfl

theorem State.writeTally_setHall (r : TallyRecord) : (s.setHall v x c).writeTally r = (s.writeTally r).setHall v x c := by
  unfold State.writeTally
  rw [State.makeRoom_setHall]
  generalize s.makeRoom = u
  dsimp only
  rw [State.setHall_ite]
  rfl

theorem State.waitTally_setHall (o : WaitOwner) (r : TallyRecord) : (s.setHall v x c).waitTally o r = (s.waitTally o r).setHall v x c := by
  unfold State.waitTally
  dsimp only
  rw [State.setHall_ite]
  rfl

theorem State.handTally_setHall (o : WaitOwner) (r : TallyRecord) : (s.setHall v x c).handTally o r = (s.handTally o r).setHall v x c := by
  unfold State.handTally
  rw [State.writeTally_setHall, State.waitTally_setHall, State.setHall_ite]
  rfl

/-- A booth written twice. -/
theorem State.updBooth_setHall (b : BoothId) (r : Booth) (f : Booth → Booth) :
    (s.setHall (v.set b r) x c).updBooth b f = s.setHall (v.set b (f r)) x c := by
  show State.setHall s ((v.set b r).set b (f (v.set b r)[b])) x c = _
  rw [get_set, if_pos rfl, Vector.set_set]

theorem State.handTurn_setHall (r : TurnRecord) : (s.setHall v x c).handTurn r = (s.handTurn r).setHall v x c := by
  unfold State.handTurn
  dsimp only
  rw [State.handTally_setHall, State.setHall_ite]
  rfl

end

/-! ## One turn that ends -/

/-- A console's turn, if it is open, handed to the tally log writer as it ends at a tick (R67). -/
def State.handFinal (s : State) (c : ConsoleRec) (b : BoothId) (n : ConsoleId) (cause : TurnEnd) (k : Nat) : State :=
  if c.turn = .idle then s else s.handTurn (c.finalRecord b n cause k)

/-- The record of console `n`'s turn, if it is open, handed to the tally log writer (R67). -/
def State.turnHanded (s : State) (b : BoothId) (n : ConsoleId) (cause : TurnEnd) : State :=
  s.handFinal ((s.booth b).cons.console n) b n cause s.clock.run

theorem ConsoleRec.ended_of_idle {c : ConsoleRec} (idle : c.turn = .idle) (k : Nat) : c.ended k = c := by
  obtain ⟨_, _, _, _, _, turn, _⟩ := c
  cases idle
  rfl

/-- The record of an ended turn is the one that R67 gives of the turn before. -/
theorem ConsoleRec.turnRecord_ended (c : ConsoleRec) (b : BoothId) (n : ConsoleId) (cause : TurnEnd) (k : Nat) :
    (c.ended k).turnRecord b n cause = c.finalRecord b n cause k := by
  unfold ConsoleRec.ended ConsoleRec.finalRecord
  cases e : c.turn with
  | running => rfl
  | idle | gap => simp only [reduceCtorEq, if_false]; rfl

/-- The booth with the turn of console `n`, if it is open, ended at a tick. -/
def Booth.turnEnded (r : Booth) (n : ConsoleId) (k : Nat) : Booth :=
  { r with cons := { r.cons with each := r.cons.each.set n ((r.cons.console n).ended k) } }

theorem Booth.turnEnded_of_idle {r : Booth} {n : ConsoleId} (idle : (r.cons.console n).turn = .idle) (k : Nat) : r.turnEnded n k = r := by
  rw [Booth.turnEnded, ConsoleRec.ended_of_idle idle]
  simp only [Fin.getElem_fin, Vector.set_getElem_self]

theorem Booth.turnEnded_console (r : Booth) (n m : ConsoleId) (k : Nat) :
    (r.turnEnded n k).cons.console m = if m = n then (r.cons.console n).ended k else r.cons.console m := get_set _ _ _ _

section
variable (s : State) (b : BoothId) (n : ConsoleId) (cause : TurnEnd)

theorem State.handFinal_only (c : ConsoleRec) (k : Nat) : s.onlyIn [.header, .notices, .mem, .log] (s.handFinal c b n cause k) :=
  State.onlyIn.either (s.onlyIn_refl _) (s.handTurn_only _)

theorem State.turnHanded_only : s.onlyIn [.header, .notices, .mem, .log] (s.turnHanded b n cause) := s.handFinal_only b n cause _ _

theorem State.handFinal_setHall (v : Vector Booth 24) (x : Vector BoothInner 24) (y : Vector Channel 32) (c : ConsoleRec) (k : Nat) :
    (s.setHall v x y).handFinal c b n cause k = (s.handFinal c b n cause k).setHall v x y := by
  unfold State.handFinal
  rw [State.handTurn_setHall, State.setHall_ite]

theorem State.booths_set_self : s.booths.set b (s.booth b) = s.booths := by
  simp only [Fin.getElem_fin, Vector.set_getElem_self]

theorem State.endTurn_eq :
    s.endTurn b n cause = (s.turnHanded b n cause).setHall (s.booths.set b ((s.booth b).turnEnded n s.clock.run)) s.inner s.channels := by
  unfold State.endTurn State.turnHanded State.handFinal
  dsimp only
  by_cases idle : ((s.booth b).cons.console n).turn = .idle
  · rw [if_pos idle, if_neg (by simpa [ConsoleRec.turnOpen] using idle), Booth.turnEnded_of_idle idle,
      State.booths_set_self]
    rfl
  · rw [if_neg idle, if_pos (by simpa [ConsoleRec.turnOpen] using idle), ConsoleRec.turnRecord_ended]
    exact State.handTurn_setHall s _ s.inner s.channels _

theorem State.booth_endTurn (d : BoothId) :
    (s.endTurn b n cause).booth d = if d = b then (s.booth b).turnEnded n s.clock.run else s.booth d := by
  rw [State.endTurn_eq]
  exact get_set _ _ _ _

end

/-! ## The consoles of a booth that leaves LIVE -/

/-- The booth record that leaves LIVE at a tick (R70): every turn ended, nothing live, claimed, offered, lit or busy. -/
def Booth.goneDown (r : Booth) (k : Nat) : Booth :=
  { r with cons := { r.cons with
    live := none, claimed := none, offer := none
    each := r.cons.each.map (fun c => { c.ended k with busy := none, lamp := .dark }) } }

section
variable (s : State) (b : BoothId)

theorem State.turnsHanded_only (cause : TurnEnd) : s.onlyIn [.header, .notices, .mem, .log] (s.turnsHanded b cause) := by
  have handed (x : State) (n : ConsoleId) : x.onlyIn [.header, .notices, .mem, .log]
      (x.handFinal ((s.booth b).cons.console n) b n cause s.clock.run) := x.handFinal_only b n cause _ _
  exact ((handed _ 0).next (handed _ 1) (by decide)).next (handed _ 2) (by decide)

/-- The turn of a console that is still as in `s`, ended after other turns of the booth. -/
theorem State.endTurn_after (x : State) (r : Booth) (n : ConsoleId) (cause : TurnEnd) (run : x.clock.run = s.clock.run)
    (same : r.cons.console n = (s.booth b).cons.console n) :
    (x.setHall (s.booths.set b r) s.inner s.channels).endTurn b n cause
      = (x.handFinal ((s.booth b).cons.console n) b n cause s.clock.run).setHall (s.booths.set b (r.turnEnded n s.clock.run)) s.inner
          s.channels := by
  have record : (x.setHall (s.booths.set b r) s.inner s.channels).booth b = r := (get_set s.booths b b r).trans (if_pos rfl)
  rw [State.endTurn_eq, State.turnHanded, record, State.handFinal_setHall, ← run, ← same]
  show State.setHall _ ((s.booths.set b r).set b _) _ _ = _
  rw [Vector.set_set]
  rfl

/-- The three turns of a booth ended in console order (R67, R70). -/
theorem State.endTurns_eq (cause : TurnEnd) : s.each consoles (fun s n => s.endTurn b n cause)
    = (s.turnsHanded b cause).setHall
        (s.booths.set b ((((s.booth b).turnEnded 0 s.clock.run).turnEnded 1 s.clock.run).turnEnded 2 s.clock.run)) s.inner s.channels := by
  have run {x : State} (h : s.onlyIn [.header, .notices, .mem, .log] x) : x.clock.run = s.clock.run := by rw [h .clock (by decide)]
  have first := s.turnHanded_only b 0 cause
  have second := first.next (State.handFinal_only _ b 1 cause ((s.booth b).cons.console 1) s.clock.run) (by decide)
  have other (r : Booth) {n m : ConsoleId} (k : Nat) (h : m ≠ n) : (r.turnEnded n k).cons.console m = r.cons.console m :=
    (r.turnEnded_console n m k).trans (if_neg h)
  have ended1 := s.endTurn_after b (s.turnHanded b 0 cause) ((s.booth b).turnEnded 0 s.clock.run) 1 cause (run first)
    (other _ _ (by decide))
  have ended2 := s.endTurn_after b _ (((s.booth b).turnEnded 0 s.clock.run).turnEnded 1 s.clock.run) 2 cause (run second)
    ((other _ _ (by decide)).trans (other _ _ (by decide)))
  simp only [State.each, consoles, List.foldl_cons, List.foldl_nil]
  rw [s.endTurn_eq b 0 cause, ended1, ended2]
  rfl

/-- The booth with nothing live, claimed, offered, lit or busy. -/
def Booth.quenched (r : Booth) : Booth :=
  { r with cons := { r.cons with
    live := none, claimed := none, offer := none, each := r.cons.each.map (fun c => { c with busy := none, lamp := .dark }) } }

theorem Booth.goneDown_eq (r : Booth) (k : Nat) : (((r.turnEnded 0 k).turnEnded 1 k).turnEnded 2 k).quenched = r.goneDown k := by
  have ended (m : ConsoleId) : (((r.turnEnded 0 k).turnEnded 1 k).turnEnded 2 k).cons.console m = (r.cons.console m).ended k := by
    simp only [Booth.turnEnded_console]
    match m with
    | 0 | 1 | 2 => simp
  have each : (((r.turnEnded 0 k).turnEnded 1 k).turnEnded 2 k).cons.each = r.cons.each.map (fun c => c.ended k) := by
    refine Vector.ext (fun i hi => ?_)
    rw [Vector.getElem_map]
    exact ended ⟨i, hi⟩
  unfold Booth.quenched Booth.goneDown
  rw [each, Vector.map_map]
  rfl

theorem State.consolesDown_eq : s.consolesDown b = (s.turnsHanded b .link).setHall
    (s.booths.set b (if (s.booth b).goneDown s.clock.run = s.booth b then (s.booth b).goneDown s.clock.run
      else ((s.booth b).goneDown s.clock.run).bump))
    (s.inner.set b { s.inside b with accepted := false }) s.channels := by
  unfold State.consolesDown
  dsimp only
  rw [State.endTurns_eq]
  unfold State.updCons
  rw [State.updBooth_setHall, ← Booth.goneDown_eq]
  exact State.updBooth_setHall _ _ _ _ b _ _

end

end Sys2Proof.Machine
end

section
/-!
SUPPORT. The interlock over links, frame boundaries and every command (O56).
-/
namespace Sys2Proof.Machine

theorem State.isLive_iff {s : State} {b : BoothId} : s.isLive b = true ↔ (s.booth b).link.state = .live := beq_iff_eq

/-! ## A link that leaves LIVE -/

/-- The law, and every live console as in `s` or none off LIVE (R70). -/
def State.followsLive (s t : State) : Prop := ∀ b : BoothId,
  (t.booth b).Interlocked ∧ ((t.booth b).cons.live = (s.booth b).cons.live ∨ ((t.booth b).cons.live = none ∧ (t.booth b).link.state ≠ .live))

section
variable {s t : State}

theorem State.keepsLive.follows (h : s.keepsLive t) : s.followsLive t := fun b => ⟨(h b).1, .inl (h b).2⟩

theorem State.followsLive.same {u : State} (h : s.followsLive t) (same : t.sameSeats u) : s.followsLive u := fun b => by
  obtain ⟨law, live⟩ := h b
  have seated := same b
  obtain ⟨link, _, live', _⟩ := same b
  rw [live', link]
  exact ⟨seated.interlocked law, live⟩

theorem State.keepsLive.then {u : State} (h : s.keepsLive t) (g : t.followsLive u) : s.followsLive u := fun b => by
  obtain ⟨law, live⟩ := g b
  exact ⟨law, live.imp (fun e => e.trans (h b).2) id⟩

theorem State.booth_consolesDown (s : State) (b d : BoothId) :
    (s.consolesDown b).booth d = if d = b then
      (if (s.booth b).goneDown s.clock.run = s.booth b then (s.booth b).goneDown s.clock.run else ((s.booth b).goneDown s.clock.run).bump)
    else s.booth d := by
  rw [State.consolesDown_eq]
  exact get_set _ _ _ _

theorem Booth.goneDown_console (r : Booth) (k : Nat) (n : ConsoleId) :
    (r.goneDown k).cons.console n = { (r.cons.console n).ended k with busy := none, lamp := .dark } := by
  show (r.cons.each.map _)[n] = _
  rw [Fin.getElem_fin, Vector.getElem_map]
  rfl

theorem Booth.goneDown_interlocked {r : Booth} (least : 1 ≤ r.cons.inUse) (most : r.cons.inUse ≤ 3) (k : Nat) : (r.goneDown k).Interlocked where
  seated :=
    { least, most
      live := fun _ e => nomatch e
      claimed := fun _ e => nomatch e
      offer := fun _ e => nomatch e
      running := fun n e => by
        rw [Booth.goneDown_console] at e
        exact absurd ((ConsoleRec.ended_turn _ _).symm.trans e) (by decide) }
  idle := fun _ => ⟨rfl, rfl, rfl⟩

/-- A link that leaves LIVE, or that moves while it is not LIVE (R49, R70). -/
theorem State.leave_follows (ok : s.consolesOk) (same : s.sameSeats t) (b : BoothId) (f : LinkFields → LinkFields)
    (off : (f (t.booth b).link).state ≠ .live) : s.followsLive ((t.updLink b f).leave s b) := by
  have law := State.consolesOk_iff.mp ok
  have closed := (State.sameSeats_refl (t.updLink b f)).closeBooth s b
  have others (d : BoothId) (h : d ≠ b) : ((t.updLink b f).booth d).seatedAs (s.booth d) := by
    rw [State.updLink, State.booth_updBooth, if_neg h]
    exact same d
  have record : (t.updLink b f).booth b = { t.booth b with link := f (t.booth b).link } := by
    rw [State.updLink, State.booth_updBooth, if_pos rfl]
  obtain ⟨link, inUse, live, claimed, offer, turn⟩ := same b
  unfold State.leave
  dsimp only
  split
  · refine State.followsLive.same ?_ ((State.sameSeats_refl _).routerDown b)
    intro d
    rw [State.booth_consolesDown]
    split
    · rename_i e
      subst e
      obtain ⟨link', inUse', _⟩ := closed d
      have down := ((t.updLink d f).closeBooth s d |>.booth d).goneDown_interlocked
        (by rw [inUse', record]; exact inUse ▸ (law d).seated.least) (by rw [inUse', record]; exact inUse ▸ (law d).seated.most)
        ((t.updLink d f).closeBooth s d).clock.run
      have still : (((t.updLink d f).closeBooth s d).booth d).link.state ≠ .live := by rwa [link', record]
      split
      · exact ⟨down, .inr ⟨rfl, still⟩⟩
      · exact ⟨(Booth.seatedAs_bump _).interlocked down, .inr ⟨rfl, still⟩⟩
    · rename_i h
      have kept := (closed d).trans (others d h)
      exact ⟨kept.interlocked (law d), .inl kept.2.2.1⟩
  · rename_i down
    have wasOff : (s.booth b).link.state ≠ .live := fun e => down (State.isLive_iff.mpr e)
    refine State.followsLive.same (fun d => ?_) closed
    by_cases h : d = b
    · subst h
      have consoles : ({ t.booth d with link := (s.booth d).link } : Booth).seatedAs (s.booth d) :=
        ⟨rfl, inUse, live, claimed, offer, turn⟩
      have kept := consoles.interlocked (law d)
      rw [record]
      exact ⟨⟨kept.seated, fun _ => kept.idle wasOff⟩, .inl live⟩
    · exact ⟨(others d h).interlocked (law d), .inl (others d h).2.2.1⟩

/-! ## Frames and announces -/

theorem State.sameSeats.updLink (h : s.sameSeats t) (b : BoothId) (f : LinkFields → LinkFields) (state : ∀ x, (f x).state = x.state) :
    s.sameSeats (t.updLink b f) := h.updBooth b _ (fun r => ⟨state r.link, rfl, rfl, rfl, rfl, fun _ => rfl⟩)

theorem State.sameSeats.updInner (h : s.sameSeats t) (b : BoothId) (f : BoothInner → BoothInner) : s.sameSeats (t.updInner b f) :=
  h.frame (t.updInner_only b f) (by decide)

theorem State.sameSeats.raise (h : s.sameSeats t) (c : Notice) : s.sameSeats (t.raise c) := h.frame (t.raise_only c) (by decide)

theorem State.sameSeats.handGood (h : s.sameSeats t) (b : BoothId) (a : AudioTriple) : s.sameSeats (t.handGood b a) := by
  unfold State.handGood
  exact (h.updLink b _ (by exact fun _ => rfl)).updInner b _

theorem State.sameSeats.handReplacement (h : s.sameSeats t) (b : BoothId) : s.sameSeats (t.handReplacement b) := by
  unfold State.handReplacement
  dsimp only
  exact (h.updLink b _ (by exact fun _ => rfl)).updInner b _

/-- A link that moves to LIVE, or elsewhere from another state, takes nothing from a console. -/
theorem State.livesAre.updLink {l : BoothId → Option ConsoleId} (law : t.livesAre l) (b : BoothId) (f : LinkFields → LinkFields)
    (off : (f (t.booth b).link).state ≠ .live → (t.booth b).link.state ≠ .live) : (t.updLink b f).livesAre l :=
  law.updBooth b _ (fun ok => ⟨ok.seated, fun e => ok.idle (off e)⟩) rfl

theorem State.livesAre.enterLive {l : BoothId → Option ConsoleId} (law : t.livesAre l) (o : State) (b : BoothId) :
    (t.enterLive o b).livesAre l := by
  have up (k : Nat) (x : State) : x.sameSeats (((x.updCons b (fun f => { f with quietSince := k })).relight b).closeBooth x b) := by
    refine State.sameSeats.closeBooth (State.sameSeats.relight ?_ b) x b
    exact x.sameSeats_refl.updBooth b _ (fun r => ⟨rfl, rfl, rfl, rfl, rfl, fun _ => rfl⟩)
  unfold State.enterLive
  extract_lets s1 s2
  have h1 : s1.livesAre l := law.updLink b _ (fun e => absurd rfl e)
  have h2 : s2.livesAre l := (h1.updInner b _).closeBooth o b
  have raised : (s2.raise .link).livesAre l := (s2.sameSeats_refl.raise .link).livesAre h2
  exact (((up _ _).routerUp b).livesAre raised)

section
variable (ok : s.consolesOk)
include ok

theorem State.aligned_follows (b : BoothId) (p : Bool) (seeking : (s.booth b).link.state = .seeking) :
    s.followsLive ((s.updLink b (fun f => f.align p s.clock.run)).closeBooth s b) := by
  have off : (s.booth b).link.state ≠ .live := fun e => nomatch seeking.symm.trans e
  exact State.keepsLive.follows (((State.keepsLive_refl ok).updLink b _ (fun _ => off)).closeBooth s b)

theorem State.lose_follows (same : s.sameSeats t) (b : BoothId) : s.followsLive (t.lose s b) := by
  unfold State.lose
  exact (State.leave_follows ok same b _ (show LinkState.seeking ≠ .live by decide)).same ((State.sameSeats_refl _).raise .link)

theorem State.degrade_follows (b : BoothId) : s.followsLive (s.degrade b) := by
  unfold State.degrade
  exact (State.leave_follows ok s.sameSeats_refl b _ (show LinkState.seeking ≠ .live by decide)).same ((State.sameSeats_refl _).raise .link)

theorem State.missMarker_follows (b : BoothId) : s.followsLive (s.missMarker b) := by
  have same := s.sameSeats_refl
  have kept := State.keepsLive_refl ok
  have stays {u : State} (h : s.sameSeats u) : s.followsLive u := State.keepsLive.follows (h.livesAre kept)
  have missed : s.sameSeats (s.updLink b (fun f => { f with missingRun := f.missingRun + 1 })) := same.updLink b _ (by exact fun _ => rfl)
  unfold State.missMarker
  split
  · exact stays same
  · split
    · exact stays same
    · exact stays ((same.updLink b _ (by exact fun _ => rfl)).closeBooth s b)
    · exact keeps_ite (P := s.followsLive) (State.lose_follows ok missed b) (stays (missed.closeBooth s b))
    · exact keeps_ite (P := s.followsLive) (State.lose_follows ok missed b) (stays (missed.closeBooth s b))
    · exact keeps_ite (P := s.followsLive) (State.lose_follows ok missed b) (stays ((missed.handReplacement b).closeBooth s b))

theorem State.takeLiveFrame_follows (b : BoothId) (a : AudioFrame) (up : (s.booth b).link.state = .live) :
    s.followsLive (s.takeLiveFrame b a) := by
  have kept := State.keepsLive_refl ok
  unfold State.takeLiveFrame
  extract_lets masking s1 s2 s3
  have h1 : s.sameSeats s1 := s.sameSeats_refl.updLink b _ (by exact fun _ => rfl)
  have h2 : s.sameSeats s2 := keeps_ite (P := s.sameSeats) (h1.handReplacement b) (h1.handGood b _)
  have h3 : s.keepsLive s3 := by
    show s.keepsLive (match delivery masking a with | none => _ | some none => _ | some (some (k, n)) => _)
    split
    · exact (h2.closeBooth s b).livesAre kept
    · have dropped : s.sameSeats (s2.dropEvent b) := h2.updBooth b _ (fun r => ⟨rfl, rfl, rfl, rfl, rfl, fun _ => rfl⟩)
      exact (dropped.closeBooth s b).livesAre kept
    · rename_i k n _
      have closed := h2.closeBooth s b
      exact (closed.livesAre kept).takeEvent ((closed b).1.trans up) k
  split
  · exact State.keepsLive.then h3 (State.degrade_follows h3.consolesOk b)
  · exact State.keepsLive.follows h3

theorem State.takeAudioFrame_follows (b : BoothId) (a : AudioFrame) : s.followsLive (s.takeAudioFrame b a) := by
  have same := s.sameSeats_refl
  have stays {u : State} (h : s.sameSeats u) : s.followsLive u := State.keepsLive.follows (h.livesAre (State.keepsLive_refl ok))
  have ended : s.sameSeats ((s.updLink b (fun f => { f with missingRun := 0 })).closeBooth s b) :=
    (same.updLink b _ (by exact fun _ => rfl)).closeBooth s b
  unfold State.takeAudioFrame
  split
  · exact stays same
  · split
    · exact stays same
    · rename_i seeking
      exact State.aligned_follows ok b _ seeking
    · exact stays ended
    · exact stays ended
    · rename_i up
      exact State.takeLiveFrame_follows ok b a up

theorem State.badAnnounce_follows (same : s.sameSeats t) (b : BoothId) : s.followsLive (t.badAnnounce s b) := by
  unfold State.badAnnounce
  extract_lets s1
  have h1 : s.sameSeats s1 := same.updLink b _ (by exact fun _ => rfl)
  split
  · exact (State.leave_follows ok h1 b _ (show LinkState.seeking ≠ .live by decide)).same ((State.sameSeats_refl _).raise .announce)
  · exact State.keepsLive.follows ((h1.closeBooth s b).livesAre (State.keepsLive_refl ok))

theorem State.goodAnnounce_follows (same : s.sameSeats t) (b : BoothId) (x : MismatchReason) : s.followsLive (t.goodAnnounce s b x) := by
  have kept := State.keepsLive_refl ok
  have closed : s.followsLive (t.closeBooth s b) := State.keepsLive.follows ((same.closeBooth s b).livesAre kept)
  unfold State.goodAnnounce
  split
  · exact closed
  · exact State.keepsLive.follows ((same.livesAre kept).enterLive s b)
  · exact closed
  · unfold State.enterMismatch
    exact (State.leave_follows ok same b _ (show LinkState.mismatch ≠ .live by decide)).same ((State.sameSeats_refl _).raise .announce)

theorem State.takeAnnounce_follows (b : BoothId) (f : AnnounceFrame) : s.followsLive (s.takeAnnounce b f) := by
  have same := s.sameSeats_refl
  have stays {u : State} (h : s.sameSeats u) : s.followsLive u := State.keepsLive.follows (h.livesAre (State.keepsLive_refl ok))
  have checked : s.followsLive (s.checkAnnounce b f) := by
    unfold State.checkAnnounce
    extract_lets d s1 s2 reason
    have h1 : s.sameSeats s1 := same.updLink b _ (by exact fun _ => rfl)
    have h2 : s.sameSeats s2 := keeps_ite (P := s.sameSeats) (h1.handReplacement b) h1
    exact keeps_ite (P := s.followsLive) (State.goodAnnounce_follows ok (h2.updLink b _ (by exact fun _ => rfl)) b _)
      (State.badAnnounce_follows ok h2 b)
  unfold State.takeAnnounce
  split
  · exact stays same
  · split
    · exact stays same
    · rename_i seeking
      exact State.aligned_follows ok b _ seeking
    · exact checked
    · exact checked
    · exact checked

end

end

end Sys2Proof.Machine
end

section
/-!
SUPPORT. The interlock at a frame boundary and over every command (O56).
-/
namespace Sys2Proof.Machine

/-- The records of a table that are each worked once, in any order. -/
theorem State.each_get_all {ι α : Type} [DecidableEq ι] {I : State → Prop} (get : State → ι → α) (v g : ι → α) {f : State → ι → State}
    (keep : ∀ t i, I t → I (f t i)) (apart : ∀ t i j, I t → i ≠ j → get (f t j) i = get t i)
    (own : ∀ t i, I t → get t i = v i → get (f t i) i = g i) {l : List ι} (distinct : l.Nodup) (all : ∀ i, i ∈ l) {s : State} (hs : I s)
    (start : ∀ i, get s i = v i) (i : ι) : get (s.each l f) i = g i :=
  (State.each_get get v g keep apart own distinct hs start i).trans (if_pos (all i))

/-! ## The claimed console becomes live -/

section
variable {t : State} {b : BoothId}

theorem ConsoleRec.wentQuiet_turn (c : ConsoleRec) (k g : Nat) : (c.wentQuiet k g).turn ≠ .running := by
  unfold ConsoleRec.wentQuiet
  split
  · exact (show TurnState.gap ≠ .running by decide)
  · rename_i e
    exact e ▸ (show TurnState.idle ≠ .running by decide)
  · rename_i e
    exact e ▸ (show TurnState.gap ≠ .running by decide)

theorem State.quitLive_of_none (h : (t.booth b).cons.live = none) : t.quitLive b = t := by
  unfold State.quitLive
  split
  · rename_i e
    exact nomatch e.symm.trans h
  · rfl

theorem State.quitLive_of_some {m : ConsoleId} (h : (t.booth b).cons.live = some m) : t.quitLive b =
    if (t.inside b).accepted then t.endTurn b m .handover
    else t.updConsole b m (fun c => c.wentQuiet t.clock.run t.timers.mergeGap) := by
  unfold State.quitLive
  split
  · rename_i e
    cases e.symm.trans h
    rfl
  · rename_i e
    exact nomatch e.symm.trans h

/-- What the live console leaves: no turn is ON (R56, R66, R67). -/
theorem State.quitLive_booth (ok : (t.booth b).Interlocked) : ∃ each : Vector ConsoleRec 3, (∀ n : ConsoleId, each[n].turn ≠ .running) ∧
    ∀ d : BoothId, (t.quitLive b).booth d = if d = b then { t.booth b with cons := { (t.booth b).cons with each := each } } else t.booth d := by
  have running := ok.seated.running
  by_cases none : (t.booth b).cons.live = none
  · rw [State.quitLive_of_none none]
    refine ⟨(t.booth b).cons.each, fun n e => (nomatch (running n e).symm.trans none), fun d => ?_⟩
    exact (ite_eq_right_iff.mpr (fun e => e ▸ rfl)).symm
  · obtain ⟨m, live⟩ := Option.ne_none_iff_exists'.mp none
    have quiet (c : ConsoleRec) (h : c.turn ≠ .running) (n : ConsoleId) : ((t.booth b).cons.each.set m c)[n].turn ≠ .running := by
      rw [get_set]
      split
      · exact h
      · rename_i other
        exact fun e => other (Option.some.inj ((running n e).symm.trans live))
    rw [State.quitLive_of_some live]
    split
    · exact ⟨_, quiet _ (by rw [ConsoleRec.ended_turn]; decide), fun d => t.booth_endTurn b m .handover d⟩
    · exact ⟨_, quiet _ (ConsoleRec.wentQuiet_turn _ _ _), fun d => t.booth_updBooth b d _⟩

theorem State.changeLive_of_same (h : (t.booth b).cons.live = (t.booth b).cons.claimed) :
    t.changeLive b = t.updInner b (fun i => { i with accepted := false }) := by
  unfold State.changeLive
  dsimp only
  rw [if_pos h]

/-- The booth with its claimed console live, its former live console's turn left (R56). -/
def State.claimLive (t : State) (b : BoothId) : State := (t.quitLive b).updCons b (fun g => { g with live := (t.booth b).cons.claimed })

theorem State.changeLive_of_none (h : (t.booth b).cons.live ≠ (t.booth b).cons.claimed) (none : (t.booth b).cons.claimed = none) :
    t.changeLive b = ((t.claimLive b).goQuiet b).updInner b (fun i => { i with accepted := false }) := by
  unfold State.changeLive
  dsimp only
  rw [if_neg h]
  split
  · rename_i e
    exact nomatch e.symm.trans none
  · rfl

theorem State.changeLive_of_some {n : ConsoleId} (h : (t.booth b).cons.live ≠ (t.booth b).cons.claimed)
    (some : (t.booth b).cons.claimed = some n) :
    t.changeLive b = (if (t.inside b).accepted then ((t.claimLive b).updConsole b n (fun c => c.resume t.clock.run)).raise .handover
      else (t.claimLive b).updConsole b n (fun c => c.resume t.clock.run)).updInner b (fun i => { i with accepted := false }) := by
  unfold State.changeLive
  dsimp only
  rw [if_neg h]
  split
  · rename_i e
    cases e.symm.trans some
    rfl
  · rename_i e
    exact nomatch e.symm.trans some

theorem State.goQuiet_booths (t : State) (b : BoothId) :
    (t.goQuiet b).booths = (t.updCons b (fun g => { g with quietSince := t.clock.run })).booths := by
  unfold State.goQuiet
  dsimp only
  split <;> rfl

/-- What a booth's record is once its claimed console is live (R56). -/
theorem State.changeLive_booth (ok : (t.booth b).Interlocked) : ∃ (each : Vector ConsoleRec 3) (q : Nat),
    (∀ n : ConsoleId, each[n].turn = .running → (t.booth b).cons.claimed = some n) ∧
    ∀ d : BoothId, (t.changeLive b).booth d = if d = b then
      { t.booth b with cons := { (t.booth b).cons with live := (t.booth b).cons.claimed, quietSince := q, each := each } } else t.booth d := by
  by_cases same : (t.booth b).cons.live = (t.booth b).cons.claimed
  · refine ⟨(t.booth b).cons.each, (t.booth b).cons.quietSince, fun n e => same ▸ ok.seated.running n e, fun d => ?_⟩
    rw [State.changeLive_of_same same]
    refine (ite_eq_right_iff.mpr (fun e => ?_)).symm
    subst e
    exact (congrArg (fun x => ({ t.booth d with cons := { (t.booth d).cons with live := x } } : Booth)) same).symm
  · obtain ⟨each, quiet, quit⟩ := State.quitLive_booth ok
    have moved (d : BoothId) : (t.claimLive b).booth d = if d = b then
        { t.booth b with cons := { (t.booth b).cons with live := (t.booth b).cons.claimed, each := each } } else t.booth d := by
      rw [State.claimLive, State.updCons, State.booth_updBooth]
      split
      · rw [quit, if_pos rfl]
      · rename_i h
        rw [quit, if_neg h]
    by_cases claimed : (t.booth b).cons.claimed = none
    · refine ⟨each, (t.claimLive b).clock.run, fun n e => absurd e (quiet n), fun d => ?_⟩
      rw [State.changeLive_of_none same claimed]
      show ((t.claimLive b).goQuiet b).booths[d] = _
      rw [State.goQuiet_booths]
      refine (State.booth_updBooth _ b d _).trans ?_
      split
      · rw [moved, if_pos rfl]
      · rename_i h
        rw [moved, if_neg h]
    · obtain ⟨n, claimed⟩ := Option.ne_none_iff_exists'.mp claimed
      have came (d : BoothId) : (t.changeLive b).booth d = ((t.claimLive b).updConsole b n (fun c => c.resume t.clock.run)).booth d := by
        rw [State.changeLive_of_some same claimed]
        split <;> rfl
      refine ⟨each.set n ((each[n]).resume t.clock.run), (t.booth b).cons.quietSince, fun m e => ?_, fun d => ?_⟩
      · rw [get_set] at e
        split at e
        · rename_i h
          rw [h, claimed]
        · exact absurd e (quiet m)
      · rw [came, State.updConsole, State.booth_updBooth]
        split
        · rw [moved, if_pos rfl]
        · rename_i h
          rw [moved, if_neg h]

end

section
variable {s : State} {l : BoothId → Option ConsoleId}

/-- The claimed consoles of every booth live (R56). -/
theorem State.changeLives (ok : s.consolesOk) : (s.each boothList State.changeLive).livesAre (fun b => (s.booth b).cons.claimed) := by
  have kept (t : State) (b : BoothId) (h : t.consolesOk) : (t.changeLive b).consolesOk := by
    have law := State.consolesOk_iff.mp h
    obtain ⟨each, q, running, changed⟩ := State.changeLive_booth (law b)
    refine State.consolesOk_iff.mpr (fun d => ?_)
    rw [changed]
    split
    · refine ⟨{ (law b).seated with live := (law b).seated.claimed, running := running }, fun off => ?_⟩
      obtain ⟨_, claimed, offer⟩ := (law b).idle off
      exact ⟨claimed, claimed, offer⟩
    · exact law d
  have all := State.each_get_all (I := State.consolesOk) (fun t b => ((t.booth b).cons.live, (t.booth b).cons.claimed))
    (fun b => ((s.booth b).cons.live, (s.booth b).cons.claimed)) (fun b => ((s.booth b).cons.claimed, (s.booth b).cons.claimed))
    (f := State.changeLive) (l := boothList) kept
    (fun t i j h ne => by
      obtain ⟨each, q, _, changed⟩ := State.changeLive_booth (State.consolesOk_iff.mp h j)
      rw [changed, if_neg ne])
    (fun t i h same => by
      obtain ⟨each, q, _, changed⟩ := State.changeLive_booth (State.consolesOk_iff.mp h i)
      obtain ⟨_, claimed⟩ := Prod.mk.inj same
      rw [changed, if_pos rfl, claimed])
    (List.nodup_finRange 24) List.mem_finRange ok (fun _ => rfl)
  intro b
  have law : (s.each boothList State.changeLive).consolesOk :=
    State.each_induct (P := State.consolesOk) (f := State.changeLive) (fun t b _ h => kept t b h) ok
  refine ⟨State.consolesOk_iff.mp law b, ?_⟩
  have own := all b
  generalize s.each boothList State.changeLive = u at own ⊢
  exact congrArg Prod.fst own

/-- The rest of a boundary moves no live console: turns go on at live consoles alone, or end. -/
theorem State.livesAre.meterBooth {t : State} (law : t.livesAre l) (o : State) (b : BoothId) : (State.meterBooth o t b).livesAre l := by
  have opened : (t.openTurn o b).livesAre l := by
    unfold State.openTurn
    split
    · rename_i n live
      exact keeps_ite (P := State.livesAre l) (law.updConsole b n _ (fun _ => .inl live)) law
    · exact law
  unfold State.meterBooth
  extract_lets fed s1
  have fedWritten : s1.livesAre l := opened.updEach b _ (fun c => by unfold ConsoleRec.takeFed; split <;> rfl)
  unfold State.checkRelief
  dsimp only
  split
  · exact State.livesAre.frame (fedWritten.updEach b _ (fun c => by split <;> rfl)) (State.raise_only _ _) (by decide)
  · exact fedWritten

theorem State.workBoundary_lives (ok : s.consolesOk) : s.workBoundary.livesAre (fun b => (s.booth b).cons.claimed) := by
  unfold State.workBoundary
  extract_lets s1 s2 s3 s4 s5 s6 s7
  have h1 : s1.livesAre (fun b => (s.booth b).cons.claimed) := State.changeLives ok
  have h2 : s2.livesAre (fun b => (s.booth b).cons.claimed) :=
    State.each_induct (P := State.livesAre _) (fun t c _ h => h.frame (t.routeChannel_only c) (by decide)) h1
  have h3 : s3.livesAre (fun b => (s.booth b).cons.claimed) :=
    State.each_induct (P := State.livesAre _) (fun t c _ h => h.frame (t.closeChannel_only s c) (by decide)) h2
  have h4 : s4.livesAre (fun b => (s.booth b).cons.claimed) := by
    refine State.each_induct (P := State.livesAre _) (fun t b _ h => ?_) h3
    unfold State.writeFed
    refine State.sameSeats.livesAre ?_ h
    exact t.sameSeats_refl.rewriteBooth b _ (by exact fun r => ⟨rfl, rfl, rfl, rfl, rfl, fun _ => rfl⟩)
  have h5 : s5.livesAre (fun b => (s.booth b).cons.claimed) :=
    State.each_induct (P := State.livesAre _) (fun t b _ h => h.meterBooth s b) h4
  have h6 : s6.livesAre (fun b => (s.booth b).cons.claimed) := by
    refine State.each_induct (P := State.livesAre _) (fun t c _ h => ?_) h5
    unfold State.endFormer
    split
    · split
      · exact h.endTurn _ _ _
      · exact h
    · exact h
  have h7 : s7.livesAre (fun b => (s.booth b).cons.claimed) := State.each_induct (P := State.livesAre _)
    (fun t b _ h => ((t.sameSeats_refl.relight b).closeCons s b).livesAre h) h6
  exact (h7.frame s7.sendFrames_only (by decide)).frame s7.sendFrames.sendOrDue_only (by decide)

end

/-! ## Every order -/

/-- A definition counts 1 to 3 consoles (R50). -/
theorem State.boothParams_consoles {s : State} {n : SlotId} {d : BoothDef} {c : Bool} (h : s.boothParams n = some (d, c)) :
    1 ≤ d.consoles ∧ d.consoles ≤ 3 := by
  unfold State.boothParams at h
  split at h
  · dsimp only at h
    split at h
    · cases h
    · cases h
      have count := clampTo_fst (show 1 ≤ 3 by decide) (s.param8 n 1)
      dsimp only
      omega
  · cases h

/-- The definition of a booth that is HELD (R50, R54). -/
theorem State.livesAre.boothDefine {l : BoothId → Option ConsoleId} {t : State} (law : t.livesAre l) {b : BoothId} {d : BoothDef}
    (held : (t.booth b).link.state = .held) (least : 1 ≤ d.consoles) (most : d.consoles ≤ 3) :
    (t.writeBooth b (fun r => r.define d)).livesAre l := by
  have off : (t.booth b).link.state ≠ .live := fun e => nomatch held.symm.trans e
  refine law.updBooth b _ (fun ok => ?_) rfl
  obtain ⟨live, claimed, offer⟩ := ok.idle off
  have seated : (t.booth b).cons.Seated := ok.seated
  refine ⟨?_, fun _ => ⟨live, claimed, offer⟩⟩
  refine ⟨least, most, fun _ e => ?_, fun _ e => ?_, fun _ e => ?_, fun n e => seated.running n (Eq.trans ?_ e)⟩
  · exact nomatch live.symm.trans e
  · exact nomatch claimed.symm.trans e
  · exact nomatch offer.symm.trans e
  · show _ = (((t.booth b).define d).cons.console n).turn
    rw [Booth.define_console]
    split <;> rfl

theorem OrderWork.followsLive {k : Nat} {w : Work} (h : OrderWork k w) {s : State} (ok : s.consolesOk) (n : SlotId) :
    s.followsLive (w s n).1 := by
  have same := s.sameSeats_refl
  have kept := State.keepsLive_refl ok
  have stays {u : State} (h : s.sameSeats u) : s.followsLive u := State.keepsLive.follows (h.livesAre kept)
  have framed (apart : StateField.booths ∉ kindTouches k) : s.followsLive (w s n).1 := stays (same.frame (h.only s n) apart)
  cases h with
  | setLogPolicy =>
    unfold workSetLogPolicy
    split
    · rename_i p _
      have changed : s.sameSeats ({ s with log := { s.log with policy := p } }).bumpHeader := same
      split
      · exact stays same
      · exact stays (keeps_ite (P := s.sameSeats) (changed.drainList _) changed)
    · exact stays same
  | cancel =>
    unfold workCancel
    split
    · split
      · rename_i u _
        cases u.owner with
        | issue i => exact stays (same.frame (State.endReservation_only s i _ _) (by decide))
        | handover c => exact stays (State.sameSeats.settleChannel (same.frame (s.endSchedule_only c _ _ _ _) (by decide)) s c)
      · split
        · exact stays same
        · exact stays same
    · exact stays same
  | clearDocks => exact stays (same.frame (workClearDocks_only s n) (by decide))
  | clearLinks =>
    have cleared (t : State) (b : BoothId) (ht : s.sameSeats t) : s.sameSeats (t.clearBooth b) := by
      have counts : s.sameSeats (t.writeBooth b (fun r => { r with link := r.link.count (fun _ => LinkCounts.zero) })) :=
        ht.updBooth b _ (by exact fun r => ⟨rfl, rfl, rfl, rfl, rfl, fun _ => rfl⟩)
      unfold State.clearBooth
      exact counts.updBooth b _ (by exact fun r => ⟨rfl, rfl, rfl, rfl, rfl, fun _ => rfl⟩)
    unfold workClearLinks
    split
    · exact stays same
    · split
      · exact stays (State.each_induct (P := s.sameSeats) (f := State.clearBooth) (fun t b _ ht => cleared t b ht) same)
      · split
        · exact stays (cleared s _ same)
        · exact stays same
  | setClock =>
    unfold workSetClock
    extract_lets fraction was values s1 s2
    have h1 : s.sameSeats s1 := same
    have marked : s.sameSeats s1.markClockSet := by
      unfold State.markClockSet
      extract_lets m1
      have hires : s.sameSeats m1 :=
        h1.frame (State.each_only (fun t k _ => t.writeHire_only k _) s1) (by decide)
      refine State.each_induct (P := s.sameSeats) (fun t b _ ht => ?_) hires
      exact ht.rewriteBooth b _ (by exact fun r => r.seatedAs_map (fun c => by split <;> rfl))
    exact stays (keeps_ite (P := s.sameSeats) (marked.compareSchedules.raise _) h1)
  | boothDefine =>
    unfold workBoothDefine
    split
    · rename_i b d clamped _ params
      split
      · exact stays same
      · rename_i held
        obtain ⟨least, most⟩ := State.boothParams_consoles params
        exact State.keepsLive.follows (kept.boothDefine (not_not.mp held) least most)
    · exact stays same
  | linkHold =>
    unfold workLinkHold
    split
    · dsimp only
      split
      · exact stays same
      · exact State.leave_follows ok same _ _ (show LinkState.held ≠ .live by decide)
    · exact stays same
  | linkRelease =>
    unfold workLinkRelease
    split
    · rename_i b _
      split
      · exact stays same
      · rename_i held
        split
        · exact stays same
        · have off : (s.booth b).link.state ≠ .live := fun e => by simp_all
          exact State.keepsLive.follows (kept.updBooth b _ (fun law => ⟨law.seated, fun _ => law.idle off⟩) rfl)
    · exact stays same
  | boothIntake =>
    unfold workBoothIntake
    split
    · rename_i b i _ _
      have written : s.sameSeats (s.writeBooth b (fun r => { r with role := { r.role with intake := i } })) :=
        same.updBooth b _ (by exact fun r => ⟨rfl, rfl, rfl, rfl, rfl, fun _ => rfl⟩)
      dsimp only
      split
      · exact stays same
      · split
        · exact stays same
        · split
          · exact stays same
          · exact stays written
    · exact stays same
  | seatAssign =>
    unfold workSeatAssign
    split
    · dsimp only
      split
      · exact stays same
      · split
        · exact stays same
        · split
          · exact stays same
          · exact State.keepsLive.follows (kept.seat _)
    · exact stays same
  | channelDefine =>
    unfold workChannelDefine
    split
    · split
      · exact stays same
      · split
        · exact stays same
        · split
          · exact stays same
          · split
            · exact stays same
            · exact stays (same.defineChannel _ _)
    · exact stays same
  | channelClear =>
    unfold workChannelClear
    split
    · split
      · exact stays same
      · split
        · exact stays same
        · exact stays (same.clearChannel _)
    · exact stays same
  | handover =>
    unfold workHandover
    split
    · rename_i c target _ _
      dsimp only
      split
      · exact stays same
      · split
        · exact stays same
        · split
          · exact stays same
          · split
            · exact stays same
            · unfold State.schedule
              extract_lets s1 s2
              have h1 : s.sameSeats s1 := (same.frame (s.setPhase_only c _) (by decide)).frame (State.makeStanding_only _ _ _ _) (by decide)
              have h2 : s.sameSeats s2 := keeps_ite (P := s.sameSeats)
                ((h1.frame (s1.warn_only c) (by decide)).frame (State.target_only _ c) (by decide))
                (h1.frame (s1.compareSchedule_only c) (by decide))
              exact stays (h2.settleChannel s c)
    · exact stays same
    · exact stays same
  | setNotice | setTimers | issue | declareLost | retireReceiver | restoreReceiver | setTariff | accountOpen | accountPay | accountRefund
  | accountClose | setDistribution => exact framed (by decide)
  | unknown => exact stays same

/-! ## Every command -/

theorem State.sameSeats.abortOrders {s t : State} (h : s.sameSeats t) (w : Option (SlotId × Result)) : s.sameSeats (t.abortOrders w) :=
  h.frame (t.abortOrders_only w) (by decide)

theorem State.restart_follows {s : State} (ok : s.consolesOk) (v : Half) (e : ByteEnables) (working : Bool) :
    s.followsLive (s.restart v e working) := by
  have same := State.keepsLive.follows (State.keepsLive_refl ok)
  have aborted (t : State) (w : Option (SlotId × Result)) (h : s.followsLive t) : s.followsLive (t.enterRestarting.abortOrders w) :=
    h.same ((t.sameSeats_refl.frame t.enterRestarting_only (by decide)).abortOrders w)
  have finished : s.followsLive s.finishWorking.1 := by
    unfold State.finishWorking
    split
    · exact same
    · rename_i n rest _
      have taken : s.keepsLive (s.takeSlot n rest) :=
        (s.sameSeats_refl.frame (s.takeSlot_only n rest) (by decide)).livesAre (State.keepsLive_refl ok)
      exact State.keepsLive.then taken ((orderWork_kind s n).followsLive taken.consolesOk n)
  unfold State.restart
  split
  · unfold State.beginRestart
    cases working with
    | true => exact aborted _ _ finished
    | false => exact aborted s none same
  · exact same

theorem Booth.initial_interlocked : Booth.initial.Interlocked where
  seated :=
    { least := by decide
      most := by decide
      live := fun _ e => nomatch e
      claimed := fun _ e => nomatch e
      offer := fun _ e => nomatch e
      running := by decide }
  idle := fun _ => ⟨rfl, rfl, rfl⟩

/-- Every booth as at power-on is off LIVE without a live console. -/
theorem State.initial_follows {s t : State} (h : ∀ b : BoothId, (t.booth b).seatedAs Booth.initial) : s.followsLive t := fun b => by
  obtain ⟨link, _, live, _⟩ := h b
  exact ⟨(h b).interlocked Booth.initial_interlocked, .inr ⟨live, link ▸ (by decide)⟩⟩

theorem State.ready_follows {s : State} (ok : s.consolesOk) : s.followsLive s.completeStartup ∧ s.followsLive s.completeRestart := by
  have same := State.keepsLive.follows (State.keepsLive_refl ok)
  have ready (t : State) (h : ∀ b : BoothId, (t.booth b).seatedAs Booth.initial) : s.followsLive t.becomeReady :=
    (State.initial_follows h).same (t.sameSeats_refl.frame t.becomeReady_only (by decide))
  refine ⟨keeps_ite (P := s.followsLive) (ready _ (fun b => ?_)) same, keeps_ite (P := s.followsLive) (ready _ (fun b => ?_)) same⟩
  · show (State.reset.booth b).seatedAs _
    rw [State.reset_booth]
    exact Booth.initial.seatedAs_refl
  · have record : (s.restartTally.loseWaiting.softReset.booth b) = { Booth.initial with changes := (s.restartTally.booth b).changes + 2 } := by
      show (s.restartTally.booths.map _)[b] = _
      rw [Fin.getElem_fin, Vector.getElem_map]
      rfl
    rw [record]
    exact Booth.initial.seatedAs_refl

theorem State.order_follows {s : State} (ok : s.consolesOk) {i : Instr} (hi : i ∈ orderRows) : s.followsLive (s.run i) := by
  have same := s.sameSeats_refl
  have kept := State.keepsLive_refl ok
  rcases s.run_order hi with unworked | ⟨n, rest, _, _, worked⟩
  · rw [unworked]
    exact State.keepsLive.follows kept
  · have taken : s.keepsLive (s.takeSlot n rest) := (same.frame (s.takeSlot_only n rest) (by decide)).livesAre kept
    rw [worked]
    exact (State.keepsLive.then taken ((orderWork_kind s n).followsLive taken.consolesOk n)).same
      ((State.sameSeats_refl _).frame (finishOrder_only n _) (by decide))

/-- The interlock over every command: a frame boundary makes the claimed consoles live, any other leaves them or takes them down. -/
theorem State.run_follows {s : State} (ok : s.consolesOk) (i : Instr) (other : i ≠ .frameBoundary) : s.followsLive (s.run i) := by
  have same := s.sameSeats_refl
  have kept := State.keepsLive_refl ok
  have stays {u : State} (h : s.sameSeats u) : s.followsLive u := State.keepsLive.follows (h.livesAre kept)
  have framed (booths : (commandTouches i).contains .booths = false) : s.followsLive (s.run i) :=
    stays (same.frame (s.run_only i) (by simp_all))
  have written (o : Nat) (v : Half) (e : ByteEnables) : s.followsLive (s.hostWrite o v e) := by
    refine stays (keeps_ite (P := s.sameSeats) same (keeps_ite (P := s.sameSeats) ?_ ?_))
    · exact keeps_ite (P := s.sameSeats) (keeps_ite (P := s.sameSeats) same (State.sameSeats.drainList _ same)) same
    · refine keeps_ite (P := s.sameSeats) same ?_
      split
      · exact same.frame (s.writeSlot_only _ _ v e) (by decide)
      · exact same
  have keyed (b : BoothId) (k : EventKind) (n : Fin 4) : s.followsLive (s.deliver b k n) := by
    unfold State.deliver
    split
    · rename_i up
      split
      · exact State.keepsLive.follows (kept.takeEvent (State.isLive_iff.mp up.2) k)
      · have dropped : s.sameSeats (s.dropEvent b) := same.updBooth b _ (by exact fun r => ⟨rfl, rfl, rfl, rfl, rfl, fun _ => rfl⟩)
        exact stays (dropped.closeBooth s b)
    · exact stays same
  cases i with
  | frameBoundary => exact absurd rfl other
  | startupComplete => exact (State.ready_follows ok).1
  | softRestartComplete => exact (State.ready_follows ok).2
  | exchangeWrite a v e => exact written _ v e
  | holderWordWrite n v e => exact written _ v e
  | logReadCountWrite v e => exact written _ v e
  | restart v e w => exact State.restart_follows ok v e w
  | ignoredRegisterWrite a v e =>
    exact portWrite_keeps (P := s.followsLive) a v e (stays (same.frame (s.post_only v e) (by decide)))
      (stays (same.frame (s.clearPending_only v e) (by decide))) (stays (same.frame (s.setEnabled_only v e) (by decide)))
      (State.restart_follows ok v e false) (stays same)
  | audioFrame b a => exact State.takeAudioFrame_follows ok b a
  | announceFrame b f => exact State.takeAnnounce_follows ok b f
  | missingMarker b => exact State.missMarker_follows ok b
  | micOn b k | micOff b k | offer b k | accept b k | consoleCancel b k | offerOut b k => exact keyed b _ k
  | busyDeadlineExpiry b k => exact State.keepsLive.follows kept.busyExpiry
  | offerDeadlineExpiry b => exact State.keepsLive.follows kept.offerExpiry
  | gapDeadlineExpiry b k => exact State.keepsLive.follows kept.gapExpiry
  | outgoingOfferLapse c =>
    show s.followsLive (s.outgoingLapse c)
    unfold State.outgoingLapse
    split
    · exact stays (keeps_ite (P := s.sameSeats) (State.sameSeats.relampChannel (same.frame (s.writeChannel_only c _) (by decide)) c) same)
    · exact stays same
  | warningReached c =>
    show s.followsLive (s.warningReached c)
    unfold State.warningReached
    split
    · exact stays (keeps_ite (P := s.sameSeats) (State.sameSeats.settleChannel (same.frame (s.warn_only c) (by decide)) s c) same)
    · exact stays same
  | targetReached c =>
    show s.followsLive (s.targetReached c)
    unfold State.targetReached
    split
    · exact stays (keeps_ite (P := s.sameSeats)
        (State.sameSeats.settleChannel ((same.frame (s.warn_only c) (by decide)).frame (State.target_only _ c) (by decide)) s c) same)
    · exact stays same
  | waitDeadlineExpiry c =>
    show s.followsLive (s.waitExpiry c)
    unfold State.waitExpiry
    split
    · exact stays (keeps_ite (P := s.sameSeats)
        (State.sameSeats.settleChannel (same.frame (s.endSchedule_only c _ _ _ _) (by decide)) s c) same)
    · exact stays same
  | floorFrame | censusMark | superframeBoundary | resetAssert | resetRelease | post | noticePendingWrite | noticeEnableWrite
  | noticeVectorLowRead | noticeVectorHighRead | pollSend | rackAnswer | inventoryAnswer | answerWindowExpiry | settleDeadlineExpiry
  | reserveDeadlineExpiry | beacon | runCounterTick => exact framed rfl
  | unknownOrder | setNotice | setTimers | setLogPolicy | cancel | clearCountsLinks | clearCountsDocks | setClock | boothDefine | linkHold
  | linkRelease | boothIntake | seatAssign | channelDefine | channelClear | handover | setDistribution | issue | declareLost
  | retireReceiver | restoreReceiver | setTariff | accountOpen | accountPay | accountRefund | accountClose =>
    exact State.order_follows ok (by decide)

/-- A frame boundary in READY makes the claimed consoles live, and else leaves every console. -/
theorem State.frameBoundary_lives {s : State} (ok : s.consolesOk) :
    s.frameBoundary.livesAre (fun b => (s.booth b).cons.claimed) ∨ s.keepsLive s.frameBoundary := by
  have counted : s.sameSeats s.countFrame := s.sameSeats_refl.frame s.countFrame_only (by decide)
  have kept := State.keepsLive_refl ok
  unfold State.frameBoundary
  split
  · exact .inl (State.workBoundary_lives (s := s.countFrame) ok)
  · exact .inr (((counted.frame (State.sendFrames_only _) (by decide)).frame (State.sendDist_only _) (by decide)).livesAre kept)
  · exact .inr (keeps_ite (P := State.livesAre _) kept (counted.livesAre kept))

/-- Settles O56. -/
theorem stepsKeepTheInterlock : Obligations.StepsKeepTheInterlock := by
  intro s t run ok
  rcases step_cases run with ⟨_, rfl⟩ | ⟨i, rest, front, rfl⟩
  · exact ⟨ok, fun b moved => absurd rfl moved⟩
  · have law : ({ s with pending := rest } : State).consolesOk := ok
    by_cases boundary : i = .frameBoundary
    · subst boundary
      rcases State.frameBoundary_lives law with lives | kept
      · exact ⟨lives.consolesOk, fun b _ => .inr ⟨⟨rest, front⟩, (lives b).2⟩⟩
      · exact ⟨State.livesAre.consolesOk kept, fun b moved => absurd (kept b).2 moved⟩
    · have follows := State.run_follows law i boundary
      exact ⟨State.consolesOk_iff.mpr (fun b => (follows b).1), fun b moved => .inl ((follows b).2.resolve_left moved)⟩

end Sys2Proof.Machine
end

section
/-!
SUPPORT. Lamps (R61), the orders beside which a turn's record is handed, and the deadlines and seats of a booth (O27, O28).
-/
namespace Sys2Proof.Machine

/-! ## The records of one booth -/

/-- One console of a booth changed. -/
def Booth.setConsole (r : Booth) (n : ConsoleId) (f : ConsoleRec → ConsoleRec) : Booth :=
  { r with cons := { r.cons with each := r.cons.each.set n (f (r.cons.console n)) } }

theorem Booth.setConsole_console (r : Booth) (n k : ConsoleId) (f : ConsoleRec → ConsoleRec) :
    (r.setConsole n f).cons.console k = if k = n then f (r.cons.console n) else r.cons.console k := get_set _ _ _ _

/-- A booth record once the bracket over its work is closed (R3). -/
def Booth.closed (r old : Booth) : Booth := if r = old then r else r.bump

theorem Booth.closed_link (r old : Booth) : (r.closed old).link = r.link := by unfold Booth.closed; split <;> rfl
theorem Booth.closed_cons (r old : Booth) : (r.closed old).cons = r.cons := by unfold Booth.closed; split <;> rfl
theorem Booth.closed_role (r old : Booth) : (r.closed old).role = r.role := by unfold Booth.closed; split <;> rfl

theorem Booth.relit_console (r : Booth) (w c : Bool) (k : ConsoleId) :
    (r.relit w c).cons.console k = { r.cons.console k with lamp := r.lampOf w c k } := Vector.getElem_ofFn k.isLt

theorem ConsoleFields.relief_iff (f : ConsoleFields) :
    f.relief = true ↔ ∃ k : ConsoleId, ((f.console k).turnOpen && (f.console k).reliefReached) = true := by
  unfold ConsoleFields.relief
  rw [List.any_eq_true]
  constructor
  · rintro ⟨c, member, due⟩
    obtain ⟨i, hi, rfl⟩ := List.mem_iff_getElem.mp member
    rw [Vector.length_toList] at hi
    exact ⟨⟨i, hi⟩, by simpa using due⟩
  · rintro ⟨k, due⟩
    exact ⟨f.console k, by simp [ConsoleFields.console], due⟩

theorem Booth.relit_relief (r : Booth) (w c : Bool) : (r.relit w c).cons.relief = r.cons.relief := by
  rw [Bool.eq_iff_iff, ConsoleFields.relief_iff, ConsoleFields.relief_iff]
  simp only [Booth.relit_console, ConsoleRec.turnOpen]

/-- The lamps are read from no lamp (R61). -/
theorem Booth.lampOf_relit (r : Booth) (w c w' c' : Bool) (k : ConsoleId) : (r.relit w c).lampOf w' c' k = r.lampOf w' c' k := by
  have busy : (r.relit w c).cons.each[k].busy = r.cons.each[k].busy := by
    rw [show (r.relit w c).cons.each[k] = _ from r.relit_console w c k]
  unfold Booth.lampOf
  rw [Booth.relit_relief, busy]
  rfl

theorem Booth.lampOf_closed (r old : Booth) (w c : Bool) (k : ConsoleId) : (r.closed old).lampOf w c k = r.lampOf w c k := by
  unfold Booth.lampOf
  rw [Booth.closed_link, Booth.closed_cons, Booth.closed_role]

/-- After a relighting every lamp shows what R61's table gives. -/
theorem Booth.relit_lamp (r old : Booth) (w c : Bool) (k : ConsoleId) :
    (((r.relit w c).closed old).cons.console k).lamp = ((r.relit w c).closed old).lampOf w c k := by
  rw [Booth.closed_cons, Booth.relit_console, Booth.lampOf_closed, Booth.lampOf_relit]

/-! ## One booth's record through a block's work -/

section
variable (s : State) (v : Vector Booth 24) (x : Vector BoothInner 24) (c : Vector Channel 32) (b : BoothId) (r : Booth)

theorem State.updConsole_setHall (n : ConsoleId) (f : ConsoleRec → ConsoleRec) :
    (s.setHall (v.set b r) x c).updConsole b n f = s.setHall (v.set b (r.setConsole n f)) x c := State.updBooth_setHall s v x c b r _

theorem State.relight_setHall : (s.setHall (v.set b r) x c).relight b
    = s.setHall (v.set b (r.relit ((s.setHall v x c).warned b) ((s.setHall v x c).cuedOut b))) x c := State.updBooth_setHall s v x c b r _

theorem State.closeBooth_setHall (o : State) : (s.setHall (v.set b r) x c).closeBooth o b
    = s.setHall (v.set b (r.closed (o.booth b))) x c := State.updBooth_setHall s v x c b r _

/-- A booth's record changed, its lamps recomputed and the bracket closed. -/
theorem State.updBooth_relight (f : Booth → Booth) : ((s.updBooth b f).relight b).closeBooth s b
    = { s with booths := s.booths.set b (((f (s.booth b)).relit (s.warned b) (s.cuedOut b)).closed (s.booth b)) } := by
  have changed : s.updBooth b f = s.setHall (s.booths.set b (f (s.booth b))) s.inner s.channels := rfl
  rw [changed, State.relight_setHall, State.closeBooth_setHall]
  rfl

end

/-! ## The console deadlines -/

section
variable {s : State} {b : BoothId} {n : ConsoleId}

theorem State.busyExpiry_of_some {d : Nat} (h : ((s.booth b).cons.console n).busy = some d) : s.busyExpiry b n =
    if s.part = .ready ∧ d ≤ s.clock.run then ((s.updConsole b n (fun c => { c with busy := none })).relight b).closeBooth s b else s := by
  unfold State.busyExpiry
  split
  · rename_i e
    cases e.symm.trans h
    rfl
  · rename_i e
    exact nomatch e.symm.trans h

theorem State.busyExpiry_of_none (h : ((s.booth b).cons.console n).busy = none) : s.busyExpiry b n = s := by
  unfold State.busyExpiry
  split
  · rename_i e
    exact nomatch e.symm.trans h
  · rfl

theorem State.offerExpiry_of_some {o : InternalOffer} (h : (s.booth b).cons.offer = some o) : s.offerExpiry b =
    if s.part = .ready ∧ o.deadline ≤ s.clock.run then ((s.updCons b (fun f => { f with offer := none })).relight b).closeBooth s b else s := by
  unfold State.offerExpiry
  split
  · rename_i e
    cases e.symm.trans h
    rfl
  · rename_i e
    exact nomatch e.symm.trans h

theorem State.offerExpiry_of_none (h : (s.booth b).cons.offer = none) : s.offerExpiry b = s := by
  unfold State.offerExpiry
  split
  · rename_i e
    exact nomatch e.symm.trans h
  · rfl

end

/-- Settles O27. -/
theorem consoleDeadlines : Obligations.ConsoleDeadlines := by
  intro b n s old
  refine ⟨fun d ready busy due => ?_, fun early => ?_, fun o ready offer due => ?_, fun early => ?_, fun ready gap due => ?_, fun early => ?_⟩
  · refine ⟨(((s.booth b).setConsole n (fun c => { c with busy := none })).relit (s.warned b) (s.cuedOut b)).closed (s.booth b), ?_, ?_, ?_, ?_, ?_,
      fun k => Booth.relit_lamp _ _ _ _ k⟩
    · show Host.Outcome.next (s.busyExpiry b n) = _
      rw [State.busyExpiry_of_some busy, if_pos ⟨ready, due⟩]
      exact congrArg _ (s.updBooth_relight b _)
    · rw [Booth.closed_cons, Booth.relit_console, Booth.setConsole_console, if_pos rfl]
    · rw [Booth.closed_link]; rfl
    · rw [Booth.closed_role]; rfl
    · rw [Booth.closed_cons]; rfl
  · show Host.Outcome.next (s.busyExpiry b n) = _
    cases busy : ((s.booth b).cons.console n).busy with
    | none => rw [State.busyExpiry_of_none busy]
    | some d =>
      rw [State.busyExpiry_of_some busy, if_neg]
      rintro ⟨ready, due⟩
      exact early.elim (fun h => h ready) (fun h => absurd (h d busy) (Nat.not_lt.mpr due))
  · refine ⟨(({ s.booth b with cons := { (s.booth b).cons with offer := none } } : Booth).relit (s.warned b) (s.cuedOut b)).closed (s.booth b),
      ?_, ?_, ?_, ?_, fun k => Booth.relit_lamp _ _ _ _ k⟩
    · show Host.Outcome.next (s.offerExpiry b) = _
      rw [State.offerExpiry_of_some offer, if_pos ⟨ready, due⟩]
      exact congrArg _ (s.updBooth_relight b _)
    · rw [Booth.closed_link]; rfl
    · rw [Booth.closed_role]; rfl
    · rw [Booth.closed_cons]; rfl
  · show Host.Outcome.next (s.offerExpiry b) = _
    cases offer : (s.booth b).cons.offer with
    | none => rw [State.offerExpiry_of_none offer]
    | some o =>
      rw [State.offerExpiry_of_some offer, if_neg]
      rintro ⟨ready, due⟩
      exact early.elim (fun h => h ready) (fun h => absurd (h o offer) (Nat.not_lt.mpr due))
  · refine ⟨_, rfl, ?_⟩
    have expired : s.gapExpiry b n = (s.turnHanded b n .micOff).setHall (s.booths.set b
        ((((s.booth b).turnEnded n s.clock.run).relit (s.warned b) (s.cuedOut b)).closed (s.booth b))) s.inner s.channels := by
      unfold State.gapExpiry
      dsimp only
      rw [if_pos ⟨ready, gap, due⟩, State.endTurn_eq, State.relight_setHall, State.closeBooth_setHall]
      rfl
    have record (d : BoothId) : (s.gapExpiry b n).booth d = if d = b then
        (((s.booth b).turnEnded n s.clock.run).relit (s.warned b) (s.cuedOut b)).closed (s.booth b) else s.booth d := by
      rw [expired]
      exact get_set _ _ _ _
    refine ⟨?_, ?_, ?_, fun d other => ?_⟩
    · rw [record, if_pos rfl, Booth.closed_cons, Booth.relit_console, Booth.turnEnded_console, if_pos rfl]
      exact ConsoleRec.ended_turn _ _
    · rw [record, if_pos rfl, Booth.closed_cons]
      rfl
    · have handed : s.turnHanded b n .micOff = s.handTurn
          { booth := b, console := n, cause := .micOff, channel := (old.console n).turnChannel
            interpreter := (old.console n).turnInterpreter, relief := (old.console n).reliefReached
            clockUnset := (old.console n).clockUnset, clockSet := (old.console n).clockSet, start := (old.console n).turnStamp, merged := 0
            span := ((old.console n).liveEnd - (old.console n).turnStart) / 1024, onMic := (old.console n).onMic / 1024 } := by
        have turn : ((s.booth b).cons.console n).turn = .gap := gap
        have running : ((s.booth b).cons.console n).turn ≠ .running := by rw [turn]; decide
        unfold State.turnHanded State.handFinal ConsoleRec.finalRecord
        rw [if_neg (by rw [turn]; decide)]
        dsimp only
        rw [if_neg running, if_neg running]
      have inner := (s.turnHanded_only b n .micOff) .inner (by decide)
      have channels := (s.turnHanded_only b n .micOff) .channels (by decide)
      rw [← handed]
      show s.gapExpiry b n = _
      rw [expired, ← inner, ← channels]
      rfl
    · rw [record, if_neg other]
  · show Host.Outcome.next (s.gapExpiry b n) = _
    unfold State.gapExpiry
    dsimp only
    rw [if_neg]
    rintro ⟨ready, gap, due⟩
    rcases early with h | h | h
    · exact h ready
    · exact h gap
    · exact absurd due (Nat.not_le.mpr h)

/-! ## Turn records handed beside an order -/

section
variable {n : SlotId} {rest : List SlotId} {s t : State}

theorem State.Beside.waitTally (h : s.Beside n rest t) (o : WaitOwner) (r : TallyRecord) : (s.waitTally o r).Beside n rest (t.waitTally o r) := by
  have list := h.same (fun u => u.log.waiting) (fun _ => rfl)
  have waited := h.map (f := fun u => ({ u with log := { u.log with waiting := u.log.waiting ++ [{ owner := o, record := r }] } } : State))
    (fun _ => rfl) rfl
  unfold State.waitTally
  dsimp only
  rw [show t.log.waiting.isEmpty = s.log.waiting.isEmpty by rw [list]]
  split
  · exact waited.raise .log
  · exact waited

theorem State.Beside.logBlocked (h : s.Beside n rest t) : t.logBlocked = s.logBlocked := by
  have log := h.same (fun u => u.log) (fun _ => rfl)
  unfold State.logBlocked State.logRoom
  rw [h.unread, log]

theorem State.Beside.handTally (h : s.Beside n rest t) (o : WaitOwner) (r : TallyRecord) : (s.handTally o r).Beside n rest (t.handTally o r) := by
  unfold State.handTally
  rw [h.logBlocked]
  split
  · exact h.waitTally o r
  · exact h.writeTally r

theorem State.Beside.handTurn (h : s.Beside n rest t) (r : TurnRecord) : (s.handTurn r).Beside n rest (t.handTurn r) := by
  have log := h.same (fun u => u.log) (fun _ => rfl)
  unfold State.handTurn
  dsimp only
  rw [show (t.log.waiting.any fun w => w.owner = WaitOwner.console r.booth r.console)
    = s.log.waiting.any (fun w => w.owner = WaitOwner.console r.booth r.console) by rw [log]]
  split
  · exact h.map (f := fun u =>
      ({ u with log := { u.log with waiting := mergeWaiting (.console r.booth r.console) r u.log.waiting } } : State)) (fun _ => rfl) rfl
  · exact h.handTally _ _

theorem State.Beside.handFinal (h : s.Beside n rest t) (c : ConsoleRec) (b : BoothId) (k : ConsoleId) (cause : TurnEnd) (tick : Nat) :
    (s.handFinal c b k cause tick).Beside n rest (t.handFinal c b k cause tick) := by
  unfold State.handFinal
  split
  · exact h
  · exact h.handTurn _

theorem State.Beside.setHall (h : s.Beside n rest t) (v : Vector Booth 24) (x : Vector BoothInner 24) (c : Vector Channel 32) :
    (s.setHall v x c).Beside n rest (t.setHall v x c) := h.map (f := fun u => u.setHall v x c) (fun _ => rfl) rfl

end

/-! ## SEAT_ASSIGN -/

/-- The booth with another interpreter at a console: the open turn ended, and a new one opened where the console is live (R69). -/
def Booth.reseated (r : Booth) (n : ConsoleId) (who : BitVec 24) (k : Nat) (stamp : Stamp × Bool) : Booth :=
  let r1 := (r.turnEnded n k).setConsole n (fun c => { c with interpreter := who })
  if r.cons.live = some n then r1.setConsole n (fun c => c.opened k stamp r.role.fed) else r1

section
variable (s : State) (b : BoothId) (n : ConsoleId) (who : BitVec 24)

theorem State.seat_eq : s.seat b n who = (s.turnHanded b n .seat).setHall
    (s.booths.set b ((((s.booth b).reseated n who s.clock.run (s.clock.stamp s.clock.run)).relit (s.warned b) (s.cuedOut b)).closed
      (s.booth b))) s.inner s.channels := by
  have ended : (s.endTurn b n .seat).updConsole b n (fun c => { c with interpreter := who }) = (s.turnHanded b n .seat).setHall
      (s.booths.set b (((s.booth b).turnEnded n s.clock.run).setConsole n (fun c => { c with interpreter := who }))) s.inner s.channels := by
    rw [State.endTurn_eq, State.updConsole_setHall]
  unfold State.seat Booth.reseated
  dsimp only
  rw [ended]
  split
  · rw [State.updConsole_setHall, State.relight_setHall, State.closeBooth_setHall]
    rfl
  · rw [State.relight_setHall, State.closeBooth_setHall]
    rfl

theorem Booth.reseated_eq (r : Booth) (k : Nat) (stamp : Stamp × Bool) : r.reseated n who k stamp =
    { r with cons := { r.cons with each := (r.reseated n who k stamp).cons.each } } := by
  unfold Booth.reseated
  dsimp only
  split <;> rfl

theorem Booth.reseated_console (r : Booth) (k : Nat) (stamp : Stamp × Bool) (m : ConsoleId) :
    (r.reseated n who k stamp).cons.console m =
      if m = n then
        if r.cons.live = some n then ({ (r.cons.console n).ended k with interpreter := who } : ConsoleRec).opened k stamp r.role.fed
        else { (r.cons.console n).ended k with interpreter := who }
      else r.cons.console m := by
  unfold Booth.reseated
  dsimp only
  by_cases own : m = n
  · subst own
    rw [if_pos rfl]
    split
    · rw [Booth.setConsole_console, if_pos rfl, Booth.setConsole_console, if_pos rfl, Booth.turnEnded_console, if_pos rfl]
    · rw [Booth.setConsole_console, if_pos rfl, Booth.turnEnded_console, if_pos rfl]
  · rw [if_neg own]
    split
    · rw [Booth.setConsole_console, if_neg own, Booth.setConsole_console, if_neg own, Booth.turnEnded_console, if_neg own]
    · rw [Booth.setConsole_console, if_neg own, Booth.turnEnded_console, if_neg own]

end

theorem workSeatAssign_of {s : State} {m : SlotId} {b : BoothId} {n : ConsoleId} (hb : s.param8 m 0 = b.val) (hn : s.param8 m 1 = n.val + 1) :
    workSeatAssign s m =
      if (s.booth b).link.definition.defined = false ∨ (s.booth b).cons.inUse ≤ n.val then refuse s .notFound
      else if BitVec.ofNat 24 (s.paramLE m 2 3) = ((s.booth b).cons.console n).interpreter then
        (s, some (Result.doneAlready (leBytes 3 ((s.booth b).cons.console n).interpreter.toNat ++ [0])))
      else (s.seat b n (BitVec.ofNat 24 (s.paramLE m 2 3)),
        some (Result.done (leBytes 3 ((s.booth b).cons.console n).interpreter.toNat ++ [if ((s.booth b).cons.console n).turnOpen then 1 else 0]))) := by
  unfold workSeatAssign
  rw [hb, hn, index?_val, show n.val + 1 - 1 = n.val from rfl, index?_val]
  dsimp only
  rw [if_neg (by omega)]

theorem workSeatAssign_wrong {s : State} {m : SlotId} (wrong : 23 < s.param8 m 0 ∨ s.param8 m 1 = 0 ∨ 3 < s.param8 m 1) :
    workSeatAssign s m = refuse s .badArgument := by
  unfold workSeatAssign
  split
  · rename_i b n hb hn
    have booth := index?_eq_some.mp hb
    have console := index?_eq_some.mp hn
    exact if_pos (by omega)
  · rfl

theorem ConsoleRec.turnOpen_iff (c : ConsoleRec) : c.turnOpen = true ↔ c.turn ≠ .idle := bne_iff_ne

/-- Settles O28. -/
theorem seatAssignEndsTheTurn : Obligations.SeatAssignEndsTheTurn := by
  intro s m rest h
  refine ⟨fun wrong => State.completes_work h (State.takes_kind h) rfl rfl fun k hk => ?_, fun b n hb hn => ?_⟩
  · rw [workSeatAssign_wrong (by rwa [hk.param8 rest (by omega), hk.param8 rest (by omega)])]
    rfl
  · intro old who known
    have worked (k : Memory) (hk : SlotTaken s m k) := workSeatAssign_of (s := s.taken k rest) (m := m) (b := b) (n := n)
      (by rw [hk.param8 rest (by omega), hb]) (by rw [hk.param8 rest (by omega), hn])
    have found : known → ¬ ((s.booth b).link.definition.defined = false ∨ (s.booth b).cons.inUse ≤ n.val) := by
      rintro ⟨defined, used⟩ (e | e)
      · exact absurd defined (by rw [e]; decide)
      · omega
    refine ⟨fun unknown => State.completes_work h (State.takes_kind h) rfl rfl fun k hk => (worked k hk).trans (if_pos ?_),
      fun yes same => State.completes_work h (State.takes_kind h) rfl rfl fun k hk => ?_, fun yes other => ?_⟩
    · by_contra none
      obtain ⟨defined, used⟩ := not_or.mp none
      exact unknown ⟨Bool.not_eq_false _ ▸ defined, Nat.lt_of_not_le used⟩
    · rw [worked k hk, hk.paramLE rest (by omega)]
      refine (if_neg (found yes)).trans ((if_pos same).trans ?_)
      rw [show who = old.interpreter from same]
    · have beside := h.beside
      obtain ⟨_, k, hk, taken⟩ := h.beside
      have record (d : BoothId) : (s.seat b n who).booth d = if d = b then
          (((s.booth b).reseated n who s.clock.run (s.clock.stamp s.clock.run)).relit (s.warned b) (s.cuedOut b)).closed (s.booth b)
          else s.booth d := by
        rw [State.seat_eq]
        exact get_set _ _ _ _
      have console (j : ConsoleId) : ((s.seat b n who).booth b).cons.console j
          = { ((s.booth b).reseated n who s.clock.run (s.clock.stamp s.clock.run)).cons.console j with
            lamp := (((s.seat b n who).booth b).cons.console j).lamp } := by
        rw [record, if_pos rfl, Booth.closed_cons, Booth.relit_console]
      refine ⟨s.seat b n who, State.completes_beside (u := (s.takeSlot m rest).seat b n who) h (State.takes_kind h) rfl ?_ ?_,
        ?_, ?_, ?_, ?_, ?_, ?_, ?_, ?_, ?_⟩
      · rw [taken, worked k hk, hk.paramLE rest (by omega)]
        refine (if_neg (found yes)).trans ((if_neg other).trans ?_)
        refine congrArg (fun x => ((s.taken k rest).seat b n who, some (Result.done (leBytes 3 old.interpreter.toNat ++ [x])))) ?_
        by_cases idle : old.turn = .idle
        · rw [if_pos idle, if_neg (fun e => (ConsoleRec.turnOpen_iff _).mp e idle)]
        · rw [if_neg idle, if_pos ((ConsoleRec.turnOpen_iff _).mpr idle)]
      · rw [taken] at beside ⊢
        rw [State.seat_eq, State.seat_eq]
        exact (beside.handFinal _ b n .seat s.clock.run).setHall _ _ _
      · rw [console, Booth.reseated_console, if_pos rfl]
        split <;> rfl
      · intro quiet
        rw [console, Booth.reseated_console, if_pos rfl, if_neg quiet]
        exact ConsoleRec.ended_turn _ _
      · intro live
        rw [console, Booth.reseated_console, if_pos rfl, if_pos live]
        exact ⟨rfl, rfl, rfl, rfl, rfl, rfl⟩
      · have inner := (s.turnHanded_only b n .seat) .inner (by decide)
        have channels := (s.turnHanded_only b n .seat) .channels (by decide)
        show s.seat b n who = { s.turnHanded b n .seat with booths := (s.seat b n who).booths }
        rw [State.seat_eq, ← inner, ← channels]
        rfl
      · intro j distinct
        rw [console, Booth.reseated_console, if_neg distinct]
      · rw [record, if_pos rfl, Booth.closed_link, Booth.relit, Booth.reseated_eq]
      · rw [record, if_pos rfl, Booth.closed_role, Booth.relit, Booth.reseated_eq]
      · rw [record, if_pos rfl, Booth.closed_cons, Booth.relit, Booth.reseated_eq]
      · intro d other
        rw [record, if_neg other]

end Sys2Proof.Machine
end

section
/-!
SUPPORT. Console events (chapter 4): what every event taken does and leaves, and each event's own effect (O25, O26).
-/
namespace Sys2Proof.Machine

/-- A record rewritten is the record changed, bracketed or not. -/
theorem rewritten_or {α : Type} [DecidableEq α] (bump : α → α) (f : α → α) (r : α) :
    rewritten bump f r = f r ∨ rewritten bump f r = bump (f r) := by
  unfold rewritten
  split
  · rename_i e
    exact .inl e.symm
  · exact .inr rfl

/-! ## What an event's own work leaves -/

/-- Consoles alike but for their lamp. -/
def ConsoleRec.litAs (c d : ConsoleRec) : Prop := ∃ x : ConsoleLamp, c = { d with lamp := x }

theorem ConsoleRec.litAs_refl (c : ConsoleRec) : c.litAs c := ⟨c.lamp, rfl⟩

theorem ConsoleRec.litAs.eq {c d : ConsoleRec} (h : c.litAs d) : c = { d with lamp := c.lamp } := by
  obtain ⟨x, rfl⟩ := h
  rfl

theorem ConsoleRec.litAs.lit {c d : ConsoleRec} (h : c.litAs d) (x : ConsoleLamp) : ({ c with lamp := x } : ConsoleRec).litAs d := by
  obtain ⟨y, rfl⟩ := h
  exact ⟨x, rfl⟩

/-- What the work of an event of console `n` of booth `b` leaves, before the event and the lamps are written (R55). -/
structure State.Keying (s u : State) (b : BoothId) (n : ConsoleId) : Prop where
  only : u = { s with booths := u.booths, inner := u.inner, channels := u.channels }
  link : (u.booth b).link = (s.booth b).link
  role : (u.booth b).role = (s.booth b).role
  cons : ∃ (x : Option ConsoleId) (y : Option InternalOffer) (z : Vector ConsoleRec 3),
    (u.booth b).cons = { (s.booth b).cons with claimed := x, offer := y, each := z }
  others : ∀ k : ConsoleId, k ≠ n → ((u.booth b).cons.console k).litAs ((s.booth b).cons.console k)
  own : ∃ (x : ConsoleLamp) (y : Option Nat), (u.booth b).cons.console n = { (s.booth b).cons.console n with lamp := x, busy := y }
  booths : ∀ d : BoothId, d ≠ b → (u.booth d).link = (s.booth d).link ∧ (u.booth d).role = (s.booth d).role ∧ u.inside d = s.inside d
    ∧ (∃ z : Vector ConsoleRec 3, (u.booth d).cons = { (s.booth d).cons with each := z })
    ∧ ∀ k : ConsoleId, ((u.booth d).cons.console k).litAs ((s.booth d).cons.console k)

/-- The event written, the lamps recomputed and the bracket closed (R55, R61). -/
def State.keyEnd (u s : State) (b : BoothId) (n : ConsoleId) (e : LastEvent) (o : EventOutcome) : State :=
  ((u.updConsole b n (fun c => { c with lastEvent := e, lastOutcome := o })).relight b).closeBooth s b

section
variable {s u : State} {b : BoothId} {n : ConsoleId} {e : LastEvent} {o : EventOutcome}

theorem State.Keying.refl (s : State) (b : BoothId) (n : ConsoleId) : s.Keying s b n where
  only := rfl
  link := rfl
  role := rfl
  cons := ⟨_, _, _, rfl⟩
  others _ _ := ConsoleRec.litAs_refl _
  own := ⟨_, _, rfl⟩
  booths _ _ := ⟨rfl, rfl, rfl, ⟨_, rfl⟩, fun _ => ConsoleRec.litAs_refl _⟩

theorem State.keyEnd_booth (u s : State) (d : BoothId) : (u.keyEnd s b n e o).booth d = if d = b then
    (((u.booth b).setConsole n (fun c => { c with lastEvent := e, lastOutcome := o })).relit (u.warned b) (u.cuedOut b)).closed (s.booth b)
    else u.booth d := by
  have changed : u.updConsole b n (fun c => { c with lastEvent := e, lastOutcome := o })
    = u.setHall (u.booths.set b ((u.booth b).setConsole n (fun c => { c with lastEvent := e, lastOutcome := o }))) u.inner u.channels := rfl
  unfold State.keyEnd
  rw [changed, State.relight_setHall, State.closeBooth_setHall]
  exact get_set _ _ _ _

theorem State.keyEnd_console (k : ConsoleId) : ((u.keyEnd s b n e o).booth b).cons.console k =
    { (if k = n then { (u.booth b).cons.console n with lastEvent := e, lastOutcome := o } else (u.booth b).cons.console k) with
      lamp := (((u.keyEnd s b n e o).booth b).cons.console k).lamp } := by
  rw [State.keyEnd_booth, if_pos rfl, Booth.closed_cons, Booth.relit_console, Booth.setConsole_console]

/-- Every event taken does what R55 says of all. -/
theorem State.Keying.keyed (h : s.Keying u b n) : s.keyed (u.keyEnd s b n e o) b n e o := by
  have record := State.keyEnd_booth (b := b) (n := n) (e := e) (o := o) u s
  have console := State.keyEnd_console (b := b) (n := n) (e := e) (o := o) (s := s) (u := u)
  obtain ⟨claimed, offer, each, cons⟩ := h.cons
  refine ⟨?_, ?_, ?_, ?_, fun k other => ?_, ?_, fun k => ?_, fun d other => ?_⟩
  · have same : u.keyEnd s b n e o = { u with booths := (u.keyEnd s b n e o).booths } := rfl
    rw [same, h.only]
  · rw [record, if_pos rfl, Booth.closed_link]
    exact h.link
  · rw [record, if_pos rfl, Booth.closed_role]
    exact h.role
  · rw [record, if_pos rfl, Booth.closed_cons, Booth.relit, Booth.setConsole, cons]
  · refine ConsoleRec.litAs.eq ?_
    rw [console, if_neg other]
    exact (h.others k other).lit _
  · obtain ⟨x, y, own⟩ := h.own
    rw [console, if_pos rfl, own]
  · rw [record, if_pos rfl]
    exact Booth.relit_lamp _ _ _ _ k
  · obtain ⟨link, role, inside, ⟨z, cons⟩, each⟩ := h.booths d other
    rw [record, if_neg other]
    exact ⟨link, role, inside, by rw [cons], fun k => (each k).eq⟩

theorem State.Keying.updInner (h : s.Keying u b n) (g : BoothInner → BoothInner) : s.Keying (u.updInner b g) b n where
  only := congrArg (fun x : State => ({ x with inner := (u.updInner b g).inner } : State)) h.only
  link := h.link
  role := h.role
  cons := h.cons
  others := h.others
  own := h.own
  booths d other := by
    obtain ⟨link, role, inside, rest⟩ := h.booths d other
    exact ⟨link, role, (State.inside_updInner u b d g).trans ((if_neg other).trans inside), rest⟩

theorem State.Keying.writeChannel (h : s.Keying u b n) (c : ChannelId) (g : Channel → Channel) : s.Keying (u.writeChannel c g) b n where
  only := congrArg (fun x : State => ({ x with channels := (u.writeChannel c g).channels } : State)) h.only
  link := h.link
  role := h.role
  cons := h.cons
  others := h.others
  own := h.own
  booths := h.booths

/-- The claim and the offer of the booth written. -/
theorem State.Keying.claim (s : State) (b : BoothId) (n : ConsoleId) (f : ConsoleFields → ConsoleFields)
    (hf : ∃ (x : Option ConsoleId) (y : Option InternalOffer), f (s.booth b).cons = { (s.booth b).cons with claimed := x, offer := y }) :
    s.Keying (s.updCons b f) b n := by
  obtain ⟨x, y, hf⟩ := hf
  have record : (s.updCons b f).booth b = { s.booth b with cons := { (s.booth b).cons with claimed := x, offer := y } } := by
    rw [State.updCons, State.booth_updBooth, if_pos rfl, hf]
  have others (d : BoothId) (h : d ≠ b) : (s.updCons b f).booth d = s.booth d := by
    rw [State.updCons, State.booth_updBooth, if_neg h]
  exact
    { only := rfl
      link := by rw [record]
      role := by rw [record]
      cons := ⟨x, y, (s.booth b).cons.each, by rw [record]⟩
      others := fun k _ => by rw [record]; exact ConsoleRec.litAs_refl _
      own := ⟨_, _, by rw [record]⟩
      booths := fun d h => by rw [others d h]; exact ⟨rfl, rfl, rfl, ⟨_, rfl⟩, fun _ => ConsoleRec.litAs_refl _⟩ }

/-- A refused event's busy deadline (R59). -/
theorem State.Keying.refuseKey (s : State) (b : BoothId) (n : ConsoleId) : s.Keying (s.refuseKey b n).1 b n := by
  have record : (s.refuseKey b n).1.booth b = (s.booth b).setConsole n (fun c => { c with busy := some (s.clock.run + 2048) }) :=
    (State.booth_updBooth s b b _).trans (if_pos rfl)
  have others (d : BoothId) (h : d ≠ b) : (s.refuseKey b n).1.booth d = s.booth d := (State.booth_updBooth s b d _).trans (if_neg h)
  exact
    { only := rfl
      link := by rw [record]; rfl
      role := by rw [record]; rfl
      cons := ⟨_, _, _, by rw [record]; rfl⟩
      others := fun k h => by rw [record, Booth.setConsole_console, if_neg h]; exact ConsoleRec.litAs_refl _
      own := ⟨_, _, by rw [record, Booth.setConsole_console, if_pos rfl]⟩
      booths := fun d h => by rw [others d h]; exact ⟨rfl, rfl, rfl, ⟨_, rfl⟩, fun _ => ConsoleRec.litAs_refl _⟩ }

/-- The lamps of a booth recomputed. -/
theorem State.Keying.relampOpt (h : s.Keying u b n) (p : Option BoothId) : s.Keying (u.relampOpt p) b n := by
  cases p with
  | none => exact h
  | some p =>
    have lit (d : BoothId) : ∃ z : Vector ConsoleRec 3, ((u.relamp p).booth d).link = (u.booth d).link
        ∧ ((u.relamp p).booth d).role = (u.booth d).role ∧ ((u.relamp p).booth d).cons = { (u.booth d).cons with each := z }
        ∧ ∀ k : ConsoleId, z[k].litAs ((u.booth d).cons.console k) := by
      rw [State.relamp, State.booth_rewriteBooth]
      by_cases same : d = p
      · subst same
        rw [if_pos rfl]
        rcases rewritten_or Booth.bump (fun bt => bt.relit (u.warned d) (u.cuedOut d)) (u.booth d) with e | e
        · rw [e]
          exact ⟨_, rfl, rfl, rfl, fun k => ⟨_, Booth.relit_console _ _ _ k⟩⟩
        · rw [e]
          exact ⟨_, rfl, rfl, rfl, fun k => ⟨_, Booth.relit_console _ _ _ k⟩⟩
      · rw [if_neg same]
        exact ⟨_, rfl, rfl, rfl, fun _ => ConsoleRec.litAs_refl _⟩
    obtain ⟨own, link, role, cons, each⟩ := lit b
    obtain ⟨x, y, z, was⟩ := h.cons
    have console (k : ConsoleId) : (((u.relamp p).booth b).cons.console k).litAs ((u.booth b).cons.console k) := by
      rw [cons]
      exact each k
    exact
      { only := congrArg (fun x : State => ({ x with booths := (u.relamp p).booths } : State)) h.only
        link := link.trans h.link
        role := role.trans h.role
        cons := ⟨x, y, own, by show ((u.relamp p).booth b).cons = _; rw [cons, was]⟩
        others := fun k other => by
          obtain ⟨a, e⟩ := console k
          show (((u.relamp p).booth b).cons.console k).litAs _
          rw [e]
          exact (h.others k other).lit a
        own := by
          obtain ⟨a, e⟩ := console n
          obtain ⟨a', y', e'⟩ := h.own
          exact ⟨a, y', by show ((u.relamp p).booth b).cons.console n = _; rw [e, e']⟩
        booths := fun d other => by
          obtain ⟨z', link, role, cons, each⟩ := lit d
          obtain ⟨link', role', inside, ⟨z, cons'⟩, each'⟩ := h.booths d other
          refine ⟨link.trans link', role.trans role', inside, ⟨z', ?_⟩, fun k => ?_⟩
          · show ((u.relamp p).booth d).cons = _
            rw [cons, cons']
          · show (((u.relamp p).booth d).cons.console k).litAs _
            rw [cons]
            obtain ⟨a, e⟩ := each k
            rw [show (({ (u.booth d).cons with each := z' } : ConsoleFields).console k) = z'[k] from rfl, e]
            exact (each' k).lit a }

/-! ## An event taken -/

theorem State.keyEnd_cons : ∃ z : Vector ConsoleRec 3, ((u.keyEnd s b n e o).booth b).cons = { (u.booth b).cons with each := z } := by
  rw [State.keyEnd_booth, if_pos rfl, Booth.closed_cons]
  exact ⟨_, rfl⟩

theorem State.keyEnd_claimed : ((u.keyEnd s b n e o).booth b).cons.claimed = (u.booth b).cons.claimed := by
  obtain ⟨z, h⟩ := State.keyEnd_cons (s := s) (u := u) (b := b) (n := n) (e := e) (o := o)
  rw [h]

theorem State.keyEnd_offer : ((u.keyEnd s b n e o).booth b).cons.offer = (u.booth b).cons.offer := by
  obtain ⟨z, h⟩ := State.keyEnd_cons (s := s) (u := u) (b := b) (n := n) (e := e) (o := o)
  rw [h]

theorem State.keyEnd_busy : (((u.keyEnd s b n e o).booth b).cons.console n).busy = ((u.booth b).cons.console n).busy := by
  rw [State.keyEnd_console, if_pos rfl]

theorem State.takeEvent_of_used {k : EventKind} (used : n.val < (s.booth b).cons.inUse) :
    s.takeEvent b k n = (s.keyWork b n k).1.keyEnd s b n (lastEventOf k) (s.keyWork b n k).2 := if_neg (Nat.not_le.mpr used)

theorem State.takeEvent_of_unused {k : EventKind} (unused : (s.booth b).cons.inUse ≤ n.val) : s.takeEvent b k n =
    s.writeBooth b (fun r => { r with cons := { r.cons with ignored := satAdd 16 r.cons.ignored 1 } }) := if_pos unused

theorem console?_of {m : Fin 4} (h : m.val = n.val + 1) : console? m = some n := by
  have at_ : index? 3 (m.val - 1) = some n := by rw [h]; exact index?_val n
  unfold console?
  rw [at_]
  exact if_neg (fun e => by rw [e] at h; exact absurd h (by simp))

theorem console?_zero : console? 0 = none := rfl

theorem State.deliver_of_up {k : EventKind} {m : Fin 4} (up : s.boothUp b) (h : m.val = n.val + 1) : s.deliver b k m = s.takeEvent b k n := by
  unfold State.deliver
  rw [if_pos ⟨up.1, State.isLive_iff.mpr up.2⟩, console?_of h]

theorem State.deliver_of_zero {k : EventKind} (up : s.boothUp b) : s.deliver b k 0 = (s.dropEvent b).closeBooth s b := by
  unfold State.deliver
  rw [if_pos ⟨up.1, State.isLive_iff.mpr up.2⟩, console?_zero]

theorem State.deliver_of_down {k : EventKind} {m : Fin 4} (down : ¬ s.boothUp b) : s.deliver b k m = s :=
  if_neg (fun h => down ⟨h.1, State.isLive_iff.mp h.2⟩)

/-! ## The six events -/

theorem Option.any_iff {α : Type} (x : Option α) (p : α → Bool) : x.any p = true ↔ ∃ a, x = some a ∧ p a = true := by
  cases x <;> simp

theorem State.refuseKey_busy : (((s.refuseKey b n).1.booth b).cons.console n).busy = some (s.clock.run + 2048) := by
  rw [show (s.refuseKey b n).1.booth b = (s.booth b).setConsole n (fun c => { c with busy := some (s.clock.run + 2048) }) from
    (State.booth_updBooth s b b _).trans (if_pos rfl), Booth.setConsole_console, if_pos rfl]

theorem State.refuseKey_cons :
    ((s.refuseKey b n).1.booth b).cons = ((s.booth b).setConsole n (fun c => { c with busy := some (s.clock.run + 2048) })).cons := by
  rw [show (s.refuseKey b n).1.booth b = _ from (State.booth_updBooth s b b _).trans (if_pos rfl)]
  rfl

theorem State.updCons_cons (f : ConsoleFields → ConsoleFields) : ((s.updCons b f).booth b).cons = f (s.booth b).cons := by
  rw [State.updCons, State.booth_updBooth, if_pos rfl]

/-- What an event taken does, with the claim, the offer, the console's busy deadline and the channels that it leaves. -/
structure State.KeyDone (s t : State) (b : BoothId) (n : ConsoleId) (e : LastEvent) (o : EventOutcome) (claimed : Option ConsoleId)
    (offer : Option InternalOffer) (busy : Option Nat) (channels : Vector Channel 32) : Prop where
  keyed : s.keyed t b n e o
  claimed : (t.booth b).cons.claimed = claimed
  offer : (t.booth b).cons.offer = offer
  busy : ((t.booth b).cons.console n).busy = busy
  channels : t.channels = channels

theorem State.Keying.done (h : s.Keying u b n) : s.KeyDone (u.keyEnd s b n e o) b n e o (u.booth b).cons.claimed (u.booth b).cons.offer
    ((u.booth b).cons.console n).busy u.channels :=
  ⟨h.keyed, State.keyEnd_claimed, State.keyEnd_offer, State.keyEnd_busy, rfl⟩

theorem State.keyDone_same : s.KeyDone (s.keyEnd s b n e o) b n e o (s.booth b).cons.claimed (s.booth b).cons.offer
    ((s.booth b).cons.console n).busy s.channels := (State.Keying.refl s b n).done

theorem State.keyDone_refused : s.KeyDone ((s.refuseKey b n).1.keyEnd s b n e o) b n e o (s.booth b).cons.claimed (s.booth b).cons.offer
    (some (s.clock.run + 2048)) s.channels := by
  have done := (State.Keying.refuseKey s b n).done (e := e) (o := o)
  rw [State.refuseKey_busy, State.refuseKey_cons] at done
  exact done

theorem State.keyDone_claim {f : ConsoleFields → ConsoleFields} {x : Option ConsoleId} {y : Option InternalOffer}
    (hf : f (s.booth b).cons = { (s.booth b).cons with claimed := x, offer := y }) :
    s.KeyDone ((s.updCons b f).keyEnd s b n e o) b n e o x y ((s.booth b).cons.console n).busy s.channels := by
  have done := (State.Keying.claim s b n f ⟨x, y, hf⟩).done (e := e) (o := o)
  rw [State.updCons_cons, hf] at done
  exact done

theorem State.keyDone_claimBy {f : ConsoleFields → ConsoleFields} {x : Option ConsoleId} {y : Option InternalOffer}
    (g : BoothInner → BoothInner) (hf : f (s.booth b).cons = { (s.booth b).cons with claimed := x, offer := y }) :
    s.KeyDone (((s.updCons b f).updInner b g).keyEnd s b n e o) b n e o x y ((s.booth b).cons.console n).busy s.channels := by
  have done := ((State.Keying.claim s b n f ⟨x, y, hf⟩).updInner g).done (e := e) (o := o)
  have cons : (((s.updCons b f).updInner b g).booth b).cons = f (s.booth b).cons := State.updCons_cons f
  rw [cons, hf] at done
  exact done

theorem State.keyDone_channel (c : ChannelId) (g : Channel → Channel) :
    s.KeyDone ((s.writeChannel c g).keyEnd s b n e o) b n e o (s.booth b).cons.claimed (s.booth b).cons.offer
      ((s.booth b).cons.console n).busy (s.channels.set c (g (s.channel c)).bump) := ((State.Keying.refl s b n).writeChannel c g).done

/-- The lamps of a booth leave claims, offers and busy deadlines. -/
theorem State.relampOpt_cons (u : State) (p : Option BoothId) (b : BoothId) :
    ((u.relampOpt p).booth b).cons.claimed = (u.booth b).cons.claimed ∧ ((u.relampOpt p).booth b).cons.offer = (u.booth b).cons.offer
      ∧ ∀ n : ConsoleId, (((u.relampOpt p).booth b).cons.console n).busy = ((u.booth b).cons.console n).busy := by
  cases p with
  | none => exact ⟨rfl, rfl, fun _ => rfl⟩
  | some p =>
    show ((u.relamp p).booth b).cons.claimed = _ ∧ ((u.relamp p).booth b).cons.offer = _
      ∧ ∀ n : ConsoleId, (((u.relamp p).booth b).cons.console n).busy = _
    rw [State.relamp, State.booth_rewriteBooth]
    split
    · rename_i same
      subst same
      rcases rewritten_or Booth.bump (fun bt => bt.relit (u.warned b) (u.cuedOut b)) (u.booth b) with e | e
      · rw [e]
        exact ⟨rfl, rfl, fun n => by rw [Booth.relit_console]⟩
      · rw [e]
        refine ⟨rfl, rfl, fun n => ?_⟩
        show (((u.booth b).relit (u.warned b) (u.cuedOut b)).cons.console n).busy = _
        rw [Booth.relit_console]
    · exact ⟨rfl, rfl, fun _ => rfl⟩

theorem State.keyDone_offer (c : ChannelId) (g : Channel → Channel) (p : Option BoothId) :
    s.KeyDone (((s.writeChannel c g).relampOpt p).keyEnd s b n e o) b n e o (s.booth b).cons.claimed (s.booth b).cons.offer
      ((s.booth b).cons.console n).busy (s.channels.set c (g (s.channel c)).bump) := by
  have done := (((State.Keying.refl s b n).writeChannel c g).relampOpt p).done (e := e) (o := o)
  obtain ⟨claimed, offer, busy⟩ := State.relampOpt_cons (s.writeChannel c g) p b
  have channels : ((s.writeChannel c g).relampOpt p).channels = s.channels.set c (g (s.channel c)).bump := by cases p <;> rfl
  rw [claimed, offer, busy, channels] at done
  exact done

/-- An event of a console in use on a booth that is up, worked. -/
theorem State.key_next {k : EventKind} {m : Fin 4} (up : s.boothUp b) (h : m.val = n.val + 1) (used : n.val < (s.booth b).cons.inUse)
    {x : EventWork} (work : s.keyWork b n k = x) : s.deliver b k m = x.1.keyEnd s b n (lastEventOf k) x.2 := by
  rw [State.deliver_of_up up h, State.takeEvent_of_used used, work]

theorem State.keyMicOn_free (free : (s.booth b).cons.claimed = none) : s.keyMicOn b n =
    ((s.updCons b (fun f => { f with claimed := some n })).updInner b (fun i => { i with accepted := false }), .taken) := by
  unfold State.keyMicOn
  split
  · rfl
  · rename_i e
    exact nomatch e.symm.trans free

theorem State.keyMicOn_claimed {m : ConsoleId} (claimed : (s.booth b).cons.claimed = some m) :
    s.keyMicOn b n = if m = n then (s, .ignored) else s.refuseKey b n := by
  unfold State.keyMicOn
  split
  · rename_i e
    exact nomatch e.symm.trans claimed
  · rename_i e
    cases e.symm.trans claimed
    rfl

end

section
variable {s : State} {b : BoothId} {n : ConsoleId}

theorem State.keyAccept_passed {c : ChannelId} (mine : (s.booth b).cons.claimed = some n) (offered : s.offeredTo b = some c) :
    s.keyAccept b n = (s.writeChannel c Channel.acceptOffer, .passed) := by
  unfold State.keyAccept
  rw [if_pos mine, offered]

theorem State.keyAccept_mine (mine : (s.booth b).cons.claimed = some n) (none : s.offeredTo b = none) :
    s.keyAccept b n = s.keyMicOn b n := by
  unfold State.keyAccept
  rw [if_pos mine, none]

theorem State.keyAccept_other (other : (s.booth b).cons.claimed ≠ some n) : s.keyAccept b n =
    if (s.booth b).cons.offer.any (fun o => o.offerer != n) then
      ((s.updCons b (fun f => { f with offer := none, claimed := some n })).updInner b (fun i => { i with accepted := true }), .taken)
    else s.keyMicOn b n := if_neg other

theorem State.keyCancel_withdrawn (mine : (s.booth b).cons.offer.any (fun o => o.offerer == n) = true) :
    s.keyCancel b n = (s.updCons b (fun f => f.withdraw n), .taken) := if_pos mine

theorem State.keyCancel_passed {c : ChannelId} (mine : (s.booth b).cons.offer.any (fun o => o.offerer == n) = false)
    (claimed : (s.booth b).cons.claimed = some n) (offered : s.offeredBy b = some c) : s.keyCancel b n =
      ((s.writeChannel c (fun r => { r with offer := none })).relampOpt (s.channel c).standbyBooth, .passed) := by
  unfold State.keyCancel
  rw [if_neg (by rw [mine]; decide), if_pos claimed, offered]

theorem State.keyCancel_ignored (mine : (s.booth b).cons.offer.any (fun o => o.offerer == n) = false)
    (idle : (s.booth b).cons.claimed ≠ some n ∨ s.offeredBy b = none) : s.keyCancel b n = (s, .ignored) := by
  unfold State.keyCancel
  rw [if_neg (by rw [mine]; decide)]
  by_cases claimed : (s.booth b).cons.claimed = some n
  · rw [if_pos claimed, idle.resolve_left (not_not.mpr claimed)]
  · rw [if_neg claimed]

theorem State.canOfferOut_iff {c : ChannelId} : s.canOfferOut b c = true ↔ (s.channel c).ownerBooth = some b
    ∧ (s.channel c).pairing = .valid ∧ (s.channel c).schedule = none ∧ (s.channel c).offer = none ∧ (s.channel c).move = none := by
  unfold State.canOfferOut
  simp only [Bool.and_eq_true, beq_iff_eq, Option.isNone_iff_eq_none, and_assoc]

theorem State.keyOfferOut_passed {c : ChannelId} (may : (s.booth b).cons.claimed = some n ∧ (s.booth b).cons.offer = none)
    (named : (s.booth b).role.named = some c) (can : s.canOfferOut b c = true) : s.keyOfferOut b n =
      ((s.writeChannel c (fun r => { r with
        offer := some { console := n, deadline := s.clock.run + secTicks s.timers.acceptWindow } })).relampOpt (s.channel c).standbyBooth,
        .passed) := by
  unfold State.keyOfferOut
  rw [if_pos may, named]
  exact if_pos can

theorem State.keyOfferOut_refused (cannot : ∀ c : ChannelId, ((s.booth b).cons.claimed = some n ∧ (s.booth b).cons.offer = none) →
    (s.booth b).role.named = some c → s.canOfferOut b c = false) : s.keyOfferOut b n = s.refuseKey b n := by
  unfold State.keyOfferOut
  split
  · rename_i may
    split
    · rename_i c named
      exact if_neg (by rw [cannot c may named]; decide)
    · rfl
  · rfl

theorem State.keyEnd_inside {u : State} {e : LastEvent} {o : EventOutcome} : (u.keyEnd s b n e o).inside b = u.inside b := rfl

end

/-- A booth record with a dropped event counted (R47). -/
def State.dropped (s : State) (b : BoothId) : Booth :=
  { s.booth b with link := { (s.booth b).link with
    counts := { (s.booth b).link.counts with dropped := satAdd 16 (s.booth b).link.counts.dropped 1 } } }

/-- Settles O25. -/
theorem microphoneInterlock : Obligations.MicrophoneInterlock := by
  refine ⟨fun b k s i mem => ?_, fun b k n s up hk used => ?_⟩
  · have row : ∃ e : EventKind, exec i s = .next (s.deliver b e k) := by
      simp only [keyRows, List.mem_cons, List.not_mem_nil, or_false] at mem
      rcases mem with rfl | rfl | rfl | rfl | rfl | rfl
      exacts [⟨_, rfl⟩, ⟨_, rfl⟩, ⟨_, rfl⟩, ⟨_, rfl⟩, ⟨_, rfl⟩, ⟨_, rfl⟩]
    obtain ⟨e, row⟩ := row
    rw [row]
    refine ⟨fun down => by rw [State.deliver_of_down down], fun up zero => ?_, fun up nonzero unused => ?_⟩
    · subst zero
      rw [State.deliver_of_zero up]
      refine ⟨(s.dropped b).closed (s.booth b), ?_, ?_, ?_, ?_⟩
      · have changed : s.dropEvent b = s.setHall (s.booths.set b (s.dropped b)) s.inner s.channels := rfl
        rw [changed, State.closeBooth_setHall]
        rfl
      · rw [Booth.closed_link]
        rfl
      · rw [Booth.closed_cons]
        rfl
      · rw [Booth.closed_role]
        rfl
    · have hk : k.val = (k.val - 1) + 1 := (Nat.succ_pred (Fin.val_ne_zero_iff.mpr nonzero)).symm
      rw [State.deliver_of_up (n := ⟨k.val - 1, by omega⟩) up hk, State.takeEvent_of_unused (by dsimp only; omega)]
      rfl
  · intro old
    refine ⟨⟨s.deliver b .micOn k, rfl, ?_⟩, ⟨s.deliver b .micOff k, rfl, ?_⟩⟩
    · by_cases free : (s.booth b).cons.claimed = none
      · rw [State.key_next up hk used (show s.keyWork b n .micOn = _ from State.keyMicOn_free free)]
        obtain ⟨keyed, claimed, offer, busy, channels⟩ := State.keyDone_claimBy (s := s) (b := b) (n := n) (e := .micOn) (o := .taken)
          (f := fun f => { f with claimed := some n }) (fun i => { i with accepted := false }) rfl
        refine ⟨channels, offer, fun _ => ⟨keyed, claimed, busy⟩, fun e => ?_, fun m e => ?_⟩
        · exact nomatch free.symm.trans e
        · exact nomatch free.symm.trans e
      · obtain ⟨m, taken⟩ := Option.ne_none_iff_exists'.mp free
        by_cases own : m = n
        · subst own
          rw [State.key_next up hk used (show s.keyWork b m .micOn = _ from (State.keyMicOn_claimed taken).trans (if_pos rfl))]
          obtain ⟨keyed, claimed, offer, busy, channels⟩ := State.keyDone_same (s := s) (b := b) (n := m) (e := .micOn) (o := .ignored)
          exact ⟨channels, offer, fun e => absurd e free, fun _ => ⟨keyed, claimed.trans taken, busy⟩,
            fun k e other => absurd (Option.some.inj (e.symm.trans taken)) other⟩
        · rw [State.key_next up hk used (show s.keyWork b n .micOn = _ from (State.keyMicOn_claimed taken).trans (if_neg own))]
          obtain ⟨keyed, claimed, offer, busy, channels⟩ := State.keyDone_refused (s := s) (b := b) (n := n) (e := .micOn) (o := .refused)
          exact ⟨channels, offer, fun e => absurd e free, fun e => absurd (Option.some.inj (taken.symm.trans e)) own,
            fun k e _ => ⟨keyed, claimed.trans e, busy⟩⟩
    · by_cases mine : (s.booth b).cons.claimed = some n
      · rw [State.key_next up hk used (show s.keyWork b n .micOff = _ from if_pos mine)]
        obtain ⟨keyed, claimed, offer, busy, channels⟩ := State.keyDone_claimBy (s := s) (b := b) (n := n) (e := .micOff) (o := .taken)
          (f := fun f => { f.withdraw n with claimed := none }) (fun i => { i with accepted := false }) rfl
        exact ⟨channels, busy, fun _ => ⟨keyed, claimed, offer⟩, fun e => absurd mine e⟩
      · rw [State.key_next up hk used (show s.keyWork b n .micOff = _ from if_neg mine)]
        obtain ⟨keyed, claimed, offer, busy, channels⟩ := State.keyDone_same (s := s) (b := b) (n := n) (e := .micOff) (o := .ignored)
        exact ⟨channels, busy, fun e => absurd e mine, fun _ => ⟨keyed, claimed, offer⟩⟩

/-- Settles O26. -/
theorem offersWithinAndBetweenBooths : Obligations.OffersWithinAndBetweenBooths := by
  intro b k n s up hk used old
  have same (e : LastEvent) (o : EventOutcome) := State.keyDone_same (s := s) (b := b) (n := n) (e := e) (o := o)
  have refused (e : LastEvent) := State.keyDone_refused (s := s) (b := b) (n := n) (e := e) (o := .refused)
  have next {e : EventKind} {x : EventWork} (work : s.keyWork b n e = x) := State.key_next up hk used work
  refine ⟨⟨s.deliver b .offer k, rfl, ?_⟩, ⟨s.deliver b .accept k, rfl, ?_⟩, ⟨s.deliver b .cancel k, rfl, ?_⟩, ?_⟩
  · by_cases may : (s.booth b).cons.claimed = some n ∧ (s.booth b).cons.offer = none
    · rw [next (show s.keyWork b n .offer = _ from if_pos may)]
      obtain ⟨keyed, claimed, offer, busy, channels⟩ := State.keyDone_claim (s := s) (b := b) (n := n) (e := .offer) (o := .taken)
        (f := fun f => { f with offer := some { offerer := n, deadline := s.clock.run + secTicks s.timers.acceptWindow } }) rfl
      exact ⟨channels, claimed, fun _ => ⟨keyed, offer⟩, fun no => absurd may no⟩
    · rw [next (show s.keyWork b n .offer = _ from if_neg may)]
      obtain ⟨keyed, claimed, offer, busy, channels⟩ := refused .offer
      exact ⟨channels, claimed, fun yes => absurd yes may, fun _ => ⟨keyed, offer, busy⟩⟩
  · by_cases mine : (s.booth b).cons.claimed = some n
    · have elsewhere (m : ConsoleId) (e : old.claimed = some m) (h : m ≠ n) : False := h (Option.some.inj (e.symm.trans mine))
      cases offered : s.offeredTo b with
      | some c =>
        rw [next (show s.keyWork b n .accept = _ from State.keyAccept_passed mine offered)]
        obtain ⟨keyed, claimed, offer, busy, channels⟩ := State.keyDone_channel (s := s) (b := b) (n := n) (e := .accept) (o := .passed) c
          Channel.acceptOffer
        refine ⟨fun d _ e => ?_, fun _ e => (nomatch e), fun o other => absurd mine other, fun free => ?_, fun m e h => (elsewhere m e h).elim⟩
        · cases e
          exact ⟨keyed, claimed.trans mine, channels⟩
        · exact nomatch free.symm.trans mine
      | none =>
        have own : s.keyAccept b n = (s, .ignored) :=
          (State.keyAccept_mine mine offered).trans ((State.keyMicOn_claimed mine).trans (if_pos rfl))
        rw [next (show s.keyWork b n .accept = _ from own)]
        obtain ⟨keyed, claimed, offer, busy, channels⟩ := same .accept .ignored
        refine ⟨fun d _ e => (nomatch e), fun _ _ => ⟨keyed, claimed.trans mine, channels⟩, fun o other => absurd mine other, fun free => ?_,
          fun m e h => (elsewhere m e h).elim⟩
        exact nomatch free.symm.trans mine
    · by_cases offered : (s.booth b).cons.offer.any (fun o => o.offerer != n) = true
      · have passed := (State.keyAccept_other mine).trans (if_pos offered)
        obtain ⟨o, offer', distinct⟩ := (Option.any_iff _ _).mp offered
        have against (h : ∀ x : InternalOffer, old.offer = some x → x.offerer = n) : False := bne_iff_ne.mp distinct (h o offer')
        rw [next (show s.keyWork b n .accept = _ from passed)]
        obtain ⟨keyed, claimed, offer, busy, channels⟩ := State.keyDone_claimBy (s := s) (b := b) (n := n) (e := .accept) (o := .taken)
          (f := fun f => { f with offer := none, claimed := some n }) (fun i => { i with accepted := true }) rfl
        refine ⟨fun _ e => absurd e mine, fun e => absurd e mine, fun x _ _ _ => ⟨keyed, claimed, offer, ?_, channels⟩,
          fun _ h => (against h).elim, fun _ _ _ h => (against h).elim⟩
        rw [State.keyEnd_inside, State.inside_updInner, if_pos rfl]
      · have passed : s.keyAccept b n = s.keyMicOn b n := (State.keyAccept_other mine).trans (if_neg offered)
        have against (x : InternalOffer) (e : old.offer = some x) (h : x.offerer ≠ n) : False :=
          offered ((Option.any_iff _ _).mpr ⟨x, e, bne_iff_ne.mpr h⟩)
        by_cases free : (s.booth b).cons.claimed = none
        · rw [next (show s.keyWork b n .accept = _ from passed.trans (State.keyMicOn_free free))]
          obtain ⟨keyed, claimed, offer, busy, channels⟩ := State.keyDone_claimBy (s := s) (b := b) (n := n) (e := .accept) (o := .taken)
            (f := fun f => { f with claimed := some n }) (fun i => { i with accepted := false }) rfl
          refine ⟨fun _ e => absurd e mine, fun e => absurd e mine, fun x _ e h => (against x e h).elim,
            fun _ _ => ⟨keyed, claimed, channels⟩, fun m e => ?_⟩
          exact nomatch free.symm.trans e
        · obtain ⟨m, taken⟩ := Option.ne_none_iff_exists'.mp free
          have other : m ≠ n := fun e => mine (e ▸ taken)
          rw [next (show s.keyWork b n .accept = _ from passed.trans ((State.keyMicOn_claimed taken).trans (if_neg other)))]
          obtain ⟨keyed, claimed, offer, busy, channels⟩ := refused .accept
          exact ⟨fun _ e => absurd e mine, fun e => absurd e mine, fun x _ e h => (against x e h).elim, fun e => absurd e free,
            fun k e _ _ => ⟨keyed, claimed.trans e, busy, channels⟩⟩
  · by_cases mine : (s.booth b).cons.offer.any (fun o => o.offerer == n) = true
    · rw [next (show s.keyWork b n .cancel = _ from State.keyCancel_withdrawn mine)]
      obtain ⟨keyed, claimed, offer, busy, channels⟩ := State.keyDone_claim (s := s) (b := b) (n := n) (e := .cancel) (o := .taken)
        (f := fun f => f.withdraw n) (x := (s.booth b).cons.claimed) (y := none) (by rw [ConsoleFields.withdraw, if_pos mine])
      exact ⟨claimed, fun _ => ⟨keyed, offer, channels⟩, fun c no => absurd (no.symm.trans mine) (by decide),
        fun no => absurd (no.1.symm.trans mine) (by decide)⟩
    · have not : (s.booth b).cons.offer.any (fun o => o.offerer == n) = false := Bool.not_eq_true _ ▸ mine
      by_cases passes : (s.booth b).cons.claimed = some n ∧ s.offeredBy b ≠ none
      · obtain ⟨claims, some⟩ := passes
        obtain ⟨c, offered⟩ := Option.ne_none_iff_exists'.mp some
        rw [next (show s.keyWork b n .cancel = _ from State.keyCancel_passed not claims offered)]
        obtain ⟨keyed, claimed, offer, busy, channels⟩ := State.keyDone_offer (s := s) (b := b) (n := n) (e := .cancel) (o := .passed) c
          (fun r => { r with offer := none }) (s.channel c).standbyBooth
        refine ⟨claimed, fun yes => absurd yes mine, fun d _ _ e => ?_, fun no => ?_⟩
        · cases offered.symm.trans e
          exact ⟨keyed, offer, channels⟩
        · exact absurd no.2 (not_or.mpr ⟨not_not.mpr claims, some⟩)
      · have idle : (s.booth b).cons.claimed ≠ some n ∨ s.offeredBy b = none := by
          by_contra h
          obtain ⟨claims, some⟩ := not_or.mp h
          exact passes ⟨not_not.mp claims, some⟩
        rw [next (show s.keyWork b n .cancel = _ from State.keyCancel_ignored not idle)]
        obtain ⟨keyed, claimed, offer, busy, channels⟩ := same .cancel .ignored
        refine ⟨claimed, fun yes => absurd yes mine, fun c _ claims e => ?_, fun _ => ⟨keyed, offer, channels⟩⟩
        exact absurd ⟨claims, fun none => nomatch none.symm.trans e⟩ passes
  · intro may
    refine ⟨s.deliver b .offerOut k, rfl, ?_⟩
    by_cases could : ∃ c : ChannelId, may c
    · obtain ⟨c, claims, unoffered, named, owner, pairing, schedule, free, move⟩ := could
      have can : s.canOfferOut b c = true := State.canOfferOut_iff.mpr ⟨owner, pairing, schedule, free, move⟩
      rw [next (show s.keyWork b n .offerOut = _ from State.keyOfferOut_passed ⟨claims, unoffered⟩ named can)]
      obtain ⟨keyed, claimed, offer, busy, channels⟩ := State.keyDone_offer (s := s) (b := b) (n := n) (e := .offerOut) (o := .passed) c
        (fun r => { r with offer := some { console := n, deadline := s.clock.run + secTicks s.timers.acceptWindow } })
        (s.channel c).standbyBooth
      refine ⟨claimed, offer, fun d hd => ?_, fun no => ?_⟩
      · obtain ⟨_, _, named', _⟩ := hd
        cases named.symm.trans named'
        exact ⟨keyed, channels⟩
      · exact absurd ⟨c, claims, unoffered, named, owner, pairing, schedule, free, move⟩ no
    · have cannot : s.keyOfferOut b n = s.refuseKey b n := State.keyOfferOut_refused (fun c claims named => by
        rw [Bool.eq_false_iff]
        exact fun can => could ⟨c, claims.1, claims.2, named, State.canOfferOut_iff.mp can⟩)
      rw [next (show s.keyWork b n .offerOut = _ from cannot)]
      obtain ⟨keyed, claimed, offer, busy, channels⟩ := refused .offerOut
      exact ⟨claimed, offer, fun c hc => absurd ⟨c, hc⟩ could, fun _ => ⟨keyed, channels, busy⟩⟩

end Sys2Proof.Machine
end

section
/-!
SUPPORT. The channel router's check (R77, R81), and what the blocks do when a link leaves or enters LIVE (R48, R49, R60, R70).
-/
namespace Sys2Proof.Machine

/-! ## Lamps of the booths of a channel -/

/-- Booth records alike but for lamps and the change counter. -/
def Booth.litAs (r q : Booth) : Prop := ∃ (x : Half) (z : Vector ConsoleRec 3),
  r = { q with changes := x, cons := { q.cons with each := z } } ∧ ∀ k : ConsoleId, z[k].litAs (q.cons.console k)

/-- Every lamp shows what R61's table gives. -/
def Booth.shows (r : Booth) (w c : Bool) : Prop := ∀ k : ConsoleId, (r.cons.console k).lamp = r.lampOf w c k

theorem Booth.litAs_refl (r : Booth) : r.litAs r := ⟨_, _, rfl, fun _ => ConsoleRec.litAs_refl _⟩

theorem Booth.litAs.trans {r q p : Booth} (h : r.litAs q) (g : q.litAs p) : r.litAs p := by
  obtain ⟨x, z, rfl, each⟩ := h
  obtain ⟨y, z', rfl, each'⟩ := g
  refine ⟨x, z, rfl, fun k => ?_⟩
  obtain ⟨l, e⟩ := each k
  rw [e]
  exact (each' k).lit l

theorem Booth.litAs.link {r q : Booth} (h : r.litAs q) : r.link = q.link := by
  obtain ⟨_, _, rfl, _⟩ := h
  rfl

theorem Booth.litAs.role {r q : Booth} (h : r.litAs q) : r.role = q.role := by
  obtain ⟨_, _, rfl, _⟩ := h
  rfl

theorem Booth.litAs.cons {r q : Booth} (h : r.litAs q) : ∃ z : Vector ConsoleRec 3, r.cons = { q.cons with each := z } := by
  obtain ⟨_, z, rfl, _⟩ := h
  exact ⟨z, rfl⟩

theorem Booth.litAs.console {r q : Booth} (h : r.litAs q) (k : ConsoleId) : (r.cons.console k).litAs (q.cons.console k) := by
  obtain ⟨_, z, rfl, each⟩ := h
  exact each k

theorem Booth.litAs_closed (r old : Booth) : (r.closed old).litAs r := by
  unfold Booth.closed
  split
  · exact r.litAs_refl
  · exact ⟨_, r.cons.each, rfl, fun _ => ConsoleRec.litAs_refl _⟩

theorem Booth.litAs_relit (r : Booth) (w c : Bool) : (r.relit w c).litAs r :=
  ⟨r.changes, (r.relit w c).cons.each, rfl, fun k => ⟨_, r.relit_console w c k⟩⟩

/-- Lamps are computed from no lamp. -/
theorem Booth.litAs.lampOf {r q : Booth} (h : r.litAs q) (w c : Bool) (k : ConsoleId) : r.lampOf w c k = q.lampOf w c k := by
  have lit (j : ConsoleId) := h.console j
  have relief : r.cons.relief = q.cons.relief := by
    rw [Bool.eq_iff_iff, ConsoleFields.relief_iff, ConsoleFields.relief_iff]
    refine exists_congr (fun j => ?_)
    obtain ⟨_, e⟩ := lit j
    rw [e]
    rfl
  have busy : r.cons.each[k].busy = q.cons.each[k].busy := by
    obtain ⟨_, e⟩ := lit k
    rw [show r.cons.each[k] = _ from e]
  obtain ⟨z, cons⟩ := h.cons
  unfold Booth.lampOf
  rw [relief, busy, h.link, h.role]
  rw [show r.cons.inUse = q.cons.inUse by rw [cons], show r.cons.offer = q.cons.offer by rw [cons],
    show r.cons.live = q.cons.live by rw [cons]]

theorem Booth.shows_relit (r : Booth) (w c : Bool) : (r.relit w c).shows w c := fun k => by
  rw [Booth.relit_console, Booth.lampOf_relit]

/-- The lamps of a booth recomputed in a bracket where one changes. -/
theorem Booth.rewritten_relit (r : Booth) (w c : Bool) :
    (rewritten Booth.bump (fun bt => bt.relit w c) r).litAs r ∧ (rewritten Booth.bump (fun bt => bt.relit w c) r).shows w c := by
  rcases rewritten_or Booth.bump (fun bt => bt.relit w c) r with e | e
  · rw [e]
    exact ⟨r.litAs_relit w c, r.shows_relit w c⟩
  · rw [e]
    exact ⟨⟨_, _, rfl, fun k => ⟨_, r.relit_console w c k⟩⟩, r.shows_relit w c⟩

section
variable (s : State)

theorem State.relampOpt_channels (p : Option BoothId) : (s.relampOpt p).channels = s.channels := by cases p <;> rfl

/-- The lamps of one booth recomputed: those of the booth show R61's table, and nothing else changes. -/
theorem State.relampOpt_booth (p : Option BoothId) (d : BoothId) : ((s.relampOpt p).booth d).litAs (s.booth d)
    ∧ (p = some d → ((s.relampOpt p).booth d).shows (s.warned d) (s.cuedOut d))
    ∧ ((s.booth d).shows (s.warned d) (s.cuedOut d) → ((s.relampOpt p).booth d).shows (s.warned d) (s.cuedOut d)) := by
  cases p with
  | none => exact ⟨Booth.litAs_refl _, fun e => (nomatch e), id⟩
  | some p =>
    show ((s.relamp p).booth d).litAs _ ∧ (_ → ((s.relamp p).booth d).shows _ _) ∧ (_ → ((s.relamp p).booth d).shows _ _)
    rw [State.relamp, State.booth_rewriteBooth]
    split
    · rename_i e
      subst e
      obtain ⟨lit, shown⟩ := (s.booth d).rewritten_relit (s.warned d) (s.cuedOut d)
      exact ⟨lit, fun _ => shown, fun _ => shown⟩
    · rename_i other
      exact ⟨Booth.litAs_refl _, fun e => absurd (Option.some.inj e).symm other, id⟩

/-- The lamps of both booths of a channel recomputed. -/
theorem State.relampChannel_booth (c : ChannelId) (d : BoothId) : ((s.relampChannel c).booth d).litAs (s.booth d)
    ∧ ((s.channel c).names d → ((s.relampChannel c).booth d).shows (s.warned d) (s.cuedOut d))
    ∧ ((s.booth d).shows (s.warned d) (s.cuedOut d) → ((s.relampChannel c).booth d).shows (s.warned d) (s.cuedOut d)) := by
  obtain ⟨lit, first, kept⟩ := s.relampOpt_booth (s.channel c).primary d
  obtain ⟨lit', second, kept'⟩ := (s.relampOpt (s.channel c).primary).relampOpt_booth (s.channel c).partner d
  have channels := s.relampOpt_channels (s.channel c).primary
  have warned : (s.relampOpt (s.channel c).primary).warned d = s.warned d := by rw [State.warned, State.warned, channels]
  have cued : (s.relampOpt (s.channel c).primary).cuedOut d = s.cuedOut d := by rw [State.cuedOut, State.cuedOut, channels]
  rw [warned, cued] at second kept'
  refine ⟨lit'.trans lit, ?_, fun shown => kept' (kept shown)⟩
  rintro (primary | partner)
  · exact kept' (first primary)
  · exact second partner

end

/-! ## The check of one channel -/

/-- A channel record once the bracket over its work is closed (R3). -/
def Channel.closed (r old : Channel) : Channel := if r = old then r else r.bump

/-- The owner's loss hold started (R77). -/
def Channel.lost (r : Channel) (b : BoothId) (k : Nat) : Channel :=
  if r.defined ∧ r.ownerBooth = some b then { r with downSince := k } else r

section
variable (s : State) (b : BoothId)

theorem State.channel_closeChannel (o : State) (c d : ChannelId) :
    (s.closeChannel o c).channel d = if d = c then (s.channel c).closed (o.channel c) else s.channel d :=
  State.channel_updChannel s c d _

/-- A channel written twice. -/
theorem State.updChannel_set (c : ChannelId) (r : Channel) (f : Channel → Channel) :
    ({ s with channels := s.channels.set c r } : State).updChannel c f = { s with channels := s.channels.set c (f r) } := by
  show ({ s with channels := (s.channels.set c r).set c (f (s.channels.set c r)[c]) } : State) = _
  rw [get_set, if_pos rfl, Vector.set_set]

/-- The router's check written for one channel, its bracket closed and the lamps of its booths recomputed (R61, R81). -/
def State.recheck (s : State) (c : ChannelId) (r : Channel) : State :=
  { s with channels := s.channels.set c ((r.paired (s.pairingOf r)).closed (s.channel c)) }

theorem State.routerUp_of {c : ChannelId} (h : (s.booth b).role.named = some c) :
    s.routerUp b = (s.recheck c (s.channel c)).relampChannel c := by
  have checked : (s.checkPairing c).closeChannel s c = s.recheck c (s.channel c) := by
    exact State.updChannel_set s c _ _
  unfold State.routerUp
  split
  · rename_i e
    cases e.symm.trans h
    rw [checked]
  · rename_i e
    exact nomatch e.symm.trans h

theorem State.routerUp_none (h : (s.booth b).role.named = none) : s.routerUp b = s := by
  unfold State.routerUp
  split
  · rename_i e
    exact nomatch e.symm.trans h
  · rfl

theorem State.routerDown_of {c : ChannelId} (h : (s.booth b).role.named = some c) :
    s.routerDown b = (s.recheck c ((s.channel c).lost b s.clock.run)).relampChannel c := by
  have checked : ((s.updChannel c (fun r => if r.defined ∧ r.ownerBooth = some b then { r with downSince := s.clock.run } else r)).checkPairing
      c).closeChannel s c = s.recheck c ((s.channel c).lost b s.clock.run) := by
    have first : (s.updChannel c (fun r => if r.defined ∧ r.ownerBooth = some b then { r with downSince := s.clock.run } else r)).checkPairing c
        = { s with channels := s.channels.set c (((s.channel c).lost b s.clock.run).paired (s.pairingOf ((s.channel c).lost b s.clock.run))) } :=
      State.updChannel_set s c ((s.channel c).lost b s.clock.run) _
    rw [first]
    exact State.updChannel_set s c _ _
  unfold State.routerDown
  split
  · rename_i e
    cases e.symm.trans h
    dsimp only
    rw [checked]
  · rename_i e
    exact nomatch e.symm.trans h

theorem State.routerDown_none (h : (s.booth b).role.named = none) : s.routerDown b = s := by
  unfold State.routerDown
  split
  · rename_i e
    exact nomatch e.symm.trans h
  · rfl

theorem State.pairingOf_unpaired {c : Channel} (h : c.partner = none) : s.pairingOf c = (.unpaired, .noFault) := by
  unfold State.pairingOf
  split
  · rename_i e
    exact nomatch e.symm.trans h
  · rfl

theorem State.pairingOf_pair {c : Channel} {p q : BoothId} (hp : c.primary = some p) (hq : c.partner = some q) : s.pairingOf c =
    if (s.booth p).link.state ≠ .live then (.fault, .primaryDown)
    else if (s.booth q).link.state ≠ .live then (.fault, .partnerDown)
    else if (s.booth p).link.announced.lang ≠ c.lang ∨ (s.booth q).link.announced.lang ≠ c.lang then (.fault, .code)
    else if (s.booth p).link.announced.format ≠ (s.booth q).link.announced.format then (.fault, .format)
    else (.valid, .noFault) := by
  have down (x : BoothId) : (s.isLive x = false) = ((s.booth x).link.state ≠ .live) := by
    rw [← Bool.not_eq_true, State.isLive_iff]
  unfold State.pairingOf
  split
  · rename_i e e'
    cases e.symm.trans hp
    cases e'.symm.trans hq
    simp only [down]
  · rename_i none
    exact (none p q hp hq).elim

end

/-- A pairing check's record is what R81 says of the two links. -/
theorem Channel.paired_pairedBy {s t : State} {c : Channel} {p q : BoothId} {x : Half} (hp : c.primary = some p) (hq : c.partner = some q)
    (link : ∀ d : BoothId, (t.booth d).link = (s.booth d).link) :
    t.pairedBy p q { c.paired (s.pairingOf c) with changes := x } := by
  unfold State.pairedBy Channel.paired
  rw [State.pairingOf_pair s hp hq, link p, link q]
  dsimp only
  refine ⟨fun h => ?_, fun h h' => ?_, fun h h' f => ?_, fun h h' f f' => ?_, fun h => ?_⟩
  · rw [if_pos h]
    exact ⟨rfl, rfl⟩
  · rw [if_neg (not_not.mpr h), if_pos h']
    exact ⟨rfl, rfl⟩
  · rw [if_neg (not_not.mpr h), if_neg (not_not.mpr h'), if_pos f]
    exact ⟨rfl, rfl⟩
  · rw [if_neg (not_not.mpr h), if_neg (not_not.mpr h'), if_neg (not_or.mpr ⟨not_not.mpr f, not_not.mpr f'⟩)]
    refine ⟨fun g => ?_, fun g => ?_⟩
    · rw [if_pos g]
      exact ⟨rfl, rfl⟩
    · rw [if_neg (not_not.mpr g)]
      exact ⟨rfl, rfl⟩
  · exact ⟨if_pos h, if_pos h⟩

/-! ## What the check does to the records named -/

theorem Channel.closed_eq (r old : Channel) : ∃ x : Half, r.closed old = { r with changes := x } := by
  unfold Channel.closed
  split
  · exact ⟨r.changes, rfl⟩
  · exact ⟨_, rfl⟩

/-- Under the naming law a booth is named by the one channel it records. -/
theorem State.names_iff {s : State} (law : s.namingOk) {b : BoothId} {c : ChannelId} :
    (s.channel c).names b ↔ (s.booth b).role.named = some c := by
  obtain ⟨_, _, _, _, each⟩ := law
  obtain ⟨primary, partner⟩ := each b c
  constructor
  · rintro (h | h)
    · exact (primary.mp h).1
    · exact (partner.mp h).1
  · intro h
    cases role : (s.booth b).role.role with
    | primary => exact .inl (primary.mpr ⟨h, role⟩)
    | partner => exact .inr (partner.mpr ⟨h, role⟩)

/-- A state before the router's check for booth `b`, whose channels differ from those of `s` at most in the offer and the move of the one
that names `b`. -/
structure State.Facing (s u : State) (b : BoothId) : Prop where
  named : (u.booth b).role.named = (s.booth b).role.named
  others : ∀ c : ChannelId, ¬ (s.channel c).names b → u.channel c = s.channel c
  own : ∀ c : ChannelId, ∃ (x : Half) (y : Option OutgoingOffer) (z : Option Role),
    u.channel c = { s.channel c with changes := x, offer := y, move := z }

theorem State.Facing.of_channels {s u : State} {b : BoothId} (named : (u.booth b).role.named = (s.booth b).role.named)
    (same : u.channels = s.channels) : s.Facing u b where
  named := named
  others c _ := by rw [State.channel, same]
  own c := ⟨(s.channel c).changes, (s.channel c).offer, (s.channel c).move, by rw [State.channel, same]⟩

section
variable {s u : State} {b : BoothId} {c : ChannelId} {r : Channel}

theorem State.recheck_channel (d : ChannelId) : ((u.recheck c r).relampChannel c).channel d =
    if d = c then (r.paired (u.pairingOf r)).closed (u.channel c) else u.channel d := by
  have same := ((u.recheck c r).relampChannel_only c) .channels (by decide)
  rw [State.channel, same]
  exact get_set _ _ _ _

/-- The check of the channel that names a booth is the recheck of R77 and R81. -/
theorem State.Facing.rechecked (h : s.Facing u b) (law : s.namingOk) (named : (s.booth b).role.named = some c)
    (hr : ∃ (x : Half) (k : Nat) (y : Option OutgoingOffer) (z : Option Role),
      r = { s.channel c with changes := x, downSince := k, offer := y, move := z }) :
    s.rechecked ((u.recheck c r).relampChannel c) b := by
  have lit := fun d => ((u.recheck c r).relampChannel_booth c d).1
  have link (d : BoothId) : (((u.recheck c r).relampChannel c).booth d).link = (u.booth d).link := (lit d).link
  obtain ⟨w, closed⟩ := (r.paired (u.pairingOf r)).closed_eq (u.channel c)
  intro d old new
  have names : old.names b ↔ d = c := (State.names_iff law).trans (by rw [named, Option.some.injEq, eq_comm])
  have channel := State.recheck_channel (u := u) (c := c) (r := r) d
  refine ⟨fun no => ?_, fun yes => ?_⟩
  · show ((u.recheck c r).relampChannel c).channel d = _
    rw [channel, if_neg (fun e => no (names.mpr e))]
    exact h.others d no
  · have own := names.mp yes
    subst own
    obtain ⟨x, k, y, z, hr⟩ := hr
    have new_eq : new = { r.paired (u.pairingOf r) with changes := w } := by
      show ((u.recheck d r).relampChannel d).channel d = _
      rw [channel, if_pos rfl, closed]
    have partner : r.partner = old.partner := by rw [hr]
    have primary : r.primary = old.primary := by rw [hr]
    refine ⟨fun none => ?_, fun p q hp hq => ?_, ?_, fun e hd => ?_⟩
    · rw [new_eq, Channel.paired, u.pairingOf_unpaired (partner.trans none)]
      exact ⟨rfl, rfl⟩
    · rw [new_eq]
      exact Channel.paired_pairedBy (primary.trans hp) (partner.trans hq) link
    · rw [new_eq, Channel.paired, hr]
    · have record : (u.recheck d r).channel d = { r.paired (u.pairingOf r) with changes := w } :=
        ((get_set _ _ _ _).trans (if_pos rfl)).trans closed
      have same : ((u.recheck d r).relampChannel d).channels = (u.recheck d r).channels := (u.recheck d r).relampChannel_only d .channels (by decide)
      have facing : ((u.recheck d r).channel d).names e := by
        rw [record]
        exact hd.imp primary.trans partner.trans
      have shown := ((u.recheck d r).relampChannel_booth d e).2.1 facing
      rw [show ((u.recheck d r).relampChannel d).warned e = (u.recheck d r).warned e by rw [State.warned, State.warned, same],
        show ((u.recheck d r).relampChannel d).cuedOut e = (u.recheck d r).cuedOut e by rw [State.cuedOut, State.cuedOut, same]]
      exact shown

/-- The router's check for a booth that leaves LIVE (R77, R81). -/
theorem State.Facing.down (h : s.Facing u b) (law : s.namingOk) : s.rechecked (u.routerDown b) b ∧ ∀ c : ChannelId, (s.channel c).names b →
    ((u.routerDown b).channel c).downSince = if (s.channel c).ownerBooth = some b then u.clock.run else (s.channel c).downSince := by
  cases named : (s.booth b).role.named with
  | none =>
    have unnamed (c : ChannelId) : ¬ (s.channel c).names b := fun e => nomatch named.symm.trans ((State.names_iff law).mp e)
    rw [State.routerDown_none u b (h.named.trans named)]
    exact ⟨fun c => ⟨fun _ => h.others c (unnamed c), fun yes => absurd yes (unnamed c)⟩, fun c yes => absurd yes (unnamed c)⟩
  | some c =>
    obtain ⟨x, y, z, own⟩ := h.own c
    have lost : (u.channel c).lost b u.clock.run = { s.channel c with
        changes := x, offer := y, move := z
        downSince := if (s.channel c).defined ∧ (s.channel c).ownerBooth = some b then u.clock.run else (s.channel c).downSince } := by
      rw [own]
      unfold Channel.lost
      by_cases owned : (s.channel c).defined ∧ (s.channel c).ownerBooth = some b
      · rw [if_pos owned]
        exact if_pos owned
      · rw [if_neg owned]
        exact if_neg owned
    rw [State.routerDown_of u b (h.named.trans named)]
    refine ⟨h.rechecked law named ⟨x, _, y, z, lost⟩, fun d yes => ?_⟩
    have own : d = c := Option.some.inj (((State.names_iff law).mp yes).symm.trans named)
    subst own
    obtain ⟨w, closed⟩ := (((u.channel d).lost b u.clock.run).paired (u.pairingOf ((u.channel d).lost b u.clock.run))).closed_eq (u.channel d)
    rw [State.recheck_channel, if_pos rfl, closed]
    have defined : (s.channel d).defined = true := by
      by_contra undefined
      obtain ⟨_, _, _, none, _⟩ := law
      obtain ⟨primary, partner⟩ := none d (Bool.not_eq_true _ ▸ undefined)
      rcases yes with yes | yes
      · exact nomatch primary.symm.trans yes
      · exact nomatch partner.symm.trans yes
    show ((u.channel d).lost b u.clock.run).downSince = _
    rw [lost]
    exact if_congr (and_iff_right defined) rfl rfl

/-- The router's check for a booth that enters LIVE (R77, R81). -/
theorem State.Facing.up (h : s.Facing u b) (law : s.namingOk) (same : u.channels = s.channels) : s.rechecked (u.routerUp b) b
    ∧ ∀ c : ChannelId, (s.channel c).names b → ((u.routerUp b).channel c).downSince = (s.channel c).downSince
      ∧ (((u.routerUp b).channel c).pairing ≠ .fault →
        ((u.routerUp b).channel c).offer = (s.channel c).offer ∧ ((u.routerUp b).channel c).move = (s.channel c).move) := by
  cases named : (s.booth b).role.named with
  | none =>
    have unnamed (c : ChannelId) : ¬ (s.channel c).names b := fun e => nomatch named.symm.trans ((State.names_iff law).mp e)
    rw [State.routerUp_none u b (h.named.trans named)]
    exact ⟨fun c => ⟨fun _ => h.others c (unnamed c), fun yes => absurd yes (unnamed c)⟩, fun c yes => absurd yes (unnamed c)⟩
  | some c =>
    have own : u.channel c = s.channel c := by rw [State.channel, same]
    rw [State.routerUp_of u b (h.named.trans named), own]
    refine ⟨h.rechecked law named ⟨_, _, _, _, rfl⟩, fun d yes => ?_⟩
    have is : d = c := Option.some.inj (((State.names_iff law).mp yes).symm.trans named)
    subst is
    obtain ⟨w, closed⟩ := ((s.channel d).paired (u.pairingOf (s.channel d))).closed_eq (u.channel d)
    rw [State.recheck_channel, if_pos rfl, closed]
    exact ⟨rfl, fun valid => ⟨if_neg valid, if_neg valid⟩⟩

end

end Sys2Proof.Machine
end
section
/-!
SUPPORT. What the blocks do when a link leaves or enters LIVE (R48, R49, R60, R70, R77).
-/
namespace Sys2Proof.Machine

/-! ## The turn records of a booth -/

/-- Consoles whose turns, if they end, leave the same record. -/
def ConsoleRec.sameTurn (c d : ConsoleRec) : Prop := c.turn = d.turn ∧ ∀ (b : BoothId) (n : ConsoleId) (cause : TurnEnd) (k : Nat),
  c.finalRecord b n cause k = d.finalRecord b n cause k

theorem ConsoleRec.sameTurn_refl (c : ConsoleRec) : c.sameTurn c := ⟨rfl, fun _ _ _ _ => rfl⟩

theorem State.handFinal_same (x : State) {c d : ConsoleRec} (h : c.sameTurn d) (b : BoothId) (n : ConsoleId) (cause : TurnEnd) (k : Nat) :
    x.handFinal c b n cause k = x.handFinal d b n cause k := by
  obtain ⟨turn, record⟩ := h
  unfold State.handFinal
  rw [turn, record]

/-- A state that differs from `s` in the hall's records alone, the turns of booth `b` being those of `s`. -/
structure State.TurnsOf (s u : State) (b : BoothId) : Prop where
  only : u = { s with booths := u.booths, inner := u.inner, channels := u.channels }
  turns : ∀ k : ConsoleId, ((u.booth b).cons.console k).sameTurn ((s.booth b).cons.console k)

section
variable {s u : State} {b : BoothId}

theorem State.TurnsOf.clock (h : s.TurnsOf u b) : u.clock = s.clock := by rw [h.only]

theorem State.TurnsOf.handed (h : s.TurnsOf u b) (cause : TurnEnd) :
    u.turnsHanded b cause = (s.turnsHanded b cause).setHall u.booths u.inner u.channels := by
  have each (x : State) (k : ConsoleId) : (x.setHall u.booths u.inner u.channels).handFinal ((u.booth b).cons.console k) b k cause u.clock.run
      = (x.handFinal ((s.booth b).cons.console k) b k cause s.clock.run).setHall u.booths u.inner u.channels := by
    rw [State.handFinal_same _ (h.turns k), h.clock, State.handFinal_setHall]
  have start : u = s.setHall u.booths u.inner u.channels := h.only
  show ((u.handFinal ((u.booth b).cons.console 0) b 0 cause u.clock.run).handFinal ((u.booth b).cons.console 1) b 1 cause
      u.clock.run).handFinal ((u.booth b).cons.console 2) b 2 cause u.clock.run = _
  have first := each s 0
  rw [← start] at first
  rw [first, each, each]
  rfl

/-! ## A booth that leaves LIVE -/

theorem Booth.lampOf_off {r : Booth} (off : r.link.state ≠ .live) (w c : Bool) (k : ConsoleId) : r.lampOf w c k = .dark := if_pos (.inl off)

/-- What the router's check at a departure does to the records of the booths: lamps at most, and dark ones stay dark off LIVE. -/
theorem State.routerDown_booth (d : BoothId) : ((u.routerDown b).booth d).litAs (u.booth d)
    ∧ ((u.booth d).link.state ≠ .live → (∀ k : ConsoleId, ((u.booth d).cons.console k).lamp = .dark) →
        ∀ k : ConsoleId, (((u.routerDown b).booth d).cons.console k).lamp = .dark) := by
  cases named : (u.booth b).role.named with
  | none =>
    rw [State.routerDown_none u b named]
    exact ⟨Booth.litAs_refl _, fun _ dark => dark⟩
  | some c =>
    rw [State.routerDown_of u b named]
    obtain ⟨lit, _, kept⟩ := (u.recheck c ((u.channel c).lost b u.clock.run)).relampChannel_booth c d
    refine ⟨lit, fun off dark k => ?_⟩
    rw [kept (fun k => (dark k).trans (Booth.lampOf_off off _ _ k).symm) k]
    exact Booth.lampOf_off (by rw [lit.link]; exact off) _ _ k

/-- What one departure does to the records of the booths. -/
theorem State.linkDown_booth (off : (u.booth b).link.state ≠ .live) (d : BoothId) :
    ((u.linkDown b).booth d).litAs (if d = b then (u.booth b).goneDown u.clock.run else u.booth d)
      ∧ (d = b → ∀ k : ConsoleId, (((u.linkDown b).booth d).cons.console k).lamp = .dark) := by
  have down := u.booth_consolesDown b d
  obtain ⟨lit, dark⟩ := State.routerDown_booth (u := u.consolesDown b) (b := b) d
  unfold State.linkDown
  by_cases own : d = b
  · subst own
    rw [if_pos rfl] at down ⊢
    have closed : ((u.consolesDown d).booth d).litAs ((u.booth d).goneDown u.clock.run) := by
      rw [down]
      exact Booth.litAs_closed _ (u.booth d)
    refine ⟨lit.trans closed, fun _ => dark (by rw [closed.link]; exact off) (fun k => ?_)⟩
    rw [show (u.consolesDown d).booth d = ((u.booth d).goneDown u.clock.run).closed (u.booth d) from down, Booth.closed_cons]
    exact congrArg ConsoleRec.lamp ((u.booth d).goneDown_console u.clock.run k)
  · rw [if_neg own] at down ⊢
    rw [down] at lit
    exact ⟨lit, fun e => absurd e own⟩

theorem State.consolesDown_channels : (u.consolesDown b).channels = u.channels := by
  rw [State.consolesDown_eq]
  rfl

theorem State.consolesDown_inside (d : BoothId) (other : d ≠ b) : (u.consolesDown b).inside d = u.inside d := by
  rw [State.consolesDown_eq]
  exact (get_set _ _ _ _).trans (if_neg other)

/-- A departure from LIVE is the hand-over of R49 (R70, R77). -/
theorem State.linkDown_wentDown (turns : s.TurnsOf u b) (facing : s.Facing u b) (off : (u.booth b).link.state ≠ .live) :
    s.wentDown (u.linkDown b) b ∧ (u.linkDown b).notices = (s.turnsHanded b .link).notices := by
  have handed := turns.handed .link
  have down := u.consolesDown_eq b
  rw [handed] at down
  have routed := (u.consolesDown b).routerDown_only b
  have same {f : StateField} (apart : f ∉ [StateField.booths, .channels]) : f.same (u.consolesDown b) (u.linkDown b) := routed f apart
  obtain ⟨lit, dark⟩ := State.linkDown_booth off b
  rw [if_pos rfl] at lit
  obtain ⟨z, cons⟩ := lit.cons
  refine ⟨⟨?_, ?_, ?_, ?_, ?_, ?_, fun k => ⟨?_, dark rfl k, ?_⟩, fun law => ?_⟩, ?_⟩
  · exact (same (f := .log) (by decide)).trans (by rw [down]; rfl)
  · exact (same (f := .mem) (by decide)).trans (by rw [down]; rfl)
  · exact (same (f := .header) (by decide)).trans (by rw [down]; rfl)
  · rw [cons]
    rfl
  · rw [cons]
    rfl
  · rw [cons]
    rfl
  · obtain ⟨x, e⟩ := lit.console k
    rw [e, Booth.goneDown_console]
    exact ConsoleRec.ended_turn _ _
  · obtain ⟨x, e⟩ := lit.console k
    rw [e, Booth.goneDown_console]
  · have facing' : s.Facing (u.consolesDown b) b :=
      { named := by
          rw [State.booth_consolesDown, if_pos rfl, ← facing.named]
          split <;> rfl
        others := fun c no => by
          rw [State.channel, State.consolesDown_channels]
          exact facing.others c no
        own := fun c => by
          rw [State.channel, State.consolesDown_channels]
          exact facing.own c }
    have run : (u.consolesDown b).clock.run = s.clock.run := by
      rw [down]
      show (s.turnsHanded b .link).clock.run = _
      rw [(s.turnsHanded_only b .link) .clock (by decide)]
    have checked := facing'.down law
    rw [run] at checked
    exact checked
  · exact (same (f := .notices) (by decide)).trans (by rw [down]; rfl)

end

end Sys2Proof.Machine
end

section
/-!
SUPPORT. Links that leave LIVE (R49), and LINK_HOLD and LINK_RELEASE (O20).
-/
namespace Sys2Proof.Machine

/-! ## Leaving -/

section
variable {s x : State} {b : BoothId}

theorem State.leave_of_live (live : (s.booth b).link.state = .live) : x.leave s b = (x.closeBooth s b).linkDown b := by
  unfold State.leave
  dsimp only
  rw [if_pos (State.isLive_iff.mpr live)]

theorem State.leave_of_other (other : (s.booth b).link.state ≠ .live) : x.leave s b = x.closeBooth s b := by
  unfold State.leave
  dsimp only
  rw [if_neg (fun e => other (State.isLive_iff.mp e))]

theorem State.booth_closeBooth (o : State) (d : BoothId) :
    (x.closeBooth o b).booth d = if d = b then (x.booth b).closed (o.booth b) else x.booth d := State.booth_updBooth x b d _

theorem State.TurnsOf.closeBooth (h : s.TurnsOf x b) (o : State) : s.TurnsOf (x.closeBooth o b) b where
  only := congrArg (fun y : State => ({ y with booths := (x.closeBooth o b).booths } : State)) h.only
  turns k := by
    rw [State.booth_closeBooth, if_pos rfl, Booth.closed_cons]
    exact h.turns k

theorem State.Facing.closeBooth (h : s.Facing x b) (o : State) : s.Facing (x.closeBooth o b) b where
  named := by
    rw [State.booth_closeBooth, if_pos rfl, Booth.closed_role]
    exact h.named
  others := h.others
  own := h.own

/-- The other booths at a departure: lamps at most. -/
theorem State.linkDown_others {u : State} (off : (u.booth b).link.state ≠ .live) (d : BoothId) (other : d ≠ b) :
    ((u.linkDown b).booth d).litAs (u.booth d) ∧ (u.linkDown b).inside d = u.inside d := by
  have lit := (State.linkDown_booth off d).1
  rw [if_neg other] at lit
  refine ⟨lit, ?_⟩
  have routed := (u.consolesDown b).routerDown_only b .inner (by decide)
  show (u.linkDown b).inner[d] = _
  rw [show (u.linkDown b).inner = (u.consolesDown b).inner from routed]
  exact State.consolesDown_inside d other

/-- A link moved off LIVE, the rest of its record and its turns as in `s`. -/
theorem State.leave_wentDown (turns : s.TurnsOf x b) (facing : s.Facing x b) {o : State} (live : (o.booth b).link.state = .live)
    (off : (x.booth b).link.state ≠ .live) :
    s.wentDown (x.leave o b) b ∧ (x.leave o b).notices = (s.turnsHanded b .link).notices
      ∧ ((x.leave o b).booth b).link = (x.booth b).link
      ∧ ∀ d : BoothId, d ≠ b → ((x.leave o b).booth d).litAs (x.booth d) ∧ (x.leave o b).inside d = x.inside d := by
  have link : ((x.closeBooth o b).booth b).link = (x.booth b).link := by rw [State.booth_closeBooth, if_pos rfl, Booth.closed_link]
  have still : ((x.closeBooth o b).booth b).link.state ≠ .live := by rwa [link]
  obtain ⟨down, notices⟩ := State.linkDown_wentDown (turns.closeBooth o) (facing.closeBooth o) still
  rw [State.leave_of_live live]
  refine ⟨down, notices, ?_, fun d other => ?_⟩
  · have lit := (State.linkDown_booth still b).1
    rw [if_pos rfl] at lit
    exact lit.link.trans link
  · obtain ⟨lit, inside⟩ := State.linkDown_others still d other
    rw [State.booth_closeBooth, if_neg other] at lit
    exact ⟨lit, inside⟩

/-- A link's own record moved: the turns and the naming are those of `s`. -/
theorem State.turnsOf_updLink (s : State) (b : BoothId) (f : LinkFields → LinkFields) : s.TurnsOf (s.updLink b f) b where
  only := rfl
  turns k := by
    rw [State.updLink, State.booth_updBooth, if_pos rfl]
    exact ConsoleRec.sameTurn_refl _

theorem State.facing_updLink (s : State) (b : BoothId) (f : LinkFields → LinkFields) : s.Facing (s.updLink b f) b :=
  .of_channels (by rw [State.updLink, State.booth_updBooth, if_pos rfl]) rfl

theorem State.link_updLink (s : State) (b : BoothId) (f : LinkFields → LinkFields) : ((s.updLink b f).booth b).link = f (s.booth b).link := by
  rw [State.updLink, State.booth_updBooth, if_pos rfl]

theorem State.other_updLink (s : State) (b d : BoothId) (f : LinkFields → LinkFields) (other : d ≠ b) :
    (s.updLink b f).booth d = s.booth d := by
  rw [State.updLink, State.booth_updBooth, if_neg other]

end

/-! ## Departures beside an order -/

section
variable {n : SlotId} {rest : List SlotId} {s t : State}

theorem State.relampChannel_taken (s : State) (c : ChannelId) (m : Memory) (rest : List SlotId) :
    (s.taken m rest).relampChannel c = (s.relampChannel c).taken m rest := by
  have lamp (u : State) (p : Option BoothId) : (u.taken m rest).relampOpt p = (u.relampOpt p).taken m rest := by cases p <;> rfl
  show (((s.taken m rest).relampOpt (s.channel c).primary).relampOpt (s.channel c).partner) = _
  rw [lamp, lamp]
  rfl

theorem State.Beside.routerDown (h : s.Beside n rest t) (b : BoothId) : (s.routerDown b).Beside n rest (t.routerDown b) := by
  refine h.map (f := fun u => u.routerDown b) (fun m => ?_) ((s.routerDown_only b) .mem (by decide))
  cases named : (s.booth b).role.named with
  | none => rw [State.routerDown_none s b named, State.routerDown_none (s.taken m rest) b named]
  | some c =>
    rw [State.routerDown_of s b named, State.routerDown_of (s.taken m rest) b named]
    exact State.relampChannel_taken (s.recheck c ((s.channel c).lost b s.clock.run)) c m rest

theorem State.Beside.linkDown (h : s.Beside n rest t) (b : BoothId) : (s.linkDown b).Beside n rest (t.linkDown b) := by
  refine State.Beside.routerDown ?_ b
  have handed : (s.turnsHanded b .link).Beside n rest (t.turnsHanded b .link) := by
    have clock := h.same (fun u => u.clock) (fun _ => rfl)
    have booths := h.same (fun u => u.booths) (fun _ => rfl)
    have record : t.booth b = s.booth b := by rw [State.booth, booths]
    have each {x y : State} (g : x.Beside n rest y) (k : ConsoleId) :
        (x.handFinal ((s.booth b).cons.console k) b k .link s.clock.run).Beside n rest
          (y.handFinal ((t.booth b).cons.console k) b k .link t.clock.run) := by
      rw [record, clock]
      exact g.handFinal _ b k .link s.clock.run
    exact each (each (each h 0) 1) 2
  rw [State.consolesDown_eq, State.consolesDown_eq]
  obtain ⟨_, m, _, rfl⟩ := h
  exact handed.setHall _ _ _

end

/-! ## LINK_HOLD and LINK_RELEASE -/

theorem workLinkHold_of {s : State} {n : SlotId} {b : BoothId} (hb : s.param8 n 0 = b.val) : workLinkHold s n =
    if (s.booth b).link.state = .held then (s, some (Result.doneAlready [(s.booth b).link.state.code]))
    else ((s.updLink b (fun f => f.hold s.clock.run)).leave s b, some (Result.done [(s.booth b).link.state.code])) := by
  unfold workLinkHold
  rw [hb, index?_val]

theorem workLinkRelease_of {s : State} {n : SlotId} {b : BoothId} (hb : s.param8 n 0 = b.val) : workLinkRelease s n =
    if (s.booth b).link.state ≠ .held then refuse s .state
    else if (s.booth b).link.definition.defined = false then refuse s .notFound
    else (s.writeBooth b (fun r => { r with link := r.link.seek .release false s.clock.run }), some (Result.done [])) := by
  unfold workLinkRelease
  rw [hb, index?_val]

/-- A departure changes the hall's records, the log and its memory, the header and the notices. -/
theorem State.linkDown_eq (s u : State) (b : BoothId) (only : s.onlyIn [.booths] u) : u.linkDown b = { s with
    booths := (u.linkDown b).booths, inner := (u.linkDown b).inner, channels := (u.linkDown b).channels, log := (u.linkDown b).log
    mem := (u.linkDown b).mem, header := (u.linkDown b).header, notices := (u.linkDown b).notices } := by
  have down : s.onlyIn [.header, .notices, .mem, .log, .booths, .inner, .channels] (u.linkDown b) :=
    (only.sub (by decide)).next (State.linkDown_only u b) (by decide)
  generalize u.linkDown b = t at down ⊢
  exact down.eq (by intro f hf; cases f <;> first | exact absurd (by decide) hf | rfl)
    (by intro f hf; cases f <;> first | exact absurd hf (by decide) | rfl)

/-- Settles O20. -/
theorem linkHoldAndRelease : Obligations.LinkHoldAndRelease := by
  refine ⟨fun s n rest h => ⟨fun wrong => State.completes_work h (State.takes_kind h) rfl rfl fun m hm => ?_, fun b hb => ⟨fun held => ?_,
    fun other => ?_⟩⟩, fun s n rest h => ⟨fun wrong => State.completes_work h (State.takes_kind h) rfl rfl fun m hm => ?_, fun b hb =>
    ⟨fun other => ?_, fun held undefined => ?_, fun held defined => ?_⟩⟩⟩
  · unfold workLinkHold
    rw [hm.param8 rest (by omega), index?_of_le wrong]
    rfl
  · refine State.completes_work h (State.takes_kind h) rfl rfl fun m hm => ?_
    rw [workLinkHold_of (by rw [hm.param8 rest (by omega), hb])]
    refine (if_pos held).trans ?_
    rw [show ((s.taken m rest).booth b).link.state = .held from held]
    rfl
  · have off : (((s.updLink b (fun f => f.hold s.clock.run)).booth b).link).state ≠ .live := by
      rw [State.link_updLink]
      exact (show LinkState.held ≠ .live by decide)
    have turns := s.turnsOf_updLink b (fun f => f.hold s.clock.run)
    have facing := s.facing_updLink b (fun f => f.hold s.clock.run)
    refine ⟨(s.updLink b (fun f => f.hold s.clock.run)).leave s b, ?_, ?_⟩
    · have beside := h.beside
      obtain ⟨_, m, hm, taken⟩ := h.beside
      refine State.completes_beside (u := ((s.takeSlot n rest).updLink b (fun f => f.hold s.clock.run)).leave (s.takeSlot n rest) b) h
        (State.takes_kind h) rfl ?_ ?_
      · rw [taken, workLinkHold_of (by rw [hm.param8 rest (by omega), hb])]
        exact if_neg other
      · rw [taken] at beside ⊢
        by_cases live : (s.booth b).link.state = .live
        · rw [State.leave_of_live live, State.leave_of_live (s := s.taken m rest) live]
          exact State.Beside.linkDown (beside.map (f := fun u => (u.updLink b (fun f => f.hold s.clock.run)).closeBooth s b) (fun _ => rfl) rfl) b
        · rw [State.leave_of_other live, State.leave_of_other (s := s.taken m rest) live]
          exact beside.map (f := fun u => (u.updLink b (fun f => f.hold s.clock.run)).closeBooth s b) (fun _ => rfl) rfl
    · by_cases live : (s.booth b).link.state = .live
      · obtain ⟨down, notices, link, others⟩ := State.leave_wentDown turns facing live off
        refine ⟨link.trans (State.link_updLink _ _ _), fun no => absurd live no, fun _ => ⟨down, notices, fun d other => ?_, ?_⟩⟩
        · obtain ⟨lit, inside⟩ := others d other
          rw [State.other_updLink _ _ _ _ other] at lit
          exact ⟨lit.link, lit.role⟩
        · rw [State.leave_of_live live]
          exact State.linkDown_eq s _ b ((State.updLink_only s b _).seq (State.closeBooth_only _ s b))
      · rw [State.leave_of_other live]
        have changed : (s.updLink b (fun f => f.hold s.clock.run)).closeBooth s b = { s with
            booths := s.booths.set b (({ s.booth b with link := (s.booth b).link.hold s.clock.run } : Booth).closed (s.booth b)) } :=
          State.updBooth_setHall s s.booths s.inner s.channels b _ _
        have differs : ({ s.booth b with link := (s.booth b).link.hold s.clock.run } : Booth) ≠ s.booth b := fun e =>
          other (congrArg (fun r : Booth => r.link.state) e).symm
        rw [Booth.closed, if_neg differs] at changed
        have record : (((s.updLink b (fun f => f.hold s.clock.run)).closeBooth s b).booth b).link = (s.booth b).link.hold s.clock.run := by
          rw [changed, show (({ s with booths := s.booths.set b _ } : State).booth b) = _ from (get_set _ _ _ _).trans (if_pos rfl)]
          rfl
        exact ⟨record, fun _ => by rw [record, changed]; rfl, fun yes => absurd yes live⟩
  · unfold workLinkRelease
    rw [hm.param8 rest (by omega), index?_of_le wrong]
    rfl
  · refine State.completes_work h (State.takes_kind h) rfl rfl fun m hm => ?_
    rw [workLinkRelease_of (by rw [hm.param8 rest (by omega), hb])]
    exact if_pos other
  · refine State.completes_work h (State.takes_kind h) rfl rfl fun m hm => ?_
    rw [workLinkRelease_of (by rw [hm.param8 rest (by omega), hb])]
    exact (if_neg (not_not.mpr held)).trans (if_pos undefined)
  · refine State.completes_work h (State.takes_kind h) rfl rfl fun m hm => ?_
    rw [workLinkRelease_of (by rw [hm.param8 rest (by omega), hb])]
    exact (if_neg (not_not.mpr held)).trans (if_neg (by rw [show ((s.taken m rest).booth b).link.definition.defined = true from defined]; decide))

end Sys2Proof.Machine
end

section
/-!
SUPPORT. Link records moved (R33 to R42), and the frames and markers not worked for their content (O21).
-/
namespace Sys2Proof.Machine

/-! ## A link's record and audio moved -/

/-- The link record of a period filled by a replacement (R46). -/
def LinkFields.filled (l : LinkFields) : LinkFields :=
  { l.count (fun c => { c with replaced := satAdd 32 c.replaced 1 }) with heldRun := if l.heldRun < 2 then l.heldRun + 1 else l.heldRun }

/-- A booth's blocks once the replacement of an errored frame is handed: the last good frame at most twice in a row (R46). -/
def BoothInner.filled (i : BoothInner) (held : Nat) : BoothInner :=
  { i with handed := some (if held < 2 then i.lastGood.getD AudioTriple.silent else AudioTriple.silent) }

/-- The state with another link record for one booth and other booth blocks. -/
def State.relinked (s : State) (b : BoothId) (l : LinkFields) (x : Vector BoothInner 24) : State :=
  s.setHall (s.booths.set b { s.booth b with link := l }) x s.channels

section
variable (s : State) (b : BoothId) (l : LinkFields) (x : Vector BoothInner 24)

theorem State.updLink_eq (f : LinkFields → LinkFields) : s.updLink b f = s.relinked b (f (s.booth b).link) s.inner := rfl

theorem State.relinked_updLink (f : LinkFields → LinkFields) : (s.relinked b l x).updLink b f = s.relinked b (f l) x :=
  State.updBooth_setHall s s.booths x s.channels b _ _

theorem State.relinked_updInner (g : BoothInner → BoothInner) :
    (s.relinked b l x).updInner b g = s.relinked b l (x.set b (g x[b])) := rfl

theorem State.relinked_booth (d : BoothId) : (s.relinked b l x).booth d = if d = b then { s.booth b with link := l } else s.booth d :=
  get_set _ _ _ _

theorem State.relinked_link : ((s.relinked b l x).booth b).link = l := by rw [State.relinked_booth, if_pos rfl]

theorem State.relinked_cons : ((s.relinked b l x).booth b).cons = (s.booth b).cons := by rw [State.relinked_booth, if_pos rfl]

theorem State.relinked_closeBooth : (s.relinked b l x).closeBooth s b =
    { s with booths := s.booths.set b (({ s.booth b with link := l } : Booth).closed (s.booth b)), inner := x } :=
  State.updBooth_setHall s s.booths x s.channels b _ _

theorem State.relinked_handReplacement : (s.relinked b l x).handReplacement b = s.relinked b l.filled (x.set b (x[b].filled l.heldRun)) := by
  unfold State.handReplacement
  dsimp only
  rw [show (s.relinked b l x).booths[b] = _ from s.relinked_booth b l x b, if_pos rfl, State.relinked_updLink]
  rfl

theorem State.relinked_turnsOf : s.TurnsOf (s.relinked b l x) b where
  only := rfl
  turns k := by
    rw [State.relinked_cons]
    exact ConsoleRec.sameTurn_refl _

theorem State.relinked_facing : s.Facing (s.relinked b l x) b :=
  .of_channels (by rw [State.relinked_booth, if_pos rfl]) rfl

end

section
variable {s : State} {b : BoothId} {l : LinkFields} {x : Vector BoothInner 24}

/-- A link put in another state than LIVE: what it and the other booths hold after. -/
theorem State.relinked_leave (off : l.state ≠ .live) : (((s.relinked b l x).leave s b).booth b).link = l
    ∧ ∀ d : BoothId, d ≠ b → (((s.relinked b l x).leave s b).booth d).link = (s.booth d).link
      ∧ ((s.relinked b l x).leave s b).inside d = x[d] := by
  by_cases live : (s.booth b).link.state = .live
  · obtain ⟨_, _, link, others⟩ := State.leave_wentDown (s.relinked_turnsOf b l x) (s.relinked_facing b l x) live
      (by rw [State.relinked_link]; exact off)
    refine ⟨link.trans (s.relinked_link b l x), fun d other => ?_⟩
    obtain ⟨lit, inside⟩ := others d other
    rw [State.relinked_booth, if_neg other] at lit
    exact ⟨lit.link, inside⟩
  · rw [State.leave_of_other live, State.relinked_closeBooth]
    have record (d : BoothId) : (({ s with
        booths := s.booths.set b (({ s.booth b with link := l } : Booth).closed (s.booth b)), inner := x } : State).booth d)
        = if d = b then ({ s.booth b with link := l } : Booth).closed (s.booth b) else s.booth d := get_set _ _ _ _
    refine ⟨?_, fun d other => ⟨?_, rfl⟩⟩
    · rw [record, if_pos rfl, Booth.closed_link]
    · rw [record, if_neg other]

/-- A departure from LIVE: the hand-over of R49. -/
theorem State.relinked_wentDown (live : (s.booth b).link.state = .live) (off : l.state ≠ .live) :
    s.wentDown ((s.relinked b l x).leave s b) b
      ∧ ((s.relinked b l x).leave s b).notices = (s.turnsHanded b .link).notices := by
  obtain ⟨down, notices, _⟩ := State.leave_wentDown (s.relinked_turnsOf b l x) (s.relinked_facing b l x) live
    (by rw [State.relinked_link]; exact off)
  exact ⟨down, notices⟩

/-- The link record of a booth that another link state keeps: its own bracket, and nothing else. -/
theorem Booth.relinked_closed (r : Booth) (l : LinkFields) : ({ r with link := l } : Booth).closed r =
    { r with link := l, changes := if l = r.link then r.changes else r.changes + 2 } := by
  have same : (({ r with link := l } : Booth) = r) ↔ l = r.link :=
    ⟨fun e => congrArg Booth.link e, fun e => by rw [e]⟩
  unfold Booth.closed
  by_cases e : l = r.link
  · rw [if_pos (same.mpr e), if_pos e]
  · rw [if_neg (fun g => e (same.mp g)), if_neg e]
    rfl

end

/-! ## Frames and markers by the link's state -/

section
variable {s : State} {b : BoothId}

theorem State.takeAudioFrame_of_idle {a : AudioFrame} (h : s.part ≠ .ready ∨ (s.booth b).link.state = .held) : s.takeAudioFrame b a = s := by
  unfold State.takeAudioFrame
  by_cases ready : s.part = .ready
  · rw [if_neg (not_not.mpr ready), show s.booths[b].link.state = .held from h.resolve_left (not_not.mpr ready)]
  · rw [if_pos ready]

theorem State.takeAnnounce_of_idle {f : AnnounceFrame} (h : s.part ≠ .ready ∨ (s.booth b).link.state = .held) : s.takeAnnounce b f = s := by
  unfold State.takeAnnounce
  by_cases ready : s.part = .ready
  · rw [if_neg (not_not.mpr ready), show s.booths[b].link.state = .held from h.resolve_left (not_not.mpr ready)]
  · rw [if_pos ready]

theorem State.missMarker_of_idle (h : s.part ≠ .ready ∨ (s.booth b).link.state = .held) : s.missMarker b = s := by
  unfold State.missMarker
  by_cases ready : s.part = .ready
  · rw [if_neg (not_not.mpr ready), show s.booths[b].link.state = .held from h.resolve_left (not_not.mpr ready)]
  · rw [if_pos ready]

variable (ready : s.part = .ready)
include ready

theorem State.takeAudioFrame_of_seeking {a : AudioFrame} (h : (s.booth b).link.state = .seeking) :
    s.takeAudioFrame b a = (s.updLink b (fun f => f.align a.inPlace s.clock.run)).closeBooth s b := by
  unfold State.takeAudioFrame
  rw [if_neg (not_not.mpr ready), show s.booths[b].link.state = .seeking from h]

theorem State.takeAnnounce_of_seeking {f : AnnounceFrame} (h : (s.booth b).link.state = .seeking) :
    s.takeAnnounce b f = (s.updLink b (fun l => l.align f.inPlace s.clock.run)).closeBooth s b := by
  unfold State.takeAnnounce
  rw [if_neg (not_not.mpr ready), show s.booths[b].link.state = .seeking from h]

theorem State.missMarker_of_seeking (h : (s.booth b).link.state = .seeking) :
    s.missMarker b = (s.updLink b (fun f => { f with alignRun := 0 })).closeBooth s b := by
  unfold State.missMarker
  rw [if_neg (not_not.mpr ready), show s.booths[b].link.state = .seeking from h]

theorem State.takeAudioFrame_of_aligned {a : AudioFrame} (h : (s.booth b).link.state = .announcing ∨ (s.booth b).link.state = .mismatch) :
    s.takeAudioFrame b a = (s.updLink b (fun f => { f with missingRun := 0 })).closeBooth s b := by
  unfold State.takeAudioFrame
  rw [if_neg (not_not.mpr ready)]
  rcases h with h | h
  · rw [show s.booths[b].link.state = .announcing from h]
  · rw [show s.booths[b].link.state = .mismatch from h]

theorem State.takeAudioFrame_of_live {a : AudioFrame} (h : (s.booth b).link.state = .live) : s.takeAudioFrame b a = s.takeLiveFrame b a := by
  unfold State.takeAudioFrame
  rw [if_neg (not_not.mpr ready), show s.booths[b].link.state = .live from h]

theorem State.takeAnnounce_of_aligned {f : AnnounceFrame}
    (h : (s.booth b).link.state = .announcing ∨ (s.booth b).link.state = .mismatch ∨ (s.booth b).link.state = .live) :
    s.takeAnnounce b f = s.checkAnnounce b f := by
  unfold State.takeAnnounce
  rw [if_neg (not_not.mpr ready)]
  rcases h with h | h | h
  · rw [show s.booths[b].link.state = .announcing from h]
  · rw [show s.booths[b].link.state = .mismatch from h]
  · rw [show s.booths[b].link.state = .live from h]

/-- A link record with one more marker missing (R35). -/
def LinkFields.missed (l : LinkFields) : LinkFields := { l with missingRun := l.missingRun + 1 }

/-- A link record that has lost its markers (R35). -/
def LinkFields.lost (l : LinkFields) (k : Nat) : LinkFields :=
  (l.seek .lost false k).count (fun c => { c with losses := satAdd 16 c.losses 1 })

omit ready in
theorem State.relinked_lose (l : LinkFields) (x : Vector BoothInner 24) :
    (s.relinked b l x).lose s b = ((s.relinked b (l.lost s.clock.run) x).leave s b).raise .link := by
  unfold State.lose
  dsimp only
  rw [State.relinked_updLink]
  rfl

theorem State.missMarker_of_aligned (h : (s.booth b).link.state = .announcing ∨ (s.booth b).link.state = .mismatch) : s.missMarker b =
    if 3 ≤ (s.booth b).link.missingRun then ((s.relinked b ((s.booth b).link.missed.lost s.clock.run) s.inner).leave s b).raise .link
    else (s.relinked b (s.booth b).link.missed s.inner).closeBooth s b := by
  have run : (s.relinked b (s.booth b).link.missed s.inner).booths[b].link.missingRun = (s.booth b).link.missingRun + 1 :=
    congrArg LinkFields.missingRun (s.relinked_link b (s.booth b).link.missed s.inner)
  have four : (4 ≤ (s.booth b).link.missingRun + 1) = (3 ≤ (s.booth b).link.missingRun) := propext Nat.succ_le_succ_iff
  have missed : s.updLink b (fun f => { f with missingRun := f.missingRun + 1 }) = s.relinked b (s.booth b).link.missed s.inner := rfl
  unfold State.missMarker
  rw [if_neg (not_not.mpr ready)]
  rcases h with h | h
  · rw [show s.booths[b].link.state = .announcing from h]
    dsimp only
    rw [missed, run, State.relinked_lose, if_congr (iff_of_eq four) rfl rfl]
  · rw [show s.booths[b].link.state = .mismatch from h]
    dsimp only
    rw [missed, run, State.relinked_lose, if_congr (iff_of_eq four) rfl rfl]

theorem State.missMarker_of_live (h : (s.booth b).link.state = .live) : s.missMarker b =
    if 3 ≤ (s.booth b).link.missingRun then ((s.relinked b ((s.booth b).link.missed.lost s.clock.run) s.inner).leave s b).raise .link
    else ((s.relinked b (s.booth b).link.missed s.inner).handReplacement b).closeBooth s b := by
  have run : (s.relinked b (s.booth b).link.missed s.inner).booths[b].link.missingRun = (s.booth b).link.missingRun + 1 :=
    congrArg LinkFields.missingRun (s.relinked_link b (s.booth b).link.missed s.inner)
  have four : (4 ≤ (s.booth b).link.missingRun + 1) = (3 ≤ (s.booth b).link.missingRun) := propext Nat.succ_le_succ_iff
  have missed : s.updLink b (fun f => { f with missingRun := f.missingRun + 1 }) = s.relinked b (s.booth b).link.missed s.inner := rfl
  unfold State.missMarker
  rw [if_neg (not_not.mpr ready), show s.booths[b].link.state = .live from h]
  dsimp only
  rw [missed, run, State.relinked_lose, if_congr (iff_of_eq four) rfl rfl]

omit ready in
/-- A change of the link record alone, closed in its own bracket. -/
theorem State.updLink_closed (f : LinkFields → LinkFields) : (s.updLink b f).closeBooth s b =
    { s with booths := s.booths.set b { s.booth b with
      link := f (s.booth b).link
      changes := if f (s.booth b).link = (s.booth b).link then (s.booth b).changes else (s.booth b).changes + 2 } } := by
  rw [State.updLink_eq, State.relinked_closeBooth, Booth.relinked_closed]

omit ready in
theorem State.raise_isPending (s : State) (c : Notice) : (s.raise c).isPending c = true := (s.isPending_raise c c).trans (by simp)

omit ready in
/-- A link put in another state than LIVE, with a notice raised (R35, R44, R49). -/
theorem State.left_facts {l : LinkFields} (off : l.state ≠ .live) (x : Vector BoothInner 24) (c : Notice) (t : State)
    (ht : t = ((s.relinked b l x).leave s b).raise c) : (t.booth b).link = l
      ∧ t.isPending c = true
      ∧ ((s.booth b).link.state = .live → s.wentDown t b ∧ t.notices = ((s.turnsHanded b .link).raise c).notices)
      ∧ ((s.booth b).link.state ≠ .live → t = { s with
          booths := t.booths, inner := x, notices := (s.raise c).notices } ∧ (t.booth b).cons = (s.booth b).cons)
      ∧ ∀ d : BoothId, d ≠ b → (t.booth d).link = (s.booth d).link ∧ t.inside d = x[d] := by
  subst ht
  obtain ⟨link, others⟩ := State.relinked_leave (s := s) (b := b) (x := x) off
  refine ⟨link, State.raise_isPending _ _, fun live => ?_, fun other => ?_, others⟩
  · obtain ⟨down, notices⟩ := State.relinked_wentDown (x := x) live off
    exact ⟨down, congrArg (fun n : Notices => { n with waiting := n.waiting ||| c.bit }) notices⟩
  · rw [State.leave_of_other other, State.relinked_closeBooth]
    refine ⟨rfl, ?_⟩
    show ((s.booths.set b _)[b]).cons = _
    rw [get_set, if_pos rfl, Booth.closed_cons]

omit ready in
/-- A link's own record and the audio handed, in their own bracket, with nothing else. -/
theorem State.closed_facts (l : LinkFields) (x : Vector BoothInner 24) (t : State) (ht : t = (s.relinked b l x).closeBooth s b) :
    (t.booth b).link = l ∧ (t.booth b).cons = (s.booth b).cons ∧ (t.booth b).role = (s.booth b).role
      ∧ t = { s with booths := t.booths, inner := x } ∧ ∀ d : BoothId, d ≠ b → t.booth d = s.booth d := by
  rw [State.relinked_closeBooth] at ht
  have record (d : BoothId) : t.booth d = if d = b then ({ s.booth b with link := l } : Booth).closed (s.booth b) else s.booth d :=
    ht ▸ get_set _ _ _ _
  refine ⟨?_, ?_, ?_, by rw [ht], fun d other => by rw [record, if_neg other]⟩
  · rw [record, if_pos rfl, Booth.closed_link]
  · rw [record, if_pos rfl, Booth.closed_cons]
  · rw [record, if_pos rfl, Booth.closed_role]

end

section
variable {s : State} {b : BoothId} (ready : s.part = .ready)
  (aligned : (s.booth b).link.state = .announcing ∨ (s.booth b).link.state = .mismatch ∨ (s.booth b).link.state = .live)
include ready aligned

/-- The fourth marker missing in a row (R35). -/
theorem State.missMarker_fourth (three : 3 ≤ (s.booth b).link.missingRun) :
    s.missMarker b = ((s.relinked b ((s.booth b).link.missed.lost s.clock.run) s.inner).leave s b).raise .link := by
  rcases aligned with h | h | h
  · rw [State.missMarker_of_aligned ready (.inl h), if_pos three]
  · rw [State.missMarker_of_aligned ready (.inr h), if_pos three]
  · rw [State.missMarker_of_live ready h, if_pos three]

/-- A marker missing before the fourth: the run grows, and a LIVE period is filled (R35, R46). -/
theorem State.missMarker_few (few : (s.booth b).link.missingRun < 3) : ∃ (l : LinkFields) (x : Vector BoothInner 24),
    s.missMarker b = (s.relinked b l x).closeBooth s b ∧ l.state = (s.booth b).link.state ∧ l.missingRun = (s.booth b).link.missingRun + 1
      ∧ ((s.booth b).link.state = .live → l.counts.replaced = satAdd 32 (s.booth b).link.counts.replaced 1
        ∧ x[b].handed = some (if (s.booth b).link.heldRun < 2 then (s.inside b).lastGood.getD AudioTriple.silent else AudioTriple.silent)
        ∧ l.heldRun = if (s.booth b).link.heldRun < 2 then (s.booth b).link.heldRun + 1 else (s.booth b).link.heldRun)
      ∧ ∀ d : BoothId, d ≠ b → x[d] = s.inside d := by
  by_cases live : (s.booth b).link.state = .live
  · refine ⟨(s.booth b).link.missed.filled, s.inner.set b ((s.inside b).filled (s.booth b).link.heldRun), ?_, rfl, rfl, fun _ => ⟨rfl, ?_, rfl⟩,
      fun d other => (get_set _ _ _ _).trans (if_neg other)⟩
    · rw [State.missMarker_of_live ready live, if_neg (Nat.not_le.mpr few), State.relinked_handReplacement]
      rfl
    · rw [get_set, if_pos rfl]
      rfl
  · exact ⟨_, _, (State.missMarker_of_aligned ready (by tauto)).trans (if_neg (Nat.not_le.mpr few)), rfl, rfl,
      fun h => absurd h live, fun _ _ => rfl⟩

end

/-- Settles O21. -/
theorem framesAndMarkers : Obligations.FramesAndMarkers := by
  refine ⟨fun b a f s => ⟨fun idle => ⟨?_, ?_⟩, fun i p ready seeking row => ?_, fun ready aligned => ?_⟩, fun b s => ⟨fun idle => ?_,
    fun ready seeking => ?_, fun ready aligned => ?_⟩⟩
  · exact congrArg Host.Outcome.next (State.takeAudioFrame_of_idle idle)
  · exact congrArg Host.Outcome.next (State.takeAnnounce_of_idle idle)
  · have taken : exec i s = .next ((s.updLink b (fun f => f.align p s.clock.run)).closeBooth s b) := by
      rcases row with ⟨rfl, rfl⟩ | ⟨rfl, rfl⟩
      · exact congrArg Host.Outcome.next (State.takeAudioFrame_of_seeking ready seeking)
      · exact congrArg Host.Outcome.next (State.takeAnnounce_of_seeking ready seeking)
    refine ⟨_, taken.trans (congrArg Host.Outcome.next (State.updLink_closed _)), rfl, fun k hk => ?_⟩
    subst hk
    rfl
  · exact ⟨_, congrArg Host.Outcome.next ((State.takeAudioFrame_of_aligned ready aligned).trans (State.updLink_closed _)), rfl, rfl, rfl⟩
  · exact congrArg Host.Outcome.next (State.missMarker_of_idle idle)
  · refine ⟨_, congrArg Host.Outcome.next ((State.missMarker_of_seeking ready seeking).trans (State.updLink_closed _)), ?_⟩
    have same : ({ (s.booth b).link with alignRun := 0 } : LinkFields) = (s.booth b).link ↔ (s.booth b).link.alignRun = 0 :=
      ⟨fun e => (congrArg LinkFields.alignRun e).symm, fun e => by rw [← e]⟩
    exact congrArg (fun x => ({ s.booth b with link := { (s.booth b).link with alignRun := 0 }, changes := x } : Booth)) (if_congr same rfl rfl)
  · refine ⟨s.missMarker b, rfl, ?_⟩
    intro old new
    by_cases few : old.missingRun < 3
    · obtain ⟨l, x, missed, state, run, filled, others⟩ := State.missMarker_few ready aligned few
      obtain ⟨link, cons, _, same, booths⟩ := State.closed_facts (b := b) l x _ missed
      have inner : (s.missMarker b).inner = x := congrArg (fun t : State => t.inner) same
      have new_eq : new = l := link
      refine ⟨fun _ => ⟨new_eq ▸ state, new_eq ▸ run, ?_, cons, ?_, fun live => ?_⟩, fun three => absurd few (Nat.not_lt.mpr three),
        fun d other => ⟨?_, ?_⟩⟩
      · rw [same]
      · rw [inner]
        exact same
      · obtain ⟨replaced, handed, held⟩ := filled live
        rw [new_eq, State.inside, inner]
        exact ⟨replaced, handed, held⟩
      · rw [booths d other]
      · rw [State.inside, inner]
        exact others d other
    · have three : 3 ≤ old.missingRun := Nat.le_of_not_lt few
      obtain ⟨link, pending, fromLive, fromOther, others⟩ :=
        State.left_facts (b := b) (l := (s.booth b).link.missed.lost s.clock.run) (show LinkState.seeking ≠ .live by decide) s.inner .link _
          (State.missMarker_fourth ready aligned three)
      have new_eq : new = (s.booth b).link.missed.lost s.clock.run := link
      refine ⟨fun h => absurd h few, fun _ => ?_, others⟩
      rw [new_eq]
      exact ⟨rfl, rfl, rfl, rfl, rfl, rfl, rfl, pending, fromLive, fromOther⟩

end Sys2Proof.Machine
end
section
/-!
SUPPORT. Announces (R36 to R42, R48): the checksum and what an announce does to its link (O23, O24).
-/
namespace Sys2Proof.Machine

/-! ## The entry to LIVE -/

/-- A link record that enters LIVE (R48). -/
def LinkFields.entered (l : LinkFields) (k : Nat) : LinkFields :=
  { (l.moved .live .up k).count (fun c => { c with entries := satAdd 16 c.entries 1 }) with
    window := ErrorCounts.zero, heldRun := 0, missingRun := 0 }

section
variable {s : State} {b : BoothId} {l : LinkFields} {x : Vector BoothInner 24}

/-- The link's own record and blocks at the entry to LIVE, before the consoles and the router. -/
def State.entering (s : State) (b : BoothId) (l : LinkFields) (x : Vector BoothInner 24) : State :=
  { s with
    booths := s.booths.set b (({ s.booth b with link := l.entered s.clock.run } : Booth).closed (s.booth b))
    inner := x.set b { x[b] with lastGood := none }
    notices := (s.raise .link).notices }

/-- The booth record once its consoles are quiet and lit (R60). -/
def State.litUp (s : State) (b : BoothId) (l : LinkFields) : Booth :=
  let r := ({ s.booth b with link := l.entered s.clock.run } : Booth).closed (s.booth b)
  (({ r with cons := { r.cons with quietSince := s.clock.run } } : Booth).relit (s.warned b) (s.cuedOut b)).closed r

theorem State.relinked_enterLive : (s.relinked b l x).enterLive s b =
    ({ s.entering b l x with booths := s.booths.set b (s.litUp b l) } : State).routerUp b := by
  have entering : ((((s.relinked b l x).updLink b (fun f =>
      { (f.moved .live .up s.clock.run).count (fun c => { c with entries := satAdd 16 c.entries 1 }) with
        window := ErrorCounts.zero, heldRun := 0, missingRun := 0 })).updInner b (fun i => { i with lastGood := none })).closeBooth s b).raise .link
      = s.entering b l x := by
    rw [State.relinked_updLink, State.relinked_updInner, State.relinked_closeBooth]
    rfl
  have up : (s.entering b l x).consolesUp b = { s.entering b l x with booths := s.booths.set b (s.litUp b l) } := by
    have record : (s.entering b l x).booth b = ({ s.booth b with link := l.entered s.clock.run } : Booth).closed (s.booth b) :=
      (get_set _ _ _ _).trans (if_pos rfl)
    unfold State.consolesUp State.updCons
    rw [State.updBooth_relight, record]
    show ({ s.entering b l x with booths := (s.booths.set b _).set b _ } : State) = _
    rw [Vector.set_set]
    rfl
  unfold State.enterLive
  dsimp only
  rw [show (s.relinked b l x).clock.run = s.clock.run from rfl, entering, up]

theorem State.litUp_facts (s : State) (b : BoothId) (l : LinkFields) : (s.litUp b l).link = l.entered s.clock.run
    ∧ (s.litUp b l).role = (s.booth b).role ∧ (s.litUp b l).cons.quietSince = s.clock.run
    ∧ (s.litUp b l).shows (s.warned b) (s.cuedOut b) := by
  unfold State.litUp
  dsimp only
  refine ⟨?_, ?_, ?_, fun k => ?_⟩
  · rw [Booth.closed_link]
    exact Booth.closed_link _ _
  · rw [Booth.closed_role]
    exact Booth.closed_role _ _
  · rw [Booth.closed_cons]
    rfl
  · exact Booth.relit_lamp _ _ _ _ k

theorem State.routerUp_booth (u : State) (b d : BoothId) : ((u.routerUp b).booth d).litAs (u.booth d) := by
  cases named : (u.booth b).role.named with
  | none =>
    rw [State.routerUp_none u b named]
    exact Booth.litAs_refl _
  | some c =>
    rw [State.routerUp_of u b named]
    exact ((u.recheck c (u.channel c)).relampChannel_booth c d).1

/-- What an entry to LIVE does (R48, R60, R77). -/
theorem State.enterLive_facts (t : State) (ht : t = (s.relinked b l x).enterLive s b) : (t.booth b).link = l.entered s.clock.run
    ∧ (t.inside b).lastGood = none ∧ t.notices = (s.raise .link).notices ∧ s.cameUp t b
    ∧ ∀ d : BoothId, d ≠ b → (t.booth d).link = (s.booth d).link ∧ t.inside d = x[d] := by
  rw [State.relinked_enterLive] at ht
  obtain ⟨link, role, quiet, shown⟩ := s.litUp_facts b l
  generalize up : ({ s.entering b l x with booths := s.booths.set b (s.litUp b l) } : State) = w at ht
  have record (d : BoothId) : w.booth d = if d = b then s.litUp b l else s.booth d := up ▸ get_set _ _ _ _
  have inside (d : BoothId) : w.inside d = if d = b then { x[b] with lastGood := none } else x[d] := up ▸ get_set _ _ _ _
  have channels : w.channels = s.channels := up ▸ rfl
  have facing : s.Facing w b := .of_channels (by rw [record, if_pos rfl, role]) channels
  have checked := fun law => facing.up law channels
  have only := State.routerUp_only w b
  have lit := State.routerUp_booth w b
  rw [← ht] at checked only lit
  have inner : t.inner = w.inner := only .inner (by decide)
  have lit_own := lit b
  rw [record, if_pos rfl] at lit_own
  obtain ⟨z, cons⟩ := lit_own.cons
  refine ⟨lit_own.link.trans link, ?_, ?_, ⟨?_, ?_, ?_, ?_, fun law => ⟨(checked law).1, (checked law).2, ?_⟩⟩, fun d other => ⟨?_, ?_⟩⟩
  · rw [State.inside, inner, show w.inner[b] = _ from inside b, if_pos rfl]
  · rw [show t.notices = w.notices from only .notices (by decide), ← up]
    rfl
  · rw [cons]
    exact quiet
  · rw [show t.log = w.log from only .log (by decide), ← up]
    rfl
  · rw [show t.mem = w.mem from only .mem (by decide), ← up]
    rfl
  · rw [show t.header = w.header from only .header (by decide), ← up]
    rfl
  · cases named : (s.booth b).role.named with
    | none =>
      have still : t = w := by rw [ht, State.routerUp_none w b (by rw [record, if_pos rfl, role, named])]
      rw [still, State.warned, State.cuedOut, channels, record, if_pos rfl]
      exact shown
    | some c =>
      have names := (State.names_iff law).mpr named
      exact ((checked law).1 c).2 names |>.2.2.2 b names
  · rw [(lit d).link, record, if_neg other]
  · rw [State.inside, inner, show w.inner[d] = _ from inside d, if_neg other]

end

/-! ## An announce checked -/

/-- The link record with an announce's two checksums written (R36). -/
def LinkFields.heard (l : LinkFields) (f : AnnounceFrame) : LinkFields :=
  { l with missingRun := 0, announced := l.announced.sums f.block[11] (AnnounceBlock.sum f.block l.definition.method) }

/-- The link record of an announce taken, its period replaced in LIVE (R36, R48). -/
def State.announcedLink (s : State) (b : BoothId) (f : AnnounceFrame) : LinkFields :=
  if (s.booth b).link.state = .live then ((s.booth b).link.heard f).filled else (s.booth b).link.heard f

/-- The booths' blocks of an announce taken. -/
def State.announcedInner (s : State) (b : BoothId) : Vector BoothInner 24 :=
  if (s.booth b).link.state = .live then s.inner.set b ((s.inside b).filled (s.booth b).link.heldRun) else s.inner

/-- The link record of a good announce (R36, R39). -/
def LinkFields.matched (l : LinkFields) (f : AnnounceFrame) (reason : MismatchReason) : LinkFields :=
  { l with badRun := 0, announced := l.announced.good f.block reason }

/-- The link record of a bad announce (R38). -/
def LinkFields.bad (l : LinkFields) : LinkFields :=
  { l.count (fun c => { c with badAnnounces := satAdd 16 c.badAnnounces 1 }) with badRun := l.badRun + 1 }

/-- The link record that enters MISMATCH (R40, R42). -/
def LinkFields.mismatched (l : LinkFields) (k : Nat) : LinkFields :=
  (l.moved .mismatch .mismatch k).count (fun c => { c with mismatches := satAdd 16 c.mismatches 1 })

section
variable {s : State} {b : BoothId} {f : AnnounceFrame} {l : LinkFields} {x : Vector BoothInner 24}

theorem State.checkAnnounce_eq : s.checkAnnounce b f =
    if goodFrame f (s.booth b).link.definition.method then
      (s.relinked b ((s.announcedLink b f).matched f (announceTest b (s.booth b).link.definition f.block)) (s.announcedInner b)).goodAnnounce s b
        (announceTest b (s.booth b).link.definition f.block)
    else (s.relinked b (s.announcedLink b f) (s.announcedInner b)).badAnnounce s b := by
  have heard : (if s.isLive b then (s.relinked b ((s.booth b).link.heard f) s.inner).handReplacement b
      else s.relinked b ((s.booth b).link.heard f) s.inner) = s.relinked b (s.announcedLink b f) (s.announcedInner b) := by
    unfold State.announcedLink State.announcedInner
    by_cases live : (s.booth b).link.state = .live
    · rw [if_pos (State.isLive_iff.mpr live), if_pos live, if_pos live, State.relinked_handReplacement]
      rfl
    · rw [if_neg (fun e => live (State.isLive_iff.mp e)), if_neg live, if_neg live]
  have first : s.updLink b (fun l => { l with
      missingRun := 0
      announced := l.announced.sums f.block[11] (AnnounceBlock.sum f.block s.booths[b].link.definition.method) })
      = s.relinked b ((s.booth b).link.heard f) s.inner := rfl
  unfold State.checkAnnounce
  dsimp only
  rw [first, heard, State.relinked_updLink]
  rfl

theorem State.relinked_badAnnounce : (s.relinked b l x).badAnnounce s b =
    if 3 ≤ l.badRun then ((s.relinked b (l.bad.seek .badAnnounce true s.clock.run) x).leave s b).raise .announce
    else (s.relinked b l.bad x).closeBooth s b := by
  have four : (4 ≤ l.badRun + 1) = (3 ≤ l.badRun) := propext Nat.succ_le_succ_iff
  have counted : (s.relinked b l x).updLink b (fun f =>
      { f.count (fun c => { c with badAnnounces := satAdd 16 c.badAnnounces 1 }) with badRun := f.badRun + 1 }) = s.relinked b l.bad x :=
    s.relinked_updLink b l x _
  have run : (s.relinked b l.bad x).booths[b].link.badRun = l.badRun + 1 := congrArg LinkFields.badRun (s.relinked_link b l.bad x)
  unfold State.badAnnounce
  dsimp only
  rw [counted, run, if_congr (iff_of_eq four) rfl rfl, State.relinked_updLink]
  rfl

theorem State.relinked_goodAnnounce (reason : MismatchReason) : (s.relinked b l x).goodAnnounce s b reason =
    if reason = .noReason then
      if (s.booth b).link.state = .live then (s.relinked b l x).closeBooth s b else (s.relinked b l x).enterLive s b
    else if (s.booth b).link.state = .mismatch then (s.relinked b l x).closeBooth s b
    else ((s.relinked b (l.mismatched s.clock.run) x).leave s b).raise .announce := by
  have mismatched : (s.relinked b l x).enterMismatch s b = ((s.relinked b (l.mismatched s.clock.run) x).leave s b).raise .announce := by
    unfold State.enterMismatch
    dsimp only
    rw [State.relinked_updLink]
    rfl
  unfold State.goodAnnounce
  split
  · rename_i live
    rw [if_pos rfl, if_pos live]
  · rename_i other
    rw [if_pos rfl, if_neg other]
  · rename_i mismatch failed
    rw [if_neg failed, if_pos mismatch]
  · rename_i failed other _
    rw [if_neg failed, if_neg other, mismatched]

/-! ## What an announce leaves -/

theorem State.announcedLink_facts (s : State) (b : BoothId) (f : AnnounceFrame) :
    (s.announcedLink b f).state = (s.booth b).link.state ∧ (s.announcedLink b f).changed = (s.booth b).link.changed
      ∧ (s.announcedLink b f).announced = (s.booth b).link.announced.sums f.block[11] (AnnounceBlock.sum f.block (s.booth b).link.definition.method)
      ∧ (s.announcedLink b f).badRun = (s.booth b).link.badRun
      ∧ (s.announcedLink b f).counts = { (s.booth b).link.counts with replaced := (s.announcedLink b f).counts.replaced }
      ∧ ((s.booth b).link.state = .live → (s.announcedLink b f).counts.replaced = satAdd 32 (s.booth b).link.counts.replaced 1) := by
  unfold State.announcedLink
  split
  · exact ⟨rfl, rfl, rfl, rfl, rfl, fun _ => rfl⟩
  · rename_i other
    exact ⟨rfl, rfl, rfl, rfl, rfl, fun live => absurd live other⟩

theorem State.announcedInner_other (s : State) {b d : BoothId} (other : d ≠ b) : (s.announcedInner b)[d] = s.inside d := by
  unfold State.announcedInner
  split
  · exact (get_set _ _ _ _).trans (if_neg other)
  · rfl

end

theorem goodFrame_iff (f : AnnounceFrame) (m : SumMethod) : goodFrame f m = true ↔
    f.checkOk = true ∧ f.block[11] = AnnounceBlock.sum f.block m ∧ AnnounceBlock.inRange f.block = true := by
  unfold goodFrame
  simp only [Bool.and_eq_true, beq_iff_eq]
  tauto

/-- The first condition of R39 that fails, in the manual's words. -/
theorem announceTest_eq (b : BoothId) (d : BoothDef) (a : AnnounceBlock) : announceTest b d a =
    if a[0].toNat ≠ b.val then .booth
    else if d.serial ≠ 0 ∧ AnnounceBlock.serial a ≠ d.serial then .serial
    else if AnnounceBlock.lang a ≠ d.lang then .code
    else if a[8].toNat < d.consoles then .consoles
    else if ¬ (a[9] = 1 ↔ d.format = .wide) then .format else .noReason := by
  have format : ((a[9] == 1) ≠ (d.format == .wide)) = ¬ (a[9] = 1 ↔ d.format = .wide) := by
    rw [ne_eq, Bool.eq_iff_iff, beq_iff_eq, beq_iff_eq]
  unfold announceTest
  rw [if_congr (iff_of_eq format) rfl rfl]

theorem announceTest_noReason (b : BoothId) (d : BoothDef) (a : AnnounceBlock) : announceTest b d a = .noReason ↔
    a[0].toNat = b.val ∧ (d.serial = 0 ∨ AnnounceBlock.serial a = d.serial) ∧ AnnounceBlock.lang a = d.lang
      ∧ d.consoles ≤ a[8].toNat ∧ (a[9] = 1 ↔ d.format = .wide) := by
  rw [announceTest_eq]
  split
  · rename_i h
    exact ⟨nofun, fun ⟨at_booth, _⟩ => absurd at_booth h⟩
  split
  · rename_i h
    exact ⟨nofun, fun ⟨_, of_serial, _⟩ => (of_serial.elim h.1 h.2).elim⟩
  split
  · rename_i h
    exact ⟨nofun, fun ⟨_, _, of_lang, _⟩ => absurd of_lang h⟩
  split
  · rename_i h
    exact ⟨nofun, fun ⟨_, _, _, enough, _⟩ => absurd h (Nat.not_lt.mpr enough)⟩
  split
  · rename_i h
    exact ⟨nofun, fun ⟨_, _, _, _, of_format⟩ => absurd of_format h⟩
  · rename_i at_booth of_serial of_lang enough of_format
    refine ⟨fun _ => ⟨not_not.mp at_booth, ?_, not_not.mp of_lang, Nat.not_lt.mp enough, not_not.mp of_format⟩, fun _ => rfl⟩
    by_contra neither
    exact of_serial ⟨fun e => neither (.inl e), fun e => neither (.inr e)⟩

/-- Settles O24. -/
theorem announceMovesTheLink : Obligations.AnnounceMovesTheLink := by
  intro b f s ready aligned
  obtain ⟨t, ht⟩ : ∃ t, t = s.checkAnnounce b f := ⟨_, rfl⟩
  refine ⟨t, (congrArg Host.Outcome.next (State.takeAnnounce_of_aligned ready aligned)).trans (congrArg _ ht.symm), ?_⟩
  intro old new good met
  obtain ⟨state, changed, announced, badRun, counts, replaced⟩ := s.announcedLink_facts b f
  have inner {d : BoothId} (other : d ≠ b) := s.announcedInner_other (b := b) other
  have good_iff : goodFrame f old.definition.method = true ↔ good := goodFrame_iff _ _
  have met_iff : announceTest b old.definition f.block = .noReason ↔ met := announceTest_noReason _ _ _
  have chain := announceTest_eq b old.definition f.block
  rw [State.checkAnnounce_eq] at ht
  generalize s.announcedLink b f = l at ht state changed announced badRun counts replaced
  generalize s.announcedInner b = x at ht inner
  have entries : l.counts.entries = old.counts.entries := (congrArg LinkCounts.entries counts).trans rfl
  have mismatches : l.counts.mismatches = old.counts.mismatches := (congrArg LinkCounts.mismatches counts).trans rfl
  have bads : l.counts.badAnnounces = old.counts.badAnnounces := (congrArg LinkCounts.badAnnounces counts).trans rfl
  have serial : l.announced.serial = old.announced.serial := (congrArg Announced.serial announced).trans rfl
  have reason : l.announced.mismatch = old.announced.mismatch := (congrArg Announced.mismatch announced).trans rfl
  by_cases g : goodFrame f (s.booth b).link.definition.method = true
  · rw [if_pos g, State.relinked_goodAnnounce] at ht
    have is_good := good_iff.mp g
    by_cases m : announceTest b (s.booth b).link.definition f.block = .noReason
    · rw [if_pos m] at ht
      have is_met := met_iff.mp m
      by_cases live : (s.booth b).link.state = .live
      · rw [if_pos live] at ht
        obtain ⟨link, cons, -, same, others⟩ := State.closed_facts _ _ t ht
        change new = _ at link
        clear_value new good met
        subst link
        exact ⟨fun _ _ => ⟨state.trans live, rfl, m, fun off => absurd live off,
            fun _ => ⟨changed, entries, by rw [same]⟩⟩,
          fun _ unmet => absurd is_met unmet, fun _ => ⟨rfl, rfl, rfl, rfl, rfl, rfl, chain⟩, fun bad => absurd is_good bad, replaced,
          fun _ down => absurd (state.trans live) down, fun _ => ⟨by rw [same], cons⟩,
          fun d other => ⟨by rw [others d other], by rw [same]; exact inner other⟩⟩
      · rw [if_neg live] at ht
        obtain ⟨link, lastGood, notices, up, others⟩ := State.enterLive_facts t ht
        change new = _ at link
        clear_value new good met
        subst link
        exact ⟨fun _ _ => ⟨rfl, rfl, m, fun _ => ⟨rfl, rfl, rfl, rfl, by rw [← entries]; rfl, lastGood, notices, up⟩,
            fun on => absurd on live⟩,
          fun _ unmet => absurd is_met unmet, fun _ => ⟨rfl, rfl, rfl, rfl, rfl, rfl, chain⟩, fun bad => absurd is_good bad,
          fun on => absurd on live, fun on => absurd on live, fun both => absurd (both.mpr rfl) live,
          fun d other => ⟨(others d other).1, (others d other).2.trans (inner other)⟩⟩
    · rw [if_neg m] at ht
      have unmet : ¬ met := fun e => m (met_iff.mpr e)
      by_cases mismatch : (s.booth b).link.state = .mismatch
      · rw [if_pos mismatch] at ht
        obtain ⟨link, cons, -, same, others⟩ := State.closed_facts _ _ t ht
        change new = _ at link
        clear_value new good met
        subst link
        have not_live : old.state ≠ .live := by rw [show old.state = .mismatch from mismatch]; decide
        exact ⟨fun _ is_met => absurd is_met unmet,
          fun _ _ => ⟨state.trans mismatch, rfl, m, fun off => absurd mismatch off, fun _ => ⟨changed, mismatches, by rw [same]⟩⟩,
          fun _ => ⟨rfl, rfl, rfl, rfl, rfl, rfl, chain⟩, fun bad => absurd is_good bad, replaced,
          fun on => absurd on not_live, fun _ => ⟨by rw [same], cons⟩,
          fun d other => ⟨by rw [others d other], by rw [same]; exact inner other⟩⟩
      · rw [if_neg mismatch] at ht
        obtain ⟨link, pending, down, else_same, others⟩ := State.left_facts (show LinkState.mismatch ≠ .live by decide) _ _ t ht
        change new = _ at link
        clear_value new good met
        subst link
        exact ⟨fun _ is_met => absurd is_met unmet,
          fun _ _ => ⟨rfl, rfl, m, fun _ => ⟨rfl, rfl, pending, by rw [← mismatches]; rfl⟩, fun on => absurd on mismatch⟩,
          fun _ => ⟨rfl, rfl, rfl, rfl, rfl, rfl, chain⟩, fun bad => absurd is_good bad, replaced, fun live _ => down live,
          fun both => by
            obtain ⟨same, cons⟩ := else_same (fun live => nomatch both.mp live)
            exact ⟨by rw [same], cons⟩,
          fun d other => ⟨(others d other).1, (others d other).2.trans (inner other)⟩⟩
  · rw [if_neg g, State.relinked_badAnnounce] at ht
    have is_bad : ¬ good := fun e => g (good_iff.mpr e)
    by_cases three : 3 ≤ l.badRun
    · rw [if_pos three] at ht
      obtain ⟨link, pending, down, else_same, others⟩ := State.left_facts (show LinkState.seeking ≠ .live by decide) _ _ t ht
      change new = _ at link
      clear_value new good met
      subst link
      rw [badRun] at three
      exact ⟨fun is_good => absurd is_good is_bad, fun is_good => absurd is_good is_bad, fun is_good => absurd is_good is_bad,
        fun _ => ⟨by rw [← bads]; rfl, serial, reason, fun few => absurd three (Nat.not_le.mpr few), fun _ => ⟨rfl, rfl, rfl, rfl, pending⟩⟩,
        replaced, fun live _ => down live,
        fun both => by
          obtain ⟨same, cons⟩ := else_same (fun live => nomatch both.mp live)
          exact ⟨by rw [same], cons⟩,
        fun d other => ⟨(others d other).1, (others d other).2.trans (inner other)⟩⟩
    · rw [if_neg three] at ht
      obtain ⟨link, cons, -, same, others⟩ := State.closed_facts _ _ t ht
      change new = _ at link
      clear_value new good met
      subst link
      rw [badRun] at three
      exact ⟨fun is_good => absurd is_good is_bad, fun is_good => absurd is_good is_bad, fun is_good => absurd is_good is_bad,
        fun _ => ⟨by rw [← bads]; rfl, serial, reason, fun _ => ⟨state, congrArg (· + 1) badRun⟩, fun many => absurd many three⟩,
        replaced, fun live down => absurd (state.trans live) down, fun _ => ⟨by rw [same], cons⟩,
        fun d other => ⟨by rw [others d other], by rw [same]; exact inner other⟩⟩

/-! ## The checksum -/

/-- The two checksums written with every announce taken stand in the record it leaves (R36, R37). -/
theorem State.checkAnnounce_sums (s : State) (b : BoothId) (f : AnnounceFrame) :
    ((s.checkAnnounce b f).booth b).link.announced.received = f.block[11]
      ∧ ((s.checkAnnounce b f).booth b).link.announced.computed = AnnounceBlock.sum f.block (s.booth b).link.definition.method := by
  obtain ⟨-, -, announced, -⟩ := s.announcedLink_facts b f
  have received := (congrArg Announced.received announced).trans rfl
  have computed := (congrArg Announced.computed announced).trans rfl
  rw [State.checkAnnounce_eq]
  split
  · rw [State.relinked_goodAnnounce]
    split
    · split
      · obtain ⟨link, -⟩ := State.closed_facts _ _ _ rfl
        rw [link]
        exact ⟨received, computed⟩
      · obtain ⟨link, -⟩ := State.enterLive_facts _ rfl
        rw [link]
        exact ⟨received, computed⟩
    · split
      · obtain ⟨link, -⟩ := State.closed_facts _ _ _ rfl
        rw [link]
        exact ⟨received, computed⟩
      · obtain ⟨link, -⟩ := State.left_facts (s := s) (b := b) (l := (((s.announcedLink b f).matched f _).mismatched _)) (show LinkState.mismatch ≠ .live by decide) (s.announcedInner b) .announce _ rfl
        rw [link]
        exact ⟨received, computed⟩
  · rw [State.relinked_badAnnounce]
    split
    · obtain ⟨link, -⟩ := State.left_facts (s := s) (b := b) (l := ((s.announcedLink b f).bad.seek _ _ _)) (show LinkState.seeking ≠ .live by decide) (s.announcedInner b) .announce _ rfl
      rw [link]
      exact ⟨received, computed⟩
    · obtain ⟨link, -⟩ := State.closed_facts _ _ _ rfl
      rw [link]
      exact ⟨received, computed⟩

theorem AnnounceBlock.toList_eq (a : AnnounceBlock) :
    a.toList = [a[0], a[1], a[2], a[3], a[4], a[5], a[6], a[7], a[8], a[9], a[10], a[11]] := by
  refine List.ext_getElem (by rw [Vector.length_toList]; rfl) fun i inside _ => ?_
  rw [Vector.length_toList] at inside
  rw [Vector.getElem_toList]
  interval_cases i <;> rfl

theorem AnnounceBlock.sum_bytes (a : AnnounceBlock) :
    a.sum .bytes = a[0] + a[1] + a[2] + a[3] + a[4] + a[5] + a[6] + a[7] + a[8] + a[9] + a[10] := by
  simp only [AnnounceBlock.sum, AnnounceBlock.toList_eq, List.take_succ_cons, List.take_zero, List.sum_cons, List.sum_nil, add_zero,
    BitVec.add_assoc]

theorem AnnounceBlock.sum_fields (a : AnnounceBlock) :
    a.sum .fields = a[0] + a[1] + a[2] + a[3] + a[4] + a[5] + a[6] + a[7] + a[8] + a[9] := by
  simp only [AnnounceBlock.sum, AnnounceBlock.toList_eq, List.take_succ_cons, List.take_zero, List.sum_cons, List.sum_nil, add_zero,
    BitVec.add_assoc]

/-- The two methods differ by the unit revision (R37). -/
theorem AnnounceBlock.sum_bytes_eq_fields (a : AnnounceBlock) : a.sum .bytes = a.sum .fields ↔ a[10] = 0 := by
  rw [a.sum_bytes, a.sum_fields]
  exact add_eq_left

theorem AnnounceBlock.sums_differ (a : AnnounceBlock) {m k : SumMethod} (differ : m ≠ k) (revision : a[10] ≠ 0) : a.sum m ≠ a.sum k := by
  have methods := mt a.sum_bytes_eq_fields.mp revision
  cases m <;> cases k
  · exact absurd rfl differ
  · exact methods
  · exact Ne.symm methods
  · exact absurd rfl differ

/-- Settles O23. -/
theorem announceChecksum : Obligations.AnnounceChecksum := by
  refine ⟨fun a => ⟨a.sum_bytes, ?_, a.sum_bytes_eq_fields, fun m k differ revision sent => ?_⟩, fun f m wrong => ?_, fun b f s ready aligned => ?_⟩
  · rw [a.sum_fields]
    simp only [BitVec.add_assoc]
  · rw [sent]
    exact a.sums_differ differ revision
  · exact Bool.eq_false_iff.mpr fun good => wrong ((goodFrame_iff f m).mp good).2.1
  · exact ⟨_, congrArg Host.Outcome.next (State.takeAnnounce_of_aligned ready aligned), s.checkAnnounce_sums b f⟩

end Sys2Proof.Machine
end

section
/-!
SUPPORT. AUDIO frames taken in LIVE (R31, R43, R44, R46, R47): the errors, the audio, the event and the threshold (O22).
-/
namespace Sys2Proof.Machine

/-! ## What the work of an event can leave -/

/-- What the work of an event of console `n` of booth `b` leaves, by what it writes (R57 to R64, R83 to R85). -/
inductive State.KeyForm (s : State) (b : BoothId) (n : ConsoleId) : State → Prop
  | same : KeyForm s b n s
  | refused : KeyForm s b n (s.refuseKey b n).1
  | claim (f : ConsoleFields → ConsoleFields)
      (hf : ∃ (x : Option ConsoleId) (y : Option InternalOffer), f (s.booth b).cons = { (s.booth b).cons with claimed := x, offer := y }) :
      KeyForm s b n (s.updCons b f)
  | claimBy (f : ConsoleFields → ConsoleFields) (a : Bool)
      (hf : ∃ (x : Option ConsoleId) (y : Option InternalOffer), f (s.booth b).cons = { (s.booth b).cons with claimed := x, offer := y }) :
      KeyForm s b n ((s.updCons b f).updInner b (fun i => { i with accepted := a }))
  | channel (c : ChannelId) (g : Channel → Channel) (p : Option BoothId) (names : (s.channel c).names b)
      (hg : ∃ (y : Option OutgoingOffer) (z : Option Role), g (s.channel c) = { s.channel c with offer := y, move := z }) :
      KeyForm s b n ((s.writeChannel c g).relampOpt p)

theorem Channel.names_of_boothOf {c : Channel} {b : BoothId} : ∀ {r : Role}, c.boothOf r = some b → c.names b
  | .primary, h => .inl h
  | .partner, h => .inr h

section
variable {s : State} {b : BoothId} {n : ConsoleId}

theorem State.offeredTo_names {c : ChannelId} (h : s.offeredTo b = some c) : (s.channel c).names b := by
  have found := ((tblFind_eq_some _ _ _).mp h).1
  simp only [Bool.and_eq_true, beq_iff_eq] at found
  exact Channel.names_of_boothOf found.2

theorem State.offeredBy_names {c : ChannelId} (h : s.offeredBy b = some c) : (s.channel c).names b := by
  have found := ((tblFind_eq_some _ _ _).mp h).1
  simp only [Bool.and_eq_true, beq_iff_eq] at found
  exact Channel.names_of_boothOf found.2

theorem State.keyMicOn_form : s.KeyForm b n (s.keyMicOn b n).1 := by
  unfold State.keyMicOn
  split
  · exact .claimBy _ _ ⟨_, _, rfl⟩
  · split
    · exact .same
    · exact .refused

theorem State.keyAccept_form : s.KeyForm b n (s.keyAccept b n).1 := by
  unfold State.keyAccept
  split
  · split
    · rename_i c offered
      exact .channel c _ none (State.offeredTo_names offered) ⟨_, _, rfl⟩
    · exact State.keyMicOn_form
  · split
    · exact .claimBy _ _ ⟨_, _, rfl⟩
    · exact State.keyMicOn_form

theorem State.keyCancel_form : s.KeyForm b n (s.keyCancel b n).1 := by
  unfold State.keyCancel
  split
  · exact .claim (fun f => f.withdraw n) ⟨(s.booth b).cons.claimed, _, rfl⟩
  · split
    · split
      · rename_i c offered
        exact .channel c _ _ (State.offeredBy_names offered) ⟨_, _, rfl⟩
      · exact .same
    · exact .same

theorem State.keyOfferOut_form : s.KeyForm b n (s.keyOfferOut b n).1 := by
  unfold State.keyOfferOut
  split
  · split
    · split
      · rename_i c _ can
        exact .channel c _ _ (Channel.names_of_boothOf (State.canOfferOut_iff.mp can).1) ⟨_, _, rfl⟩
      · exact .refused
    · exact .refused
  · exact .refused

theorem State.keyWork_form (k : EventKind) : s.KeyForm b n (s.keyWork b n k).1 := by
  cases k with
  | micOn => exact State.keyMicOn_form
  | micOff =>
    unfold State.keyWork State.keyMicOff
    dsimp only
    split
    · exact .claimBy _ _ ⟨_, _, rfl⟩
    · exact .same
  | offer =>
    unfold State.keyWork State.keyOffer
    dsimp only
    split
    · exact .claim (fun f => { f with offer := some { offerer := n, deadline := s.clock.run + secTicks s.timers.acceptWindow } })
        ⟨(s.booth b).cons.claimed, _, rfl⟩
    · exact .refused
  | accept => exact State.keyAccept_form
  | cancel => exact State.keyCancel_form
  | offerOut => exact State.keyOfferOut_form
  | unknown => exact .same

theorem State.KeyForm.keying {u : State} (h : s.KeyForm b n u) : s.Keying u b n := by
  cases h with
  | same => exact .refl s b n
  | refused => exact .refuseKey s b n
  | claim f hf => exact .claim s b n f hf
  | claimBy f a hf => exact (State.Keying.claim s b n f hf).updInner _
  | channel c g p => exact ((State.Keying.refl s b n).writeChannel c g).relampOpt p

/-- Booth blocks whose audio is the same. -/
def BoothInner.sameAudio (i j : BoothInner) : Prop := i.lastGood = j.lastGood ∧ i.handed = j.handed

theorem State.KeyForm.audio {u : State} (h : s.KeyForm b n u) : (u.inside b).sameAudio (s.inside b) := by
  cases h with
  | same => exact ⟨rfl, rfl⟩
  | refused => exact ⟨rfl, rfl⟩
  | claim f hf => exact ⟨rfl, rfl⟩
  | claimBy f a hf =>
    rw [State.inside_updInner, if_pos rfl]
    exact ⟨rfl, rfl⟩
  | channel c g p => cases p <;> exact ⟨rfl, rfl⟩

theorem State.KeyForm.facing {u : State} (h : s.KeyForm b n u) : s.Facing u b := by
  have role := h.keying.role
  have named : (u.booth b).role.named = (s.booth b).role.named := congrArg RoleFields.named role
  cases h with
  | same => exact .of_channels named rfl
  | refused => exact .of_channels named rfl
  | claim f hf => exact .of_channels named rfl
  | claimBy f a hf => exact .of_channels named rfl
  | channel c g p names hg =>
    have channel (d : ChannelId) : ((s.writeChannel c g).relampOpt p).channel d = if d = c then (g (s.channel c)).bump else s.channel d := by
      rw [show ((s.writeChannel c g).relampOpt p).channel d = (s.writeChannel c g).channel d from by cases p <;> rfl]
      exact s.channel_writeChannel c d g
    obtain ⟨y, z, written⟩ := hg
    refine ⟨named, fun d other => ?_, fun d => ?_⟩
    · rw [channel, if_neg (fun e => other (by rw [e]; exact names))]
    · rw [channel]
      split
      · rename_i own
        subst own
        exact ⟨_, y, z, by rw [written]; rfl⟩
      · exact ⟨_, _, _, rfl⟩

end

/-! ## An event taken from a frame -/

section
variable {s u : State} {b : BoothId} {n : ConsoleId}

theorem State.keyed.turnsOf {t : State} {e : LastEvent} {o : EventOutcome} (h : u.keyed t b n e o) (turns : s.TurnsOf u b) : s.TurnsOf t b := by
  obtain ⟨only, -, -, -, others, own, -⟩ := h
  refine ⟨?_, fun k => ?_⟩
  · rw [only, turns.only]
  · obtain ⟨turn, record⟩ := turns.turns k
    by_cases is : k = n
    · subst is
      rw [own]
      exact ⟨turn, record⟩
    · rw [others k is]
      exact ⟨turn, record⟩

/-- What an event taken after a frame's own work leaves, for the work of the threshold after it. -/
theorem State.takeEvent_leaves (k : EventKind) (turns : s.TurnsOf u b) (same : u.channels = s.channels) (role : (u.booth b).role = (s.booth b).role) :
    s.TurnsOf (u.takeEvent b k n) b ∧ s.Facing (u.takeEvent b k n) b ∧ ((u.takeEvent b k n).booth b).link = (u.booth b).link
      ∧ ((u.takeEvent b k n).inside b).sameAudio (u.inside b)
      ∧ (∀ d : BoothId, d ≠ b → ((u.takeEvent b k n).booth d).link = (u.booth d).link ∧ (u.takeEvent b k n).inside d = u.inside d)
      ∧ (n.val < (u.booth b).cons.inUse → (((u.takeEvent b k n).booth b).cons.console n).lastEvent = lastEventOf k) := by
  by_cases used : n.val < (u.booth b).cons.inUse
  · have form := State.keyWork_form (s := u) (b := b) (n := n) k
    have keyed := form.keying.keyed (e := lastEventOf k) (o := (u.keyWork b n k).2)
    have facing := form.facing
    have channels : ((u.keyWork b n k).1.keyEnd u b n (lastEventOf k) (u.keyWork b n k).2).channels = (u.keyWork b n k).1.channels := rfl
    have inner : ((u.keyWork b n k).1.keyEnd u b n (lastEventOf k) (u.keyWork b n k).2).inside b = (u.keyWork b n k).1.inside b := rfl
    rw [State.takeEvent_of_used used]
    generalize (u.keyWork b n k).1.keyEnd u b n (lastEventOf k) (u.keyWork b n k).2 = t at keyed channels inner ⊢
    refine ⟨State.keyed.turnsOf keyed turns, ?_, ?_, ?_, fun d other => ?_, fun _ => ?_⟩
    · have channel (c : ChannelId) : u.channel c = s.channel c := by rw [State.channel, same]
      refine ⟨?_, fun c other => ?_, fun c => ?_⟩
      · obtain ⟨-, -, after, -⟩ := keyed
        rw [after, role]
      · rw [State.channel, channels, ← channel c]
        exact facing.others c (by rw [channel]; exact other)
      · obtain ⟨x, y, z, own⟩ := facing.own c
        exact ⟨x, y, z, by rw [State.channel, channels, ← channel c]; exact own⟩
    · exact keyed.2.1
    · rw [inner]
      exact form.audio
    · obtain ⟨-, -, -, -, -, -, -, others⟩ := keyed
      obtain ⟨link, -, inside, -⟩ := others d other
      exact ⟨link, inside⟩
    · obtain ⟨-, -, -, -, -, own, -⟩ := keyed
      rw [own]
  · rw [State.takeEvent_of_unused (Nat.not_lt.mp used)]
    generalize ht : u.writeBooth b (fun r => { r with cons := { r.cons with ignored := satAdd 16 r.cons.ignored 1 } }) = t
    have record (d : BoothId) := State.booth_writeBooth u b d (fun r => { r with cons := { r.cons with ignored := satAdd 16 r.cons.ignored 1 } })
    rw [ht] at record
    have own := (record b).trans (if_pos rfl)
    have only : t = { u with booths := t.booths } := ht ▸ rfl
    have channels : t.channels = s.channels := (congrArg State.channels only).trans same
    refine ⟨⟨?_, fun k => ?_⟩, .of_channels ?_ channels, ?_, ?_, fun d other => ?_, fun h => absurd h used⟩
    · rw [only, turns.only]
    · rw [own]
      exact turns.turns k
    · rw [own]
      exact congrArg RoleFields.named role
    · rw [own]
      rfl
    · rw [only]
      exact ⟨rfl, rfl⟩
    · refine ⟨congrArg Booth.link ((record d).trans (if_neg other)), ?_⟩
      rw [only]

end

/-! ## A frame worked in LIVE -/

/-- Booth records whose consoles show the same events. -/
def Booth.sameKeys (r q : Booth) : Prop := r.cons.ignored = q.cons.ignored ∧ ∀ k : ConsoleId,
  (r.cons.console k).lastEvent = (q.cons.console k).lastEvent ∧ (r.cons.console k).lastOutcome = (q.cons.console k).lastOutcome

theorem ConsoleRec.ended_keys (c : ConsoleRec) (k : Nat) : (c.ended k).lastEvent = c.lastEvent ∧ (c.ended k).lastOutcome = c.lastOutcome := by
  unfold ConsoleRec.ended
  split
  · exact ⟨rfl, rfl⟩
  · exact ⟨rfl, rfl⟩
  · exact ⟨rfl, rfl⟩

section
variable {s v x o : State} {b : BoothId} {l : LinkFields} {i : BoothInner}

/-- A departure from LIVE leaves the booth's audio and what its consoles show of events. -/
theorem State.leave_keeps (live : (o.booth b).link.state = .live) (off : (x.booth b).link.state ≠ .live) :
    ((x.leave o b).inside b).sameAudio (x.inside b) ∧ ((x.leave o b).booth b).sameKeys (x.booth b) := by
  have record : (x.closeBooth o b).booth b = (x.booth b).closed (o.booth b) := (State.booth_closeBooth o b).trans (if_pos rfl)
  have still : ((x.closeBooth o b).booth b).link.state ≠ .live := by rw [record, Booth.closed_link]; exact off
  have lit := (State.linkDown_booth still b).1
  rw [if_pos rfl] at lit
  obtain ⟨z, cons⟩ := lit.cons
  rw [State.leave_of_live live]
  refine ⟨?_, ?_, fun k => ?_⟩
  · have inner : ((x.closeBooth o b).linkDown b).inner = ((x.closeBooth o b).consolesDown b).inner :=
      ((x.closeBooth o b).consolesDown b).routerDown_only b .inner (by decide)
    have own : ((x.closeBooth o b).linkDown b).inside b = { x.inside b with accepted := false } := by
      rw [State.inside, inner, State.consolesDown_eq]
      exact (get_set _ _ _ _).trans (if_pos rfl)
    rw [own]
    exact ⟨rfl, rfl⟩
  · rw [cons, record]
    show (((x.booth b).closed (o.booth b)).goneDown (x.closeBooth o b).clock.run).cons.ignored = _
    rw [show (((x.booth b).closed (o.booth b)).goneDown (x.closeBooth o b).clock.run).cons.ignored
      = ((x.booth b).closed (o.booth b)).cons.ignored from rfl, Booth.closed_cons]
  · obtain ⟨y, e⟩ := lit.console k
    rw [e, record, Booth.goneDown_console, Booth.closed_cons]
    exact ConsoleRec.ended_keys _ _

theorem State.TurnsOf.updLink (h : s.TurnsOf v b) (f : LinkFields → LinkFields) : s.TurnsOf (v.updLink b f) b where
  only := congrArg (fun y : State => ({ y with booths := (v.updLink b f).booths } : State)) h.only
  turns k := by
    rw [State.updLink, State.booth_updBooth, if_pos rfl]
    exact h.turns k

theorem State.Facing.updLink (h : s.Facing v b) (f : LinkFields → LinkFields) : s.Facing (v.updLink b f) b where
  named := by
    rw [State.updLink, State.booth_updBooth, if_pos rfl]
    exact h.named
  others := h.others
  own := h.own

/-- A state that an event on booth `b` may have left, with the link record and the audio of the frame worked. -/
structure State.Framed (s v : State) (b : BoothId) (l : LinkFields) (i : BoothInner) : Prop where
  turns : s.TurnsOf v b
  facing : s.Facing v b
  link : (v.booth b).link = l
  audio : (v.inside b).sameAudio i
  others : ∀ d : BoothId, d ≠ b → (v.booth d).link = (s.booth d).link ∧ v.inside d = s.inside d

/-- The link record that the threshold takes to SEEKING (R44). -/
def LinkFields.tooMany (l : LinkFields) (k : Nat) : LinkFields :=
  (l.seek .degraded true k).count (fun c => { c with degraded := satAdd 16 c.degraded 1 })

/-- The threshold reached (R44, R49). -/
theorem State.Framed.degrade (h : s.Framed v b l i) (live : l.state = .live) {t : State} (ht : t = v.degrade b) :
    (t.booth b).link = l.tooMany s.clock.run ∧ (t.inside b).sameAudio i ∧ (t.booth b).sameKeys (v.booth b) ∧ t.isPending .link = true
      ∧ s.wentDown t b ∧ t.notices = ((s.turnsHanded b .link).raise .link).notices
      ∧ ∀ d : BoothId, d ≠ b → (t.booth d).link = (s.booth d).link ∧ t.inside d = s.inside d := by
  subst ht
  have run : v.clock.run = s.clock.run := congrArg Clock.run h.turns.clock
  have link : ((v.updLink b (fun f => f.tooMany s.clock.run)).booth b).link = l.tooMany s.clock.run := by
    rw [State.link_updLink, h.link]
  have was : (v.booth b).link.state = .live := by rw [h.link, live]
  have off : ((v.updLink b (fun f => f.tooMany s.clock.run)).booth b).link.state ≠ .live := by
    rw [link]
    exact show LinkState.seeking ≠ .live by decide
  obtain ⟨down, notices, after, others⟩ := State.leave_wentDown (h.turns.updLink _) (h.facing.updLink _) was off
  obtain ⟨audio, ignored, keys⟩ := State.leave_keeps was off
  have eq : v.degrade b = ((v.updLink b (fun f => f.tooMany s.clock.run)).leave v b).raise .link := by
    rw [← run]
    rfl
  have record : (v.updLink b (fun f => f.tooMany s.clock.run)).booth b = { v.booth b with link := (v.booth b).link.tooMany s.clock.run } := by
    rw [State.updLink, State.booth_updBooth, if_pos rfl]
  rw [record] at ignored keys
  rw [eq]
  refine ⟨after.trans link, ⟨audio.1.trans h.audio.1, audio.2.trans h.audio.2⟩, ⟨ignored, keys⟩, State.raise_isPending _ _, down, ?_,
    fun d other => ?_⟩
  · exact congrArg (fun n : Notices => { n with waiting := n.waiting ||| Notice.link.bit }) notices
  · obtain ⟨lit, inside⟩ := others d other
    rw [State.updLink, State.booth_updBooth, if_neg other] at lit
    exact ⟨lit.link.trans (h.others d other).1, inside.trans (h.others d other).2⟩

end

/-- The link record of an AUDIO frame's errors counted (R43). -/
def LinkFields.counted (l : LinkFields) (a : AudioFrame) : LinkFields := { l.countErrors a.faults with missingRun := 0 }

/-- The link record of an AUDIO frame whose audio, or whose replacement, is handed (R46). -/
def LinkFields.handed (l : LinkFields) (a : AudioFrame) : LinkFields :=
  if a.errored l.definition.masking then (l.counted a).filled else { l.counted a with heldRun := 0 }

/-- The booth's blocks of such a frame (R46). -/
def State.audioHanded (s : State) (b : BoothId) (a : AudioFrame) : BoothInner :=
  if a.errored (s.booth b).link.definition.masking then (s.inside b).filled (s.booth b).link.heldRun
  else { s.inside b with lastGood := some a.audio, handed := some a.audio }

/-- The link record with a dropped event counted (R47). -/
def LinkFields.drop (l : LinkFields) : LinkFields := l.count (fun c => { c with dropped := satAdd 16 c.dropped 1 })

section
variable {s : State} {b : BoothId} {a : AudioFrame}

/-- A frame's errors and audio, in one bracket, with link record `l`. -/
def State.framed (s : State) (b : BoothId) (a : AudioFrame) (l : LinkFields) : State :=
  (s.relinked b l (s.inner.set b (s.audioHanded b a))).closeBooth s b

/-- The frame's work before the threshold: its event dropped, or delivered (R47). -/
def State.heard (s : State) (b : BoothId) (a : AudioFrame) : State :=
  match delivery (s.booth b).link.definition.masking a with
  | none => s.framed b a ((s.booth b).link.handed a)
  | some none => s.framed b a ((s.booth b).link.handed a).drop
  | some (some (k, n)) => (s.framed b a ((s.booth b).link.handed a)).takeEvent b k n

theorem State.takeLiveFrame_eq : s.takeLiveFrame b a =
    if ((s.heard b a).booth b).link.degraded then (s.heard b a).degrade b else s.heard b a := by
  have handed : (if a.errored s.booths[b].link.definition.masking then (s.updLink b (fun f => { f.countErrors a.faults with missingRun := 0 })).handReplacement b
      else (s.updLink b (fun f => { f.countErrors a.faults with missingRun := 0 })).handGood b a.audio)
      = s.relinked b ((s.booth b).link.handed a) (s.inner.set b (s.audioHanded b a)) := by
    have counted : s.updLink b (fun f => { f.countErrors a.faults with missingRun := 0 }) = s.relinked b ((s.booth b).link.counted a) s.inner := rfl
    rw [counted]
    unfold LinkFields.handed State.audioHanded
    by_cases errored : a.errored (s.booth b).link.definition.masking = true
    · rw [if_pos errored, if_pos errored, if_pos errored, State.relinked_handReplacement]
      rfl
    · rw [if_neg errored, if_neg errored, if_neg errored]
      unfold State.handGood
      rw [State.relinked_updLink, State.relinked_updInner]
  have dropped : (s.relinked b ((s.booth b).link.handed a) (s.inner.set b (s.audioHanded b a))).dropEvent b
      = s.relinked b ((s.booth b).link.handed a).drop (s.inner.set b (s.audioHanded b a)) :=
    s.relinked_updLink b _ _ LinkFields.drop
  unfold State.takeLiveFrame State.heard
  dsimp only
  rw [handed, dropped]
  rfl

/-- A frame's errors and audio alone. -/
theorem State.framed_facts (l : LinkFields) : s.Framed (s.framed b a l) b l (s.audioHanded b a)
    ∧ s.framed b a l = { s with
        booths := s.booths.set b { s.booth b with link := l, changes := ((s.framed b a l).booth b).changes }
        inner := s.inner.set b (s.audioHanded b a) }
    ∧ ((s.framed b a l).booth b).cons = (s.booth b).cons ∧ ((s.framed b a l).booth b).role = (s.booth b).role
    ∧ ∀ d : BoothId, d ≠ b → (s.framed b a l).booth d = s.booth d := by
  obtain ⟨link, cons, role, -, others⟩ := State.closed_facts (s := s) (b := b) l (s.inner.set b (s.audioHanded b a)) (s.framed b a l) rfl
  have eq : s.framed b a l = _ := State.relinked_closeBooth s b l (s.inner.set b (s.audioHanded b a))
  have record : (s.framed b a l).booth b = ({ s.booth b with link := l } : Booth).closed (s.booth b) := by
    rw [eq]
    exact (get_set _ _ _ _).trans (if_pos rfl)
  refine ⟨⟨(s.relinked_turnsOf b l _).closeBooth s, (s.relinked_facing b l _).closeBooth s, link, ?_, fun d other => ⟨?_, ?_⟩⟩, ?_, cons, role, others⟩
  · rw [show (s.framed b a l).inside b = s.audioHanded b a from (get_set _ _ _ _).trans (if_pos rfl)]
    exact ⟨rfl, rfl⟩
  · rw [others d other]
  · exact (get_set _ _ _ _).trans (if_neg other)
  · rw [record, Booth.relinked_closed, eq, Booth.relinked_closed]

end

/-! ## The event a frame delivers -/

/-- A frame's event is lost: the frame's check fails or an error counts in its control field (R47). -/
def losesEvent (a : AudioFrame) (masking : Bool) : Bool :=
  !a.checkOk || a.faults.any (fun f => f.inControl && f.counts masking)

theorem console?_eq_none {m : Fin 4} : console? m = none ↔ m = 0 := by
  by_cases zero : m = 0
  · rw [zero]
    exact ⟨fun _ => rfl, fun _ => console?_zero⟩
  · have positive : m.val ≠ 0 := fun e => zero (Fin.ext e)
    rw [console?_of (n := ⟨m.val - 1, by omega⟩) (show m.val = m.val - 1 + 1 by omega)]
    exact ⟨nofun, fun e => absurd e zero⟩

section
variable {masking : Bool} {a : AudioFrame}

theorem delivery_of_none (h : a.event = none) : delivery masking a = none := by
  unfold delivery
  rw [h]

theorem delivery_of_some {e : ConsoleEvent} (h : a.event = some e) : delivery masking a =
    if losesEvent a masking = true ∨ e.kind = .unknown then some none else some ((console? e.console).map (fun n => (e.kind, n))) := by
  unfold delivery
  rw [h]
  refine if_congr ?_ rfl rfl
  rw [Bool.or_eq_true, beq_iff_eq]
  rfl

/-- The events that are dropped (R47). -/
theorem delivery_dropped : delivery masking a = some none ↔
    ∃ e : ConsoleEvent, a.event = some e ∧ (losesEvent a masking = true ∨ e.kind = .unknown ∨ e.console = 0) := by
  cases h : a.event with
  | none =>
    rw [delivery_of_none h]
    exact ⟨nofun, fun ⟨_, no, _⟩ => nomatch no⟩
  | some e =>
    rw [delivery_of_some h]
    by_cases bad : losesEvent a masking = true ∨ e.kind = .unknown
    · rw [if_pos bad]
      exact ⟨fun _ => ⟨e, rfl, bad.imp_right .inl⟩, fun _ => rfl⟩
    · rw [if_neg bad, Option.some.injEq, Option.map_eq_none_iff, console?_eq_none]
      exact ⟨fun zero => ⟨e, rfl, .inr (.inr zero)⟩, fun ⟨_, is, why⟩ => by
        cases is
        tauto⟩

/-- A delivered event was not lost (R47). -/
theorem delivery_given {x : EventKind × ConsoleId} (h : delivery masking a = some (some x)) :
    ∃ e : ConsoleEvent, a.event = some e ∧ losesEvent a masking = false ∧ e.kind ≠ .unknown ∧ e.console ≠ 0 ∧ e.kind = x.1 := by
  cases event : a.event with
  | none => exact nomatch h.symm.trans (delivery_of_none event)
  | some e =>
    rw [delivery_of_some event] at h
    by_cases bad : losesEvent a masking = true ∨ e.kind = .unknown
    · rw [if_pos bad] at h
      exact nomatch h
    · rw [if_neg bad] at h
      obtain ⟨kept, known⟩ := not_or.mp bad
      obtain ⟨n, number, is⟩ := Option.map_eq_some_iff.mp (Option.some.inj h)
      refine ⟨e, rfl, Bool.eq_false_iff.mpr kept, known, fun zero => ?_, congrArg Prod.fst is⟩
      rw [zero, console?_zero] at number
      exact nomatch number

/-- The events that are delivered (R47). -/
theorem delivery_event {e : ConsoleEvent} {n : ConsoleId} (h : a.event = some e) (kept : losesEvent a masking = false) (known : e.kind ≠ .unknown)
    (number : e.console.val = n.val + 1) : delivery masking a = some (some (e.kind, n)) := by
  rw [delivery_of_some h, if_neg (by rw [kept]; simp [known]), console?_of number]
  rfl

end

/-! ## The frame's link record and what is heard of it -/

section
variable {s : State} {b : BoothId} {a : AudioFrame}

theorem LinkFields.handed_of_errored {l : LinkFields} (errored : a.errored l.definition.masking = true) : l.handed a = (l.counted a).filled :=
  if_pos errored

theorem LinkFields.handed_of_good {l : LinkFields} (good : ¬ a.errored l.definition.masking = true) :
    l.handed a = { l.counted a with heldRun := 0 } := if_neg good

theorem LinkFields.handed_eq (l : LinkFields) (a : AudioFrame) : ∃ held : Nat, l.handed a = { l with
    missingRun := 0
    heldRun := held
    window := l.window.add 8 l.definition.masking a.faults
    counts := { l.counts with
      errors := l.counts.errors.add 16 l.definition.masking a.faults
      replaced := if a.errored l.definition.masking then satAdd 32 l.counts.replaced 1 else l.counts.replaced } } := by
  by_cases errored : a.errored l.definition.masking = true
  · rw [LinkFields.handed_of_errored errored, if_pos errored]
    refine ⟨(l.counted a).filled.heldRun, ?_⟩
    cases l
    rfl
  · rw [LinkFields.handed_of_good errored, if_neg errored]
    refine ⟨0, ?_⟩
    cases l
    rfl

/-- The link record of the frame with its event dropped or not (R47). -/
def LinkFields.afterFrame (l : LinkFields) (a : AudioFrame) : LinkFields :=
  if delivery l.definition.masking a = some none then (l.handed a).drop else l.handed a

theorem LinkFields.afterFrame_eq (l : LinkFields) (a : AudioFrame) : ∃ held : Nat, l.afterFrame a = { l with
    missingRun := 0
    heldRun := held
    window := l.window.add 8 l.definition.masking a.faults
    counts := { l.counts with
      errors := l.counts.errors.add 16 l.definition.masking a.faults
      replaced := if a.errored l.definition.masking then satAdd 32 l.counts.replaced 1 else l.counts.replaced
      dropped := if delivery l.definition.masking a = some none then satAdd 16 l.counts.dropped 1 else l.counts.dropped } } := by
  obtain ⟨held, handed⟩ := l.handed_eq a
  refine ⟨held, ?_⟩
  unfold LinkFields.afterFrame
  rw [handed]
  by_cases dropped : delivery l.definition.masking a = some none
  · rw [if_pos dropped, if_pos dropped]
    rfl
  · rw [if_neg dropped, if_neg dropped]

theorem LinkFields.afterFrame_facts (l : LinkFields) (a : AudioFrame) :
    (l.afterFrame a).state = l.state ∧ (l.afterFrame a).missingRun = 0 ∧ (l.afterFrame a).definition = l.definition
      ∧ (l.afterFrame a).window = l.window.add 8 l.definition.masking a.faults
      ∧ (l.afterFrame a).counts = { l.counts with
          errors := l.counts.errors.add 16 l.definition.masking a.faults
          replaced := if a.errored l.definition.masking then satAdd 32 l.counts.replaced 1 else l.counts.replaced
          dropped := if delivery l.definition.masking a = some none then satAdd 16 l.counts.dropped 1 else l.counts.dropped } := by
  obtain ⟨held, eq⟩ := l.afterFrame_eq a
  rw [eq]
  exact ⟨rfl, rfl, rfl, rfl, rfl⟩

theorem State.heard_of_event {k : EventKind} {n : ConsoleId} (h : delivery (s.booth b).link.definition.masking a = some (some (k, n))) :
    s.heard b a = (s.framed b a ((s.booth b).link.handed a)).takeEvent b k n := by
  unfold State.heard
  rw [h]

theorem State.heard_of_quiet (h : ∀ x, delivery (s.booth b).link.definition.masking a ≠ some (some x)) :
    s.heard b a = s.framed b a ((s.booth b).link.afterFrame a) := by
  unfold State.heard LinkFields.afterFrame
  split
  · rename_i none
    rw [none, if_neg nofun]
  · rename_i dropped
    rw [dropped, if_pos rfl]
  · rename_i given
    exact absurd given (h _)

theorem LinkFields.afterFrame_of_event {l : LinkFields} {x : EventKind × ConsoleId} (h : delivery l.definition.masking a = some (some x)) :
    l.afterFrame a = l.handed a := by
  unfold LinkFields.afterFrame
  rw [h, if_neg nofun]

theorem State.heard_framed : s.Framed (s.heard b a) b ((s.booth b).link.afterFrame a) (s.audioHanded b a) := by
  by_cases event : ∃ x, delivery (s.booth b).link.definition.masking a = some (some x)
  · obtain ⟨⟨k, n⟩, event⟩ := event
    obtain ⟨framed, eq, cons, role, others⟩ := s.framed_facts (b := b) (a := a) ((s.booth b).link.handed a)
    obtain ⟨turns, facing, link, audio, apart, -⟩ := State.takeEvent_leaves (n := n) k framed.turns (show _ = s.channels by rw [eq]) role
    rw [State.heard_of_event event, LinkFields.afterFrame_of_event event]
    exact ⟨turns, facing, link.trans framed.link, ⟨audio.1.trans framed.audio.1, audio.2.trans framed.audio.2⟩,
      fun d other => ⟨(apart d other).1.trans (framed.others d other).1, (apart d other).2.trans (framed.others d other).2⟩⟩
  · rw [State.heard_of_quiet (fun x e => event ⟨x, e⟩)]
    exact (State.framed_facts _).1

/-- What a frame worked in LIVE leaves, below the threshold and at it (R44). -/
theorem State.takeLiveFrame_facts (live : (s.booth b).link.state = .live) {t : State} (ht : t = s.takeLiveFrame b a) :
    ((t.booth b).link.window = ((s.booth b).link.afterFrame a).window
      ∧ (t.booth b).link.counts = { ((s.booth b).link.afterFrame a).counts with degraded := (t.booth b).link.counts.degraded }
      ∧ (t.inside b).sameAudio (s.audioHanded b a) ∧ (t.booth b).sameKeys ((s.heard b a).booth b)
      ∧ ∀ d : BoothId, d ≠ b → (t.booth d).link = (s.booth d).link ∧ t.inside d = s.inside d)
    ∧ (((s.booth b).link.afterFrame a).degraded = true → (t.booth b).link = ((s.booth b).link.afterFrame a).tooMany s.clock.run
        ∧ t.isPending .link = true ∧ s.wentDown t b ∧ t.notices = ((s.turnsHanded b .link).raise .link).notices)
    ∧ (((s.booth b).link.afterFrame a).degraded = false → t = s.heard b a ∧ (t.booth b).link = (s.booth b).link.afterFrame a) := by
  have framed := State.heard_framed (s := s) (b := b) (a := a)
  have still : ((s.booth b).link.afterFrame a).state = .live := ((s.booth b).link.afterFrame_facts a).1.trans live
  rw [State.takeLiveFrame_eq, framed.link] at ht
  by_cases many : ((s.booth b).link.afterFrame a).degraded = true
  · rw [if_pos many] at ht
    obtain ⟨link, audio, keys, pending, down, notices, others⟩ := framed.degrade still ht
    exact ⟨⟨by rw [link]; rfl, by rw [link]; rfl, audio, keys, others⟩, fun _ => ⟨link, pending, down, notices⟩,
      fun few => absurd (many.symm.trans few) (by decide)⟩
  · rw [if_neg many] at ht
    have link : (t.booth b).link = (s.booth b).link.afterFrame a := ht ▸ framed.link
    exact ⟨⟨by rw [link], by rw [link], ht ▸ framed.audio, ht ▸ ⟨rfl, fun _ => ⟨rfl, rfl⟩⟩, ht ▸ framed.others⟩, fun e => absurd e many,
      fun _ => ⟨ht, link⟩⟩

theorem State.audioHanded_eq (s : State) (b : BoothId) (a : AudioFrame) :
    s.audioHanded b a = { s.inside b with lastGood := (s.audioHanded b a).lastGood, handed := (s.audioHanded b a).handed } := by
  unfold State.audioHanded
  split <;> rfl

theorem eventRow?_exec {m : Fin 4} {k : EventKind} {i : Instr} (h : eventRow? b m k = some i) :
    k ≠ .unknown ∧ ∀ u : State, exec i u = .next (u.deliver b k m) := by
  cases k with
  | unknown => exact nomatch h
  | micOn | micOff | offer | accept | cancel | offerOut =>
    cases h
    exact ⟨nofun, fun u => rfl⟩

theorem LinkFields.degraded_iff (l : LinkFields) : l.degraded = true ↔ l.definition.threshold ≤ l.window.symbol
    ∨ l.definition.threshold ≤ l.window.balance ∨ l.definition.threshold ≤ l.window.marker := by
  unfold LinkFields.degraded
  simp only [Bool.or_eq_true, decide_eq_true_eq, or_assoc]

end

/-- Settles O22. -/
theorem liveAudioFrame : Obligations.LiveAudioFrame := by
  intro b a s up
  obtain ⟨t, ht⟩ : ∃ t, t = s.takeLiveFrame b a := ⟨_, rfl⟩
  refine ⟨t, (congrArg Host.Outcome.next (State.takeAudioFrame_of_live up.1 up.2)).trans (congrArg _ ht.symm), ?_⟩
  intro old new masked counted bad lost
  obtain ⟨⟨window, counts, ⟨lastGood, handed⟩, ⟨ignored, keys⟩, others⟩, many, few⟩ := State.takeLiveFrame_facts up.2 ht
  obtain ⟨state, missing, definition, window', counts'⟩ := old.afterFrame_facts a
  have order (f : SymbolFault) : counted f = f.counts old.definition.masking := Bool.or_right_comm _ _ _
  have bad_eq : bad = a.errored old.definition.masking := by
    simp only [bad, order]
    rfl
  have lost_eq : lost = losesEvent a old.definition.masking := by
    simp only [lost, order]
    rfl
  have dropped_iff := delivery_dropped (masking := old.definition.masking) (a := a)
  rw [counts'] at counts
  rw [← lost_eq] at dropped_iff
  have is_degraded := (old.afterFrame a).degraded_iff
  rw [definition, ← window] at is_degraded
  refine ⟨window.trans window', ?_, ?_, ?_, ?_, ?_, ?_, ?_, ?_, others⟩
  · rw [show new.counts = _ from counts]
    rfl
  · intro good
    rw [bad_eq] at good
    have audio : s.audioHanded b a = { s.inside b with lastGood := some a.audio, handed := some a.audio } :=
      if_neg (by rw [good]; decide)
    rw [audio] at handed lastGood
    refine ⟨handed, lastGood, ?_⟩
    rw [show new.counts = _ from counts]
    exact if_neg (by rw [good]; decide)
  · intro errored
    rw [bad_eq] at errored
    have audio : s.audioHanded b a = (s.inside b).filled old.heldRun := if_pos errored
    rw [audio] at handed lastGood
    refine ⟨?_, lastGood, handed⟩
    rw [show new.counts = _ from counts]
    exact if_pos errored
  · intro drops
    rw [show new.counts = _ from counts]
    exact if_pos (dropped_iff.mpr drops)
  · intro keeps
    rw [show new.counts = _ from counts]
    exact if_neg (fun e => keeps (dropped_iff.mp e))
  · intro reached
    obtain ⟨link, pending, down, notices⟩ := many (is_degraded.mpr reached)
    rw [show new = _ from link]
    refine ⟨rfl, rfl, rfl, rfl, rfl, ?_, pending, down, notices⟩
    show satAdd 16 (old.afterFrame a).counts.degraded 1 = _
    rw [counts']
    rfl
  · intro below
    have not_degraded : (old.afterFrame a).degraded = false := by
      refine Bool.eq_false_iff.mpr fun e => ?_
      obtain ⟨symbol, balance, marker⟩ := below
      exact (is_degraded.mp e).elim (Nat.not_le.mpr symbol) (Or.rec (Nat.not_le.mpr balance) (Nat.not_le.mpr marker))
    obtain ⟨eq, link⟩ := few not_degraded
    have framed := State.heard_framed (s := s) (b := b) (a := a)
    rw [← eq] at framed
    rw [show new = _ from link]
    refine ⟨state.trans up.2, missing, framed.turns.only, fun e k event kept known number used => ?_, fun none => ?_⟩
    · have given := delivery_event event (lost_eq.symm.trans kept) known number
      obtain ⟨before, same, cons, role, _⟩ := s.framed_facts (b := b) (a := a) (old.handed a)
      have taken := (State.takeEvent_leaves (n := k) e.kind before.turns (show _ = s.channels by rw [same]) role).2.2.2.2.2
      rw [eq, State.heard_of_event given]
      exact taken (by rw [cons]; exact used)
    · have quiet (x : EventKind × ConsoleId) : delivery old.definition.masking a ≠ some (some x) := fun given => by
        obtain ⟨e, event, kept, known, number, _⟩ := delivery_given given
        exact none ⟨e, event, lost_eq.trans kept, known, number⟩
      obtain ⟨_, same, cons, role, apart⟩ := s.framed_facts (b := b) (a := a) (old.afterFrame a)
      rw [eq, State.heard_of_quiet quiet]
      exact ⟨cons, role, show _ = s.channels by rw [same], apart⟩
  · intro e i event kept number row
    obtain ⟨known, work⟩ := eventRow?_exec row
    have number : e.console.val = (⟨e.console.val - 1, by omega⟩ : ConsoleId).val + 1 := by
      have : e.console.val ≠ 0 := fun h => number (Fin.ext h)
      show e.console.val = e.console.val - 1 + 1
      omega
    have given := delivery_event event (lost_eq.symm.trans kept) known number
    obtain ⟨before, same, cons, role, _⟩ := s.framed_facts (b := b) (a := a) (old.handed a)
    have heard := State.heard_of_event given
    have link := LinkFields.afterFrame_of_event given
    have live : (old.handed a).state = .live := by rw [← link, state]; exact up.2
    have on : (s.framed b a (old.handed a)).boothUp b := ⟨(show _ = s.part by rw [same]).trans up.1, by rw [before.link]; exact live⟩
    refine ⟨s.framed b a (old.handed a), s.heard b a, ?_, by rw [before.link]; exact live, ?_, fun still => ?_, ignored, keys⟩
    · rw [lastGood, handed, ← State.audioHanded_eq, before.link]
      exact same
    · rw [work, State.deliver_of_up on number, heard]
    · have not_degraded : (old.afterFrame a).degraded = false := by
        refine Bool.eq_false_iff.mpr fun e => ?_
        rw [show new = _ from (many e).1] at still
        exact nomatch still
      obtain ⟨eq, after⟩ := few not_degraded
      exact ⟨eq.symm, by rw [before.link, ← link]; exact after.symm⟩

end Sys2Proof.Machine
end

section
/-!
SUPPORT. The plan computation (R96): the grants of its two passes, by position (O40).
-/
namespace Sys2Proof.Machine

/-! ## Tables as lists -/

theorem finRange_filter_lt {n : Nat} (c : Fin n) : (List.finRange n).filter (fun d => d < c) = (List.finRange n).take c.val := by
  have before : ∀ d ∈ (List.finRange n).take c.val, d < c := fun d inside => by
    obtain ⟨i, hi, rfl⟩ := List.mem_take_iff_getElem.mp inside
    rw [List.getElem_finRange]
    exact Fin.lt_def.mpr (lt_min_iff.mp hi).1
  have after : ∀ d ∈ (List.finRange n).drop c.val, ¬ d < c := fun d inside => by
    obtain ⟨i, hi, rfl⟩ := List.mem_drop_iff_getElem.mp inside
    rw [List.getElem_finRange]
    exact fun h => absurd (Fin.lt_def.mp h) (Nat.not_lt.mpr (Nat.le_add_right _ _))
  conv_lhs => rw [← List.take_append_drop c.val (List.finRange n), List.filter_append]
  rw [List.filter_eq_self.mpr (by simpa using before), List.filter_eq_nil_iff.mpr (by simpa using after), List.append_nil]

theorem map_getD {α : Type} {n : Nat} (l : List α) (x : α) (h : l.length = n) : (List.finRange n).map (fun i => l.getD i.val x) = l := by
  refine List.ext_getElem (by simp [h]) fun i _ inside => ?_
  simp [List.getD_eq_getElem?_getD, inside]

theorem toList_eq_map {α : Type} {n : Nat} (v : Vector α n) : v.toList = (List.finRange n).map v.get := by
  refine List.ext_getElem (by simp) fun i hi _ => ?_
  simp [Vector.get]

theorem sum_map_of_le_one {ι : Type} (l : List ι) (f : ι → Nat) (h : ∀ i, f i ≤ 1) : (l.map f).sum = l.countP (fun i => decide (0 < f i)) := by
  induction l with
  | nil => rfl
  | cons i l ih =>
    rw [List.map_cons, List.sum_cons, ih, List.countP_cons]
    have := h i
    by_cases positive : 0 < f i
    · rw [if_pos (decide_eq_true positive)]
      omega
    · rw [if_neg (by simp [positive])]
      omega

/-! ## The two passes -/

theorem grantFirst_length (left : Nat) (ds : List Bool) : (grantFirst left ds).length = ds.length := by
  induction ds generalizing left with
  | nil => rfl
  | cons d ds ih =>
    unfold grantFirst
    split
    · exact congrArg Nat.succ (ih _)
    · exact congrArg Nat.succ (ih _)

/-- The first pass grants one slot to each defined channel while any remain. -/
theorem grantFirst_getD (left : Nat) (ds : List Bool) (i : Nat) : (grantFirst left ds).getD i 0 =
    if ds.getD i false = true ∧ (ds.take i).countP id < left then 1 else 0 := by
  induction ds generalizing left i with
  | nil => rw [if_neg (by simp)]; rfl
  | cons d ds ih =>
    unfold grantFirst
    by_cases given : (d && decide (0 < left)) = true
    · rw [if_pos given]
      obtain ⟨rfl, room⟩ := by simpa using given
      cases i with
      | zero => simp [room]
      | succ i =>
        rw [List.getD_cons_succ, List.getD_cons_succ, ih, List.take_succ_cons, List.countP_cons]
        refine if_congr (and_congr_right fun _ => ?_) rfl rfl
        simp only [id, if_true]
        omega
    · rw [if_neg given]
      cases i with
      | zero => rw [List.getD_cons_zero, List.getD_cons_zero, if_neg (by simpa using given)]
      | succ i =>
        rw [List.getD_cons_succ, List.getD_cons_succ, ih, List.take_succ_cons, List.countP_cons]
        refine if_congr (and_congr_right fun _ => ?_) rfl rfl
        cases d with
        | false => simp
        | true =>
          have none : left = 0 := by simpa using given
          omega

theorem grantFirst_sum (left : Nat) (ds : List Bool) : (grantFirst left ds).sum ≤ left := by
  induction ds generalizing left with
  | nil => exact Nat.zero_le _
  | cons d ds ih =>
    unfold grantFirst
    split
    · rename_i given
      have room : 0 < left := by simp only [Bool.and_eq_true, decide_eq_true_eq] at given; exact given.2
      have rest := ih (left - 1)
      rw [List.sum_cons]
      omega
    · rw [List.sum_cons, Nat.zero_add]
      exact ih left

/-- A channel granted a slot that asks for a second. -/
def wantsSecond (x : Nat × Bool) : Bool := x.2 && decide (0 < x.1)

theorem grantSecond_length (left : Nat) (gs : List (Nat × Bool)) : (grantSecond left gs).length = gs.length := by
  induction gs generalizing left with
  | nil => rfl
  | cons x gs ih =>
    obtain ⟨g, w⟩ := x
    unfold grantSecond
    split
    · exact congrArg Nat.succ (ih _)
    · exact congrArg Nat.succ (ih _)

/-- The second pass grants a second slot to each granted WIDE channel while any remain. -/
theorem grantSecond_getD (left : Nat) (gs : List (Nat × Bool)) (i : Nat) : (grantSecond left gs).getD i 0 =
    if wantsSecond (gs.getD i (0, false)) = true ∧ (gs.take i).countP wantsSecond < left then (gs.getD i (0, false)).1 + 1
    else (gs.getD i (0, false)).1 := by
  induction gs generalizing left i with
  | nil => rw [if_neg (by simp [wantsSecond])]; rfl
  | cons x gs ih =>
    obtain ⟨g, w⟩ := x
    unfold grantSecond
    by_cases given : (w && decide (0 < g) && decide (0 < left)) = true
    · rw [if_pos given]
      obtain ⟨wants, room⟩ : wantsSecond (g, w) = true ∧ 0 < left := by simpa [wantsSecond] using given
      cases i with
      | zero => rw [List.getD_cons_zero, List.getD_cons_zero, if_pos ⟨wants, room⟩]
      | succ i =>
        rw [List.getD_cons_succ, List.getD_cons_succ, ih, List.take_succ_cons, List.countP_cons, if_pos wants]
        refine if_congr (and_congr_right fun _ => ?_) rfl rfl
        omega
    · rw [if_neg given]
      cases i with
      | zero =>
        rw [List.getD_cons_zero, List.getD_cons_zero, if_neg (fun h => given (by
          obtain ⟨wants, room⟩ := h
          exact Bool.and_eq_true_iff.mpr ⟨wants, decide_eq_true room⟩))]
      | succ i =>
        rw [List.getD_cons_succ, List.getD_cons_succ, ih, List.take_succ_cons, List.countP_cons]
        refine if_congr (and_congr_right fun _ => ?_) rfl rfl
        by_cases wants : wantsSecond (g, w) = true
        · have none : ¬ 0 < left := fun room => given (Bool.and_eq_true_iff.mpr ⟨wants, decide_eq_true room⟩)
          omega
        · rw [if_neg wants, Nat.add_zero]

theorem grantSecond_sum (left : Nat) (gs : List (Nat × Bool)) : (grantSecond left gs).sum ≤ (gs.map Prod.fst).sum + left := by
  induction gs generalizing left with
  | nil => exact Nat.zero_le _
  | cons x gs ih =>
    obtain ⟨g, w⟩ := x
    unfold grantSecond
    rw [List.map_cons, List.sum_cons]
    split
    · rename_i given
      have room : 0 < left := by simp only [Bool.and_eq_true, decide_eq_true_eq] at given; exact given.2
      have rest := ih (left - 1)
      rw [List.sum_cons]
      show g + 1 + _ ≤ g + _ + left
      omega
    · have rest := ih left
      rw [List.sum_cons]
      show g + _ ≤ g + _ + left
      omega

/-! ## The plan -/

section
variable (m : DistMode) (q : Format) (chs : Vector Channel 32)

/-- The slots the first pass grants a channel (R96). -/
def firstGrant (c : ChannelId) : Nat := (grantFirst m.budget (chs.toList.map (fun ch => ch.defined))).getD c.val 0

/-- The slots the plan gives a channel (R96). -/
def planSlots (c : ChannelId) : Nat := (planGrants m q chs).getD c.val 0

theorem grants_eq : grantFirst m.budget (chs.toList.map (fun ch => ch.defined)) = (List.finRange 32).map (firstGrant m chs) :=
  (map_getD _ 0 (by simp [grantFirst_length])).symm

theorem asks_eq : (grantFirst m.budget (chs.toList.map (fun ch => ch.defined))).zip
    (Vector.ofFn (fun c : ChannelId => planWide q c chs[c])).toList
      = (List.finRange 32).map (fun c => (firstGrant m chs c, planWide q c chs[c])) := by
  rw [grants_eq, toList_eq_map, List.zip_map']
  simp

theorem planGrants_length : (planGrants m q chs).length = 32 := by
  unfold planGrants
  dsimp only
  rw [grantSecond_length, asks_eq]
  simp

theorem planGrants_eq : planGrants m q chs = (List.finRange 32).map (planSlots m q chs) :=
  (map_getD _ 0 (planGrants_length m q chs)).symm

theorem firstGrant_eq (c : ChannelId) : firstGrant m chs c =
    if (chs.get c).defined = true ∧ ((List.finRange 32).filter (fun d => d < c)).countP (fun d => (chs.get d).defined) < m.budget then 1
    else 0 := by
  unfold firstGrant
  rw [grantFirst_getD, toList_eq_map, List.map_map, ← List.map_take, List.countP_map, finRange_filter_lt]
  refine if_congr (and_congr_left fun _ => ?_) rfl rfl
  simp [List.getD_eq_getElem?_getD]

/-- The second pass's slots of a channel, by those of the first (R96). -/
theorem planSlots_eq (c : ChannelId) : planSlots m q chs c =
    if (planWide q c chs[c] = true ∧ 0 < firstGrant m chs c) ∧ ((List.finRange 32).filter (fun d => d < c)).countP
        (fun d => planWide q d chs[d] && decide (0 < firstGrant m chs d)) < m.budget - ((List.finRange 32).map (firstGrant m chs)).sum
      then firstGrant m chs c + 1 else firstGrant m chs c := by
  have own : ((List.finRange 32).map (fun c => (firstGrant m chs c, planWide q c chs[c]))).getD c.val (0, false)
      = (firstGrant m chs c, planWide q c chs[c]) := by simp [List.getD_eq_getElem?_getD]
  unfold planSlots planGrants
  dsimp only
  rw [grantSecond_getD, asks_eq, grants_eq, own, ← List.map_take, List.countP_map, finRange_filter_lt]
  refine if_congr (and_congr_left fun _ => ?_) rfl rfl
  simp [wantsSecond]

theorem computePlan_entry (c : ChannelId) : (computePlan m q chs).entries.get c =
    { onAir := decide (0 < planSlots m q chs c), slots := planSlots m q chs c
      first := if 0 < planSlots m q chs c then ((planGrants m q chs).take c.val).sum else 0, lang := (chs.get c).lang } := by
  unfold computePlan
  dsimp only
  simp only [Vector.get_ofFn]
  rfl

theorem planSlots_positive (c : ChannelId) : 0 < planSlots m q chs c ↔ 0 < firstGrant m chs c := by
  rw [planSlots_eq]
  split
  · rename_i second
    exact ⟨fun _ => second.1.2, fun _ => Nat.succ_pos _⟩
  · exact Iff.rfl

theorem firstGrant_le (c : ChannelId) : firstGrant m chs c ≤ 1 := by
  rw [firstGrant_eq]
  split
  · exact le_refl 1
  · exact Nat.zero_le 1

/-- A channel is on air exactly when the first pass grants it a slot. -/
theorem granted_iff (c : ChannelId) : 0 < planSlots m q chs c ↔
    (chs.get c).defined = true ∧ ((List.finRange 32).filter (fun d => d < c)).countP (fun d => (chs.get d).defined) < m.budget := by
  rw [planSlots_positive, firstGrant_eq]
  split
  · rename_i granted
    exact ⟨fun _ => granted, fun _ => Nat.one_pos⟩
  · rename_i refused
    exact ⟨fun h => absurd h (Nat.lt_irrefl 0), fun h => absurd h refused⟩

theorem planWide_iff (c : ChannelId) : planWide q c chs[c] = true ↔ (if c = 0 then q else (chs.get c).quality) = .wide := beq_iff_eq

theorem computePlan_used : (computePlan m q chs).used = ((List.finRange 32).map (planSlots m q chs)).sum := by
  rw [← planGrants_eq]
  rfl

theorem computePlan_within : (computePlan m q chs).used ≤ m.budget := by
  have second := grantSecond_sum (m.budget - (grantFirst m.budget (chs.toList.map (fun ch => ch.defined))).sum)
    ((grantFirst m.budget (chs.toList.map (fun ch => ch.defined))).zip (Vector.ofFn (fun c : ChannelId => planWide q c chs[c])).toList)
  have first := grantFirst_sum m.budget (chs.toList.map (fun ch => ch.defined))
  rw [List.map_fst_zip (by simp [grantFirst_length])] at second
  show (planGrants m q chs).sum ≤ _
  unfold planGrants
  dsimp only
  omega

theorem computePlan_offAir : (computePlan m q chs).offAir = if m = .stopped then 0 else
    (List.finRange 32).countP (fun c => (chs.get c).defined && !decide (0 < planSlots m q chs c)) := by
  show (if m = .stopped then 0 else _) = _
  refine if_congr Iff.rfl rfl ?_
  rw [planGrants_eq, toList_eq_map, List.zip_map', List.countP_map]
  refine List.countP_congr fun c _ => ?_
  simp

end

/-- Settles O40. -/
theorem planWithinBudget : Obligations.PlanWithinBudget := by
  intro m q chs channel0 p wide defined granted
  have entry (c : ChannelId) := computePlan_entry m q chs c
  have onAir (c : ChannelId) : (p.entries.get c).onAir = true ↔
      defined c = true ∧ ((List.finRange 32).filter (fun d => d < c)).countP defined < m.budget := by
    rw [show p.entries.get c = _ from entry c, decide_eq_true_iff]
    exact granted_iff m q chs c
  have slots (c : ChannelId) : (p.entries.get c).slots = planSlots m q chs c := congrArg PlanEntry.slots (entry c)
  have first (c : ChannelId) (on : (p.entries.get c).onAir = true) : (p.entries.get c).first =
      (((List.finRange 32).filter (fun d => d < c)).map (fun d => (p.entries.get d).slots)).sum := by
    have positive : 0 < planSlots m q chs c := by
      rw [show p.entries.get c = _ from entry c, decide_eq_true_iff] at on
      exact on
    rw [show p.entries.get c = _ from entry c, finRange_filter_lt]
    show (if 0 < planSlots m q chs c then _ else _) = _
    rw [if_pos positive, planGrants_eq, List.map_take]
    simp only [slots]
  have one (c : ChannelId) : decide (0 < firstGrant m chs c) = (p.entries.get c).onAir := by
    rw [show p.entries.get c = _ from entry c]
    exact decide_eq_decide.mpr (planSlots_positive m q chs c).symm
  have granted_eq : ((List.finRange 32).map (firstGrant m chs)).sum = granted := by
    rw [sum_map_of_le_one _ _ (firstGrant_le m chs)]
    simp only [one]
    rfl
  refine ⟨rfl, ?_, computePlan_within m q chs, fun on => ?_, ?_, fun c => ⟨onAir c, fun off => ?_, first c, fun on => ?_, ?_⟩⟩
  · simp only [slots]
    exact computePlan_used m q chs
  · have on0 : (p.entries.get 0).onAir = true := (onAir 0).mpr ⟨channel0, by
      rw [finRange_filter_lt]
      cases m with
      | stopped => exact absurd rfl on
      | hall => exact show 0 < 40 by decide
      | reduced => exact show 0 < 24 by decide⟩
    refine ⟨on0, (first 0 on0).trans ?_⟩
    rw [finRange_filter_lt]
    rfl
  · rw [show p.offAir = _ from computePlan_offAir m q chs]
    refine if_congr Iff.rfl rfl (List.countP_congr fun c _ => ?_)
    rw [show p.entries.get c = _ from entry c]
  · rw [slots]
    rw [show p.entries.get c = _ from entry c, decide_eq_false_iff_not] at off
    exact Nat.eq_zero_of_not_pos off
  · have given : 0 < firstGrant m chs c := by rw [← decide_eq_true_iff (p := 0 < firstGrant m chs c), one]; exact on
    have single : firstGrant m chs c = 1 := le_antisymm (firstGrant_le m chs c) given
    rw [slots, planSlots_eq, granted_eq, single]
    refine if_congr (and_congr ?_ ?_) rfl rfl
    · rw [planWide_iff]
      exact ⟨fun h => h.1, fun h => ⟨h, Nat.one_pos⟩⟩
    · simp only [one]
      rfl
  · rw [show p.entries.get c = _ from entry c]

end Sys2Proof.Machine
end

section
/-!
SUPPORT. The distribution frame and its slots (R93, R98), and the superframe boundary (O41).
-/
namespace Sys2Proof.Machine

/-! ## The slots of a frame -/

theorem tblAll_eq_filter {α : Type} {n : Nat} (v : Vector α n) (p : α → Bool) :
    tblAll v p = (List.finRange n).filter (fun i => p (v.get i)) := by
  refine List.Pairwise.eq_of_mem_iff (r := (· < ·)) (tblAll_sorted v p) ((List.pairwise_lt_finRange n).filter _) fun i => ?_
  rw [mem_tblAll, List.mem_filter]
  exact ⟨fun h => ⟨List.mem_finRange i, h⟩, fun h => h.2⟩

theorem flatMap_filter {ι α : Type} (l : List ι) (p : ι → Bool) (f : ι → List α) :
    (l.filter p).flatMap f = l.flatMap (fun i => if p i then f i else []) := by
  induction l with
  | nil => rfl
  | cons i l ih =>
    rw [List.filter_cons, List.flatMap_cons]
    by_cases h : p i = true
    · rw [if_pos h, if_pos h, List.flatMap_cons, ih]
    · rw [if_neg h, if_neg h, ih]
      rfl

/-- The place of an element of one list among several put one behind the other. -/
theorem flatMap_getElem? {ι α : Type} (l : List ι) (f : ι → List α) (k : Nat) (hk : k < l.length) (i : Nat) (hi : i < (f l[k]).length) :
    (l.flatMap f)[((l.take k).map (fun j => (f j).length)).sum + i]? = (f l[k])[i]? := by
  induction l generalizing k with
  | nil => exact absurd hk (Nat.not_lt_zero k)
  | cons j l ih =>
    rw [List.flatMap_cons]
    cases k with
    | zero => exact (congrArg _ (Nat.zero_add i)).trans (List.getElem?_append_left hi)
    | succ k =>
      rw [List.take_succ_cons, List.map_cons, List.sum_cons, Nat.add_assoc, List.getElem?_append_right (Nat.le_add_right _ _),
        Nat.add_sub_cancel_left]
      exact ih k (Nat.lt_of_succ_lt_succ hk) hi

theorem slotFields_length (e : PlanEntry) (cleared : Bool) (a : Audio) : (slotFields e cleared a).length = e.slots := by
  unfold slotFields
  split
  · exact List.length_replicate
  · split
    · rename_i two
      exact two.symm
    · exact List.length_replicate

theorem slotFields_getElem? (e : PlanEntry) (cleared : Bool) (a : Audio) {i : Nat} (hi : i < e.slots) : (slotFields e cleared a)[i]? =
    some (if cleared then .silent else if e.slots = 2 then .wide (if i = 0 then 0 else 1) a else .standard a) := by
  unfold slotFields
  split
  · exact List.getElem?_replicate_of_lt hi
  · split
    · rename_i two
      rw [two] at hi
      match i with
      | 0 | 1 => rfl
    · exact List.getElem?_replicate_of_lt hi

section
variable (t : State)

/-- The slots a channel holds in the active plan. -/
def State.slotsHeld (c : ChannelId) : Nat :=
  if (t.framer.active.entries.get c).onAir then (t.framer.active.entries.get c).slots else 0

/-- The slot fields of one channel of a frame. -/
def State.channelSlots (c : ChannelId) : List SlotField :=
  if (t.framer.active.entries.get c).onAir then slotFields t.framer.active.entries[c] t.framer.cleared[c] t.audio[c] else []

theorem State.channelSlots_length (c : ChannelId) : (t.channelSlots c).length = t.slotsHeld c := by
  unfold State.channelSlots State.slotsHeld
  split
  · exact slotFields_length _ _ _
  · rfl

theorem State.frameSlots_eq : t.frameSlots = ((List.finRange 32).flatMap t.channelSlots
    ++ List.replicate t.framer.active.mode.budget SlotField.silent).take t.framer.active.mode.budget := by
  unfold State.frameSlots
  dsimp only
  rw [tblAll_eq_filter, flatMap_filter]
  rfl

/-- The slots of a frame are those of R98. -/
theorem State.filled_of_frameSlots {f : DistFrame} (slots : f.slots = t.frameSlots) : t.filled f := by
  unfold State.filled
  intro p held before
  have length (c : ChannelId) : (t.channelSlots c).length = held c := t.channelSlots_length c
  rw [slots, State.frameSlots_eq]
  refine ⟨?_, fun c i inside within => ?_, fun i beyond within => ?_⟩
  · rw [List.length_take, List.length_append, List.length_replicate]
    exact Nat.min_eq_left (Nat.le_add_left _ _)
  · have place := flatMap_getElem? (List.finRange 32) t.channelSlots c.val (by simp) i
      (by rw [List.getElem_finRange]; exact (length c).symm ▸ inside)
    simp only [length] at place
    rw [List.getElem_finRange, ← finRange_filter_lt] at place
    have on : (t.framer.active.entries.get c).onAir = true := by
      by_contra off
      exact absurd inside (by rw [show held c = 0 from if_neg off]; exact Nat.not_lt_zero i)
    have few : i < (p.entries.get c).slots := by rwa [show held c = (p.entries.get c).slots from if_pos on] at inside
    have own : (t.channelSlots c)[i]? = _ := (congrArg (·[i]?) (if_pos on)).trans (slotFields_getElem? _ _ _ few)
    have given : ((List.finRange 32).flatMap t.channelSlots)[before c + i]? = _ := place.trans own
    have bound := (List.getElem?_eq_some_iff.mp given).1
    rw [List.getElem?_take_of_lt within, List.getElem?_append_left bound]
    exact given
  · have total : ((List.finRange 32).flatMap t.channelSlots).length = ((List.finRange 32).map held).sum := by
      rw [List.length_flatMap]
      simp only [length]
    rw [List.getElem?_take_of_lt within, List.getElem?_append_right (by rw [total]; exact beyond)]
    exact List.getElem?_replicate_of_lt (lt_of_le_of_lt (Nat.sub_le _ _) within)

theorem State.distFrame_filled (on : t.framer.active.mode ≠ .stopped) : ∃ f : DistFrame, t.distFrame = some f ∧ f.position = t.framer.position
    ∧ f.directory = t.framer.directory ∧ t.filled f :=
  ⟨_, if_neg on, rfl, rfl, t.filled_of_frameSlots rfl⟩

end

/-! ## A superframe boundary -/

/-- The superframe counted and no longer due. -/
def State.superCounted (s : State) : State :=
  { s with framer := { s.framer with superframes := s.framer.superframes + 1, due := false } }

/-- The end of a superframe boundary: the directory, the record's bracket and the frame (R93, R99, R100). -/
def State.superEnded (u : State) (bump : Bool) : State :=
  let built := if u.framer.active.mode = .stopped then u else u.buildDirectory
  (if bump then built.bumpPlan else built).sendDist

section
variable {s u t : State}

theorem State.workSuperframe_of_none (h : s.framer.staged = none) :
    s.workSuperframe = s.superCounted.superEnded (s.framer.active.mode != .stopped) := by
  unfold State.workSuperframe
  extract_lets f s1 s2 s3 s4
  have same : s2 = s1 := by
    simp only [s2]
    split
    · rename_i staged
      exact nomatch staged.symm.trans h
    · rfl
  have unstaged : s1.framer.staged.isSome = false := congrArg Option.isSome h
  simp only [s4, s3, unstaged, same, Bool.false_or]
  rfl

theorem State.workSuperframe_of_some {p : Plan} (h : s.framer.staged = some p) :
    s.workSuperframe = (s.superCounted.swapPlan p).superEnded true := by
  unfold State.workSuperframe
  extract_lets f s1 s2 s3 s4
  have swapped : s2 = s1.swapPlan p := by
    simp only [s2]
    split
    · rename_i staged
      rw [Option.some.inj (staged.symm.trans h)]
    · rename_i staged
      exact nomatch staged.symm.trans h
  have staged : s1.framer.staged.isSome = true := congrArg Option.isSome h
  simp only [s4, s3, staged, swapped, Bool.true_or]
  rfl

/-- The directory that R99 builds from the active plan. -/
def State.directoryBuilt (u : State) : Directory :=
  { planNumber := u.framer.planNumber, superframe := u.framer.superframes
    entries := ((List.finRange 32).filter (fun c => (u.framer.active.entries.get c).onAir)).map (fun c =>
      { channel := c, lang := (u.framer.active.entries.get c).lang, first := (u.framer.active.entries.get c).first,
        count := (u.framer.active.entries.get c).slots,
        source := if c = 0 then .floor else if u.framer.cleared.get c then .noSource else (u.channel c).source }) }

theorem State.buildDirectory_eq (u : State) : u.buildDirectory = { u with framer := { u.framer with directory := u.directoryBuilt } } := by
  unfold State.buildDirectory State.directoryBuilt
  dsimp only
  rw [tblAll_eq_filter]
  rfl

/-- What the end of a superframe boundary leaves. -/
theorem State.superEnded_facts (bump : Bool) (ht : t = u.superEnded bump) :
    t = { u with framer := t.framer } ∧ t.framer = { u.framer with
        changes := t.framer.changes, directory := t.framer.directory, line := t.framer.line }
      ∧ (u.framer.active.mode = .stopped → t.framer.line = none ∧ t.framer.directory = u.framer.directory)
      ∧ (u.framer.active.mode ≠ .stopped → t.framer.directory = u.directoryBuilt ∧ ∃ f : DistFrame, t.framer.line = some f
          ∧ f.position.val = u.framer.frames % 64 ∧ f.directory = t.framer.directory ∧ t.filled f) := by
  obtain ⟨x, y, bumped⟩ : ∃ (x : Half) (y : Directory), (if bump then
      (if u.framer.active.mode = .stopped then u else u.buildDirectory).bumpPlan
      else if u.framer.active.mode = .stopped then u else u.buildDirectory) = { u with framer := { u.framer with changes := x, directory := y } }
      ∧ (u.framer.active.mode = .stopped → y = u.framer.directory) ∧ (u.framer.active.mode ≠ .stopped → y = u.directoryBuilt) := by
    by_cases off : u.framer.active.mode = .stopped
    · rw [if_pos off]
      cases bump with
      | true => exact ⟨u.framer.changes + 2, u.framer.directory, rfl, fun _ => rfl, fun on => absurd off on⟩
      | false => exact ⟨u.framer.changes, u.framer.directory, rfl, fun _ => rfl, fun on => absurd off on⟩
    · rw [if_neg off, State.buildDirectory_eq]
      cases bump with
      | true => exact ⟨u.framer.changes + 2, _, rfl, fun on => absurd on off, fun _ => rfl⟩
      | false => exact ⟨u.framer.changes, _, rfl, fun on => absurd on off, fun _ => rfl⟩
  obtain ⟨bumped, kept, built⟩ := bumped
  have eq : t = ({ u with framer := { u.framer with changes := x, directory := y } } : State).sendDist := by
    rw [ht, ← bumped]
    rfl
  subst eq
  refine ⟨rfl, rfl, fun off => ⟨if_pos off, kept off⟩, fun on => ⟨built on, ?_⟩⟩
  obtain ⟨f, line, position, directory, filled⟩ :=
    State.distFrame_filled ({ u with framer := { u.framer with changes := x, directory := y } } : State) on
  exact ⟨f, line, congrArg Fin.val position, directory, filled⟩

/-- A channel's record with its fields on a new plan (R97, R101). -/
def Channel.aired (old new : PlanEntry) (ch : Channel) : Channel :=
  { ch with
    onAir := new.onAir, slots := new.slots, first := new.first
    stranded := if new.onAir then false else ch.stranded || (old.onAir && decide (0 < ch.listeners)) }

theorem Channel.swapped_aired (old new : PlanEntry) (ch : Channel) :
    ch.swapped old new = if ch.aired old new = ch then ch else (ch.aired old new).bump := by
  have stranded : (if new.onAir then false else if old.onAir && decide (0 < ch.listeners) then true else ch.stranded)
      = if new.onAir then false else ch.stranded || (old.onAir && decide (0 < ch.listeners)) := by
    refine if_congr Iff.rfl rfl ?_
    cases old.onAir && decide (0 < ch.listeners)
    · exact (Bool.or_false _).symm
    · exact (Bool.or_true _).symm
  unfold Channel.swapped
  dsimp only
  rw [stranded]
  rfl

/-- A channel's record at a swap, in the words of R97 and R101. -/
theorem Channel.swapped_eq (old new : PlanEntry) (ch : Channel) :
    ch.swapped old new = { ch.aired old new with changes := (ch.swapped old new).changes }
    ∧ ((ch.swapped old new).onAir = ch.onAir → (ch.swapped old new).slots = ch.slots → (ch.swapped old new).first = ch.first →
        (ch.swapped old new).stranded = ch.stranded → ch.swapped old new = ch) := by
  rw [Channel.swapped_aired]
  by_cases same : ch.aired old new = ch
  · rw [if_pos same, same]
    exact ⟨rfl, fun _ _ _ _ => rfl⟩
  · rw [if_neg same]
    refine ⟨rfl, fun onAir slots first stranded => absurd ?_ same⟩
    show ({ ch with
      onAir := (ch.aired old new).bump.onAir, slots := (ch.aired old new).bump.slots
      first := (ch.aired old new).bump.first, stranded := (ch.aired old new).bump.stranded } : Channel) = ch
    rw [onAir, slots, first, stranded]

/-- The framer once a superframe is counted and a staged plan swapped in (R97). -/
def State.framerSwapped (s : State) (p : Plan) (chs : Vector Channel 32) : Framer :=
  { s.framer with
    superframes := s.framer.superframes + 1, due := false, active := p, staged := none, planNumber := s.framer.planNumber + 1
    directory := if p.mode = .stopped then { s.framer.directory with entries := [] } else s.framer.directory
    shortage := p.short, strandedCount := strandedIn chs, cleared := Vector.replicate 32 false }

theorem State.swapPlan_facts {p : Plan} (hu : u = s.superCounted.swapPlan p) :
    u = { s with framer := u.framer, channels := u.channels, notices := u.notices } ∧ u.framer = s.framerSwapped p u.channels
      ∧ u.isPending .plan = true
      ∧ ∀ c : ChannelId, u.channel c = (s.channel c).swapped (s.framer.active.entries.get c) (p.entries.get c) := by
  subst hu
  refine ⟨rfl, rfl, State.raise_isPending _ _, fun c => ?_⟩
  exact Vector.getElem_ofFn _

theorem strandedIn_eq (chs : Vector Channel 32) : strandedIn chs = (List.finRange 32).countP (fun c => (chs.get c).stranded) := by
  unfold strandedIn
  rw [toList_eq_map, List.countP_map]
  rfl

theorem Plan.short_iff (p : Plan) : p.short = true ↔ p.mode ≠ .stopped ∧ 0 < p.offAir := by
  unfold Plan.short
  simp only [Bool.and_eq_true, bne_iff_ne, decide_eq_true_iff]

end

/-- Settles O41. -/
theorem superframeSwapsAndBuilds : Obligations.SuperframeSwapsAndBuilds := by
  refine ⟨fun s idle => ?_, fun s due starting => ?_, fun s due restarting => ?_, fun s due ready => ?_⟩
  · exact congrArg Host.Outcome.next (if_pos idle)
  · show Host.Outcome.next s.superframe = _
    unfold State.superframe
    rw [if_neg (by rw [due]; decide), starting]
  · refine ⟨({ s with framer := { s.framer with due := false } } : State).sendDist, ?_, rfl, fun off => if_pos off, fun on => ?_⟩
    · show Host.Outcome.next s.superframe = _
      unfold State.superframe
      rw [if_neg (by rw [due]; decide), restarting]
    · obtain ⟨f, line, position, directory, filled⟩ := State.distFrame_filled ({ s with framer := { s.framer with due := false } } : State) on
      exact ⟨f, line, congrArg Fin.val position, directory, filled⟩
  · have work : s.superframe = s.workSuperframe := by
      unfold State.superframe
      rw [if_neg (by rw [due]; decide), ready]
    refine ⟨s.workSuperframe, congrArg Host.Outcome.next work, ?_⟩
    by_cases unstaged : s.framer.staged = none
    · have facts := State.superEnded_facts _ (State.workSuperframe_of_none unstaged)
      generalize s.workSuperframe = t at facts ⊢
      obtain ⟨only, framer, stopped, on⟩ := facts
      have active : t.framer.active = s.framer.active := by rw [framer]; rfl
      have planNumber : t.framer.planNumber = s.framer.planNumber := by rw [framer]; rfl
      have cleared : t.framer.cleared = s.framer.cleared := by rw [framer]; rfl
      have stopped_same (off : s.framer.active.mode = .stopped) :
          t.framer.line = none ∧ t.framer.directory.superframe = s.framer.directory.superframe :=
        ⟨(stopped off).1, congrArg Directory.superframe (stopped off).2⟩
      refine ⟨by rw [framer]; rfl, by rw [framer]; rfl, by rw [framer]; rfl, by rw [framer]; rfl, by rw [framer]; rfl, by rw [only]; rfl,
        fun _ => ⟨active, planNumber, by rw [framer]; rfl, cleared, by rw [only]; rfl, by rw [only]; rfl⟩,
        fun p staged => (nomatch unstaged.symm.trans staged), fun off => stopped_same ((congrArg Plan.mode active).symm.trans off), fun still => ?_⟩
      obtain ⟨directory, sent⟩ := on (fun off => still ((congrArg Plan.mode active).trans off))
      rw [active, planNumber, cleared]
      exact ⟨congrArg Directory.planNumber directory, congrArg Directory.superframe directory, congrArg Directory.entries directory, sent⟩
    · obtain ⟨p, staged⟩ := Option.ne_none_iff_exists'.mp unstaged
      have facts := State.superEnded_facts _ (State.workSuperframe_of_some staged)
      have swapped := State.swapPlan_facts (s := s) (p := p) rfl
      generalize s.workSuperframe = t at facts ⊢
      generalize s.superCounted.swapPlan p = u at facts swapped
      obtain ⟨only, framer, stopped, on⟩ := facts
      obtain ⟨only', framer', pending, channel⟩ := swapped
      have channels : t.channels = u.channels := by rw [only]
      rw [show u.framer.active = p by rw [framer']; rfl] at stopped on
      have directory' : u.framer.directory = if p.mode = .stopped then { s.framer.directory with entries := [] } else s.framer.directory := by
        rw [framer']
        rfl
      rw [framer'] at framer
      have active : t.framer.active = p := by rw [framer]; rfl
      have planNumber : t.framer.planNumber = s.framer.planNumber + 1 := by rw [framer]; rfl
      have cleared : t.framer.cleared = Vector.replicate 32 false := by rw [framer]; rfl
      refine ⟨by rw [framer]; rfl, by rw [framer]; rfl, by rw [framer]; rfl, by rw [framer]; rfl, by rw [framer]; rfl, by rw [only, only'],
        fun none => absurd none unstaged, fun q given => ?_, fun off => ?_, fun still => ?_⟩
      · cases Option.some.inj (staged.symm.trans given)
        refine ⟨active, by rw [framer]; rfl, planNumber, ?_, cleared, fun c => ?_, ?_, ?_, fun off => ?_⟩
        · rw [show t.isPending .plan = u.isPending .plan by rw [only]; rfl]
          exact pending
        · obtain ⟨eq, still⟩ := Channel.swapped_eq (s.framer.active.entries.get c) (p.entries.get c) (s.channel c)
          rw [show t.channel c = u.channel c by rw [State.channel, channels], channel]
          exact ⟨eq, still⟩
        · rw [show t.framer.strandedCount = strandedIn u.channels by rw [framer]; rfl, ← channels, strandedIn_eq]
          rfl
        · rw [show t.framer.shortage = p.short by rw [framer]; rfl]
          exact p.short_iff
        · rw [(stopped off).2, directory', if_pos off]
      · obtain ⟨line, directory⟩ := stopped ((congrArg Plan.mode active).symm.trans off)
        rw [directory, directory', if_pos ((congrArg Plan.mode active).symm.trans off)]
        exact ⟨line, rfl⟩
      · obtain ⟨directory, sent⟩ := on (fun off => still ((congrArg Plan.mode active).trans off))
        rw [active, planNumber, cleared]
        have built : u.directoryBuilt.entries = ((List.finRange 32).filter (fun c => (p.entries.get c).onAir)).map (fun c =>
            { channel := c, lang := (p.entries.get c).lang, first := (p.entries.get c).first, count := (p.entries.get c).slots
              source := if c = 0 then .floor else if (Vector.replicate 32 false).get c then .noSource else (s.channel c).source }) := by
          unfold State.directoryBuilt
          rw [framer']
          refine List.map_congr_left fun c _ => ?_
          rw [channel, (Channel.swapped_eq _ _ _).1]
          rfl
        refine ⟨(congrArg Directory.planNumber directory).trans ?_, (congrArg Directory.superframe directory).trans ?_,
          (congrArg Directory.entries directory).trans built, ?_⟩
        · show u.framer.planNumber = _
          rw [framer']
          rfl
        · show u.framer.superframes = _
          rw [framer']
          rfl
        · rw [show u.framer.frames = s.framer.frames by rw [framer']; rfl] at sent
          exact sent

end Sys2Proof.Machine
end

section
/-!
SUPPORT. Beacons (R137 to R141, O48).
-/
namespace Sys2Proof.Machine

/-! ## Records handed keep notices pending -/

section
variable {s : State}

theorem State.isPending_of_notices {t : State} {c : Notice} (h : t.notices = s.notices ∨ t.notices = (s.raise .log).notices)
    (pending : s.isPending c = true) : t.isPending c = true := by
  rcases h with h | h
  · exact (congrArg (fun n : Notices => n.waiting.getLsbD c.index) h).trans pending
  · have kept := (s.isPending_raise .log c).trans (by rw [pending, Bool.true_or])
    exact (congrArg (fun n : Notices => n.waiting.getLsbD c.index) h).trans kept

theorem State.makeRoom_notices : s.makeRoom.notices = s.notices := by
  unfold State.makeRoom
  split <;> rfl

theorem State.writeTally_notices (r : TallyRecord) : (s.writeTally r).notices = s.notices ∨ (s.writeTally r).notices = (s.raise .log).notices := by
  have room := State.makeRoom_notices (s := s)
  unfold State.writeTally
  generalize s.makeRoom = u at room
  dsimp only
  split
  · refine .inr ?_
    show ({ u.notices with waiting := _ } : Notices) = _
    rw [room]
    rfl
  · exact .inl room

theorem State.waitTally_notices (o : WaitOwner) (r : TallyRecord) :
    (s.waitTally o r).notices = s.notices ∨ (s.waitTally o r).notices = (s.raise .log).notices := by
  unfold State.waitTally
  dsimp only
  split
  · exact .inr rfl
  · exact .inl rfl

theorem State.handTally_pending {c : Notice} (o : WaitOwner) (r : TallyRecord) (pending : s.isPending c = true) :
    (s.handTally o r).isPending c = true := by
  unfold State.handTally
  split
  · exact State.isPending_of_notices (State.waitTally_notices o r) pending
  · exact State.isPending_of_notices (State.writeTally_notices r) pending

theorem State.waitTally_log (o : WaitOwner) (r : TallyRecord) :
    (s.waitTally o r).log = { s.log with waiting := s.log.waiting ++ [{ owner := o, record := r }] } := by
  unfold State.waitTally
  dsimp only
  split <;> rfl

end

/-! ## The counters -/

section
variable {s : State} {m : HubMessage}

theorem malformed_iff : malformed m = true ↔
    m.checkOk = false ∨ 15 < m.hub.toNat ∨ m.serial = 0 ∨ 31 < m.channel.toNat ∨ m.reason = .unknown := by
  unfold malformed
  simp only [Bool.or_eq_true, Bool.not_eq_true', decide_eq_true_eq, beq_iff_eq, or_assoc]

/-- A stray total comes to a multiple of 64 (R138). -/
theorem sixtyFourth_iff (v : Nat) : (min (2 ^ 32 - 1) (v + 1) ≠ v ∧ min (2 ^ 32 - 1) (v + 1) % 64 = 0) ↔
    (decide (v < 2 ^ 32 - 1) && decide ((v + 1) % 64 = 0)) = true := by
  rw [Bool.and_eq_true, decide_eq_true_iff, decide_eq_true_iff]
  omega

/-- A stray, in the words of R138. -/
theorem State.stray_eq (atDesk : Bool) : s.stray atDesk = { s.countBeacon (fun k => k.stray atDesk) with
    notices := { s.notices with
      waiting := if (decide (s.beacons.strays < 2 ^ 32 - 1) && decide ((s.beacons.strays + 1) % 64 = 0)) = true
        then s.notices.waiting ||| Notice.stray.bit else s.notices.waiting } } := by
  have condition : ((s.countBeacon (fun k => k.stray atDesk)).beacons.strays ≠ s.beacons.strays
      ∧ (s.countBeacon (fun k => k.stray atDesk)).beacons.strays % 64 = 0) ↔ _ := sixtyFourth_iff s.beacons.strays
  unfold State.stray
  dsimp only
  rw [if_congr condition rfl rfl]
  split <;> rfl

theorem State.beacon_of_malformed (ready : s.part = .ready) (bad : malformed m = true) : s.beacon m =
    s.countBeacon (fun k => { k with taken := satAdd 32 k.taken 1, malformed := satAdd 32 k.malformed 1 }) := by
  unfold State.beacon
  rw [if_neg (not_not.mpr ready), if_pos bad]

theorem State.beacon_of_unknown (ready : s.part = .ready) (good : ¬ malformed m = true) (none : s.entryOf m.serial = none) :
    s.beacon m = s.stray false := by
  unfold State.beacon
  rw [if_neg (not_not.mpr ready), if_neg good, none]

theorem State.beacon_of_entry {e : RecvId} (ready : s.part = .ready) (good : ¬ malformed m = true) (found : s.entryOf m.serial = some e) :
    s.beacon m = s.workBeacon e m := by
  unfold State.beacon
  rw [if_neg (not_not.mpr ready), if_neg good, found]

theorem State.workBeacon_of_desk {e : RecvId} (desk : (s.receiver e).state = .docked ∨ (s.receiver e).state = .reserved
    ∨ (s.receiver e).state = .retired) : s.workBeacon e m = s.stray true := by
  unfold State.workBeacon
  rcases desk with h | h | h
  · rw [show s.receivers[e].state = .docked from h]
  · rw [show s.receivers[e].state = .reserved from h]
  · rw [show s.receivers[e].state = .retired from h]

theorem State.workBeacon_of_away {e : RecvId} (away : (s.receiver e).state = .onHire ∨ (s.receiver e).state = .silent
    ∨ (s.receiver e).state = .adrift ∨ (s.receiver e).state = .lost) : s.workBeacon e m =
      if (s.receiver e).duplicate m s.clock.run then
        s.countBeacon (fun k => { k with taken := satAdd 32 k.taken 1, duplicates := satAdd 32 k.duplicates 1 })
      else s.acceptBeacon e m := by
  unfold State.workBeacon
  rcases away with h | h | h | h
  · rw [show s.receivers[e].state = .onHire from h]
  · rw [show s.receivers[e].state = .silent from h]
  · rw [show s.receivers[e].state = .adrift from h]
  · rw [show s.receivers[e].state = .lost from h]

theorem Receiver.duplicate_iff (r : Receiver) (t : Nat) : r.duplicate m t = true ↔
    r.heard ≠ none ∧ m.sequence = r.lastSequence ∧ t - r.lastHeard < 4096 := by
  unfold Receiver.duplicate
  simp only [Bool.and_eq_true, decide_eq_true_eq, beq_iff_eq, and_assoc, Option.isSome_iff_ne_none]

theorem Receiver.newlyFound_iff (r : Receiver) : r.newlyFound = true ↔ r.state = .lost ∧ r.foundBy = .nobody := by
  unfold Receiver.newlyFound
  simp only [Bool.and_eq_true, beq_iff_eq]

end

/-! ## A beacon accepted -/

section
variable {s : State} {m : HubMessage} {e : RecvId}

/-- The counters and the entry written, before a finding is reported (R140). -/
def State.heardBeacon (s : State) (e : RecvId) (m : HubMessage) : State :=
  (s.countBeacon (fun k => k.accept m.reason (s.receiver e).state)).writeReceiver e (fun x => x.heardFrom m s.clock.run s.logBlocked)

theorem State.acceptBeacon_of_known (known : ¬ (s.receiver e).newlyFound = true) : s.acceptBeacon e m = s.heardBeacon e m :=
  if_neg known

theorem State.acceptBeacon_of_found (found : (s.receiver e).newlyFound = true) : s.acceptBeacon e m =
    ((s.heardBeacon e m).raise .dock).handFound e .beacon (s.receiver e).foundWaiting := if_pos found

theorem State.heardBeacon_receiver (d : RecvId) : (s.heardBeacon e m).receiver d =
    if d = e then ((s.receiver e).heardFrom m s.clock.run s.logBlocked).bump else s.receiver d :=
  get_set _ _ _ _

/-- The report of a finding is made of the entry as it stood. -/
theorem State.heardBeacon_record (x : FoundWhere) : ((s.heardBeacon e m).raise .dock).foundRecord e x =
    s.foundRecord e x := by
  have own : ((s.heardBeacon e m).raise .dock).receivers[e] = ((s.receiver e).heardFrom m s.clock.run s.logBlocked).bump :=
    (get_set _ _ _ _).trans (if_pos rfl)
  unfold State.foundRecord
  dsimp only
  rw [own]
  rfl

end

section
variable {s : State} {m : HubMessage} {e : RecvId}

/-- The entry of an accepted beacon, in the words of R140 and R141. -/
theorem Receiver.heardFrom_eq (r : Receiver) (t : Nat) (w : Bool) : r.heardFrom m t w = { r with
    heard := index? 32 m.channel.toNat, battery := m.battery, lastHeard := t, lastSequence := m.sequence
    state := if r.state = .silent then .onHire else r.state
    foundBy := if r.state = .lost ∧ r.foundBy = .nobody then .beacon else r.foundBy
    foundWaiting := r.foundWaiting || decide (r.state = .lost ∧ r.foundBy = .nobody ∧ w = true) } := by
  have waits : (r.newlyFound && w) = decide (r.state = .lost ∧ r.foundBy = .nobody ∧ w = true) := by
    rw [Bool.eq_iff_iff, Bool.and_eq_true, Receiver.newlyFound_iff, decide_eq_true_iff, and_assoc]
  unfold Receiver.heardFrom
  rw [waits, if_congr r.newlyFound_iff rfl rfl]

/-- What every accepted beacon leaves (R140). -/
theorem State.acceptBeacon_facts (t : State) (ht : t = s.acceptBeacon e m) :
    t.beacons = s.beacons.accept m.reason (s.receiver e).state
      ∧ ∀ d : RecvId, t.receiver d = if d = e then ((s.receiver e).heardFrom m s.clock.run s.logBlocked).bump else s.receiver d := by
  subst ht
  by_cases found : (s.receiver e).newlyFound = true
  · rw [State.acceptBeacon_of_found found]
    have only := State.handFound_only ((s.heardBeacon e m).raise .dock) e .beacon (s.receiver e).foundWaiting
    refine ⟨only .beacons (by decide), fun d => ?_⟩
    rw [State.receiver, show (((s.heardBeacon e m).raise .dock).handFound e .beacon (s.receiver e).foundWaiting).receivers
      = (s.heardBeacon e m).receivers from only .receivers (by decide)]
    exact State.heardBeacon_receiver d
  · rw [State.acceptBeacon_of_known found]
    exact ⟨rfl, State.heardBeacon_receiver⟩

/-- What a finding by beacon leaves beside (R141). -/
theorem State.acceptBeacon_found (found : (s.receiver e).newlyFound = true) (t : State) (ht : t = s.acceptBeacon e m) :
    t.isPending .dock = true
      ∧ ((s.receiver e).foundWaiting = true → t.log = s.log ∧ t.mem = s.mem)
      ∧ ((s.receiver e).foundWaiting = false → s.logBlocked = true → t.mem = s.mem ∧ t.log = { s.log with
          waiting := s.log.waiting ++ [{ owner := .receiver e, record := .receiverFound (s.foundRecord e .beacon) }] })
      ∧ ((s.receiver e).foundWaiting = false → s.logBlocked = false → t.log.writeCount = s.log.writeCount + 1
          ∧ t.log.waiting = s.log.waiting) := by
  subst ht
  have pending := State.raise_isPending (s.heardBeacon e m) .dock
  have record := State.heardBeacon_record (s := s) (e := e) (m := m) .beacon
  have blocked : ((s.heardBeacon e m).raise .dock).logBlocked = s.logBlocked := rfl
  have log : ((s.heardBeacon e m).raise .dock).log = s.log := rfl
  have mem : ((s.heardBeacon e m).raise .dock).mem = s.mem := rfl
  rw [State.acceptBeacon_of_found found]
  generalize (s.heardBeacon e m).raise .dock = u at *
  unfold State.handFound
  by_cases waiting : (s.receiver e).foundWaiting = true
  · rw [if_pos waiting]
    exact ⟨pending, fun _ => ⟨log, mem⟩, fun no => (nomatch no.symm.trans waiting), fun no => (nomatch no.symm.trans waiting)⟩
  · rw [if_neg waiting, record]
    refine ⟨State.handTally_pending _ _ pending, fun yes => absurd yes waiting, fun _ full => ?_, fun _ room => ?_⟩
    · unfold State.handTally
      rw [if_pos (blocked.trans full), State.waitTally_log, log]
      exact ⟨((State.waitTally_only u _ _) .mem (by decide)).trans mem, rfl⟩
    · unfold State.handTally
      rw [if_neg (by rw [blocked, room]; decide), State.writeTally_log, log]
      exact ⟨rfl, rfl⟩

end

/-- Settles O48. -/
theorem beaconsAreWorked : Obligations.BeaconsAreWorked := by
  intro m s k more wrong counted notice sixtyFourth
  refine ⟨fun off => congrArg Host.Outcome.next (if_pos off), fun ready bad => ?_, fun ready good none => ?_, fun e ready good found => ?_⟩
  · exact congrArg Host.Outcome.next (State.beacon_of_malformed ready (malformed_iff.mpr bad))
  · exact congrArg Host.Outcome.next ((State.beacon_of_unknown ready (mt malformed_iff.mp good) none).trans (State.stray_eq false))
  · intro old away report again
    have work := State.beacon_of_entry ready (mt malformed_iff.mp good) found
    refine ⟨fun desk => ?_, fun away rep => ?_, fun away fresh => ?_⟩
    · exact congrArg Host.Outcome.next (work.trans ((State.workBeacon_of_desk desk).trans (State.stray_eq true)))
    · exact congrArg Host.Outcome.next (work.trans ((State.workBeacon_of_away away).trans (if_pos ((Receiver.duplicate_iff _ _).mpr rep))))
    · refine ⟨s.acceptBeacon e m, congrArg Host.Outcome.next (work.trans ((State.workBeacon_of_away away).trans
        (if_neg (mt (Receiver.duplicate_iff _ _).mp fresh)))), ?_⟩
      obtain ⟨beacons, receiver⟩ := State.acceptBeacon_facts _ (rfl : s.acceptBeacon e m = s.acceptBeacon e m)
      have only := s.acceptBeacon_only e m
      have own := (receiver e).trans (if_pos rfl)
      refine ⟨beacons, ?_, fun c channel => ?_, fun d other => (receiver d).trans (if_neg other), fun known => ?_, fun lost nobody => ?_⟩
      · rw [own, Receiver.heardFrom_eq]
        rfl
      · rw [own, Receiver.heardFrom_eq]
        exact index?_eq_some.mpr channel
      · rw [State.acceptBeacon_of_known (mt (Receiver.newlyFound_iff _).mp known)]
        rfl
      · obtain ⟨pending, kept, waits, written⟩ :=
          State.acceptBeacon_found ((Receiver.newlyFound_iff _).mpr ⟨lost, nobody⟩) _ (rfl : s.acceptBeacon e m = s.acceptBeacon e m)
        refine ⟨pending, only.eq ?_ fun f hf => ?_, kept, waits, written⟩
        · exact fun f hf => by cases f <;> first | exact absurd (by decide) hf | rfl
        · cases f <;> first | rfl | exact absurd hf (by decide)

end Sys2Proof.Machine
end

section
/-!
SUPPORT. The census (R28, R100, R102, R142 to R144, O49).
-/
namespace Sys2Proof.Machine

/-! ## Stranded flags cleared -/

section
variable (counts : Vector Nat 32)

/-- A channel whose stranded flag the census clears (R102). -/
def State.freed (s : State) (c : ChannelId) : Bool := (s.channel c).stranded && counts[c] == 0

/-- One channel of the framer's part of a census mark (R102). -/
def State.clearOne (s : State) (c : ChannelId) : State := if s.freed counts c then s.writeStranded c false else s

/-- A channel's record with its stranded flag cleared, in its bracket. -/
def Channel.unstranded (r : Channel) : Channel := ({ r with stranded := false } : Channel).bump

theorem State.clearStranded_eq (s : State) : s.clearStranded counts = s.each (List.finRange 32) (State.clearOne counts) := rfl

theorem State.clearOne_channel (s : State) (c d : ChannelId) :
    (s.clearOne counts c).channel d = if d = c ∧ s.freed counts c = true then (s.channel c).unstranded else s.channel d := by
  unfold State.clearOne
  by_cases freed : s.freed counts c = true
  · rw [if_pos freed, if_congr (and_iff_left freed) rfl rfl]
    show (s.writeChannel c (fun r => { r with stranded := false })).channel d = _
    rw [State.channel_writeChannel]
    rfl
  · rw [if_neg freed, if_neg (fun h => freed h.2)]

theorem State.channels_ext {s t : State} (h : ∀ d : ChannelId, t.channel d = s.channel d) : t.channels = s.channels :=
  Vector.ext fun i hi => h ⟨i, hi⟩

theorem two_add_ofNat (k : Nat) : (2 : Half) + BitVec.ofNat 16 (2 * k) = BitVec.ofNat 16 (2 * (k + 1)) := by
  rw [show 2 * (k + 1) = 2 + 2 * k by omega, BitVec.ofNat_add]
  rfl

/-- The stranded flags cleared, each clearing in a bracket of the plan record of its own (R100, R102). -/
theorem State.each_clearOne (l : List ChannelId) (nodup : l.Nodup) (s t : State) (ht : t = s.each l (State.clearOne counts)) :
    (∀ d : ChannelId, t.channel d = if d ∈ l ∧ s.freed counts d = true then (s.channel d).unstranded else s.channel d)
      ∧ t = { s with channels := t.channels, framer := t.framer }
      ∧ t.framer = { s.framer with
          strandedCount := t.framer.strandedCount, changes := s.framer.changes + BitVec.ofNat 16 (2 * l.countP (s.freed counts)) }
      ∧ t.framer.strandedCount = if l.countP (s.freed counts) = 0 then s.framer.strandedCount else strandedIn t.channels := by
  induction l generalizing s with
  | nil =>
    rw [show t = s from ht]
    refine ⟨fun d => (if_neg (fun h => absurd h.1 List.not_mem_nil)).symm, rfl, ?_, rfl⟩
    show s.framer = { s.framer with changes := s.framer.changes + 0#16 }
    rw [BitVec.add_zero]
  | cons c l ih =>
    obtain ⟨fresh, rest⟩ := List.nodup_cons.mp nodup
    obtain ⟨channel, only, framer, stranded⟩ := ih rest (s.clearOne counts c) ht
    have first := s.clearOne_channel counts c
    have same (d : ChannelId) (h : d ∈ l) : (s.clearOne counts c).freed counts d = s.freed counts d := by
      have other : d ≠ c := fun e => fresh (e ▸ h)
      unfold State.freed
      rw [first, if_neg (fun h => other h.1)]
    have count : l.countP ((s.clearOne counts c).freed counts) = l.countP (s.freed counts) :=
      List.countP_congr fun d h => by rw [same d h]
    rw [count] at framer stranded
    have channel' (d : ChannelId) : t.channel d = if d ∈ c :: l ∧ s.freed counts d = true then (s.channel d).unstranded else s.channel d := by
      rw [channel]
      by_cases own : d = c
      · subst own
        rw [if_neg (show ¬ (d ∈ l ∧ _) from fun h => fresh h.1), first]
        exact if_congr (and_congr_left fun _ => ⟨fun _ => List.mem_cons_self, fun _ => rfl⟩) rfl rfl
      · have kept : (s.clearOne counts c).channel d = s.channel d := (first d).trans (if_neg (fun h => own h.1))
        rw [kept]
        by_cases inside : d ∈ l
        · rw [same d inside]
          exact if_congr (and_congr_left fun _ => ⟨List.mem_cons_of_mem c, fun _ => inside⟩) rfl rfl
        · rw [if_neg (show ¬ (d ∈ l ∧ _) from fun h => inside h.1)]
          exact (if_neg (fun h => (List.mem_cons.mp h.1).elim own inside)).symm
    refine ⟨channel', ?_, ?_, ?_⟩
    · rw [only]
      unfold State.clearOne
      split <;> rfl
    · rw [framer, List.countP_cons]
      unfold State.clearOne
      by_cases freed : s.freed counts c = true
      · rw [if_pos freed, if_pos freed]
        show ({ s.framer with strandedCount := _, changes := s.framer.changes + 2 + _ } : Framer) = _
        rw [BitVec.add_assoc, two_add_ofNat]
      · rw [if_neg freed, if_neg freed]
        rfl
    · rw [stranded, List.countP_cons]
      by_cases none : l.countP (s.freed counts) = 0
      · have still : t.channels = (s.clearOne counts c).channels := State.channels_ext fun d => by
          rw [channel, if_neg]
          intro h
          exact absurd (List.countP_eq_zero.mp none d h.1) (by rw [← same d h.1]; simpa using h.2)
        rw [if_pos none, none, still]
        unfold State.clearOne
        by_cases freed : s.freed counts c = true
        · rw [if_pos freed, if_pos freed]
          rfl
        · rw [if_neg freed, if_neg freed]
          rfl
      · rw [if_neg none, if_neg (by omega)]

end

/-! ## Listeners counted -/

section
variable {s t : State}

theorem Receiver.goesSilent_iff (r : Receiver) (x : Timers) (now : Nat) : r.goesSilent x now = true ↔
    r.state = .onHire ∧ x.silent * 1024 < now - r.lastHeard := by
  unfold Receiver.goesSilent secTicks
  rw [Bool.and_eq_true, beq_iff_eq, decide_eq_true_iff]

theorem Receiver.counts_iff (r : Receiver) (x : Timers) (now : Nat) : (r.state == .onHire && r.fresh x now && !r.goesSilent x now) = true ↔
    r.state = .onHire ∧ now - r.lastHeard ≤ x.freshness * 1024 ∧ ¬ (r.state = .onHire ∧ x.silent * 1024 < now - r.lastHeard) := by
  rw [Bool.and_eq_true, Bool.and_eq_true, Bool.not_eq_true', ← Bool.not_eq_true, Receiver.goesSilent_iff, beq_iff_eq, and_assoc]
  exact and_congr_right fun _ => and_congr_left fun _ => decide_eq_true_iff

/-- The channel that an entry is counted for (R142, R143). -/
theorem Receiver.countedAt_eq (r : Receiver) (x : Timers) (now : Nat) (c : ChannelId) : r.countedAt x now = some c ↔
    (r.state = .onHire ∧ now - r.lastHeard ≤ x.freshness * 1024 ∧ ¬ (r.state = .onHire ∧ x.silent * 1024 < now - r.lastHeard))
      ∧ r.heard = some c := by
  unfold Receiver.countedAt
  by_cases counts : (r.state == .onHire && r.fresh x now && !r.goesSilent x now) = true
  · rw [if_pos counts]
    exact (and_iff_right ((r.counts_iff x now).mp counts)).symm
  · rw [if_neg counts]
    exact ⟨nofun, fun h => absurd ((r.counts_iff x now).mpr h.1) counts⟩

theorem State.census_get (c : ChannelId) : s.census.get c =
    (List.finRange 2048).countP (fun e => decide ((s.receiver e).countedAt s.timers s.clock.run = some c)) := by
  unfold State.census
  dsimp only
  rw [Vector.get_ofFn, toList_eq_map, List.map_map, List.count_eq_countP, List.countP_map]
  exact List.countP_congr fun e _ => by
    rw [decide_eq_true_iff]
    exact beq_iff_eq

/-- No entry is counted for two channels. -/
theorem sum_countP_le {ι : Type} (l : List ι) (f : ι → Option ChannelId) :
    ((List.finRange 32).map (fun c => l.countP (fun i => decide (f i = some c)))).sum ≤ l.countP (fun i => (f i).isSome) := by
  induction l with
  | nil => simp
  | cons i l ih =>
    have one : ((List.finRange 32).map (fun c => if decide (f i = some c) = true then 1 else 0)).sum ≤ if (f i).isSome = true then 1 else 0 := by
      rw [sum_map_of_le_one _ _ (fun c => by split <;> simp)]
      cases f i with
      | none => simp
      | some d =>
        have single := List.nodup_iff_count_le_one.mp (List.nodup_finRange 32) d
        rw [List.count_eq_countP] at single
        refine le_trans (le_of_eq (List.countP_congr fun c _ => ?_)) single
        by_cases same : d = c
        · simp [same]
        · simp [same, Ne.symm same]
    simp only [List.countP_cons, List.sum_map_add]
    omega

end

/-! ## A census mark -/

section
variable {s t : State} (counts : Vector Nat 32)

/-- The number of entries that go SILENT at a census (R142). -/
def State.silentNow (s : State) : Nat := s.receivers.toList.countP (fun r => r.goesSilent s.timers s.clock.run)

theorem State.takeCensus_eq : s.takeCensus counts = { s with
    channels := (s.writeListeners counts).channels
    receivers := s.receivers.map (Receiver.censused s.timers s.clock.run)
    header := { s.header with changes := s.header.changes + 2 }
    beacons := { s.beacons with
      madeSilent := satAdd 32 s.beacons.madeSilent s.silentNow, censuses := satAdd 32 s.beacons.censuses 1, listeners := counts.toList.sum }
    notices := { s.notices with waiting := if 0 < s.silentNow then s.notices.waiting ||| Notice.silent.bit else s.notices.waiting } } := by
  have silent : s.receivers.toList.countP (fun r => r.goesSilent s.timers s.clock.run) = s.silentNow := rfl
  have written (v : Vector Receiver 2048) : ({ s with receivers := v } : State).writeListeners counts
      = { s with receivers := v, channels := (s.writeListeners counts).channels } := rfl
  unfold State.takeCensus
  rw [silent, written]
  generalize s.silentNow = k
  generalize (s.writeListeners counts).channels = w
  generalize s.receivers.map (Receiver.censused s.timers s.clock.run) = v
  by_cases quiet : 0 < k
  · rw [if_pos quiet, if_pos quiet]
    rfl
  · rw [if_neg quiet, if_neg quiet]
    rfl

theorem State.writeListeners_channel (c : ChannelId) : ∃ x : Half, (s.writeListeners counts).channel c =
    { s.channel c with changes := x, listeners := counts.get c } := by
  have record : (s.writeListeners counts).channel c = if (s.channel c).listeners = counts.get c then s.channel c
      else ({ s.channel c with listeners := counts.get c } : Channel).bump := Vector.getElem_ofFn _
  rw [record]
  split
  · rename_i same
    exact ⟨(s.channel c).changes, by rw [← same]⟩
  · exact ⟨_, rfl⟩

theorem State.creditMinutes_channel (c : ChannelId) : ∃ x : Half, s.creditMinutes.channel c =
    { s.channel c with
      changes := x
      minutes := if 0 < (s.channel c).listeners then satAdd 32 (s.channel c).minutes (s.channel c).listeners else (s.channel c).minutes } := by
  have record : s.creditMinutes.channel c = if (s.channel c).listeners = 0 then s.channel c
      else ({ s.channel c with minutes := satAdd 32 (s.channel c).minutes (s.channel c).listeners } : Channel).bump :=
    Vector.getElem_map _ _
  rw [record]
  by_cases silent : (s.channel c).listeners = 0
  · rw [if_pos silent, if_neg (by omega)]
    exact ⟨_, rfl⟩
  · rw [if_neg silent, if_pos (Nat.pos_of_ne_zero silent)]
    exact ⟨_, rfl⟩

/-- The channels at a census: listeners, stranded flags, minutes (R102, R143, R144). -/
theorem State.census_channel (mark : Bool) (c : ChannelId) :
    ∃ x : Half, (if mark then ((s.takeCensus counts).clearStranded counts).creditMinutes else (s.takeCensus counts).clearStranded counts).channel c =
      { s.channel c with
        changes := x, listeners := counts.get c, stranded := (s.channel c).stranded && decide (0 < counts.get c)
        minutes := if mark = true ∧ 0 < counts.get c then satAdd 32 (s.channel c).minutes (counts.get c) else (s.channel c).minutes } := by
  obtain ⟨x, written⟩ := State.writeListeners_channel (s := s) counts c
  have taken : (s.takeCensus counts).channel c = { s.channel c with changes := x, listeners := counts.get c } := by
    rw [State.takeCensus_eq]
    exact written
  obtain ⟨cleared, -⟩ := State.each_clearOne counts (List.finRange 32) (List.nodup_finRange 32) _ _ (State.clearStranded_eq counts (s.takeCensus counts))
  obtain ⟨y, flagged⟩ : ∃ y : Half, ((s.takeCensus counts).clearStranded counts).channel c = { s.channel c with
      changes := y, listeners := counts.get c, stranded := (s.channel c).stranded && decide (0 < counts.get c) } := by
    have freed : (s.takeCensus counts).freed counts c = true ↔ (s.channel c).stranded = true ∧ counts.get c = 0 := by
      unfold State.freed
      rw [taken, Bool.and_eq_true, beq_iff_eq]
      rfl
    rw [cleared, if_congr (and_iff_right (List.mem_finRange c)) rfl rfl, if_congr freed rfl rfl, taken]
    by_cases free : (s.channel c).stranded = true ∧ counts.get c = 0
    · have off : ((s.channel c).stranded && decide (0 < counts.get c)) = false := by rw [free.2]; exact Bool.and_false _
      rw [if_pos free, off]
      exact ⟨x + 2, rfl⟩
    · rw [if_neg free]
      refine ⟨x, ?_⟩
      have same : ((s.channel c).stranded && decide (0 < counts.get c)) = (s.channel c).stranded := by
        rw [Bool.and_eq_left_iff_imp, decide_eq_true_iff]
        exact fun stranded => Nat.pos_of_ne_zero fun none => free ⟨stranded, none⟩
      rw [same]
  cases mark with
  | false =>
    rw [if_neg (by decide), flagged, if_neg (fun h => nomatch h.1)]
    exact ⟨y, rfl⟩
  | true =>
    obtain ⟨z, credited⟩ := State.creditMinutes_channel (s := (s.takeCensus counts).clearStranded counts) c
    rw [flagged] at credited
    rw [if_pos rfl, credited, if_congr (and_iff_right rfl) rfl rfl]
    exact ⟨z, rfl⟩

end

section
variable {s t : State}

theorem Receiver.inCensus_iff (r : Receiver) : r.inCensus = true ↔ r.state = .onHire ∨ r.state = .silent := by
  unfold Receiver.inCensus
  rw [Bool.or_eq_true, beq_iff_eq, beq_iff_eq]

/-- The record a census writes for an entry (R142). -/
def Receiver.surveyed (x : Timers) (now : Nat) (r : Receiver) : Receiver :=
  { r with counted := r.countedAt x now, state := if r.goesSilent x now then .silent else r.state }

theorem Receiver.censused_of_in (x : Timers) (now : Nat) {r : Receiver} (h : r.state = .onHire ∨ r.state = .silent) :
    r.censused x now = { r.surveyed x now with changes := (r.censused x now).changes }
      ∧ ((r.censused x now).counted = r.counted → (r.censused x now).state = r.state → r.censused x now = r) := by
  have record : r.censused x now = if r.surveyed x now = r then r else (r.surveyed x now).bump := if_pos (r.inCensus_iff.mpr h)
  rw [record]
  by_cases same : r.surveyed x now = r
  · rw [if_pos same, same]
    exact ⟨rfl, fun _ _ => rfl⟩
  · rw [if_neg same]
    refine ⟨rfl, fun counted state => absurd ?_ same⟩
    show ({ r with counted := (r.surveyed x now).bump.counted, state := (r.surveyed x now).bump.state } : Receiver) = r
    rw [counted, state]

theorem Receiver.censused_of_out (x : Timers) (now : Nat) {r : Receiver} (h : ¬ (r.state = .onHire ∨ r.state = .silent)) :
    r.censused x now = r := if_neg (mt r.inCensus_iff.mp h)

theorem State.takeCensus_receiver (counts : Vector Nat 32) (e : RecvId) :
    (s.takeCensus counts).receiver e = (s.receiver e).censused s.timers s.clock.run := by
  rw [State.takeCensus_eq]
  exact Vector.getElem_map _ _

end

/-- What a census mark leaves, before its snapshot (R100, R102, R142 to R144). -/
theorem State.workCensusMark_facts (u t : State) (ht : t = u.workCensusMark) :
    t = { u with
        header := t.header, receivers := t.receivers, channels := t.channels
        beacons := { u.beacons with
          madeSilent := satAdd 32 u.beacons.madeSilent u.silentNow, censuses := satAdd 32 u.beacons.censuses 1
          listeners := u.census.toList.sum }
        framer := { u.framer with strandedCount := t.framer.strandedCount, changes := t.framer.changes }
        notices := { u.notices with
          waiting := if 0 < u.silentNow then u.notices.waiting ||| Notice.silent.bit else u.notices.waiting } }
      ∧ (∀ e : RecvId, t.receiver e = (u.receiver e).censused u.timers u.clock.run)
      ∧ (∀ c : ChannelId, ∃ x : Half, t.channel c = { u.channel c with
          changes := x, listeners := u.census.get c, stranded := (u.channel c).stranded && decide (0 < u.census.get c)
          minutes := if u.clock.run % 61440 = 0 ∧ 0 < u.census.get c then satAdd 32 (u.channel c).minutes (u.census.get c)
            else (u.channel c).minutes })
      ∧ t.framer.changes = u.framer.changes
          + BitVec.ofNat 16 (2 * (List.finRange 32).countP (fun c => (u.channel c).stranded && u.census.get c == 0))
      ∧ (t.framer.strandedCount = if (List.finRange 32).countP (fun c => (u.channel c).stranded && u.census.get c == 0) = 0
          then u.framer.strandedCount else (List.finRange 32).countP (fun c => (t.channel c).stranded))
      ∧ t.header = { u.header with
          changes := t.header.changes, snapTicks := u.clock.run
          snapSeconds := ((u.clock.calendarAt u.clock.run).getD Stamp.zero).seconds
          snapFraction := ((u.clock.calendarAt u.clock.run).getD Stamp.zero).fraction } := by
  obtain ⟨-, only, framer, stranded⟩ := State.each_clearOne u.census (List.finRange 32) (List.nodup_finRange 32) _ _
    (State.clearStranded_eq u.census (u.takeCensus u.census))
  have channel := State.census_channel (s := u) u.census (decide (u.clock.run % 61440 = 0))
  have receiver := State.takeCensus_receiver (s := u) u.census
  have taken := State.takeCensus_eq (s := u) u.census
  have freed (c : ChannelId) : (u.takeCensus u.census).freed u.census c = ((u.channel c).stranded && u.census.get c == 0) := by
    obtain ⟨x, written⟩ := State.writeListeners_channel (s := u) u.census c
    have record : (u.takeCensus u.census).channel c = (u.writeListeners u.census).channel c := by rw [taken]
    unfold State.freed
    rw [record, written]
    rfl
  have work : u.workCensusMark = (if u.clock.run % 61440 = 0 then ((u.takeCensus u.census).clearStranded u.census).creditMinutes
      else (u.takeCensus u.census).clearStranded u.census).snapshot := rfl
  simp only [decide_eq_true_iff] at channel
  rw [show ((u.takeCensus u.census).freed u.census) = _ from funext freed] at framer stranded
  generalize (u.takeCensus u.census).clearStranded u.census = w at *
  generalize u.takeCensus u.census = x at *
  have credited : (if u.clock.run % 61440 = 0 then w.creditMinutes else w)
      = { w with channels := (if u.clock.run % 61440 = 0 then w.creditMinutes else w).channels }
      ∧ ∀ c : ChannelId, ((if u.clock.run % 61440 = 0 then w.creditMinutes else w).channel c).stranded = (w.channel c).stranded := by
    split
    · refine ⟨rfl, fun c => ?_⟩
      obtain ⟨_, credited⟩ := State.creditMinutes_channel (s := w) c
      rw [credited]
    · exact ⟨rfl, fun _ => rfl⟩
  generalize (if u.clock.run % 61440 = 0 then w.creditMinutes else w) = v at work channel credited
  obtain ⟨credited, flags⟩ := credited
  have whole : v = { u with
      header := x.header, receivers := x.receivers, channels := v.channels, beacons := x.beacons, framer := v.framer
      notices := x.notices } := by rw [credited, only, taken]
  generalize (List.finRange 32).countP (fun c => (u.channel c).stranded && u.census.get c == 0) = n at framer stranded ⊢
  have framer : v.framer = { u.framer with
      strandedCount := v.framer.strandedCount, changes := u.framer.changes + BitVec.ofNat 16 (2 * n) } := by
    rw [credited]
    show w.framer = _
    rw [framer, taken]
  have count : v.framer.strandedCount = if n = 0 then u.framer.strandedCount else (List.finRange 32).countP (fun c => (v.channel c).stranded) := by
    rw [credited]
    show w.framer.strandedCount = _
    rw [stranded, strandedIn_eq, taken]
    simp only [flags]
    rfl
  have clock : v.clock = u.clock := by rw [whole]
  have head : v.header = { u.header with changes := u.header.changes + 2 } := by rw [whole, taken]
  have beacons : x.beacons = { u.beacons with
      madeSilent := satAdd 32 u.beacons.madeSilent u.silentNow, censuses := satAdd 32 u.beacons.censuses 1
      listeners := u.census.toList.sum } := by rw [taken]
  have notices : x.notices = { u.notices with
      waiting := if 0 < u.silentNow then u.notices.waiting ||| Notice.silent.bit else u.notices.waiting } := by rw [taken]
  have table : v.receivers = x.receivers := by rw [whole]
  have first : v.snapshot = { v with header := v.snapshot.header } := rfl
  have last : v.snapshot.header = { v.header with
      changes := v.header.changes + 2, snapTicks := v.clock.run
      snapSeconds := ((v.clock.calendarAt v.clock.run).getD Stamp.zero).seconds
      snapFraction := ((v.clock.calendarAt v.clock.run).getD Stamp.zero).fraction } := rfl
  rw [ht, work]
  refine ⟨?_, fun e => ?_, channel, ?_, count, ?_⟩
  · have own : ({ u.framer with strandedCount := v.framer.strandedCount, changes := v.framer.changes } : Framer) = v.framer := by
      rw [show v.framer.changes = u.framer.changes + BitVec.ofNat 16 (2 * n) by rw [framer]]
      exact framer.symm
    have framed : v = { u with
        header := v.header, receivers := v.receivers, channels := v.channels, framer := v.framer
        beacons := { u.beacons with
          madeSilent := satAdd 32 u.beacons.madeSilent u.silentNow, censuses := satAdd 32 u.beacons.censuses 1
          listeners := u.census.toList.sum }
        notices := { u.notices with
          waiting := if 0 < u.silentNow then u.notices.waiting ||| Notice.silent.bit else u.notices.waiting } } := by
      refine whole.trans ?_
      rw [beacons, notices, table, show v.header = x.header by rw [whole]]
    show v.snapshot = { u with
      header := v.snapshot.header, receivers := v.receivers, channels := v.channels
      beacons := _, framer := { u.framer with strandedCount := v.framer.strandedCount, changes := v.framer.changes }, notices := _ }
    rw [own]
    exact congrArg (fun y : State => ({ y with header := v.snapshot.header } : State)) framed
  · show v.receiver e = _
    rw [State.receiver, table]
    exact receiver e
  · show v.framer.changes = _
    rw [framer]
  · rw [last, head, clock]

/-- Settles O49. -/
theorem censusCountsListeners : Obligations.CensusCountsListeners := by
  refine ⟨fun s idle => congrArg Host.Outcome.next (if_pos idle), fun s due off => ?_, fun s due ready => ?_⟩
  · show Host.Outcome.next s.censusMark = _
    unfold State.censusMark
    rw [if_neg (by rw [due]; decide)]
    exact congrArg Host.Outcome.next (if_neg off)
  · intro now age quiet counts heard gone
    have work : s.censusMark = ({ s with clock := { s.clock with markDue := false } } : State).workCensusMark := by
      unfold State.censusMark
      rw [if_neg (by rw [due]; decide)]
      exact if_pos ready
    refine ⟨_, congrArg Host.Outcome.next work, ?_⟩
    generalize hu : ({ s with clock := { s.clock with markDue := false } } : State) = u
    have run : u.clock.run = now := hu ▸ rfl
    have timers : u.timers = s.timers := hu ▸ rfl
    have receiver (e : RecvId) : u.receiver e = s.receiver e := hu ▸ rfl
    have listeners (c : ChannelId) : u.census.get c = heard c := by
      rw [State.census_get]
      refine List.countP_congr fun e _ => ?_
      rw [decide_eq_true_iff, decide_eq_true_iff, Receiver.countedAt_eq, receiver, timers, run]
    have silent : u.silentNow = gone := by
      unfold State.silentNow
      rw [toList_eq_map, List.countP_map]
      refine List.countP_congr fun e _ => ?_
      rw [decide_eq_true_iff]
      show _ ↔ (s.receiver e).state = .onHire ∧ s.timers.silent * 1024 < now - (s.receiver e).lastHeard
      rw [← Receiver.goesSilent_iff, ← timers, ← run, ← receiver]
      rfl
    have facts := State.workCensusMark_facts u _ rfl
    generalize u.workCensusMark = t at facts ⊢
    obtain ⟨only, records, channels, changes, stranded, header⟩ := facts
    have total : u.census.toList.sum = ((List.finRange 32).map heard).sum := by
      rw [toList_eq_map, show u.census.get = heard from funext listeners]
    have freed : (fun c => (u.channel c).stranded && u.census.get c == 0) = fun c => decide ((s.channel c).stranded = true ∧ heard c = 0) := by
      funext c
      rw [listeners, Bool.eq_iff_iff, Bool.and_eq_true, beq_iff_eq, decide_eq_true_iff]
      exact Iff.of_eq (by rw [← hu])
    rw [total, silent] at only
    rw [freed] at changes stranded
    simp only [listeners, run] at channels
    simp only [receiver, timers, run] at records
    refine ⟨?_, fun e => ⟨fun census => ?_, fun out => ?_, ?_⟩, fun c => ?_, ?_, ⟨?_, fun none => ?_, fun some => ?_⟩, ?_, ?_, ?_, ?_⟩
    · refine only.trans ?_
      rw [← hu]
      rfl
    · have counted : (s.receiver e).countedAt s.timers now = if counts e then (s.receiver e).heard else none :=
        if_congr (Receiver.counts_iff _ _ _) rfl rfl
      have state : (if (s.receiver e).goesSilent s.timers now then RecvState.silent else (s.receiver e).state)
          = if quiet e then .silent else (s.receiver e).state := if_congr (Receiver.goesSilent_iff _ _ _) rfl rfl
      rw [records]
      refine (Receiver.censused_of_in _ _ census).1.trans ?_
      rw [← counted, ← state]
      rfl
    · rw [records]
      exact Receiver.censused_of_out _ _ out
    · rw [records]
      by_cases census : (s.receiver e).state = .onHire ∨ (s.receiver e).state = .silent
      · exact (Receiver.censused_of_in _ _ census).2
      · exact fun _ _ => Receiver.censused_of_out _ _ census
    · obtain ⟨x, record⟩ := channels c
      rw [record, show u.channel c = s.channel c by rw [← hu]]
      rfl
    · have each (c : ChannelId) : heard c = (List.finRange 2048).countP (fun e => decide ((s.receiver e).countedAt s.timers now = some c)) := by
        refine List.countP_congr fun e _ => ?_
        rw [decide_eq_true_iff, decide_eq_true_iff, Receiver.countedAt_eq]
      rw [show heard = _ from funext each]
      refine le_trans (sum_countP_le _ _) (List.countP_mono_left fun e _ counted => ?_)
      obtain ⟨c, counted⟩ := Option.isSome_iff_exists.mp counted
      exact beq_iff_eq.mpr ((Receiver.countedAt_eq _ _ _ _).mp counted).1.1
    · rw [changes, show u.framer = s.framer by rw [← hu]]
    · rw [stranded, if_pos none, show u.framer = s.framer by rw [← hu]]
    · rw [stranded, if_neg (Nat.pos_iff_ne_zero.mp some)]
    · rw [header]
      exact run
    · rw [header, ← hu]
    · rw [header, ← hu]
    · rw [header, ← hu]
      rfl

end Sys2Proof.Machine
end

section
/-!
SUPPORT. The relay graph: walks, cycles and paths (R89, O29).
-/
namespace Sys2Proof.Machine

section
variable {α : Type} {r : α → α → Prop}

/-- From a point on a cycle one step leads to a point on a cycle. -/
theorem cycle_step {x : α} (cycle : Relation.TransGen r x x) : ∃ y, r x y ∧ Relation.TransGen r y y := by
  obtain ⟨y, step, back⟩ := Relation.TransGen.head'_iff.mp cycle
  exact ⟨y, step, Relation.TransGen.tail' back step⟩

/-- No walk of three steps: no cycle, and no path of three edges. -/
theorem no_walk_iff [DecidableEq α] : (∀ x y z w : α, r x y → r y z → ¬ r z w) ↔
    (∀ x : α, ¬ Relation.TransGen r x x) ∧ ¬ ∃ x y z w : α, [x, y, z, w].Nodup ∧ r x y ∧ r y z ∧ r z w := by
  constructor
  · intro short
    refine ⟨fun x cycle => ?_, fun ⟨x, y, z, w, _, xy, yz, zw⟩ => short x y z w xy yz zw⟩
    obtain ⟨y, xy, cycle⟩ := cycle_step cycle
    obtain ⟨z, yz, cycle⟩ := cycle_step cycle
    obtain ⟨w, zw, _⟩ := cycle_step cycle
    exact short x y z w xy yz zw
  · rintro ⟨acyclic, pathless⟩ x y z w xy yz zw
    have xz := (Relation.TransGen.single xy).tail yz
    have yw := (Relation.TransGen.single yz).tail zw
    have apart {a b : α} (h : Relation.TransGen r a b) : a ≠ b := fun e => acyclic a (e ▸ h)
    refine pathless ⟨x, y, z, w, ?_, xy, yz, zw⟩
    have distinct : x ≠ y ∧ x ≠ z ∧ x ≠ w ∧ y ≠ z ∧ y ≠ w ∧ z ≠ w :=
      ⟨apart (.single xy), apart xz, apart (xz.tail zw), apart (.single yz), apart yw, apart (.single zw)⟩
    simp [distinct]

end

theorem State.hears_iff (s : State) (x y : BoothId) : s.hears x y ↔ y ∈ relayNext s.channels s.intakes x := by
  rw [State.relayNext_eq, State.hears, ← and_assoc]
  split
  · rename_i edge
    exact and_iff_right edge
  · rename_i none
    exact ⟨fun h => absurd h.1 none, fun h => absurd h List.not_mem_nil⟩

/-- Settles O29. -/
theorem relayLawMeansNoCycleNoLongPath : Obligations.RelayLawMeansNoCycleNoLongPath := by
  intro s
  rw [← no_walk_iff]
  show relayLaw s.channels s.intakes = true ↔ _
  rw [relayLaw_iff]
  simp only [State.hears_iff, List.eq_nil_iff_forall_not_mem]
  exact ⟨fun law x y z w xy yz => law x y xy z yz w, fun law x y xy z yz w => law x y z w xy yz⟩

end Sys2Proof.Machine
end

section
/-!
SUPPORT. Standing orders ended, scheduled handovers, and the deadlines of a channel (R85, R87, R88, O34).
-/
namespace Sys2Proof.Machine

/-! ## The standing order of an owner ended -/

section
variable {s : State} {o : StandingOwner} {x : Standing} {r : Result}

theorem State.endOwner_of_none (h : s.standingOf o = none) : s.endOwner o r = s := by
  unfold State.endOwner
  rw [h]

theorem State.endOwner_of_some (h : s.standingOf o = some x) : s.endOwner o r = s.endStanding x r := by
  unfold State.endOwner
  rw [h]

/-- A standing order that ends (R8, R9). -/
theorem State.endStanding_facts (s : State) (x : Standing) (r : Result) : s.endStanding x r = { s with
      orders := { s.orders with standing := s.orders.standing.filter (fun y => y.slot ≠ x.slot) }
      mem := (s.endStanding x r).mem, notices := { s.notices with waiting := s.notices.waiting ||| Notice.order.bit } }
    ∧ (s.memOk → (s.endStanding x r).mem.answers s.mem x.slot { r with clamped := x.clamped }) :=
  ⟨rfl, fun law => State.complete_answers _ _ _ law⟩

end

/-! ## A channel's schedule -/

/-- The state with another scheduled handover for channel `c`. -/
def State.rescheduled (s : State) (c : ChannelId) (x : Option Schedule) : State :=
  { s with channels := s.channels.set c { s.channel c with schedule := x } }

/-- A scheduled handover once its warning is reached (R87). -/
def Schedule.warned (h : Schedule) : Schedule := { h with phase := if h.phase = .planned then .warned else h.phase }

section
variable {s : State} {c : ChannelId} {h : Schedule} {x : Option Schedule}

theorem State.rescheduled_channel (d : ChannelId) : (s.rescheduled c x).channel d =
    if d = c then { s.channel c with schedule := x } else s.channel d := get_set _ _ _ _

theorem State.rescheduled_own : (s.rescheduled c x).channel c = { s.channel c with schedule := x } :=
  State.rescheduled_channel c |>.trans (if_pos rfl)

theorem State.rescheduled_same (h : (s.channel c).schedule = x) : s.rescheduled c x = s := by
  unfold State.rescheduled
  rw [← h]
  show ({ s with channels := s.channels.set c s.channels[c] } : State) = s
  rw [Fin.getElem_fin, Vector.set_getElem_self]

theorem State.rescheduled_rescheduled (y : Option Schedule) : (s.rescheduled c x).rescheduled c y = s.rescheduled c y := by
  unfold State.rescheduled
  show ({ s with channels := (s.channels.set c _).set c { (s.rescheduled c x).channel c with schedule := y } } : State) = _
  rw [Vector.set_set, State.rescheduled_own]

theorem State.setPhase_eq : s.setPhase c h = s.rescheduled c (some h) := rfl

theorem State.warn_of (hs : (s.channel c).schedule = some h) : s.warn c = s.rescheduled c (some h.warned) := by
  unfold State.warn
  rw [show s.channels[c].schedule = some h from hs]
  dsimp only
  by_cases planned : h.phase = .planned
  · rw [if_pos planned, State.setPhase_eq, Schedule.warned, if_pos planned]
  · rw [if_neg planned, Schedule.warned, if_neg planned]
    exact (State.rescheduled_same hs).symm

theorem State.endSchedule_eq (code : ResultCode) (reason : Reason) (already : Bool) (tick : Nat) :
    s.endSchedule c code reason already tick = (s.rescheduled c none).endOwner (.handover c)
      { code := code, reason := reason, clamped := false, already := already, values := (s.channel c).handoverValues tick } := rfl

theorem State.target_of (hs : (s.channel c).schedule = some h) : s.target c =
    if h.phase = .waiting then s
    else if (s.channel c).owner = h.target then s.endSchedule c .done .noReason true 0
    else s.rescheduled c (some { h with phase := .waiting, waitDeadline := s.clock.run + s.timers.handoverWait * 1024 }) := by
  unfold State.target
  rw [show s.channels[c].schedule = some h from hs]
  rfl

/-- The warning and then the target reached (R87). -/
theorem State.target_warn (hs : (s.channel c).schedule = some h) : (s.warn c).target c =
    if h.phase = .waiting then s
    else if (s.channel c).owner = h.target then s.endSchedule c .done .noReason true 0
    else s.rescheduled c (some { h with phase := .waiting, waitDeadline := s.clock.run + s.timers.handoverWait * 1024 }) := by
  have own := State.rescheduled_own (s := s) (c := c) (x := some h.warned)
  rw [State.warn_of hs, State.target_of (h := h.warned) (by rw [own])]
  by_cases waiting : h.phase = .waiting
  · have kept : h.warned = h := by
      unfold Schedule.warned
      rw [if_neg (by rw [waiting]; decide)]
    rw [kept, if_pos waiting, if_pos waiting]
    exact State.rescheduled_same hs
  · have still : ¬ h.warned.phase = .waiting := by
      show ¬ (if h.phase = .planned then _ else h.phase) = .waiting
      split
      · decide
      · exact waiting
    rw [if_neg still, if_neg waiting, own, State.endSchedule_eq, State.endSchedule_eq, State.rescheduled_rescheduled, State.rescheduled_rescheduled, own]
    rfl

theorem State.warned_iff {b : BoothId} : s.warned b = true ↔
    ∃ (d : ChannelId) (h : Schedule), (s.channel d).schedule = some h ∧ h.phase ≠ .planned ∧ (s.channel d).boothOf h.target = some b := by
  unfold State.warned
  rw [toList_eq_map, List.any_map, List.any_eq_true]
  constructor
  · rintro ⟨d, _, shown⟩
    dsimp only [Function.comp] at shown
    split at shown
    · rename_i h hs
      rw [Bool.and_eq_true, bne_iff_ne, beq_iff_eq] at shown
      exact ⟨d, h, hs, shown⟩
    · exact nomatch shown
  · rintro ⟨d, h, hs, phase, booth⟩
    refine ⟨d, List.mem_finRange d, ?_⟩
    dsimp only [Function.comp]
    rw [show (s.channels.get d).schedule = some h from hs]
    dsimp only
    rw [Bool.and_eq_true, bne_iff_ne, beq_iff_eq]
    exact ⟨phase, booth⟩

end

/-- The brackets and lamps that follow work on a channel's schedule (R61). -/
theorem State.settleChannel_facts (w o : State) (c : ChannelId) {t : State} (ht : t = w.settleChannel o c) :
    t = { w with channels := t.channels, booths := t.booths } ∧ (∃ x : Half, t.channel c = { w.channel c with changes := x })
      ∧ (∀ d : ChannelId, d ≠ c → t.channel d = w.channel d) ∧ (∀ b : BoothId, (t.booth b).litAs (w.booth b))
      ∧ ∀ b : BoothId, (w.channel c).names b → (t.booth b).shows (t.warned b) (t.cuedOut b) := by
  have only := (w.closeChannel o c).relampChannel_only c
  have channels : t.channels = (w.closeChannel o c).channels := by
    rw [ht]
    exact only .channels (by decide)
  have channel (d : ChannelId) : t.channel d = if d = c then (w.channel c).closed (o.channel c) else w.channel d := by
    rw [State.channel, channels]
    exact w.channel_closeChannel o c d
  obtain ⟨x, closed⟩ := (w.channel c).closed_eq (o.channel c)
  have names (b : BoothId) : ((w.closeChannel o c).channel c).names b ↔ (w.channel c).names b := by
    rw [State.channel_closeChannel, if_pos rfl, closed]
    exact Iff.rfl
  refine ⟨?_, ⟨x, by rw [channel, if_pos rfl, closed]⟩, fun d other => by rw [channel, if_neg other], fun b => ?_, fun b own => ?_⟩
  · have whole := only.booths_eq
    rw [show (w.closeChannel o c).relampChannel c = t from ht.symm] at whole
    rw [← whole]
    rfl
  · rw [ht]
    exact ((w.closeChannel o c).relampChannel_booth c b).1
  · rw [State.warned, State.cuedOut, channels, ht]
    exact ((w.closeChannel o c).relampChannel_booth c b).2.1 ((names b).mpr own)

/-! ## The four deadlines -/

section
variable {s : State} {c : ChannelId} {h : Schedule}

theorem State.outgoingLapse_of {o : OutgoingOffer} (ready : s.part = .ready) (ho : (s.channel c).offer = some o) (due : o.deadline ≤ s.clock.run) :
    s.outgoingLapse c = (s.writeChannel c (fun r => { r with offer := none })).relampChannel c := by
  unfold State.outgoingLapse
  rw [show s.channels[c].offer = some o from ho]
  exact if_pos ⟨ready, due⟩

theorem State.outgoingLapse_idle (idle : s.part ≠ .ready ∨ ∀ o : OutgoingOffer, (s.channel c).offer = some o → s.clock.run < o.deadline) :
    s.outgoingLapse c = s := by
  unfold State.outgoingLapse
  split
  · rename_i o ho
    exact if_neg fun due => idle.elim (fun off => off due.1) (fun early => absurd due.2 (Nat.not_le.mpr (early o ho)))
  · rfl

theorem State.warningReached_of (ready : s.part = .ready) (hs : (s.channel c).schedule = some h) (due : s.clock.reached h.warnCal = true) :
    s.warningReached c = (s.rescheduled c (some h.warned)).settleChannel s c := by
  unfold State.warningReached
  rw [show s.channels[c].schedule = some h from hs, ← State.warn_of hs]
  exact if_pos ⟨ready, due⟩

theorem State.warningReached_idle (idle : s.part ≠ .ready ∨ ∀ h : Schedule, (s.channel c).schedule = some h → s.clock.reached h.warnCal = false) :
    s.warningReached c = s := by
  unfold State.warningReached
  split
  · rename_i h hs
    exact if_neg fun due => idle.elim (fun off => off due.1) (fun early => Bool.false_ne_true ((early h hs).symm.trans due.2))
  · rfl

theorem State.targetReached_of (ready : s.part = .ready) (hs : (s.channel c).schedule = some h) (due : s.clock.reached h.targetCal = true) :
    s.targetReached c = ((s.warn c).target c).settleChannel s c := by
  unfold State.targetReached
  rw [show s.channels[c].schedule = some h from hs]
  exact if_pos ⟨ready, due⟩

theorem State.targetReached_idle (idle : s.part ≠ .ready ∨ ∀ h : Schedule, (s.channel c).schedule = some h → s.clock.reached h.targetCal = false) :
    s.targetReached c = s := by
  unfold State.targetReached
  split
  · rename_i h hs
    exact if_neg fun due => idle.elim (fun off => off due.1) (fun early => Bool.false_ne_true ((early h hs).symm.trans due.2))
  · rfl

theorem State.waitExpiry_of (ready : s.part = .ready) (hs : (s.channel c).schedule = some h) (waiting : h.phase = .waiting)
    (due : h.waitDeadline ≤ s.clock.run) : s.waitExpiry c = (s.endSchedule c .failed .waitOver false 0).settleChannel s c := by
  unfold State.waitExpiry
  rw [show s.channels[c].schedule = some h from hs]
  exact if_pos ⟨ready, waiting, due⟩

theorem State.waitExpiry_idle (idle : s.part ≠ .ready
    ∨ ∀ h : Schedule, (s.channel c).schedule = some h → h.phase ≠ .waiting ∨ s.clock.run < h.waitDeadline) : s.waitExpiry c = s := by
  unfold State.waitExpiry
  split
  · rename_i h hs
    refine if_neg fun ⟨ready, waiting, due⟩ => ?_
    rcases idle with off | early
    · exact off ready
    · exact (early h hs).elim (fun no => no waiting) (Nat.not_lt.mpr due)
  · rfl

/-- A scheduled handover that ends with its standing order, settled (R88). -/
theorem State.endSchedule_settled {x : Standing} (standing : s.standingOf (.handover c) = some x) (code : ResultCode) (reason : Reason)
    (already : Bool) (old : State) {t : State} (ht : t = (s.endSchedule c code reason already 0).settleChannel old c) :
    (t.channel c).schedule = none ∧ (t.channel c).owner = (s.channel c).owner
      ∧ t.orders = { s.orders with standing := s.orders.standing.filter (fun y => y.slot ≠ x.slot) }
      ∧ (s.memOk → t.mem.answers s.mem x.slot { code := code, reason := reason, clamped := x.clamped, already := already
                                                values := leBytes 6 0 ++ [(s.channel c).owner.code, (s.channel c).fault.toByte] })
      ∧ t = { s with booths := t.booths, channels := t.channels, orders := t.orders, mem := t.mem
                     notices := { s.notices with waiting := s.notices.waiting ||| Notice.order.bit } } := by
  rw [State.endSchedule_eq, State.endOwner_of_some (s := s.rescheduled c none) standing] at ht
  obtain ⟨ended, shown⟩ := (s.rescheduled c none).endStanding_facts x { code := code, reason := reason, clamped := false, already := already, values := (s.channel c).handoverValues 0 }
  generalize (s.rescheduled c none).endStanding x _ = w at ht ended shown
  obtain ⟨only, ⟨y, own⟩, -, -, -⟩ := State.settleChannel_facts w old c ht
  have channel : w.channel c = { s.channel c with schedule := none } := by
    rw [ended]
    exact State.rescheduled_own
  rw [own, channel]
  refine ⟨rfl, rfl, ?_, fun law => ?_, ?_⟩
  · rw [only, ended]
    rfl
  · rw [show t.mem = w.mem by rw [only]]
    exact shown law
  · rw [show t.orders = w.orders by rw [only], show t.mem = w.mem by rw [only]]
    exact only.trans (congrArg (fun y : State => ({ y with
      channels := t.channels, booths := t.booths, orders := w.orders, mem := w.mem } : State)) ended)

end

/-- Settles O34. -/
theorem channelDeadlines : Obligations.ChannelDeadlines := by
  intro c s ch
  refine ⟨fun o ready ho due => ?_, fun idle => congrArg Host.Outcome.next (State.outgoingLapse_idle idle), fun h ready hs due => ?_,
    fun idle => congrArg Host.Outcome.next (State.warningReached_idle idle), fun h ready hs due => ?_,
    fun idle => congrArg Host.Outcome.next (State.targetReached_idle idle), fun h x ready hs waiting due standing law => ?_,
    fun idle => congrArg Host.Outcome.next (State.waitExpiry_idle idle)⟩
  · have only := (s.writeChannel c (fun r => { r with offer := none })).relampChannel_only c
    refine ⟨((s.writeChannel c (fun r => { r with offer := none })).relampChannel c).booths,
      congrArg Host.Outcome.next ((State.outgoingLapse_of ready ho due).trans only.booths_eq.symm), fun b => ?_⟩
    have lit := ((s.writeChannel c (fun r => { r with offer := none })).relampChannel_booth c b).1
    exact ⟨lit.link, lit.role⟩
  · obtain ⟨t, ht⟩ : ∃ t, t = (s.rescheduled c (some h.warned)).settleChannel s c := ⟨_, rfl⟩
    obtain ⟨only, ⟨y, own⟩, -, -, shown⟩ := State.settleChannel_facts _ s c ht
    rw [State.rescheduled_own] at own shown
    have schedule : (t.channel c).schedule = some h.warned := by rw [own]
    refine ⟨t, congrArg Host.Outcome.next ((State.warningReached_of ready hs due).trans ht.symm), only, schedule, fun b target => ⟨?_, ?_⟩⟩
    · refine State.warned_iff.mpr ⟨c, h.warned, schedule, ?_, by rw [own]; exact target⟩
      show (if h.phase = .planned then Phase.warned else h.phase) ≠ .planned
      split
      · decide
      · assumption
    · exact shown b (Channel.names_of_boothOf target)
  · obtain ⟨t, ht⟩ : ∃ t, t = ((s.warn c).target c).settleChannel s c := ⟨_, rfl⟩
    refine ⟨t, congrArg Host.Outcome.next ((State.targetReached_of ready hs due).trans ht.symm), ?_⟩
    rw [State.target_warn hs] at ht
    refine ⟨fun waiting => ?_, fun active move => ?_, fun x active stay standing law => ?_⟩
    · rw [if_pos waiting] at ht
      obtain ⟨only, ⟨y, own⟩, -⟩ := State.settleChannel_facts _ s c ht
      exact ⟨by rw [own]; exact hs, by rw [only], by rw [only]⟩
    · rw [if_neg active, if_neg move] at ht
      obtain ⟨only, ⟨y, own⟩, -⟩ := State.settleChannel_facts _ s c ht
      exact ⟨by rw [only]; rfl, by rw [only]; rfl, by rw [own, State.rescheduled_own]⟩
    · rw [if_neg active, if_pos stay] at ht
      obtain ⟨schedule, -, list, answers, -⟩ := State.endSchedule_settled standing _ _ _ _ ht
      exact ⟨schedule, congrArg Orders.standing list, (answers law).1⟩
  · obtain ⟨t, ht⟩ : ∃ t, t = (s.endSchedule c .failed .waitOver false 0).settleChannel s c := ⟨_, rfl⟩
    obtain ⟨schedule, owner, list, answers, only⟩ := State.endSchedule_settled standing _ _ _ _ ht
    exact ⟨t, congrArg Host.Outcome.next ((State.waitExpiry_of ready hs waiting due).trans ht.symm), schedule, owner, congrArg Orders.standing list,
      answers law, only⟩

end Sys2Proof.Machine
end

section
/-!
SUPPORT. Orders that stand, and HANDOVER (R86 to R88, O33).
-/
namespace Sys2Proof.Machine

/-! ## Orders that stand -/

section
variable {s : State} {n : SlotId} {rest : List SlotId}

/-- What an order row does, over the memory of the taken slot. -/
theorem State.takes.works {k : Nat} (h : s.takes k n rest) (isMine : State → SlotId → Bool) (hm : isMine s n = true) {i : Instr} (work : Work)
    (hi : exec i s = .next (s.runOrder isMine work)) : ∃ m : Memory, SlotTaken s n m ∧ exec i s = .next (finishOrder n (work (s.taken m rest) n)) := by
  refine ⟨(s.takeSlot n rest).mem, s.takeSlot_slotTaken n rest h.2.2.2, hi.trans (congrArg Host.Outcome.next ?_)⟩
  unfold State.runOrder
  rw [h.2.1]
  dsimp only
  rw [if_pos ⟨h.1, hm⟩, State.takeSlot_taken]

/-- An order made standing (R9). -/
theorem State.makeStanding_facts (u : State) (o : StandingOwner) (c : Bool) : u.makeStanding n o c = { u with
      mem := (u.setHolder n Holder.standing).mem
      orders := { u.orders with standing := u.orders.standing ++ [{ slot := n, owner := o, clamped := c }] } }
    ∧ (u.memOk → (u.makeStanding n o c).memOk ∧ (u.makeStanding n o c).holder n = Holder.standing
      ∧ ∀ a : Nat, ¬ resultByte n a → (u.makeStanding n o c).mem.read8 a = u.mem.read8 a) := by
  refine ⟨rfl, fun law => ⟨State.setHolder_wf u n _ law, ?_, fun a outside => ?_⟩⟩
  · exact (State.setHolder_holder u n n _ law).trans (if_pos rfl)
  · exact State.setHolder_read8 u n Holder.standing a law (fun inside => outside (.inl inside))

end

/-! ## The calendar compared with a schedule -/

section
variable {s : State} {c : ChannelId} {h : Schedule}

theorem State.compareSchedule_none (hs : (s.channel c).schedule = none) : s.compareSchedule c = s := by
  unfold State.compareSchedule
  rw [show s.channels[c].schedule = none from hs]

theorem State.compareSchedule_of (hs : (s.channel c).schedule = some h) : s.compareSchedule c =
    if h.phase = .waiting then s
    else if s.clock.reached h.targetCal then (s.warn c).target c
    else if s.clock.reached h.warnCal then s.warn c else s := by
  unfold State.compareSchedule
  rw [show s.channels[c].schedule = some h from hs]
  dsimp only
  by_cases target : s.clock.reached h.targetCal = true
  · rw [if_pos target, if_pos target, if_pos (show _ ∨ _ from Or.inr target)]
  · rw [if_neg target, if_neg target, if_congr (or_iff_left target) rfl rfl]

end

/-! ## HANDOVER -/

/-- The state with a new scheduled handover and its standing order (R86). -/
def State.stood (s : State) (n : SlotId) (c : ChannelId) (h : Schedule) (clamped : Bool) : State :=
  (s.rescheduled c (some h)).makeStanding n (.handover c) clamped

theorem State.schedule_eq (s : State) (n : SlotId) (c : ChannelId) (h : Schedule) (now clamped : Bool) : s.schedule n c h now clamped =
    (if now then ((s.stood n c h clamped).warn c).target c else (s.stood n c h clamped).compareSchedule c).settleChannel s c := rfl

section
variable {s : State} {n : SlotId} {c : ChannelId} {h : Schedule} {clamped : Bool}

theorem State.stood_channel : (s.stood n c h clamped).channel c = { s.channel c with schedule := some h } :=
  State.rescheduled_own (s := s) (c := c) (x := some h)

theorem State.stood_facts (law : s.memOk) : (s.stood n c h clamped).memOk ∧ (s.stood n c h clamped).holder n = Holder.standing
    ∧ ∀ a : Nat, ¬ resultByte n a → (s.stood n c h clamped).mem.read8 a = s.mem.read8 a :=
  ((s.rescheduled c (some h)).makeStanding_facts (.handover c) clamped).2 law

/-- The order that has just been made standing is the channel's. -/
theorem State.stood_standingOf (fresh : s.standingOf (.handover c) = none) :
    (s.stood n c h clamped).standingOf (.handover c) = some { slot := n, owner := .handover c, clamped := clamped } := by
  show (s.orders.standing ++ [_]).find? _ = _
  rw [List.find?_append, show s.orders.standing.find? _ = none from fresh]
  simp

end

section
variable {s : State} {n : SlotId} {c : ChannelId} {h : Schedule} {now clamped : Bool}

theorem State.stood_rescheduled (x : Schedule) : (s.stood n c h clamped).rescheduled c (some x) = s.stood n c x clamped := by
  unfold State.rescheduled
  rw [State.stood_channel]
  show ({ s.stood n c h clamped with channels := (s.channels.set c _).set c _ } : State) = _
  rw [Vector.set_set]
  rfl

/-- A handover whose target is reached, or in mode now (R86, R87). -/
theorem State.schedule_reached (planned : h.phase = .planned) (reached : now = true ∨ s.clock.reached h.targetCal = true) :
    s.schedule n c h now clamped = (if (s.channel c).owner = h.target then (s.stood n c h clamped).endSchedule c .done .noReason true 0
      else s.stood n c { h with phase := .waiting, waitDeadline := s.clock.run + s.timers.handoverWait * 1024 } clamped).settleChannel s c := by
  have stood : ((s.stood n c h clamped).channel c).schedule = some h := by rw [State.stood_channel]
  have moves : ((s.stood n c h clamped).warn c).target c = if (s.channel c).owner = h.target
      then (s.stood n c h clamped).endSchedule c .done .noReason true 0
      else s.stood n c { h with phase := .waiting, waitDeadline := s.clock.run + s.timers.handoverWait * 1024 } clamped := by
    rw [State.target_warn stood, if_neg (by rw [planned]; decide), State.stood_channel, State.stood_rescheduled]
    rfl
  rw [State.schedule_eq, ← moves]
  refine congrArg (fun x : State => x.settleChannel s c) ?_
  by_cases mode : now = true
  · rw [if_pos mode]
  · rw [if_neg mode, State.compareSchedule_of stood, if_neg (by rw [planned]; decide)]
    exact if_pos (reached.resolve_left mode)

theorem State.schedule_waits (planned : h.phase = .planned) (reached : now = true ∨ s.clock.reached h.targetCal = true)
    (moves : (s.channel c).owner ≠ h.target) : s.schedule n c h now clamped =
      (s.stood n c { h with phase := .waiting, waitDeadline := s.clock.run + s.timers.handoverWait * 1024 } clamped).settleChannel s c := by
  rw [State.schedule_reached planned reached, if_neg moves]

theorem State.schedule_stays (planned : h.phase = .planned) (reached : now = true ∨ s.clock.reached h.targetCal = true)
    (stays : (s.channel c).owner = h.target) : s.schedule n c h now clamped =
      ((s.stood n c h clamped).endSchedule c .done .noReason true 0).settleChannel s c := by
  rw [State.schedule_reached planned reached, if_pos stays]

/-- A handover that stands ahead of its target (R86, R87). -/
theorem State.schedule_ahead (planned : h.phase = .planned) (ahead : s.clock.reached h.targetCal = false) :
    s.schedule n c h false clamped = (s.stood n c { h with phase := if s.clock.reached h.warnCal then .warned else .planned } clamped).settleChannel
      s c := by
  have stood : ((s.stood n c h clamped).channel c).schedule = some h := by rw [State.stood_channel]
  rw [State.schedule_eq, if_neg Bool.false_ne_true, State.compareSchedule_of stood, if_neg (by rw [planned]; decide)]
  refine congrArg (fun x : State => x.settleChannel s c) ?_
  rw [if_neg (show ¬ (s.stood n c h clamped).clock.reached h.targetCal = true from fun late => Bool.false_ne_true (ahead.symm.trans late))]
  by_cases due : s.clock.reached h.warnCal = true
  · rw [if_pos due, State.warn_of stood, State.stood_rescheduled, Schedule.warned, if_pos planned]
    exact if_pos due
  · rw [if_neg due, ← planned]
    exact if_neg due

section
variable {old t : State}

/-- A handover that stands, settled. -/
theorem State.stood_settled (ht : t = (s.stood n c h clamped).settleChannel old c) :
    ((t.channel c).schedule = some h ∧ (t.channel c).owner = (s.channel c).owner ∧ (t.channel c).pairing = (s.channel c).pairing)
      ∧ t = { s.stood n c h clamped with channels := t.channels, booths := t.booths }
      ∧ ∀ b : BoothId, (s.channel c).names b → (t.booth b).shows (t.warned b) (t.cuedOut b) := by
  obtain ⟨only, ⟨y, own⟩, -, -, shown⟩ := State.settleChannel_facts _ _ c ht
  rw [State.stood_channel] at own shown
  exact ⟨⟨by rw [own], by rw [own], by rw [own]⟩, only, shown⟩

/-- A handover that ends as soon as it stands, settled (R88). -/
theorem State.stood_ended (law : s.memOk) (fresh : s.standingOf (.handover c) = none) (apart : ∀ x ∈ s.orders.standing, x.slot ≠ n)
    (ht : t = ((s.stood n c h clamped).endSchedule c .done .noReason true 0).settleChannel old c) :
    (t.channel c).schedule = none ∧ (t.channel c).owner = (s.channel c).owner ∧ t.orders.standing = s.orders.standing
      ∧ t.orders.queue = s.orders.queue
      ∧ t.mem.shows n { code := .done, reason := .noReason, clamped := clamped, already := true
                        values := leBytes 6 0 ++ [(s.channel c).owner.code, (s.channel c).fault.toByte] }
      ∧ t.isPending .order = true := by
  obtain ⟨schedule, owner, list, answers, only⟩ := State.endSchedule_settled (State.stood_standingOf fresh) _ _ _ _ ht
  rw [State.stood_channel] at owner answers
  refine ⟨schedule, owner, (congrArg Orders.standing list).trans ?_, (congrArg Orders.queue list).trans rfl,
    (answers (State.stood_facts law).1).1, ?_⟩
  · show (s.orders.standing ++ [_]).filter _ = _
    rw [List.filter_append, List.filter_eq_self.mpr fun x hx => decide_eq_true (apart x hx)]
    simp
  · exact (congrArg (fun x : State => x.isPending .order) only).trans (State.raise_isPending s .order)

end

end

theorem role?_code (r : Role) : role? r.code.toNat = some r := by cases r <;> rfl

theorem role?_of_lt {k : Nat} (h : 1 < k) : role? k = none := by
  unfold role?
  split
  · exact absurd h (by decide)
  · exact absurd h (by decide)
  · rfl

section
variable {s : State} {n : SlotId} {c : ChannelId} {r : Role}

/-- HANDOVER's checks and its work (R86). -/
theorem workHandover_of (hc : s.param8 n 0 = c.val) (hr : s.param8 n 1 = r.code.toNat) : workHandover s n =
    if c = 0 ∨ 1 < s.param8 n 6 then s.refuseHandover c .badArgument
    else if (s.channel c).defined = false ∨ (s.channel c).partner = none then s.refuseHandover c .notFound
    else if (s.channel c).offer.isSome ∨ (s.channel c).move.isSome ∨ (s.channel c).schedule.isSome then s.refuseHandover c .handoverBusy
    else if (s.param8 n 6 == 1) = false ∧ s.clock.valid = false then s.refuseHandover c .clockUnset
    else (s.schedule n c (newSchedule n r (s.param8 n 6 == 1) (s.paramLE n 2 4) (clampTo 0 120 (s.paramLE n 8 2)).1) (s.param8 n 6 == 1)
      (clampTo 0 120 (s.paramLE n 8 2)).2, none) := by
  unfold workHandover
  rw [hc, index?_val, hr, role?_code]

theorem workHandover_above (hc : 31 < s.param8 n 0) : workHandover s n = refuse s .badArgument := by
  unfold workHandover
  rw [index?_of_le hc]

theorem workHandover_role (hc : s.param8 n 0 = c.val) (hr : 1 < s.param8 n 1) : workHandover s n = s.refuseHandover c .badArgument := by
  unfold workHandover
  rw [hc, index?_val, role?_of_lt hr]

end

theorem clampTo_lead (x : Nat) : clampTo 0 120 x = (min 120 x, decide (120 < x)) := by
  refine Prod.ext ((clampTo_fst (by omega) x).trans (Nat.zero_max _)) ((clampTo_snd (by omega) x).trans ?_)
  rw [clampTo_fst (by omega), decide_eq_decide]
  omega

/-- A HANDOVER that has passed its checks (R86). -/
theorem handover_schedules {s : State} {n : SlotId} {rest : List SlotId} {c : ChannelId} {r : Role} (h : s.takes 14 n rest) (real : c ≠ 0)
    (hc : s.param8 n 0 = c.val) (hr : s.param8 n 1 = r.code.toNat) (mode : s.param8 n 6 ≤ 1)
    (named : (s.channel c).defined = true ∧ (s.channel c).partner ≠ none)
    (free : ¬ ((s.channel c).offer ≠ none ∨ (s.channel c).move ≠ none ∨ (s.channel c).schedule ≠ none))
    (clock : s.param8 n 6 = 1 ∨ s.clock.valid = true) : ∃ m : Memory, SlotTaken s n m ∧ exec .handover s = .next ((s.taken m rest).schedule n c
      (newSchedule n r (s.param8 n 6 == 1) (s.paramLE n 2 4) (min 120 (s.paramLE n 8 2))) (s.param8 n 6 == 1)
      (decide (120 < s.paramLE n 8 2))) := by
  obtain ⟨m, taken, next⟩ := h.works (i := .handover) (kindIs 14) (State.takes_kind h) workHandover rfl
  have p0 := taken.param8 rest (i := 0) (by omega)
  have p1 := taken.param8 rest (i := 1) (by omega)
  have p6 := taken.param8 rest (i := 6) (by omega)
  have p2 := taken.paramLE rest (i := 2) (k := 4) (by omega)
  have p8 := taken.paramLE rest (i := 8) (k := 2) (by omega)
  refine ⟨m, taken, next.trans (congrArg Host.Outcome.next ?_)⟩
  rw [workHandover_of (c := c) (r := r) (p0.trans hc) (p1.trans hr), p6, p2, p8, if_neg (not_or.mpr ⟨real, by omega⟩),
    if_neg (by rintro (off | alone); exacts [Bool.false_ne_true (off.symm.trans named.1), named.2 alone]),
    if_neg (by simpa [State.taken] using free), if_neg (c := (s.param8 n 6 == 1) = false ∧ (s.taken m rest).clock.valid = false), clampTo_lead]
  · rfl
  · rintro ⟨set, unset⟩
    rcases clock with now | valid
    · rw [now] at set; exact Bool.false_ne_true set.symm
    · exact Bool.false_ne_true (unset.symm.trans valid)

/-- Settles O33. -/
theorem handoverStands : Obligations.HandoverStands := by
  intro s n rest h back
  have refused : ∀ (c : ChannelId) (x : Reason), (∀ m : Memory, SlotTaken s n m → workHandover (s.taken m rest) n
      = (s.taken m rest).refuseHandover c x) → back c x := fun c x works =>
    State.completes_work h (State.takes_kind h) rfl rfl works
  refine ⟨fun above => ?_, fun c hc bad => ?_, fun c r real hc hr mode => ?_⟩
  · exact State.completes_work h (State.takes_kind h) rfl rfl fun m taken =>
      workHandover_above ((taken.param8 rest (i := 0) (by omega)).symm ▸ above)
  · refine refused c _ fun m taken => ?_
    have p0 := (taken.param8 rest (i := 0) (by omega)).trans hc
    have p1 := taken.param8 rest (i := 1) (by omega)
    have p6 := taken.param8 rest (i := 6) (by omega)
    by_cases role : 1 < s.param8 n 1
    · exact workHandover_role p0 (p1.symm ▸ role)
    · obtain ⟨r, hr⟩ : ∃ r : Role, s.param8 n 1 = r.code.toNat := by
        rcases Nat.le_one_iff_eq_zero_or_eq_one.mp (Nat.not_lt.mp role) with zero | one
        · exact ⟨.primary, zero⟩
        · exact ⟨.partner, one⟩
      rw [workHandover_of p0 (p1.trans hr), p6]
      exact if_pos (bad.imp_right (fun x => x.resolve_left role))
  · intro ch named busy lead target
    have works : ∀ m : Memory, SlotTaken s n m → workHandover (s.taken m rest) n = _ := fun m taken =>
      (workHandover_of ((taken.param8 rest (i := 0) (by omega)).trans hc) ((taken.param8 rest (i := 1) (by omega)).trans hr)).trans
        (if_neg (by rw [taken.param8 rest (i := 6) (by omega)]; exact not_or.mpr ⟨real, by omega⟩))
    have names : named → ¬ (ch.defined = false ∨ ch.partner = none) := by
      rintro ⟨on, pair⟩ (off | alone)
      exacts [Bool.false_ne_true (off.symm.trans on), pair alone]
    have busies : busy ↔ (ch.offer.isSome ∨ ch.move.isSome ∨ ch.schedule.isSome) := by
      simp only [busy, Option.isSome_iff_ne_none]
    have reached : (s.param8 n 6 = 1 ∨ (s.clock.valid = true ∧ s.clock.reached target = true)) → (s.param8 n 6 == 1) = true
        ∨ s.clock.reached (newSchedule n r (s.param8 n 6 == 1) target lead).targetCal = true := fun due => by
      by_cases now : s.param8 n 6 = 1
      · exact .inl (beq_iff_eq.mpr now)
      · refine .inr ?_
        have off : (s.param8 n 6 == 1) = false := beq_eq_false_iff_ne.mpr now
        rw [off]
        exact (due.resolve_left now).2
    refine ⟨fun unnamed => ?_, fun isNamed isBusy => ?_, fun isNamed free unset unclocked => ?_, fun isNamed free unset clocked ahead => ?_,
      fun isNamed free due moves => ?_, fun isNamed free due stays fresh apart => ?_⟩
    · refine refused c _ fun m taken => (works m taken).trans (if_pos ?_)
      by_contra no
      obtain ⟨on, pair⟩ := not_or.mp no
      exact unnamed ⟨Bool.not_eq_false _ ▸ on, pair⟩
    · exact refused c _ fun m taken => (works m taken).trans ((if_neg (names isNamed)).trans (if_pos (busies.mp isBusy)))
    · refine refused c _ fun m taken => (works m taken).trans ((if_neg (names isNamed)).trans ((if_neg (mt busies.mpr free)).trans (if_pos ?_)))
      rw [taken.param8 rest (i := 6) (by omega), unset]
      exact ⟨rfl, unclocked⟩
    · obtain ⟨m, taken, next⟩ := handover_schedules h real hc hr mode isNamed free (.inr clocked)
      rw [unset, show (0 == 1) = false from rfl, State.schedule_ahead (s := s.taken m rest) rfl ahead] at next
      obtain ⟨own, only, shown⟩ := State.stood_settled (s := s.taken m rest) rfl
      generalize State.settleChannel _ (s.taken m rest) c = t at next own only shown
      obtain ⟨-, standing, same⟩ := State.stood_facts (s := s.taken m rest) (clamped := decide (120 < s.paramLE n 8 2)) taken.wf
      have orders := congrArg State.orders only
      have mem := congrArg State.mem only
      refine ⟨t, next, by rw [orders]; rfl, ?_, by rw [orders]; rfl, own.1, ?_, fun a out => ?_, fun b named => shown b (Channel.names_of_boothOf named)⟩
      · exact (congrArg (fun m : Memory => m.read16 (slotBase n)) mem).trans standing
      · rw [orders, mem]
        exact only
      · rw [mem]
        exact (same a out).trans (taken.outside a out)
    · obtain ⟨m, taken, next⟩ := handover_schedules h real hc hr mode isNamed free (due.imp_right And.left)
      rw [State.schedule_waits (s := s.taken m rest) rfl (reached due) moves] at next
      obtain ⟨own, only, -⟩ := State.stood_settled (s := s.taken m rest) rfl
      generalize State.settleChannel _ (s.taken m rest) c = t at next own only
      obtain ⟨-, standing, -⟩ := State.stood_facts (s := s.taken m rest) (clamped := decide (120 < s.paramLE n 8 2)) taken.wf
      have orders := congrArg State.orders only
      have mem := congrArg State.mem only
      refine ⟨t, next, by rw [orders]; rfl, ?_, ?_, ⟨_, own.1, rfl, rfl, rfl, rfl, ?_⟩, own.2⟩
      · exact (congrArg (fun m : Memory => m.read16 (slotBase n)) mem).trans standing
      · rw [orders]
        exact List.map_append
      · show (if (s.param8 n 6 == 1) = true then 0 else target) = _
        simp only [beq_iff_eq]
    · obtain ⟨m, taken, next⟩ := handover_schedules h real hc hr mode isNamed free (due.imp_right And.left)
      rw [State.schedule_stays (s := s.taken m rest) rfl (reached due) stays] at next
      obtain ⟨schedule, owner, list, queue, shown, pending⟩ := State.stood_ended (s := s.taken m rest) taken.wf fresh apart rfl
      exact ⟨_, next, queue, list, schedule, ⟨_, stays ▸ shown⟩, pending, owner.trans stays⟩

end Sys2Proof.Machine
end
section
/-!
SUPPORT. The calendar set, and every scheduled handover compared afresh with it (R25, R26, O18).
-/
namespace Sys2Proof.Machine

/-! ## Results of several slots -/

theorem resultByte_apart {n k : SlotId} (other : n ≠ k) {a : Nat} (h : resultByte n a) : ¬ resultByte k a := by
  have far := slotBase_far other
  unfold resultByte at *
  omega

theorem Memory.shows_of_same {m p : Memory} {n : SlotId} {r : Result} (h : m.shows n r)
    (same : ∀ a : Nat, resultByte n a → p.read8 a = m.read8 a) : p.shows n r := by
  obtain ⟨holder, code, reason, flags, values⟩ := h
  have at' (i : Nat) (hi : i < 2 ∨ (6 ≤ i ∧ i < 10) ∨ (0x32 ≤ i ∧ i < 0x3E)) : p.read8 (slotBase n + i) = m.read8 (slotBase n + i) :=
    same _ (by unfold resultByte; omega)
  refine ⟨?_, (at' 6 (by omega)).trans code, (at' 7 (by omega)).trans reason, ?_, fun i hi => ?_⟩
  · exact (Memory.read16_of_eq (at' 0 (by omega)) (at' 1 (by omega))).trans holder
  · exact (Memory.read16_of_eq (at' 8 (by omega)) (at' 9 (by omega))).trans flags
  · rw [Nat.add_assoc, at' _ (by omega), ← Nat.add_assoc]
    exact values i hi

/-- A slot's result stays through the answer of another. -/
theorem Memory.answers.shows_other {m p : Memory} {n k : SlotId} {r q : Result} (h : p.answers m k q) (other : n ≠ k) (shown : m.shows n r) :
    p.shows n r := Memory.shows_of_same shown fun a ha => h.2 a (resultByte_apart other ha)

/-! ## One handover compared with the calendar -/

/-- The scheduled handover of a channel once it has been compared with the calendar (R87). -/
def Channel.compared (r : Channel) (k : Clock) (wait : Nat) : Option Schedule := r.schedule.bind fun h =>
  if h.phase = .waiting then some h
  else if k.reached h.targetCal then
    if r.owner = h.target then none else some { h with phase := .waiting, waitDeadline := k.run + wait * 1024 }
  else if k.reached h.warnCal then some h.warned else some h

/-- The comparison finds the target reached and the owner's role the target's (R87). -/
def Channel.arrived (r : Channel) (k : Clock) : Prop :=
  ∃ h : Schedule, r.schedule = some h ∧ h.phase ≠ .waiting ∧ k.reached h.targetCal = true ∧ r.owner = h.target

section
variable {s : State} {c : ChannelId}

theorem State.compareSchedule_cases (s : State) (c : ChannelId) :
    (¬ (s.channel c).arrived s.clock ∧ s.compareSchedule c = s.rescheduled c ((s.channel c).compared s.clock s.timers.handoverWait))
      ∨ ((s.channel c).arrived s.clock ∧ (s.channel c).compared s.clock s.timers.handoverWait = none
        ∧ s.compareSchedule c = s.endSchedule c .done .noReason true 0) := by
  cases hs : (s.channel c).schedule with
  | none =>
    refine .inl ⟨?_, ?_⟩
    · rintro ⟨h, found, -⟩
      exact nomatch hs.symm.trans found
    · rw [State.compareSchedule_none hs, Channel.compared, hs, Option.bind_none, State.rescheduled_same hs]
  | some h =>
    have only : ∀ {g : Schedule}, (s.channel c).schedule = some g → g = h := fun found => (Option.some.inj (hs.symm.trans found)).symm
    have compared : (s.channel c).compared s.clock s.timers.handoverWait = _ := congrArg (fun o : Option Schedule => o.bind _) hs
    rw [Option.bind_some] at compared
    rw [State.compareSchedule_of hs, State.target_warn hs, compared]
    by_cases waiting : h.phase = .waiting
    · rw [if_pos waiting, if_pos waiting, State.rescheduled_same hs]
      refine .inl ⟨?_, rfl⟩
      rintro ⟨g, found, idle, -⟩
      exact idle (only found ▸ waiting)
    · rw [if_neg waiting, if_neg waiting, if_neg waiting]
      by_cases due : s.clock.reached h.targetCal = true
      · rw [if_pos due, if_pos due]
        by_cases stays : (s.channel c).owner = h.target
        · rw [if_pos stays, if_pos stays]
          exact .inr ⟨⟨h, hs, waiting, due, stays⟩, rfl, rfl⟩
        · rw [if_neg stays, if_neg stays]
          refine .inl ⟨?_, rfl⟩
          rintro ⟨g, found, -, -, target⟩
          exact stays (only found ▸ target)
      · rw [if_neg due, if_neg due]
        refine .inl ⟨?_, ?_⟩
        · rintro ⟨g, found, -, reached, -⟩
          exact due (only found ▸ reached)
        · by_cases warn : s.clock.reached h.warnCal = true
          · rw [if_pos warn, if_pos warn, State.warn_of hs]
          · rw [if_neg warn, if_neg warn, State.rescheduled_same hs]

theorem State.endSchedule_channels (s : State) (c : ChannelId) (code : ResultCode) (reason : Reason) (already : Bool) (k : Nat) :
    (s.endSchedule c code reason already k).channels = (s.rescheduled c none).channels := by
  rw [State.endSchedule_eq]
  exact (State.endOwner_only _ _ _) .channels (by decide)

theorem State.compareSchedule_channels (s : State) (c : ChannelId) : (s.compareSchedule c).channels
    = s.channels.set c { s.channel c with schedule := (s.channel c).compared s.clock s.timers.handoverWait } := by
  rcases s.compareSchedule_cases c with ⟨-, moved⟩ | ⟨-, gone, ended⟩
  · rw [moved]
    rfl
  · rw [ended, gone, State.endSchedule_channels]
    rfl

end

/-- What a handover's comparison does to the orders: nothing, or the end of the handover's own standing order (R87). -/
inductive State.OrderEnded (s t : State) (c : ChannelId) : Prop
  | stays (orders : t.orders = s.orders) (mem : t.mem = s.mem)
  | ended (x : Standing) (standing : s.standingOf (.handover c) = some x)
      (orders : t.orders = { s.orders with standing := s.orders.standing.filter (fun y => y.slot ≠ x.slot) })
      (answers : s.memOk → t.mem.answers s.mem x.slot { code := .done, reason := .noReason, clamped := x.clamped, already := true
                                                        values := leBytes 6 0 ++ [(s.channel c).owner.code, (s.channel c).fault.toByte] })

section
variable {s : State} {c : ChannelId}

/-- A handover's comparison, settled (R26, R87). -/
theorem State.compared_facts (s : State) (c : ChannelId) {t : State} (ht : t = (s.compareSchedule c).settleChannel s c) :
    s.onlyIn [.mem, .orders, .notices, .channels, .booths] t
      ∧ (∀ d : ChannelId, t.channel d = if d = c then
          ({ s.channel c with schedule := (s.channel c).compared s.clock s.timers.handoverWait } : Channel).closed (s.channel c) else s.channel d)
      ∧ (∀ b : BoothId, (t.booth b).litAs (s.booth b))
      ∧ s.OrderEnded t c ∧ ((s.channel c).arrived s.clock → ∀ x : Standing, s.standingOf (.handover c) = some x →
          t.orders = { s.orders with standing := s.orders.standing.filter (fun y => y.slot ≠ x.slot) }
          ∧ (s.memOk → t.mem.answers s.mem x.slot { code := .done, reason := .noReason, clamped := x.clamped, already := true
                                                    values := leBytes 6 0 ++ [(s.channel c).owner.code, (s.channel c).fault.toByte] })) := by
  have compared := s.compareSchedule_only c
  obtain ⟨only, -, -, lit, -⟩ := State.settleChannel_facts (s.compareSchedule c) s c ht
  have channels := s.compareSchedule_channels c
  have booths : ∀ b, (s.compareSchedule c).booth b = s.booth b := fun b => congrArg (fun v : Vector Booth 24 => v[b]) (compared .booths (by decide))
  have orders : t.orders = (s.compareSchedule c).orders := by rw [only]
  have mem : t.mem = (s.compareSchedule c).mem := by rw [only]
  refine ⟨?_, fun d => ?_, fun b => booths b ▸ lit b, ?_, fun arrived x standing => ?_⟩
  · rw [ht]
    exact (compared.sub (by decide)).next (State.settleChannel_only _ s c) (by decide)
  · have lamps := ((s.compareSchedule c).closeChannel s c).relampChannel_only c .channels (by decide)
    have channel : t.channel d = ((s.compareSchedule c).closeChannel s c).channel d :=
      congrArg (fun v : Vector Channel 32 => v[d]) ((congrArg State.channels ht).trans lamps)
    have own (e : ChannelId) : (s.compareSchedule c).channel e = if e = c then _ else s.channel e :=
      (congrArg (fun v : Vector Channel 32 => v[e]) channels).trans (get_set _ _ _ _)
    rw [channel, State.channel_closeChannel, own c, if_pos rfl, own d]
    split <;> rfl
  · rcases s.compareSchedule_cases c with ⟨-, moved⟩ | ⟨-, -, ended⟩
    · exact .stays (by rw [orders, moved]; rfl) (by rw [mem, moved]; rfl)
    · cases standing : s.standingOf (.handover c) with
      | none =>
        have kept : s.compareSchedule c = s.rescheduled c none := by
          rw [ended, State.endSchedule_eq]
          exact State.endOwner_of_none standing
        exact .stays (by rw [orders, kept]; rfl) (by rw [mem, kept]; rfl)
      | some x =>
        obtain ⟨-, -, list, answers, -⟩ := State.endSchedule_settled standing _ _ _ s (ended ▸ ht)
        exact .ended x standing list answers
  · rcases s.compareSchedule_cases c with ⟨no, -⟩ | ⟨-, -, ended⟩
    · exact absurd arrived no
    · obtain ⟨-, -, list, answers, -⟩ := State.endSchedule_settled standing _ _ _ s (ended ▸ ht)
      exact ⟨list, answers⟩

end

/-! ## Standing orders of several owners -/

section
variable {s t : State} {o p : StandingOwner} {x y : Standing}

theorem State.standingOf_some (h : s.standingOf o = some x) : x ∈ s.orders.standing ∧ x.owner = o :=
  ⟨List.mem_of_find?_eq_some h, by simpa using List.find?_some h⟩

/-- Two owners' standing orders are in two slots. -/
theorem State.standingOf_slots (distinct : (s.orders.standing.map (fun t => t.slot)).Nodup) (hx : s.standingOf o = some x)
    (hy : s.standingOf p = some y) (other : o ≠ p) : x.slot ≠ y.slot := fun same =>
  other ((State.standingOf_some hx).2.symm.trans ((congrArg Standing.owner
    (List.inj_on_of_nodup_map distinct (State.standingOf_some hx).1 (State.standingOf_some hy).1 same)).trans (State.standingOf_some hy).2))

/-- Another slot's end leaves an owner's standing order. -/
theorem State.standingOf_filter (hx : s.standingOf o = some x) {k : SlotId} (other : x.slot ≠ k)
    (list : t.orders.standing = s.orders.standing.filter (fun u => u.slot ≠ k)) : t.standingOf o = some x := by
  unfold State.standingOf at *
  obtain ⟨own, before, after, split, early⟩ := List.find?_eq_some_iff_append.mp hx
  rw [list, List.find?_filter]
  refine List.find?_eq_some_iff_append.mpr ⟨by simpa [other] using own, before, after, split, fun a ha => ?_⟩
  simpa using Or.inr (by simpa using early a ha)

end

/-! ## Every handover compared -/

/-- One channel's handover compared, and what follows it settled (R26). -/
def State.compareOne (s : State) (c : ChannelId) : State := (s.compareSchedule c).settleChannel s c

theorem State.compareSchedules_each (s : State) : s.compareSchedules = s.each spokenChannels State.compareOne := rfl

section
variable {s : State} {c : ChannelId} {x : Standing}

/-- Between the start of the comparison and the turn of channel `c`, whose standing order is `x`. -/
structure State.Awaits (s t : State) (c : ChannelId) (x : Standing) : Prop where
  law : t.SlotsHold none
  standing : t.standingOf (.handover c) = some x
  channel : t.channel c = s.channel c
  clock : t.clock = s.clock

/-- A standing order that has ended with the result `r` stays so. -/
structure State.Gone (t : State) (x : Standing) (r : Result) : Prop where
  law : t.SlotsHold none
  unlisted : x.slot ∉ t.orders.standing.map (fun u => u.slot)
  shows : t.mem.shows x.slot r

theorem State.compared_slots {t : State} (law : t.SlotsHold none) (d : ChannelId) : (t.compareOne d).SlotsHold none :=
  (slotsHold_keeps none).hall.settleChannel ((slotsHold_keeps none).hall.compareSchedule law d) t d

theorem State.Awaits.compare {t : State} (h : s.Awaits t c x) {d : ChannelId} (other : d ≠ c) :
    s.Awaits (t.compareOne d) c x := by
  obtain ⟨only, channel, -, ended, -⟩ := State.compared_facts t d (t := t.compareOne d) rfl
  refine ⟨State.compared_slots h.law d, ?_, (channel c).trans ((if_neg (Ne.symm other)).trans h.channel), (only .clock (by decide)).trans h.clock⟩
  rcases ended with ⟨orders, -⟩ | ⟨y, standing, orders, -⟩
  · exact (congrArg (fun o : Orders => o.standing.find? _) orders).trans h.standing
  · refine State.standingOf_filter h.standing ?_ (congrArg Orders.standing orders)
    exact State.standingOf_slots h.law.standingNodup h.standing standing (fun e => other (StandingOwner.handover.inj e).symm)

theorem State.Gone.compare {t : State} {r : Result} (h : t.Gone x r) (d : ChannelId) : (t.compareOne d).Gone x r := by
  obtain ⟨-, -, -, ended, -⟩ := State.compared_facts t d (t := t.compareOne d) rfl
  have law := State.compared_slots h.law d
  rcases ended with ⟨orders, mem⟩ | ⟨y, standing, orders, answers⟩
  · exact ⟨law, by rw [orders]; exact h.unlisted, by rw [mem]; exact h.shows⟩
  · refine ⟨law, ?_, (answers h.law.mem).shows_other ?_ h.shows⟩
    · rw [orders]
      exact fun listed => h.unlisted ((List.filter_sublist.map _).subset listed)
    · exact fun same => h.unlisted (same ▸ List.mem_map_of_mem (State.standingOf_some standing).1)

theorem spokenChannels_nodup : spokenChannels.Nodup := (List.nodup_finRange 32).sublist (List.drop_sublist 1 _)

theorem mem_spokenChannels (real : c ≠ 0) : c ∈ spokenChannels := by
  have listed : c ∈ List.finRange 32 := List.mem_finRange c
  rw [show List.finRange 32 = 0 :: spokenChannels from rfl] at listed
  exact (List.mem_cons.mp listed).resolve_left real

/-- What the comparison makes of one channel (R26, R87). -/
theorem State.compareSchedules_channel (s : State) (real : c ≠ 0) : s.compareSchedules.channel c =
    ({ s.channel c with schedule := (s.channel c).compared s.clock s.timers.handoverWait } : Channel).closed (s.channel c) := by
  have each := State.each_get (I := fun t => t.clock = s.clock ∧ t.timers = s.timers) State.channel s.channel (fun d =>
    ({ s.channel d with schedule := (s.channel d).compared s.clock s.timers.handoverWait } : Channel).closed (s.channel d))
    (f := fun t d => (t.compareSchedule d).settleChannel t d) (fun t d ⟨clock, timers⟩ => ?_) (fun t d e _ other => ?_)
    (fun t d ⟨clock, timers⟩ start => ?_) spokenChannels_nodup ⟨rfl, rfl⟩ (fun _ => rfl) c
  · exact each.trans (if_pos (mem_spokenChannels real))
  · have only := (State.compared_facts t d (t := t.compareOne d) rfl).1
    exact ⟨(only .clock (by decide)).trans clock, (only .timers (by decide)).trans timers⟩
  · exact ((State.compared_facts t e (t := t.compareOne e) rfl).2.1 d).trans (if_neg other)
  · refine ((State.compared_facts t d (t := t.compareOne d) rfl).2.1 d).trans ((if_pos rfl).trans ?_)
    rw [start, clock, timers]

/-- The standing order of a handover whose owner holds the role already is done ALREADY (R87). -/
theorem State.compareSchedules_ended (law : s.SlotsHold none) (real : c ≠ 0) (arrived : (s.channel c).arrived s.clock)
    (standing : s.standingOf (.handover c) = some x) : s.compareSchedules.Gone x
      { code := .done, reason := .noReason, clamped := x.clamped, already := true
        values := leBytes 6 0 ++ [(s.channel c).owner.code, (s.channel c).fault.toByte] } := by
  obtain ⟨before, after, split⟩ := List.append_of_mem (mem_spokenChannels real)
  have distinct := List.nodup_middle.mp (split ▸ spokenChannels_nodup)
  have fresh : ∀ d ∈ before, d ≠ c := fun d hd e => (List.nodup_cons.mp distinct).1 (e ▸ List.mem_append_left _ hd)
  rw [State.compareSchedules_each, split, State.each, List.foldl_append, List.foldl_cons]
  have waits : s.Awaits (s.each before State.compareOne) c x :=
    State.each_induct (P := fun t => s.Awaits t c x) (fun t d hd h => h.compare (fresh d hd)) ⟨law, standing, rfl, rfl⟩
  change State.Gone (State.each ((s.each before State.compareOne).compareOne c) after State.compareOne) x _
  generalize s.each before _ = t at waits ⊢
  refine State.each_induct (P := fun t => t.Gone x _) (fun u d _ h => h.compare d) ?_
  obtain ⟨-, -, -, -, ends⟩ := State.compared_facts t c (t := t.compareOne c) rfl
  rw [waits.channel, waits.clock] at ends
  obtain ⟨orders, answers⟩ := ends arrived x waits.standing
  refine ⟨State.compared_slots waits.law c, ?_, (answers waits.law.mem).1⟩
  rw [orders]
  rintro listed
  obtain ⟨y, hy, same⟩ := List.mem_map.mp listed
  exact absurd same (by simpa using (List.mem_filter.mp hy).2)

end

/-! ## The comparison beside an order -/

section
variable {n : SlotId} {rest : List SlotId} {s t : State}

theorem State.Beside.each {ι : Type} {f : State → ι → State} (step : ∀ (x y : State) (i : ι), x.Beside n rest y → (f x i).Beside n rest (f y i)) :
    ∀ (l : List ι) {s t : State}, s.Beside n rest t → (s.each l f).Beside n rest (t.each l f)
  | [], _, _, h => h
  | i :: l, s, t, h => State.Beside.each step l (step s t i h)

theorem State.Beside.endOwner (h : s.Beside n rest t) (o : StandingOwner) (r : Result) : (s.endOwner o r).Beside n rest (t.endOwner o r) := by
  have standing : t.standingOf o = s.standingOf o := h.same (fun u => u.standingOf o) (fun _ => rfl)
  cases hx : s.standingOf o with
  | none => rwa [State.endOwner_of_none hx, State.endOwner_of_none (standing.trans hx)]
  | some x =>
    rw [State.endOwner_of_some hx, State.endOwner_of_some (standing.trans hx)]
    exact (h.map (f := fun u => ({ u with orders := { u.orders with standing := u.orders.standing.filter (fun y => y.slot ≠ x.slot) } } : State))
      (fun _ => rfl) rfl).complete x.slot { r with clamped := x.clamped }

theorem State.Beside.rescheduled (h : s.Beside n rest t) (c : ChannelId) (x : Option Schedule) :
    (s.rescheduled c x).Beside n rest (t.rescheduled c x) := h.map (f := fun u => u.rescheduled c x) (fun _ => rfl) rfl

theorem State.Beside.endSchedule (h : s.Beside n rest t) (c : ChannelId) (code : ResultCode) (reason : Reason) (already : Bool) (k : Nat) :
    (s.endSchedule c code reason already k).Beside n rest (t.endSchedule c code reason already k) := by
  rw [State.endSchedule_eq, State.endSchedule_eq, h.same (fun u => u.channel c) (fun _ => rfl)]
  exact (h.rescheduled c none).endOwner _ _

theorem State.Beside.settleChannel (h : s.Beside n rest t) {o p : State} (old : p.channel c = o.channel c) :
    (s.settleChannel o c).Beside n rest (t.settleChannel p c) := by
  have closed : t.settleChannel p c = t.settleChannel o c := by
    unfold State.settleChannel State.closeChannel
    rw [show p.channels[c] = o.channels[c] from old]
  rw [closed]
  refine h.map (f := fun u => u.settleChannel o c) (fun m => ?_) ((State.settleChannel_only s o c) .mem (by decide))
  exact State.relampChannel_taken (s.closeChannel o c) c m rest

theorem State.Beside.compareOne (h : s.Beside n rest t) (c : ChannelId) : (s.compareOne c).Beside n rest (t.compareOne c) := by
  have channel : t.channel c = s.channel c := h.same (fun u => u.channel c) (fun _ => rfl)
  have clock : t.clock = s.clock := h.same (fun u => u.clock) (fun _ => rfl)
  have timers : t.timers = s.timers := h.same (fun u => u.timers) (fun _ => rfl)
  refine State.Beside.settleChannel ?_ channel
  have other := t.compareSchedule_cases c
  rw [channel, clock, timers] at other
  rcases s.compareSchedule_cases c with ⟨no, moved⟩ | ⟨yes, -, ended⟩
  · rw [moved, (other.resolve_right (fun x => no x.1)).2]
    exact h.rescheduled c _
  · rw [ended, (other.resolve_left (fun x => x.1 yes)).2.2]
    exact h.endSchedule c _ _ _ _

end

/-! ## The marks of SET_CLOCK -/

/-- A console's turn marked (R26). -/
def ConsoleRec.marked (r : ConsoleRec) : ConsoleRec := if r.turnOpen then { r with clockSet := true } else r

/-- A hire marked (R26). -/
def Hire.marked (r : Hire) : Hire := { r with clockSet := true }

/-- A booth whose open turns are marked (R26). -/
def Booth.marked (r : Booth) : Booth := { r with cons := { r.cons with each := r.cons.each.map ConsoleRec.marked } }

/-- The open hires marked. -/
def State.hiresMarked (s : State) : State :=
  s.each (tblAll s.hires (fun r => r.state == .opened)) (fun s h => s.writeHire h Hire.marked)

/-- The open turns marked. -/
def State.turnsMarked (s : State) : State := s.each boothList (fun s b => s.rewriteBooth b Booth.marked)

theorem State.markClockSet_eq (s : State) : s.markClockSet = s.hiresMarked.turnsMarked := rfl

section
variable {s : State}

theorem State.turnsMarked_hires (s : State) : s.turnsMarked.hires = s.hires :=
  State.each_keeps State.hires (f := fun s b => s.rewriteBooth b Booth.marked) (fun _ _ _ => rfl) s

theorem State.hiresMarked_booths (s : State) : s.hiresMarked.booths = s.booths :=
  State.each_keeps State.booths (f := fun s h => s.writeHire h Hire.marked) (fun _ _ _ => rfl) s

theorem State.markClockSet_hire (s : State) (h : HireId) :
    (s.markClockSet.hire h).clockSet = ((s.hire h).clockSet || (s.hire h).state == .opened) := by
  have booths : s.markClockSet.hire h = s.hiresMarked.hire h := congrArg (fun v : Vector Hire _ => v[h]) s.hiresMarked.turnsMarked_hires
  have hires := State.each_get (I := fun _ => True) State.hire s.hire (fun k => (s.hire k).marked.bump)
    (f := fun s h => s.writeHire h Hire.marked) (fun _ _ _ => trivial)
    (fun t i j _ other => (t.hire_writeHire j i _).trans (if_neg other))
    (fun t i _ start => ((t.hire_writeHire i i _).trans (if_pos rfl)).trans (by rw [start]))
    (l := tblAll s.hires (fun r => r.state == .opened)) (tblAll_nodup _ _) (s := s) trivial (fun _ => rfl) h
  change s.hiresMarked.hire h = _ at hires
  rw [booths, hires, if_congr (mem_tblAll s.hires (fun r => r.state == .opened) h) rfl rfl]
  change Hire.clockSet (if ((s.hire h).state == .opened) = true then _ else _) = _
  cases (s.hire h).state == .opened
  · rw [if_neg Bool.false_ne_true, Bool.or_false]
  · rw [if_pos rfl, Bool.or_true]
    rfl

theorem State.markClockSet_console (s : State) (b : BoothId) (k : ConsoleId) : ((s.markClockSet.booth b).cons.console k).clockSet =
    (((s.booth b).cons.console k).clockSet || ((s.booth b).cons.console k).turnOpen) := by
  have hires : s.hiresMarked.booth = s.booth := congrArg (fun v : Vector Booth 24 => fun d : BoothId => v[d]) s.hiresMarked_booths
  have booths := State.each_get (I := fun _ => True) State.booth s.hiresMarked.booth (fun d => rewritten Booth.bump Booth.marked (s.booth d))
    (f := fun s b => s.rewriteBooth b Booth.marked) (fun _ _ _ => trivial)
    (fun t i j _ other => (t.booth_rewriteBooth j i _).trans (if_neg other))
    (fun t i _ start => ((t.booth_rewriteBooth i i _).trans (if_pos rfl)).trans (by rw [start, hires]))
    (l := boothList) (List.nodup_finRange 24) (s := s.hiresMarked) trivial (fun _ => rfl) b
  rw [if_pos (show b ∈ boothList from List.mem_finRange b)] at booths
  change (s.markClockSet).booth b = _ at booths
  have written : ∀ q : Booth, q.marked.cons.console k = (q.cons.console k).marked := fun q => Vector.getElem_map _ _
  have marked : ((rewritten Booth.bump Booth.marked (s.booth b)).cons.console k) = ((s.booth b).cons.console k).marked := by
    rcases rewritten_or Booth.bump Booth.marked (s.booth b) with e | e
    · rw [e, written]
    · rw [e]
      exact written _
  refine (congrArg (fun q : Booth => (q.cons.console k).clockSet) booths).trans ((congrArg ConsoleRec.clockSet marked).trans ?_)
  unfold ConsoleRec.marked
  cases ((s.booth b).cons.console k).turnOpen
  · rw [if_neg Bool.false_ne_true, Bool.or_false]
  · rw [if_pos rfl, Bool.or_true]

theorem State.Beside.markClockSet {n : SlotId} {rest : List SlotId} {t : State} (h : s.Beside n rest t) : s.markClockSet.Beside n rest t.markClockSet := by
  rw [State.markClockSet_eq, State.markClockSet_eq, State.hiresMarked, State.hiresMarked, h.same (fun u => u.hires) (fun _ => rfl)]
  exact State.Beside.each (fun x y b g => g.map (f := fun u => u.rewriteBooth b _) (fun _ => rfl) rfl) _
    (State.Beside.each (fun x y k g => g.map (f := fun u => u.writeHire k _) (fun _ => rfl) rfl) _ h)

end

/-! ## SET_CLOCK -/

/-- What SET_CLOCK leaves, the calendar set to `k` calendar ticks (R25, R26, R29). -/
def State.clockSet (s : State) (k : Nat) : State :=
  (if s.clock.valid then (s.setCalendar k).markClockSet.compareSchedules.raise .clock else s.setCalendar k).snapshot

section
variable {s : State} {k : Nat}

theorem workSetClock_eq (s : State) (n : SlotId) : workSetClock s n =
    (s.clockSet (s.paramLE n 0 4 * 1024 + min 1023 (s.paramLE n 4 2)), some (Result.doneClamped (decide (1023 < s.paramLE n 4 2))
      (leBytes 6 s.clock.run ++ ((s.clock.calendarAt s.clock.run).getD Stamp.zero).bytes))) := by
  have fraction : clampTo 0 1023 (s.paramLE n 4 2) = (min 1023 (s.paramLE n 4 2), decide (1023 < s.paramLE n 4 2)) := by
    refine Prod.ext ((clampTo_fst (by omega) _).trans (Nat.zero_max _)) ((clampTo_snd (by omega) _).trans ?_)
    rw [clampTo_fst (by omega), decide_eq_decide]
    omega
  unfold workSetClock
  rw [fraction]
  rfl

theorem State.Beside.clockSet {n : SlotId} {rest : List SlotId} {t : State} (h : s.Beside n rest t) (k : Nat) :
    (s.clockSet k).Beside n rest (t.clockSet k) := by
  have set : (s.setCalendar k).Beside n rest (t.setCalendar k) := h.map (f := fun u => u.setCalendar k) (fun _ => rfl) rfl
  have moved : (s.setCalendar k).markClockSet.compareSchedules.Beside n rest (t.setCalendar k).markClockSet.compareSchedules :=
    State.Beside.each (f := State.compareOne) (fun _ _ c g => g.compareOne c) spokenChannels set.markClockSet
  unfold State.clockSet
  rw [h.same (fun u => u.clock) (fun _ => rfl)]
  refine State.Beside.map (f := State.snapshot) ?_ (fun _ => rfl) rfl
  split
  · exact moved.raise .clock
  · exact set

theorem State.clockSet_clock (s : State) (k : Nat) : (s.clockSet k).clock = (s.setCalendar k).clock := by
  unfold State.clockSet
  split
  · have marked := (s.setCalendar k).markClockSet_only .clock (by decide)
    have compared : (s.setCalendar k).markClockSet.compareSchedules.clock = (s.setCalendar k).markClockSet.clock :=
      (s.setCalendar k).markClockSet.compareSchedules_only .clock (by decide)
    rw [marked] at compared
    generalize (s.setCalendar k).markClockSet.compareSchedules = u at compared ⊢
    exact compared
  · rfl

theorem State.setCalendar_reads (s : State) {seconds fraction : Nat} (hs : seconds < 2 ^ 32) (hf : fraction < 1024) :
    (s.setCalendar (seconds * 1024 + fraction)).clock.calendarAt s.clock.run = some { seconds := seconds, fraction := fraction } := by
  have sum : (s.clock.run : Int) + (((seconds * 1024 + fraction : Nat) : Int) - s.clock.run) = ((seconds * 1024 + fraction : Nat) : Int) := by omega
  have forward : ¬ (true = false ∨ ((seconds * 1024 + fraction : Nat) : Int) < 0) := by
    rintro (h | h)
    · exact Bool.false_ne_true h.symm
    · omega
  have reads : (s.setCalendar (seconds * 1024 + fraction)).clock.calendarAt s.clock.run =
    if true = false ∨ (s.clock.run : Int) + (((seconds * 1024 + fraction : Nat) : Int) - s.clock.run) < 0 then none
    else some (Stamp.mk (((s.clock.run : Int) + (((seconds * 1024 + fraction : Nat) : Int) - s.clock.run)).toNat / 1024 % 2 ^ 32)
      (((s.clock.run : Int) + (((seconds * 1024 + fraction : Nat) : Int) - s.clock.run)).toNat % 1024)) := rfl
  rw [reads]
  rw [sum, Int.toNat_natCast, if_neg forward, show (seconds * 1024 + fraction) / 1024 = seconds by omega,
    show (seconds * 1024 + fraction) % 1024 = fraction by omega, Nat.mod_eq_of_lt hs]

theorem State.clockSet_snapshot (s : State) (k : Nat) : (s.clockSet k).header.snapTicks = s.clock.run
    ∧ (s.clockSet k).header.snapSeconds = (((s.setCalendar k).clock.calendarAt s.clock.run).getD Stamp.zero).seconds
    ∧ (s.clockSet k).header.snapFraction = (((s.setCalendar k).clock.calendarAt s.clock.run).getD Stamp.zero).fraction := by
  have clock := s.clockSet_clock k
  unfold State.clockSet at *
  generalize (if s.clock.valid then (s.setCalendar k).markClockSet.compareSchedules.raise .clock else s.setCalendar k) = u at clock ⊢
  change u.clock = _ at clock
  refine ⟨(congrArg Clock.run clock).trans rfl, ?_, ?_⟩
  · show ((u.clock.calendarAt u.clock.run).getD Stamp.zero).seconds = _
    rw [clock]
    rfl
  · show ((u.clock.calendarAt u.clock.run).getD Stamp.zero).fraction = _
    rw [clock]
    rfl

theorem State.clockSet_valid (valid : s.clock.valid = true) (k : Nat) :
    s.clockSet k = ((s.setCalendar k).markClockSet.compareSchedules.raise .clock).snapshot := by
  unfold State.clockSet
  rw [if_pos valid]

/-- What SET_CLOCK does to one channel's handover on a valid clock (R26, R87). -/
theorem State.clockSet_channel (valid : s.clock.valid = true) (k : Nat) {c : ChannelId} (real : c ≠ 0) : (s.clockSet k).channel c =
    ({ s.channel c with schedule := (s.channel c).compared (s.clockSet k).clock s.timers.handoverWait } : Channel).closed (s.channel c) := by
  have marked := (s.setCalendar k).markClockSet_only
  have channel : (s.setCalendar k).markClockSet.channel c = s.channel c :=
    congrArg (fun v : Vector Channel 32 => v[c]) (marked .channels (by decide))
  rw [s.clockSet_clock k, s.clockSet_valid valid k, ← channel, ← show (s.setCalendar k).markClockSet.clock = _ from marked .clock (by decide),
    ← show (s.setCalendar k).markClockSet.timers = s.timers from marked .timers (by decide)]
  have compared := State.compareSchedules_channel (s.setCalendar k).markClockSet real
  generalize (s.setCalendar k).markClockSet.compareSchedules = u at compared ⊢
  exact compared

theorem State.clockSet_ended (valid : s.clock.valid = true) (law : s.slotsOk) (k : Nat) {c : ChannelId} (real : c ≠ 0)
    (arrived : (s.channel c).arrived (s.clockSet k).clock) {x : Standing} (standing : s.standingOf (.handover c) = some x) :
    x ∉ (s.clockSet k).orders.standing
      ∧ (s.clockSet k).mem.shows x.slot { code := .done, reason := .noReason, clamped := x.clamped, already := true
                                          values := leBytes 6 0 ++ [(s.channel c).owner.code, (s.channel c).fault.toByte] } := by
  have marked := (s.setCalendar k).markClockSet_only
  have channel : (s.setCalendar k).markClockSet.channel c = s.channel c :=
    congrArg (fun v : Vector Channel 32 => v[c]) (marked .channels (by decide))
  have held : (s.setCalendar k).markClockSet.SlotsHold none :=
    (slotsHold_reads none).frame marked (by decide) ((slotsHold_reads none).frame (s.clock_only _) (by decide) (State.slotsHold_none.mpr law))
  rw [s.clockSet_clock k, ← channel, ← show (s.setCalendar k).markClockSet.clock = _ from marked .clock (by decide)] at arrived
  have listed : (s.setCalendar k).markClockSet.standingOf (.handover c) = some x :=
    (congrArg (fun o : Orders => o.standing.find? _) (marked .orders (by decide))).trans standing
  obtain ⟨-, unlisted, shows⟩ := State.compareSchedules_ended held real arrived listed
  rw [s.clockSet_valid valid k, ← channel]
  generalize (s.setCalendar k).markClockSet.compareSchedules = u at unlisted shows ⊢
  exact ⟨fun h => unlisted (List.mem_map_of_mem h), shows⟩

end

theorem Channel.compared_of {r : Channel} {h : Schedule} (k : Clock) (wait : Nat) (standing : r.schedule = some h) : r.compared k wait =
    if h.phase = .waiting then some h
    else if k.reached h.targetCal then
      if r.owner = h.target then none else some { h with phase := .waiting, waitDeadline := k.run + wait * 1024 }
    else if k.reached h.warnCal then some h.warned else some h := by
  unfold Channel.compared
  rw [standing, Option.bind_some]

theorem Channel.closed_same (r : Channel) : ({ r with schedule := r.schedule } : Channel).closed r = r := if_pos rfl

theorem State.compareSchedules_booth (s : State) (b : BoothId) : (s.compareSchedules.booth b).litAs (s.booth b) := by
  rw [State.compareSchedules_each]
  exact State.each_induct (P := fun t => (t.booth b).litAs (s.booth b))
    (fun t c _ h => ((State.compared_facts t c (t := t.compareOne c) rfl).2.2.1 b).trans h) (Booth.litAs_refl _)

theorem State.clockSet_marks {s : State} (valid : s.clock.valid = true) (k : Nat) : (s.clockSet k).isPending .clock = true
    ∧ (∀ h : HireId, ((s.clockSet k).hire h).clockSet = ((s.hire h).clockSet || (s.hire h).state == .opened))
    ∧ ∀ (b : BoothId) (n : ConsoleId), (((s.clockSet k).booth b).cons.console n).clockSet =
        (((s.booth b).cons.console n).clockSet || ((s.booth b).cons.console n).turnOpen) := by
  have hires : (s.setCalendar k).markClockSet.compareSchedules.hires = (s.setCalendar k).markClockSet.hires :=
    (s.setCalendar k).markClockSet.compareSchedules_only .hires (by decide)
  have lit := (s.setCalendar k).markClockSet.compareSchedules_booth
  have hire := (s.setCalendar k).markClockSet_hire
  have console := (s.setCalendar k).markClockSet_console
  rw [s.clockSet_valid valid k]
  generalize (s.setCalendar k).markClockSet.compareSchedules = u at hires lit ⊢
  generalize (s.setCalendar k).markClockSet = v at hires lit hire console
  refine ⟨u.raise_isPending .clock, fun h => ?_, fun b n => ?_⟩
  · exact (congrArg (fun x : Vector Hire _ => (x[h]).clockSet) hires).trans (hire h)
  · obtain ⟨x, z, record, each⟩ := lit b
    refine Eq.trans ?_ (console b n)
    show ((u.booth b).cons.console n).clockSet = _
    rw [record]
    obtain ⟨l, e⟩ := each n
    exact (congrArg ConsoleRec.clockSet e).trans rfl

/-- Settles O18. -/
theorem clockSet : Obligations.ClockSet := by
  intro s n rest h
  have seconds : s.paramLE n 0 4 < 2 ^ 32 := lt_of_lt_of_eq (s.paramLE_lt n 0 4) (by norm_num)
  have clamped : min 1023 (s.paramLE n 4 2) < 1024 := by omega
  refine ⟨s.clockSet (s.paramLE n 0 4 * 1024 + min 1023 (s.paramLE n 4 2)), ?_, ?_⟩
  · obtain ⟨-, m, taken, e⟩ := h.beside
    refine State.completes_beside h (State.takes_kind h) rfl ?_ (h.beside.clockSet _)
    rw [e, workSetClock_eq, taken.paramLE rest (by omega), taken.paramLE rest (by omega)]
    rfl
  · have clock := s.clockSet_clock (s.paramLE n 0 4 * 1024 + min 1023 (s.paramLE n 4 2))
    have reads := s.setCalendar_reads seconds clamped
    obtain ⟨snapTicks, snapSeconds, snapFraction⟩ := s.clockSet_snapshot (s.paramLE n 0 4 * 1024 + min 1023 (s.paramLE n 4 2))
    rw [reads] at snapSeconds snapFraction
    generalize s.paramLE n 0 4 * 1024 + min 1023 (s.paramLE n 4 2) = k at *
    refine ⟨by rw [clock]; rfl, by rw [clock]; rfl, by rw [clock]; exact reads, snapTicks, snapSeconds, snapFraction, fun unset => ?_, fun valid => ?_⟩
    · unfold State.clockSet
      rw [unset]
      rfl
    · obtain ⟨pending, hires, consoles⟩ := State.clockSet_marks valid k
      have run : (s.clockSet k).clock.run = s.clock.run := by rw [clock]; rfl
      refine ⟨pending, hires, consoles, fun law c real => ?_, ?_⟩
      · have channel := State.clockSet_channel valid k real
        have ended := fun arrived x standing => State.clockSet_ended valid law k real arrived (x := x) standing
        generalize s.clockSet k = u at channel ended run ⊢
        intro old new
        change new = _ at channel
        have kept : old.compared u.clock s.timers.handoverWait = old.schedule → new = old := fun same => by
          rw [channel, same]
          exact old.closed_same
        have moved : new.schedule = old.compared u.clock s.timers.handoverWait := by
          obtain ⟨x, e⟩ := ({ old with schedule := old.compared u.clock s.timers.handoverWait } : Channel).closed_eq old
          rw [channel]
          exact congrArg Channel.schedule e
        refine ⟨?_, fun bare => kept ?_, fun h standing => ?_⟩
        · obtain ⟨x, e⟩ := ({ old with schedule := old.compared u.clock s.timers.handoverWait } : Channel).closed_eq old
          rw [moved, channel, e]
        · rw [Channel.compared, bare, Option.bind_none]
        · have compared := Channel.compared_of u.clock s.timers.handoverWait standing
          intro warn due
          refine ⟨fun idle => kept ?_, fun active early warned => ?_, fun active late moves => ?_, fun active late stays => ⟨?_, fun x listed => ?_⟩⟩
          · rw [compared, standing]
            rcases idle with waiting | ⟨early, quiet⟩
            · exact if_pos waiting
            · by_cases waiting : h.phase = .waiting
              · exact if_pos waiting
              · rw [if_neg waiting, if_neg early, if_neg quiet]
          · rw [moved, compared, if_neg active, if_neg early, if_pos warned, Schedule.warned]
            cases phase : h.phase with
            | planned => rfl
            | warned => rfl
            | waiting => exact absurd phase active
          · rw [moved, compared, if_neg active, if_pos late, if_neg moves, run]
          · rw [moved, compared, if_neg active, if_pos late, if_pos stays]
          · exact ended ⟨h, standing, active, late, stays⟩ x listed
      · have marked := (s.setCalendar k).markClockSet_only
        have compared := (s.setCalendar k).markClockSet.compareSchedules_only
        rw [s.clockSet_valid valid k]
        generalize (s.setCalendar k).markClockSet.compareSchedules = u at compared ⊢
        generalize (s.setCalendar k).markClockSet = v at marked compared
        exact ⟨(compared .accounts (by decide)).trans (marked .accounts (by decide)),
          (compared .receivers (by decide)).trans (marked .receivers (by decide)),
          (compared .positions (by decide)).trans (marked .positions (by decide)),
          (compared .timers (by decide)).trans (marked .timers (by decide)), (compared .log (by decide)).trans (marked .log (by decide))⟩

end Sys2Proof.Machine
end

section
/-!
SUPPORT. Reservations that end without opening (R125), and CANCEL (R10, O16).
-/
namespace Sys2Proof.Machine

/-! ## The end of a reservation -/

section
variable {s : State}

/-- A position record with another's state, entry and counts: only its lamp may differ. -/
def Position.litAs (r q : Position) : Prop := ∃ (x : DockLamp) (y : Half), r = { q with lamp := x, changes := y }

theorem Position.litAs_refl (r : Position) : r.litAs r := ⟨_, _, rfl⟩

theorem Position.litAs.trans {r q p : Position} (h : r.litAs q) (g : q.litAs p) : r.litAs p := by
  obtain ⟨x, y, rfl⟩ := h
  obtain ⟨z, w, rfl⟩ := g
  exact ⟨x, y, rfl⟩

theorem Position.litAs.state {r q : Position} (h : r.litAs q) : r.state = q.state := by
  obtain ⟨x, y, rfl⟩ := h
  rfl

theorem Position.litAs.entry {r q : Position} (h : r.litAs q) : r.entry = q.entry := by
  obtain ⟨x, y, rfl⟩ := h
  rfl

theorem Position.rewritten_litAs (r : Position) (x : DockLamp) : (rewritten Position.bump (fun q => { q with lamp := x }) r).litAs r := by
  rcases rewritten_or Position.bump (fun q => { q with lamp := x }) r with e | e
  · rw [e]
    exact ⟨_, _, rfl⟩
  · rw [e]
    exact ⟨_, _, rfl⟩

theorem State.relampHolder_litAs (e : RecvId) (p : PosId) : ((s.relampHolder e).position p).litAs (s.position p) := by
  rw [State.relampHolder_position]
  split
  · exact Position.rewritten_litAs (s.position p) _
  · exact Position.litAs_refl _

/-- A reservation taken back: what its end does but for the standing order (R125). -/
def State.released (s : State) (h : HireId) : State :=
  let r := s.hire h
  ((((s.updAccount r.account (fun a => a.release r.hold)).withdrawPreset r.receiver).writeReceiver r.receiver
    (fun e => { e with state := .docked, hire := none })).relampHolder r.receiver).writeHire h (fun x => { x with state := .free })

theorem State.dropReservation_eq (s : State) (h : HireId) (x : ResultCode) (y : Reason) :
    s.dropReservation h x y = (s.released h).endOwner (.issue h) ((s.released h).issueResult h x y) := rfl

variable {h : HireId}

theorem State.withdrawPreset_eq (s : State) (e : RecvId) : s.withdrawPreset e = { s with presets := (s.withdrawPreset e).presets } := by
  unfold State.withdrawPreset
  split <;> rfl

theorem State.relampHolder_eq (s : State) (e : RecvId) : s.relampHolder e = { s with positions := (s.relampHolder e).positions } := by
  unfold State.relampHolder
  split <;> rfl

theorem State.released_eq (s : State) (h : HireId) : s.released h = { s with
    accounts := s.accounts.set (s.hire h).account ((s.account (s.hire h).account).release (s.hire h).hold)
    receivers := s.receivers.set (s.hire h).receiver ({ s.receiver (s.hire h).receiver with state := .docked, hire := none } : Receiver).bump
    hires := s.hires.set h ({ s.hire h with state := .free } : Hire).bump
    presets := (s.released h).presets, positions := (s.released h).positions } := by
  unfold State.released
  dsimp only
  rw [State.withdrawPreset_eq, State.relampHolder_eq]
  rfl

theorem State.released_hire (k : HireId) : (s.released h).hire k =
    if k = h then ({ s.hire h with state := .free } : Hire).bump else s.hire k := by
  rw [State.released_eq]
  exact get_set _ _ _ _

theorem State.released_receiver (e : RecvId) : (s.released h).receiver e = if e = (s.hire h).receiver
    then ({ s.receiver (s.hire h).receiver with state := .docked, hire := none } : Receiver).bump else s.receiver e := by
  rw [State.released_eq]
  exact get_set _ _ _ _

theorem State.released_account (a : AcctId) : (s.released h).account a = if a = (s.hire h).account
    then (s.account (s.hire h).account).release (s.hire h).hold else s.account a := by
  rw [State.released_eq]
  exact get_set _ _ _ _

theorem State.released_position (p : PosId) : ((s.released h).position p).litAs (s.position p) := by
  unfold State.released
  dsimp only
  show (((State.writeReceiver _ _ _).relampHolder _).position p).litAs _
  rw [State.withdrawPreset_eq]
  exact State.relampHolder_litAs _ p

/-! ## A reservation ended, and its account's bracket closed -/

theorem State.endOwner_same (s : State) (o : StandingOwner) (r : Result) :
    s.endOwner o r = { s with mem := (s.endOwner o r).mem, orders := (s.endOwner o r).orders, notices := (s.endOwner o r).notices } := by
  unfold State.endOwner
  split <;> rfl

theorem State.dropReservation_same (s : State) (h : HireId) (x : ResultCode) (y : Reason) : s.dropReservation h x y = { s.released h with
    mem := (s.dropReservation h x y).mem, orders := (s.dropReservation h x y).orders, notices := (s.dropReservation h x y).notices } := by
  rw [State.dropReservation_eq]
  exact State.endOwner_same _ _ _

theorem State.endReservation_same (s : State) (h : HireId) (x : ResultCode) (y : Reason) : s.endReservation h x y = { s.released h with
    mem := (s.dropReservation h x y).mem, orders := (s.dropReservation h x y).orders, notices := (s.dropReservation h x y).notices
    accounts := (s.endReservation h x y).accounts } := by
  have closed (w o : State) (a : AcctId) : w.closeAccount o a = { w with accounts := (w.closeAccount o a).accounts } := rfl
  exact (closed _ _ _).trans (congrArg (fun w : State => { w with accounts := (s.endReservation h x y).accounts }) (s.dropReservation_same h x y))

/-- The account of a reservation that has ended (R125). -/
theorem State.endReservation_account (s : State) (h : HireId) (x : ResultCode) (y : Reason) (a : AcctId) :
    (s.endReservation h x y).account a = if a = (s.hire h).account
      then (if (s.account a).release (s.hire h).hold = s.account a then s.account a else ((s.account a).release (s.hire h).hold).bump)
      else s.account a := by
  have dropped (b : AcctId) : (s.dropReservation h x y).account b = (s.released h).account b := by rw [State.dropReservation_same]
  refine (State.account_closeAccount (s.dropReservation h x y) s (s.hire h).account a).trans ?_
  rw [dropped, dropped, State.released_account, State.released_account, if_pos rfl]
  by_cases own : a = (s.hire h).account
  · subst own
    rw [if_pos rfl, if_pos rfl]
    split
    · assumption
    · rfl
  · rw [if_neg own, if_neg own, if_neg own]

/-- The standing ISSUE of a reservation that has ended (R125). -/
theorem State.dropReservation_standing {u : Standing} (standing : s.standingOf (.issue h) = some u) (x : ResultCode) (y : Reason) :
    (s.dropReservation h x y).orders = { s.orders with standing := s.orders.standing.filter (fun z => z.slot ≠ u.slot) }
      ∧ (s.memOk → (s.dropReservation h x y).memOk
        ∧ (s.dropReservation h x y).mem.answers s.mem u.slot { (s.released h).issueResult h x y with clamped := u.clamped }) := by
  have same := State.released_eq s h
  have orders : (s.released h).orders = s.orders := by rw [same]
  have mem : (s.released h).mem = s.mem := by rw [same]
  have listed : (s.released h).standingOf (.issue h) = some u := by
    rw [State.standingOf, orders]
    exact standing
  rw [State.dropReservation_eq, State.endOwner_of_some listed]
  obtain ⟨ended, answers⟩ := (s.released h).endStanding_facts u ((s.released h).issueResult h x y)
  refine ⟨?_, fun law => ⟨?_, ?_⟩⟩
  · rw [ended, orders]
  · exact State.complete_wf _ _ _ (show (s.released h).mem.wf = true from mem ▸ law)
  · rw [← mem]
    exact answers (show (s.released h).mem.wf = true from mem ▸ law)

/-- A reservation that has ended: its hire is free, its receiver docked, its account without the hold (R125). -/
theorem State.endReservation_ended (s : State) (h : HireId) (x : ResultCode) (y : Reason) :
    ((s.endReservation h x y).hire h).state = .free ∧ ((s.endReservation h x y).receiver (s.hire h).receiver).state = .docked
      ∧ ((s.endReservation h x y).account (s.hire h).account).holds = (s.account (s.hire h).account).holds - (s.hire h).hold := by
  have same := s.endReservation_same h x y
  refine ⟨?_, ?_, ?_⟩
  · have hire : (s.endReservation h x y).hire h = (s.released h).hire h := by rw [same]
    rw [hire, State.released_hire, if_pos rfl]
    rfl
  · have receiver : (s.endReservation h x y).receiver (s.hire h).receiver = (s.released h).receiver (s.hire h).receiver := by rw [same]
    rw [receiver, State.released_receiver, if_pos rfl]
    rfl
  · rw [State.endReservation_account, if_pos rfl]
    split
    · rename_i still
      exact (congrArg Account.holds still).symm
    · rfl

end

/-! ## The tables of a taken state -/

section
variable (s : State) (m : Memory) (rest : List SlotId)

theorem State.taken_hire (h : HireId) : (s.taken m rest).hire h = s.hire h := congrArg (fun v : Vector Hire _ => v[h]) (show _ = s.hires from rfl)
theorem State.taken_account (a : AcctId) : (s.taken m rest).account a = s.account a :=
  congrArg (fun v : Vector Account _ => v[a]) (show _ = s.accounts from rfl)
theorem State.complete_hire (n : SlotId) (r : Result) (h : HireId) : (s.complete n r).hire h = s.hire h :=
  congrArg (fun v : Vector Hire _ => v[h]) (s.complete_hires n r)
theorem State.complete_channel (n : SlotId) (r : Result) (c : ChannelId) : (s.complete n r).channel c = s.channel c :=
  congrArg (fun v : Vector Channel _ => v[c]) (s.complete_channels n r)
theorem State.complete_receiver (n : SlotId) (r : Result) (e : RecvId) : (s.complete n r).receiver e = s.receiver e :=
  congrArg (fun v : Vector Receiver _ => v[e]) (s.complete_receivers n r)
theorem State.complete_account (n : SlotId) (r : Result) (a : AcctId) : (s.complete n r).account a = s.account a :=
  congrArg (fun v : Vector Account _ => v[a]) (s.complete_accounts n r)

end

/-! ## CANCEL -/

section
variable {s : State} {o : StandingOwner} {x : Standing}

/-- A standing order ended by its block (R10, R88, R125). -/
theorem State.cancelStanding_facts (standing : s.standingOf o = some x) : ∃ values : List Byte,
    (s.cancelStanding o).orders = { s.orders with standing := s.orders.standing.filter (fun z => z.slot ≠ x.slot) }
      ∧ (s.memOk → (s.cancelStanding o).memOk ∧ (s.cancelStanding o).mem.answers s.mem x.slot
          { code := .cancelled, reason := .noReason, clamped := x.clamped, already := false, values := values })
      ∧ (s.cancelStanding o).log = s.log ∧ (s.cancelStanding o).clock = s.clock ∧ (s.cancelStanding o).timers = s.timers
      ∧ (s.cancelStanding o).framer = s.framer := by
  cases o with
  | issue h =>
    have same := s.endReservation_same h .cancelled .noReason
    obtain ⟨orders, answers⟩ := State.dropReservation_standing standing .cancelled .noReason
    have only := s.endReservation_only h .cancelled .noReason
    refine ⟨((s.released h).issueResult h .cancelled .noReason).values, ?_, fun law => ?_, only .log (by decide), only .clock (by decide), only .timers (by decide), only .framer (by decide)⟩
    · exact (congrArg State.orders same).trans orders
    · obtain ⟨wf, shown⟩ := answers law
      have mem : (s.cancelStanding (.issue h)).mem = (s.dropReservation h .cancelled .noReason).mem :=
        (congrArg State.mem same).trans rfl
      exact ⟨(congrArg Memory.wf mem).trans wf, mem ▸ shown⟩
  | handover c =>
    obtain ⟨-, -, orders, answers, same⟩ := State.endSchedule_settled standing .cancelled .noReason false s rfl
    refine ⟨_, orders, fun law => ⟨?_, answers law⟩, (congrArg State.log same).trans rfl, (congrArg State.clock same).trans rfl,
      (congrArg State.timers same).trans rfl, (congrArg State.framer same).trans rfl⟩
    have mem : (s.cancelStanding (.handover c)).mem = (s.endSchedule c .cancelled .noReason false 0).mem :=
      State.settleChannel_only _ s c .mem (by decide)
    rw [State.memOk, mem, State.endSchedule_eq, State.endOwner_of_some (s := s.rescheduled c none) standing]
    exact State.complete_wf _ _ _ law

/-- What a standing order waited for, ended (R10, R88, R125). -/
theorem State.cancelStanding_ended (s : State) (o : StandingOwner) (standing : s.standingOf o = some x) :
    (∀ h : HireId, o = .issue h → ((s.cancelStanding o).hire h).state = .free
        ∧ ((s.cancelStanding o).receiver (s.hire h).receiver).state = .docked
        ∧ ((s.cancelStanding o).account (s.hire h).account).holds = (s.account (s.hire h).account).holds - (s.hire h).hold)
      ∧ ∀ c : ChannelId, o = .handover c → ((s.cancelStanding o).channel c).schedule = none := by
  refine ⟨fun h own => ?_, fun c own => ?_⟩
  · subst own
    exact s.endReservation_ended h _ _
  · subst own
    exact (State.endSchedule_settled standing .cancelled .noReason false s rfl).1

end

section
variable {s : State} {n k : SlotId}

theorem workCancel_above (above : 31 < s.paramLE n 0 2) : workCancel s n = refuse s .badArgument := by
  unfold workCancel
  rw [index?_of_le above]

theorem workCancel_standing {x : Standing} (named : s.paramLE n 0 2 = k.val) (found : s.orders.standing.find? (fun u => u.slot = k) = some x) :
    workCancel s n = (s.cancelStanding x.owner, some (Result.done [])) := by
  unfold workCancel
  rw [named, index?_val]
  dsimp only
  rw [found]

theorem workCancel_other (named : s.paramLE n 0 2 = k.val) (missing : s.orders.standing.find? (fun u => u.slot = k) = none) :
    workCancel s n = if s.holder k = Holder.queued then (s.cancelQueued k, some (Result.done [])) else refuse s .state := by
  unfold workCancel
  rw [named, index?_val]
  dsimp only
  rw [missing]

end

/-- A CANCEL of a standing order (R10). -/
theorem State.cancel_standing {s u : State} {n k : SlotId} {rest : List SlotId} {m : Memory} {x : Standing} (taken : SlotTaken s n m)
    (hu : u = s.taken m rest) (other : k ≠ n) (slot : x.slot = k) (standing : u.standingOf x.owner = some x) :
    ∃ w : State, w = u.cancelStanding x.owner ∧ w.memOk ∧ w.orders = { u.orders with standing := u.orders.standing.filter (fun z => z.slot ≠ k) }
      ∧ (w.complete n (Result.done [])).mem.shows n (Result.done [])
      ∧ (∃ r : Result, (w.complete n (Result.done [])).mem.shows k r ∧ r.code = .cancelled ∧ r.reason = .noReason)
      ∧ (∀ a : Nat, ¬ resultByte n a → ¬ resultByte k a → (w.complete n (Result.done [])).mem.read8 a = s.mem.read8 a)
      ∧ w.log = u.log ∧ w.clock = u.clock ∧ w.timers = u.timers ∧ w.framer = u.framer := by
  obtain ⟨values, orders, answers, log, clock, timers, framer⟩ := State.cancelStanding_facts standing
  have law : u.memOk := hu ▸ taken.wf
  have outside : ∀ a, ¬ resultByte n a → u.mem.read8 a = s.mem.read8 a := fun a out => hu ▸ taken.outside a out
  obtain ⟨wf, shown, same⟩ := answers law
  rw [slot] at shown same orders
  refine ⟨_, rfl, wf, orders, ?_,
    ⟨{ code := .cancelled, reason := .noReason, clamped := x.clamped, already := false, values := values }, ?_, rfl, rfl⟩, ?_, log, clock, timers, framer⟩
  · exact State.complete_shows _ n _ wf
  · exact Memory.shows_of_same shown fun a ha => State.complete_read8 _ n _ wf a (resultByte_apart other ha)
  · exact fun a out away => (State.complete_read8 _ n _ wf a out).trans ((same a away).trans (outside a out))

theorem State.raise_twice (s : State) (c : Notice) : (s.raise c).raise c = s.raise c := by
  unfold State.raise
  dsimp only
  rw [BitVec.or_assoc, BitVec.or_self]

/-- A slot's holder word through the taking of another. -/
theorem SlotTaken.holder {s : State} {n k : SlotId} {m : Memory} (taken : SlotTaken s n m) (rest : List SlotId) (other : k ≠ n) :
    (s.taken m rest).holder k = s.holder k := by
  have outside : ∀ i, i < 2 → m.read8 (slotBase k + i) = s.mem.read8 (slotBase k + i) := fun i hi =>
    taken.outside _ (resultByte_apart other (.inl (by omega)))
  exact Memory.read16_of_eq (outside 0 (by omega)) (outside 1 (by omega))

/-- A CANCEL of a queued order (R10). -/
theorem State.cancel_queued (u : State) (n k : SlotId) (r : Result) (law : u.memOk) (other : k ≠ n) : ∃ m : Memory,
    (u.cancelQueued k).complete n r = u.answered (u.orders.queue.filter (fun x => x ≠ k)) m ∧ m.shows n r
      ∧ m.shows k { code := .cancelled, reason := .noReason, clamped := false, already := false, values := [] }
      ∧ ∀ a : Nat, ¬ resultByte n a → ¬ resultByte k a → m.read8 a = u.mem.read8 a := by
  obtain ⟨v, hv⟩ : ∃ v : State, v = { u with orders := { u.orders with queue := u.orders.queue.filter (fun x => x ≠ k) } } := ⟨_, rfl⟩
  have mem : v.mem = u.mem := by rw [hv]
  have unfolded : u.cancelQueued k = v.complete k
      { code := .cancelled, reason := .noReason, clamped := false, already := false, values := [] } := by rw [hv]; rfl
  have wf : (u.cancelQueued k).memOk := unfolded ▸ State.complete_wf _ _ _ (mem ▸ law)
  have answers := v.complete_answers k { code := .cancelled, reason := .noReason, clamped := false, already := false, values := [] } (mem ▸ law)
  refine ⟨((u.cancelQueued k).complete n r).mem, ?_, State.complete_shows _ n r wf, ?_, fun a out away => ?_⟩
  · rw [State.complete_eq]
    generalize ((u.cancelQueued k).complete n r).mem = p
    rw [unfolded, State.complete_eq v, hv]
    exact State.raise_twice (({ u with mem := p, orders := { u.orders with queue := u.orders.queue.filter (fun x => x ≠ k) } } : State)) .order
  · exact Memory.shows_of_same (unfolded ▸ answers.1) fun a ha => State.complete_read8 _ n r wf a (resultByte_apart other ha)
  · refine (State.complete_read8 _ n r wf a out).trans ?_
    rw [unfolded, ← mem]
    exact answers.2 a away

/-- Settles O16. -/
theorem cancelEndsStandingAndQueued : Obligations.CancelEndsStandingAndQueued := by
  intro s n rest h
  refine ⟨fun above => ?_, fun k named other => ⟨fun x found standing => ?_, fun missing queued => ?_, fun missing idle => ?_⟩, fun named missing => ?_⟩
  · exact State.completes_work h (State.takes_kind h) rfl rfl fun m taken =>
      workCancel_above ((taken.paramLE rest (i := 0) (k := 2) (by omega)).symm ▸ above)
  · obtain ⟨m, taken, next⟩ := h.works (i := .cancel) (kindIs 4) (State.takes_kind h) workCancel rfl
    rw [workCancel_standing (k := k) (x := x) ((taken.paramLE rest (i := 0) (by omega)).trans named) found] at next
    have slot : x.slot = k := by simpa using List.find?_some found
    obtain ⟨w, hw, wf, orders, done, ⟨r, ⟨holder, code, reason, -⟩, cancelled, unreasoned⟩, bytes, log, clock, timers, framer⟩ :=
      State.cancel_standing taken (rest := rest) rfl other slot standing
    obtain ⟨hires, channels⟩ := (s.taken m rest).cancelStanding_ended x.owner standing
    rw [← hw] at next hires channels
    rw [cancelled] at code
    rw [unreasoned] at reason
    refine ⟨w.complete n (Result.done []), next, ?_, ?_, done, holder, code, reason, bytes, ?_, ?_, ?_, ?_, ?_, ?_⟩
    · rw [State.complete_orders, orders]
    · rw [State.complete_orders, orders]
    · intro h own
      rw [State.complete_hire, State.complete_receiver, State.complete_account]
      have ended := hires h own
      rw [State.taken_hire, State.taken_account] at ended
      exact ended
    · intro c own
      rw [State.complete_channel]
      exact channels c own
    · exact (w.complete_log n _).trans log
    · exact (w.complete_clock n _).trans clock
    · exact (w.complete_timers n _).trans timers
    · exact (w.complete_framer n _).trans framer
  · obtain ⟨m, taken, next⟩ := h.works (i := .cancel) (kindIs 4) (State.takes_kind h) workCancel rfl
    rw [workCancel_other (k := k) ((taken.paramLE rest (i := 0) (by omega)).trans named) missing, if_pos ((taken.holder rest other).trans queued)]
      at next
    obtain ⟨p, answered, done, cancelled, bytes⟩ := State.cancel_queued (s.taken m rest) n k (Result.done []) taken.wf other
    exact ⟨p, next.trans (congrArg Host.Outcome.next answered), done, cancelled, fun a out away =>
      (bytes a out away).trans (taken.outside a out)⟩
  · refine State.completes_work h (State.takes_kind h) rfl rfl fun m taken => ?_
    rw [workCancel_other (k := k) ((taken.paramLE rest (i := 0) (by omega)).trans named) missing,
      if_neg (fun queued => idle ((taken.holder rest other).symm.trans queued))]
    rfl
  · refine State.refuses_kind h rfl ?_
    obtain ⟨-, m, taken, e⟩ := h.beside
    have working : (s.takeSlot n rest).holder n = Holder.working := (State.takeSlot_holder h.2.2.2 n n rest).trans (if_pos rfl)
    have param : (s.takeSlot n rest).paramLE n 0 2 = n.val := by rw [e, taken.paramLE rest (by omega), named]
    rw [workCancel_other (k := n) param (by rw [e]; exact missing), if_neg]
    rw [working]
    decide

end Sys2Proof.Machine
end

section
/-!
SUPPORT. CHANNEL_DEFINE (R74, R75, R81, O31).
-/
namespace Sys2Proof.Machine

/-! ## Parameters and checks -/

theorem SlotTaken.channelParams {s : State} {n : SlotId} {m : Memory} (h : SlotTaken s n m) (rest : List SlotId) :
    (s.taken m rest).channelParams n = s.channelParams n := by
  simp (disch := omega) only [State.channelParams, h.param8, h.paramLang]

theorem partner?_of (q : Option BoothId) : partner? (q.elim 255 (fun b => b.val)) = some q := by
  cases q with
  | none => rfl
  | some b =>
    have := b.isLt
    show (if b.val = 255 then some none else (index? 24 b.val).map some) = _
    rw [if_neg (by omega), index?_val]
    rfl

theorem partner?_above {k : Nat} (above : 23 < k) (other : k ≠ 255) : partner? k = none := by
  unfold partner?
  rw [if_neg other, index?_of_le above]
  rfl

section
variable {s : State} {n : SlotId} {c : ChannelId}

theorem State.channelParams_none (wrong : 23 < s.param8 n 1 ∨ (23 < s.param8 n 2 ∧ s.param8 n 2 ≠ 255) ∨ s.param8 n 1 = s.param8 n 2
    ∨ s.paramLang n 3 = none ∨ 1 < s.param8 n 6 ∨ 1 < s.param8 n 7) : s.channelParams n = none := by
  cases h : s.channelParams n with
  | none => rfl
  | some p =>
    exfalso
    unfold State.channelParams at h
    split at h
    · rename_i x y z w hx hy hz hw
      split at h
      · exact nomatch h
      · rename_i bad
        obtain ⟨two, rescue⟩ := not_or.mp bad
        rcases wrong with primary | ⟨partner, other⟩ | same | lang | format | masking
        · exact nomatch hx.symm.trans (index?_of_le primary)
        · exact nomatch hy.symm.trans (partner?_above partner other)
        · have number := index?_eq_some.mp hx
          have found := (congrArg partner? (same.symm.trans number)).trans (partner?_of (some x))
          exact two (Option.some.inj (hy.symm.trans found))
        · exact nomatch hz.symm.trans lang
        · exact nomatch hw.symm.trans (format?_none format)
        · exact rescue masking
    · exact nomatch h

theorem State.channelParams_some {p : BoothId} {q : Option BoothId} {l : Lang} (hp : s.param8 n 1 = p.val)
    (hq : s.param8 n 2 = q.elim 255 (fun b => b.val)) (hl : s.paramLang n 3 = some l) (format : s.param8 n 6 ≤ 1) (rescue : s.param8 n 7 ≤ 1)
    (two : s.param8 n 1 ≠ s.param8 n 2) : s.channelParams n = some { primary := p, partner := q, lang := l
                                                                     quality := if s.param8 n 6 = 1 then .wide else .standard
                                                                     rescue := decide (s.param8 n 7 = 1) } := by
  have apart : ¬ (q = some p ∨ 1 < s.param8 n 7) := by
    rintro (same | above)
    · rw [hp, hq, same] at two
      exact two rfl
    · omega
  unfold State.channelParams
  rw [hp, hq, hl, index?_val, partner?_of, format?_of_le format]
  dsimp only
  rw [if_neg apart]
  rfl

theorem State.takenBy_iff {b : BoothId} : s.takenBy c b = true ↔ ∃ e : ChannelId, (s.booth b).role.named = some e ∧ e ≠ c := by
  unfold State.takenBy
  show (match (s.booth b).role.named with | some d => d != c | none => false) = true ↔ _
  cases (s.booth b).role.named with
  | none => exact iff_of_false Bool.false_ne_true (fun ⟨e, h, _⟩ => nomatch h)
  | some d =>
    refine bne_iff_ne.trans ⟨fun other => ⟨d, rfl, other⟩, fun ⟨e, h, other⟩ => ?_⟩
    exact Option.some.inj h ▸ other

theorem workChannelDefine_of {p : ChannelParams} (real : c ≠ 0) (named : s.param8 n 0 = c.val) (params : s.channelParams n = some p) :
    workChannelDefine s n =
      if s.takenBy c p.primary = true ∨ p.partner.any (s.takenBy c) = true then refuse s .boothTaken
      else if relayLaw (s.channels.set c ((s.channel c).define p)) s.intakes = false then refuse s .relayConflict
      else if (s.channel c).schedule.isSome then refuse s .handoverBusy
      else (s.defineChannel c p, some (Result.done [if (s.channel c).defined then 1 else 0])) := by
  unfold workChannelDefine
  rw [named, index?_val, params]
  dsimp only
  rw [if_neg real]

theorem workChannelDefine_wrong (wrong : s.param8 n 0 = 0 ∨ 31 < s.param8 n 0 ∨ s.channelParams n = none) :
    workChannelDefine s n = refuse s .badArgument := by
  unfold workChannelDefine
  rcases wrong with zero | above | none
  · rw [zero, show index? 32 0 = some 0 from rfl]
    cases s.channelParams n <;> rfl
  · rw [index?_of_le above]
  · rw [none]
    cases index? 32 (s.param8 n 0) <;> rfl

end

/-! ## The definition's effect -/

/-- A channel record with its definition written, the loss hold of an owner off LIVE started (R75, R77). -/
def Channel.redefined (r : Channel) (p : ChannelParams) (live : Bool) (k : Nat) : Channel :=
  { r.define p with downSince := if live then r.downSince else k }

section
variable {s : State} {c : ChannelId} {p : ChannelParams}

/-- The state with the channel's record defined (R75, R81). -/
def State.recorded (s : State) (c : ChannelId) (p : ChannelParams) : State :=
  { s with channels := s.channels.set c (((s.channel c).redefined p (s.isLive p.primary) s.clock.run).paired
      (s.pairingOf ((s.channel c).redefined p (s.isLive p.primary) s.clock.run))).bump }

theorem State.defineChannel_eq (s : State) (c : ChannelId) (p : ChannelParams) : s.defineChannel c p =
    ((((((s.recorded c p).rename c (some p.primary) p.partner).relampChannel c).relampOpt (s.channel c).primary).relampOpt
      (s.channel c).partner)).stagePlan := by
  have written : (if s.isLive p.primary then s.updChannel c (fun r => r.define p)
      else (s.updChannel c (fun r => r.define p)).updChannel c (fun r => { r with downSince := s.clock.run }))
      = { s with channels := s.channels.set c ((s.channel c).redefined p (s.isLive p.primary) s.clock.run) } := by
    cases s.isLive p.primary
    · exact s.updChannel_set c ((s.channel c).define p) (fun r => { r with downSince := s.clock.run })
    · rfl
  have recorded : (({ s with channels := s.channels.set c ((s.channel c).redefined p (s.isLive p.primary) s.clock.run) } : State).checkPairing
      c).updChannel c Channel.bump = s.recorded c p := by
    unfold State.checkPairing
    rw [State.updChannel_set]
    exact s.updChannel_set c _ _
  unfold State.defineChannel
  dsimp only
  rw [written, recorded]

theorem State.relampOpt_taken (s : State) (p : Option BoothId) (m : Memory) (rest : List SlotId) :
    (s.taken m rest).relampOpt p = (s.relampOpt p).taken m rest := by cases p <;> rfl

theorem State.rename_taken (s : State) (c : ChannelId) (p q : Option BoothId) (m : Memory) (rest : List SlotId) :
    (s.taken m rest).rename c p q = (s.rename c p q).taken m rest :=
  State.each_comm (g := fun u => u.taken m rest) (fun _ _ => rfl) _ s

theorem State.defineChannel_taken (s : State) (c : ChannelId) (p : ChannelParams) (m : Memory) (rest : List SlotId) :
    (s.taken m rest).defineChannel c p = (s.defineChannel c p).taken m rest := by
  have recorded : (s.taken m rest).recorded c p = (s.recorded c p).taken m rest := rfl
  rw [State.defineChannel_eq, State.defineChannel_eq, recorded, State.rename_taken, State.relampChannel_taken]
  generalize ((s.recorded c p).rename c (some p.primary) p.partner).relampChannel c = v
  show State.stagePlan (((v.taken m rest).relampOpt (s.channel c).primary).relampOpt (s.channel c).partner) = _
  rw [State.relampOpt_taken v _ m rest, State.relampOpt_taken (v.relampOpt _) _ m rest]
  rfl

/-- What CHANNEL_DEFINE leaves of channels, booths and plan (R75). -/
theorem State.defineChannel_facts (s : State) (c : ChannelId) (p : ChannelParams) {u : State} (hu : u = s.defineChannel c p) :
    u.channels = (s.recorded c p).channels
      ∧ (∀ b : BoothId, (u.booth b).litAs ((s.rename c (some p.primary) p.partner).booth b))
      ∧ u.framer = { s.framer with staged := some (computePlan s.framer.mode s.framer.floorQuality u.channels), changes := s.framer.changes + 2 }
      ∧ u = { s with channels := u.channels, booths := u.booths, framer := u.framer } := by
  have renamed := (s.recorded c p).rename_only c (some p.primary) p.partner
  obtain ⟨v, hv⟩ : ∃ v, v = (((s.recorded c p).rename c (some p.primary) p.partner).relampChannel c).relampOpt (s.channel c).primary := ⟨_, rfl⟩
  have only : (s.recorded c p).onlyIn [.booths] (v.relampOpt (s.channel c).partner) := by
    rw [hv]
    exact ((renamed.seq (State.relampChannel_only _ c)).seq (State.relampOpt_only _ _)).seq (State.relampOpt_only _ _)
  have lit (b : BoothId) : ((v.relampOpt (s.channel c).partner).booth b).litAs ((s.rename c (some p.primary) p.partner).booth b) := by
    have same : ((s.recorded c p).rename c (some p.primary) p.partner).booth b = (s.rename c (some p.primary) p.partner).booth b := by
      rw [State.rename_booth, State.rename_booth]
      rfl
    rw [hv, ← same]
    exact ((State.relampOpt_booth _ (s.channel c).partner b).1.trans (State.relampOpt_booth _ (s.channel c).primary b).1).trans (State.relampChannel_booth _ c b).1
  rw [State.defineChannel_eq, ← hv] at hu
  generalize v.relampOpt (s.channel c).partner = w at hu only lit
  have channels : w.channels = (s.recorded c p).channels := only .channels (by decide)
  have framer : w.framer = s.framer := only .framer (by decide)
  have whole := only.booths_eq
  subst hu
  refine ⟨channels, lit, ?_, ?_⟩
  · show ({ w.framer with staged := some (computePlan w.framer.mode w.framer.floorQuality w.channels), changes := w.framer.changes + 2 } : Framer) = _
    rw [framer]
    exact congrArg (fun x => ({ s.framer with staged := some (computePlan _ _ x), changes := _ } : Framer)) (show w.channels = w.stagePlan.channels from rfl)
  · generalize w.booths = z at whole
    subst whole
    rfl

end

theorem RoleFields.naming_eq (r : RoleFields) (c : ChannelId) (x y : Bool) : r.naming c x y = { r with
      named := if x = true ∨ y = true then some c else if r.named = some c then none else r.named
      role := if x = true then .primary else if y = true then .partner else r.role } := by
  unfold RoleFields.naming
  cases x with
  | true => rfl
  | false =>
    cases y with
    | true => rfl
    | false =>
      have neither : ¬ (false = true ∨ false = true) := fun h => h.elim Bool.false_ne_true Bool.false_ne_true
      show (if r.named = some c then ({ r with named := none } : RoleFields) else r)
        = { r with named := if false = true ∨ false = true then some c else if r.named = some c then none else r.named, role := r.role }
      rw [if_neg neither]
      split <;> rfl

theorem State.rename_kept (s : State) (c : ChannelId) (p q : Option BoothId) (b : BoothId) :
    ((s.rename c p q).booth b).link = (s.booth b).link ∧ ((s.rename c p q).booth b).cons = (s.booth b).cons := by
  rw [State.rename_booth]
  rcases rewritten_or Booth.bump (fun r => { r with role := r.role.naming c (p == some b) (q == some b) }) (s.booth b) with e | e
  · rw [e]
    exact ⟨rfl, rfl⟩
  · rw [e]
    exact ⟨rfl, rfl⟩

theorem State.defined_booth (s : State) (c : ChannelId) (p : ChannelParams) (b : BoothId) {v : Booth}
    (lit : v.litAs ((s.rename c (some p.primary) p.partner).booth b)) : v.role = { (s.booth b).role with
        named := if b = p.primary ∨ p.partner = some b then some c else if (s.booth b).role.named = some c then none else (s.booth b).role.named
        role := if b = p.primary then .primary else if p.partner = some b then .partner else (s.booth b).role.role }
      ∧ v.link = (s.booth b).link ∧ v.cons = { (s.booth b).cons with each := v.cons.each } := by
  obtain ⟨x, z, record, -⟩ := lit
  obtain ⟨link, cons⟩ := s.rename_kept c (some p.primary) p.partner b
  have role := s.rename_role c (some p.primary) p.partner b
  rw [RoleFields.naming_eq] at role
  generalize (s.rename c (some p.primary) p.partner).booth b = y at record link cons role
  subst record
  refine ⟨role.trans ?_, link, congrArg (fun f : ConsoleFields => ({ f with each := z } : ConsoleFields)) cons⟩
  simp only [beq_iff_eq, Option.some.injEq, eq_comm (a := p.primary)]

/-- Settles O31. -/
theorem channelDefineWritesDefinition : Obligations.ChannelDefineWritesDefinition := by
  intro s n rest h wrong
  have completes : ∀ (u : State) (r : Result), u.mem = s.mem → (∀ m : Memory, SlotTaken s n m →
      workChannelDefine (s.taken m rest) n = (u.taken m rest, some r)) → s.completes .channelDefine n rest u r :=
    fun u r same works => State.completes_work h (State.takes_kind h) rfl same works
  refine ⟨fun bad => completes s _ rfl fun m taken => ?_, fun c p q l right hc hp hq hl => ?_⟩
  · refine workChannelDefine_wrong ?_
    rw [taken.param8 rest (by omega), taken.channelParams rest]
    rcases bad with zero | above | rest
    · exact .inl zero
    · exact .inr (.inl above)
    · exact .inr (.inr (State.channelParams_none rest))
  · obtain ⟨real, right⟩ := not_or.mp right
    obtain ⟨-, right⟩ := not_or.mp right
    obtain ⟨-, right⟩ := not_or.mp right
    obtain ⟨-, right⟩ := not_or.mp right
    obtain ⟨two, right⟩ := not_or.mp right
    obtain ⟨-, right⟩ := not_or.mp right
    obtain ⟨format, rescue⟩ := not_or.mp right
    intro d
    obtain ⟨r, hr⟩ : ∃ r : ChannelParams, r = { primary := p, partner := q, lang := l, quality := if s.param8 n 6 = 1 then .wide else .standard
                                                rescue := decide (s.param8 n 7 = 1) } := ⟨_, rfl⟩
    have params : s.channelParams n = some r := by
      rw [hr]
      refine State.channelParams_some hp ?_ hl (by omega) (by omega) two
      cases q <;> exact hq
    have written : (s.channel c).define r = d := by rw [hr]; rfl
    have spoken : c ≠ 0 := fun zero => real (by rw [hc, zero]; rfl)
    have works := fun (m : Memory) (taken : SlotTaken s n m) => workChannelDefine_of (s := s.taken m rest) (n := n) spoken
      ((taken.param8 rest (by omega)).trans hc) ((taken.channelParams rest).trans params)
    have primary : r.primary = p := by rw [hr]
    have partner : r.partner = q := by rw [hr]
    have busy : (∃ (b : BoothId) (e : ChannelId), (b = p ∨ q = some b) ∧ (s.booth b).role.named = some e ∧ e ≠ c)
        ↔ (s.takenBy c r.primary = true ∨ r.partner.any (s.takenBy c) = true) := by
      rw [primary, partner, Option.any_eq_true, State.takenBy_iff]
      constructor
      · rintro ⟨b, e, rfl | named, other⟩
        · exact .inl ⟨e, other⟩
        · exact .inr ⟨b, named, State.takenBy_iff.mpr ⟨e, other⟩⟩
      · rintro (⟨e, other⟩ | ⟨b, named, found⟩)
        · exact ⟨p, e, .inl rfl, other⟩
        · obtain ⟨e, other⟩ := State.takenBy_iff.mp found
          exact ⟨b, e, .inr named, other⟩
    refine ⟨fun taken => ?_, fun free unlawful => ?_, fun free lawful planned => ?_, fun free lawful bare => ?_⟩
    · exact completes s _ rfl fun m held => (works m held).trans (if_pos (busy.mp taken))
    · refine completes s _ rfl fun m held => (works m held).trans ((if_neg (mt busy.mpr free)).trans (if_pos ?_))
      rw [← Bool.not_eq_true]
      exact written ▸ unlawful
    · refine completes s _ rfl fun m held => (works m held).trans ((if_neg (mt busy.mpr free)).trans ((if_neg ?_).trans (if_pos ?_)))
      · rw [Bool.not_eq_false]
        exact written ▸ lawful
      · exact Option.isSome_iff_ne_none.mpr planned
    · obtain ⟨u, hu⟩ : ∃ u, u = s.defineChannel c r := ⟨_, rfl⟩
      obtain ⟨channels, lit, framer, only⟩ := s.defineChannel_facts c r hu
      have own : u.channel c = (((s.channel c).redefined r (s.isLive r.primary) s.clock.run).paired
          (s.pairingOf ((s.channel c).redefined r (s.isLive r.primary) s.clock.run))).bump :=
        (congrArg (fun v : Vector Channel 32 => v[c]) channels).trans ((get_set _ _ _ _).trans (if_pos rfl))
      have redefined : (s.channel c).redefined r (s.isLive r.primary) s.clock.run
          = { d with downSince := if (s.booth p).link.state = .live then (s.channel c).downSince else s.clock.run } := by
        rw [Channel.redefined, written, primary]
        exact congrArg (fun k => ({ d with downSince := k } : Channel)) (if_congr State.isLive_iff rfl rfl)
      rw [redefined] at own
      have two : q ≠ some p := partner ▸ primary ▸ State.channelParams_two params
      refine ⟨u, completes u _ (by rw [only]) fun m held => (works m held).trans ?_, ?_, fun alone => ?_, fun b pair => ?_, fun e other => ?_, fun b => ?_,
        framer, only⟩
      · refine (if_neg (mt busy.mpr free)).trans ((if_neg ?_).trans ((if_neg ?_).trans ?_))
        · rw [Bool.not_eq_false]
          exact written ▸ lawful
        · exact fun some => Option.isSome_iff_ne_none.mp some bare
        · rw [State.defineChannel_taken, ← hu]
      · rw [own]
        generalize s.pairingOf _ = x
        unfold Channel.paired Channel.bump
        dsimp only
        rw [show d.offer = none from rfl, show d.move = none from rfl, ite_self, ite_self]
      · rw [own, s.pairingOf_unpaired (c := { d with downSince := _ }) alone]
        exact ⟨rfl, rfl⟩
      · rw [own]
        exact Channel.paired_pairedBy (c := { d with downSince := _ }) rfl pair (fun _ => rfl)
      · exact (congrArg (fun v : Vector Channel 32 => v[e]) channels).trans ((get_set _ _ _ _).trans (if_neg other))
      · obtain ⟨role, link, cons⟩ := s.defined_booth c r b (lit b)
        rw [primary, partner] at role
        exact ⟨role, link, cons⟩

end Sys2Proof.Machine
end

section
/-!
SUPPORT. CHANNEL_CLEAR (R76, O32).
-/
namespace Sys2Proof.Machine

/-- The intakes on a channel set to FLOOR (R76). -/
def State.toFloor (s : State) (c : ChannelId) : State := s.each (List.finRange 24) (fun s b =>
  s.rewriteBooth b (fun r => if r.role.intake = c then { r with role := { r.role with intake := 0 } } else r))

/-- The record cleared, the namings and intakes away, and the lamps of the booths `p` and `q` anew. -/
def State.unnamed (s : State) (c : ChannelId) (p q : Option BoothId) : State :=
  (((((s.updChannel c Channel.cleared).updChannel c Channel.bump).rename c none none).toFloor c).relampOpt p).relampOpt q

/-- A channel taken away once its handover has ended (R76). -/
def State.takenAway (s : State) (c : ChannelId) (p q : Option BoothId) : State := ((s.unnamed c p q).framerCleared c).stagePlan

section
variable {s : State} {c : ChannelId} {p q : Option BoothId}

theorem State.clearChannel_eq (s : State) (c : ChannelId) : s.clearChannel c =
    (if (s.channel c).schedule.isSome then s.endSchedule c .failed .channelCleared false 0 else s).takenAway c (s.channel c).primary
      (s.channel c).partner := rfl

/-! ## Beside an order -/

theorem State.unnamed_taken (s : State) (c : ChannelId) (p q : Option BoothId) (m : Memory) (rest : List SlotId) :
    (s.taken m rest).unnamed c p q = (s.unnamed c p q).taken m rest := by
  have floor (u : State) : (u.taken m rest).toFloor c = (u.toFloor c).taken m rest :=
    State.each_comm (g := fun u => u.taken m rest) (fun _ _ => rfl) _ u
  unfold State.unnamed
  rw [show ((s.taken m rest).updChannel c Channel.cleared).updChannel c Channel.bump
      = ((s.updChannel c Channel.cleared).updChannel c Channel.bump).taken m rest from rfl, State.rename_taken, floor]
  generalize State.toFloor _ c = v
  rw [State.relampOpt_taken v p m rest, State.relampOpt_taken (v.relampOpt p) q m rest]

theorem State.takenAway_taken (s : State) (c : ChannelId) (p q : Option BoothId) (m : Memory) (rest : List SlotId) :
    (s.taken m rest).takenAway c p q = (s.takenAway c p q).taken m rest := by
  unfold State.takenAway
  rw [State.unnamed_taken]
  generalize s.unnamed c p q = v
  unfold State.framerCleared
  rw [show (v.taken m rest).channels = v.channels from rfl]
  split <;> rfl

theorem State.unnamed_only (s : State) (c : ChannelId) (p q : Option BoothId) : s.onlyIn [.channels, .booths] (s.unnamed c p q) := by
  have written : s.onlyIn [.channels, .booths] ((s.updChannel c Channel.cleared).updChannel c Channel.bump) :=
    ((State.updChannel_only s c _).sub (by decide)).next (State.updChannel_only _ c _) (by decide)
  exact (((written.next (State.rename_only _ c none none) (by decide)).next
    (State.each_only (l := [.booths]) (fun t b _ => State.rewriteBooth_only t b _) _) (by decide)).next (State.relampOpt_only _ p) (by decide)).next
    (State.relampOpt_only _ q) (by decide)

theorem State.takenAway_only (s : State) (c : ChannelId) (p q : Option BoothId) :
    s.onlyIn [.channels, .booths, .framer] (s.takenAway c p q) :=
  (((s.unnamed_only c p q).sub (by decide)).next (State.framerCleared_only _ c) (by decide)).next (State.stagePlan_only _) (by decide)

theorem State.Beside.clearChannel {n : SlotId} {rest : List SlotId} {t : State} (h : s.Beside n rest t) (c : ChannelId) :
    (s.clearChannel c).Beside n rest (t.clearChannel c) := by
  rw [State.clearChannel_eq, State.clearChannel_eq, h.same (fun u => u.channel c) (fun _ => rfl)]
  refine State.Beside.map (f := fun u => u.takenAway c (s.channel c).primary (s.channel c).partner) ?_ (fun m => State.takenAway_taken _ c _ _ m rest)
    (State.takenAway_only _ c _ _ .mem (by decide))
  split
  · exact h.endSchedule c _ _ _ _
  · exact h

/-! ## What the clearing leaves -/

theorem State.unnamed_channels (s : State) (c : ChannelId) (p q : Option BoothId) :
    (s.unnamed c p q).channels = s.channels.set c (s.channel c).cleared.bump := by
  have written : ((s.updChannel c Channel.cleared).updChannel c Channel.bump).channels = s.channels.set c (s.channel c).cleared.bump :=
    congrArg State.channels (s.updChannel_set c (s.channel c).cleared Channel.bump)
  unfold State.unnamed
  rw [State.relampOpt_channels, State.relampOpt_channels, ← written]
  exact (State.each_only (l := [.booths]) (fun t b _ => State.rewriteBooth_only t b _) _ .channels (by decide)).trans
    (State.rename_channels _ c none none)

theorem State.toFloor_role (s : State) (c : ChannelId) (b : BoothId) : ((s.toFloor c).booth b).role
    = { (s.booth b).role with intake := if (s.booth b).role.intake = c then 0 else (s.booth b).role.intake }
      ∧ ((s.toFloor c).booth b).link = (s.booth b).link := by
  have booth : (s.toFloor c).booth b = _ := s.toFloor_booth c b
  rw [booth]
  by_cases on : (s.booth b).role.intake = c
  · rcases rewritten_or Booth.bump (fun r => if r.role.intake = c then { r with role := { r.role with intake := 0 } } else r) (s.booth b) with e | e
    · rw [e, if_pos on, if_pos on]
      exact ⟨rfl, rfl⟩
    · rw [e, if_pos on, if_pos on]
      exact ⟨rfl, rfl⟩
  · rw [if_neg on, rewritten, if_pos (if_neg on)]
    exact ⟨rfl, rfl⟩

theorem State.unnamed_booth (s : State) (c : ChannelId) (p q : Option BoothId) (b : BoothId) : ((s.unnamed c p q).booth b).role
    = { (s.booth b).role with
        named := if (s.booth b).role.named = some c then none else (s.booth b).role.named
        intake := if (s.booth b).role.intake = c then 0 else (s.booth b).role.intake }
      ∧ ((s.unnamed c p q).booth b).link = (s.booth b).link := by
  obtain ⟨v, hv⟩ : ∃ v, v = ((s.updChannel c Channel.cleared).updChannel c Channel.bump) := ⟨_, rfl⟩
  have booth : v.booth b = s.booth b := by rw [hv]; rfl
  have lit : ((s.unnamed c p q).booth b).litAs (((v.rename c none none).toFloor c).booth b) := by
    unfold State.unnamed
    rw [← hv]
    exact (State.relampOpt_booth _ q b).1.trans (State.relampOpt_booth _ p b).1
  obtain ⟨role, link⟩ := (v.rename c none none).toFloor_role c b
  obtain ⟨kept, -⟩ := v.rename_kept c none none b
  have renamed := v.rename_role c none none b
  rw [RoleFields.naming_eq] at renamed
  rw [kept] at link
  rw [renamed] at role
  rw [booth] at link role
  refine ⟨lit.role.trans (role.trans ?_), lit.link.trans link⟩
  rfl

/-- The clearing handed to the framer: the channel stranded where it has listeners (R98, R101). -/
theorem State.framerCleared_facts (s : State) (c : ChannelId) :
    (∃ x : Half, (s.framerCleared c).channel c = { s.channel c with
        changes := x, stranded := (s.channel c).stranded || decide (0 < (s.channel c).listeners) })
      ∧ (∀ d : ChannelId, d ≠ c → (s.framerCleared c).channel d = s.channel d)
      ∧ (s.framerCleared c).framer.active = s.framer.active ∧ (s.framerCleared c).framer.mode = s.framer.mode
      ∧ (s.framerCleared c).framer.floorQuality = s.framer.floorQuality
      ∧ (s.framerCleared c).framer.cleared = s.framer.cleared.set c true := by
  unfold State.framerCleared
  by_cases strands : 0 < (s.channel c).listeners ∧ (s.channel c).stranded = false
  · obtain ⟨heard, free⟩ := strands
    rw [if_pos (show 0 < s.channels[c].listeners ∧ s.channels[c].stranded = false from ⟨heard, free⟩)]
    refine ⟨⟨(s.channel c).changes + 2, ((State.channel_writeChannel s c c (fun r => { r with stranded := true })).trans (if_pos rfl)).trans ?_⟩, fun d other =>
      (State.channel_writeChannel s c d (fun r => { r with stranded := true })).trans (if_neg other), rfl, rfl, rfl, rfl⟩
    rw [free, decide_eq_true heard]
    rfl
  · rw [if_neg (show ¬ (0 < s.channels[c].listeners ∧ s.channels[c].stranded = false) from strands)]
    refine ⟨⟨(s.channel c).changes, ?_⟩, fun _ _ => rfl, rfl, rfl, rfl, rfl⟩
    have still : ((s.channel c).stranded || decide (0 < (s.channel c).listeners)) = (s.channel c).stranded := by
      cases free : (s.channel c).stranded with
      | true => rfl
      | false => rw [decide_eq_false (fun heard => strands ⟨heard, free⟩), Bool.or_false]
    rw [still]

theorem State.takenAway_facts (s : State) (c : ChannelId) (p q : Option BoothId) {u : State} (hu : u = s.takenAway c p q) :
    u.channel c = { (s.channel c).cleared with
        changes := (u.channel c).changes, stranded := (s.channel c).stranded || decide (0 < (s.channel c).listeners) }
      ∧ (∀ d : ChannelId, d ≠ c → u.channel d = s.channel d)
      ∧ (∀ b : BoothId, (u.booth b).role = { (s.booth b).role with
            named := if (s.booth b).role.named = some c then none else (s.booth b).role.named
            intake := if (s.booth b).role.intake = c then 0 else (s.booth b).role.intake }
          ∧ (u.booth b).link = (s.booth b).link)
      ∧ u.framer.staged = some (computePlan s.framer.mode s.framer.floorQuality u.channels) ∧ u.framer.active = s.framer.active
      ∧ u.framer.cleared = s.framer.cleared.set c true := by
  have unnamed := s.unnamed_channels c p q
  have booth := s.unnamed_booth c p q
  have same : (s.unnamed c p q).framer = s.framer := s.unnamed_only c p q .framer (by decide)
  unfold State.takenAway at hu
  generalize s.unnamed c p q = v at *
  have channel (d : ChannelId) : v.channel d = if d = c then (s.channel c).cleared.bump else s.channel d :=
    (congrArg (fun x : Vector Channel 32 => x[d]) unnamed).trans (get_set _ _ _ _)
  obtain ⟨⟨x, own⟩, others, active, mode, quality, cleared⟩ := v.framerCleared_facts c
  have booths : (v.framerCleared c).booths = v.booths := v.framerCleared_only c .booths (by decide)
  generalize v.framerCleared c = w at *
  subst hu
  rw [channel, if_pos rfl] at own
  refine ⟨?_, fun d other => (others d other).trans ((channel d).trans (if_neg other)), fun b => ?_, ?_, active.trans (by rw [same]),
    cleared.trans (by rw [same])⟩
  · rw [show w.stagePlan.channel c = w.channel c from rfl, own]
    rfl
  · have record : w.booth b = v.booth b := congrArg (fun x : Vector Booth 24 => x[b]) booths
    rw [show w.stagePlan.booth b = w.booth b from rfl, record]
    exact booth b
  · show some (computePlan w.framer.mode w.framer.floorQuality w.channels) = _
    rw [mode, quality, same]
    rfl

end

/-! ## CHANNEL_CLEAR -/

section
variable {s : State} {n : SlotId} {c : ChannelId}

theorem workChannelClear_wrong (wrong : s.param8 n 0 = 0 ∨ 31 < s.param8 n 0) : workChannelClear s n = refuse s .badArgument := by
  unfold workChannelClear
  rcases wrong with zero | above
  · rw [zero]
    rfl
  · rw [index?_of_le above]

theorem workChannelClear_of (real : c ≠ 0) (named : s.param8 n 0 = c.val) : workChannelClear s n =
    if (s.channel c).defined = false then (s, some (Result.doneAlready [0]))
    else (s.clearChannel c, some (Result.done (leBytes 1 (s.intakes.toList.count c)))) := by
  unfold workChannelClear
  rw [named, index?_val]
  dsimp only
  rw [if_neg real]

theorem State.intakes_count (s : State) (c : ChannelId) :
    s.intakes.toList.count c = (List.finRange 24).countP (fun b => (s.booth b).role.intake = c) := by
  rw [toList_eq_map, List.count, List.countP_map]
  refine List.countP_congr fun b _ => ?_
  have intake : s.intakes.get b = (s.booth b).role.intake := Vector.getElem_map _ _
  rw [Function.comp, intake, beq_iff_eq, decide_eq_true_iff]

end

theorem State.onlyIn.router_eq {s u : State} (h : s.onlyIn [.channels, .booths, .framer] u) :
    u = { s with channels := u.channels, booths := u.booths, framer := u.framer } := by
  have written : s.onlyIn [.channels, .booths, .framer] ({ s with channels := u.channels, booths := u.booths, framer := u.framer } : State) :=
    (((State.channels_only s u.channels).sub (by decide)).next (State.booths_only { s with channels := u.channels } u.booths) (by decide)).next
      (State.framer_only { s with channels := u.channels, booths := u.booths } u.framer) (by decide)
  refine h.eq written fun f hf => ?_
  rcases List.mem_cons.mp hf with rfl | hf
  · rfl
  rcases List.mem_cons.mp hf with rfl | hf
  · rfl
  rcases List.mem_cons.mp hf with rfl | hf
  · rfl
  exact nomatch hf

/-- The standing HANDOVER of a channel that is taken away ends FAILED (R76). -/
theorem State.handoverTaken (s : State) (c : ChannelId) : ∃ v : State,
    v = (if (s.channel c).schedule.isSome then s.endSchedule c .failed .channelCleared false 0 else s)
      ∧ v.channel c = { s.channel c with schedule := none } ∧ (∀ d : ChannelId, d ≠ c → v.channel d = s.channel d)
      ∧ (∀ x : Standing, (s.channel c).schedule.isSome = true → s.standingOf (.handover c) = some x →
          v.orders.standing = s.orders.standing.filter (fun y => y.slot ≠ x.slot) ∧ v.isPending .order = true
          ∧ (s.memOk → v.mem.shows x.slot { code := .failed, reason := .channelCleared, clamped := x.clamped, already := false
                                            values := leBytes 6 0 ++ [(s.channel c).owner.code, (s.channel c).fault.toByte] }))
      ∧ ((s.channel c).schedule = none → v = s) ∧ s.onlyIn [.channels, .mem, .orders, .notices] v := by
  by_cases planned : (s.channel c).schedule.isSome = true
  · refine ⟨_, (if_pos planned).symm, ?_, fun d other => ?_, fun x _ standing => ?_, fun bare => ?_, ?_⟩
    · have channels := s.endSchedule_channels c .failed .channelCleared false 0
      exact (congrArg (fun v : Vector Channel 32 => v[c]) channels).trans State.rescheduled_own
    · have channels := s.endSchedule_channels c .failed .channelCleared false 0
      exact (congrArg (fun v : Vector Channel 32 => v[d]) channels).trans ((State.rescheduled_channel d).trans (if_neg other))
    · rw [State.endSchedule_eq, State.endOwner_of_some (s := s.rescheduled c none) standing]
      obtain ⟨ended, answers⟩ := (s.rescheduled c none).endStanding_facts x (Result.mk .failed .channelCleared false false
        ((s.channel c).handoverValues 0))
      refine ⟨?_, ?_, fun law => (answers law).1⟩
      · rw [ended]
        rfl
      · rw [ended]
        exact s.raise_isPending .order
    · rw [bare] at planned
      exact absurd planned Bool.false_ne_true
    · rw [State.endSchedule_eq]
      exact ((State.channels_only s _).sub (by decide)).next (State.endOwner_only _ _ _) (by decide)
  · have bare : (s.channel c).schedule = none := by simpa using planned
    refine ⟨s, (if_neg planned).symm, ?_, fun _ _ => rfl, fun x yes => absurd yes planned, fun _ => rfl, State.onlyIn_refl _ _⟩
    rw [← bare]

/-- Settles O32. -/
theorem channelClearTakesItAway : Obligations.ChannelClearTakesItAway := by
  intro s n rest h
  refine ⟨fun wrong => ?_, fun c real hc => ⟨fun gone => ?_, fun defined => ?_⟩⟩
  · exact State.completes_work h (State.takes_kind h) rfl rfl fun m taken =>
      workChannelClear_wrong ((taken.param8 rest (i := 0) (by omega)).symm ▸ wrong)
  · exact State.completes_work h (State.takes_kind h) rfl rfl fun m taken =>
      (workChannelClear_of real ((taken.param8 rest (i := 0) (by omega)).trans hc)).trans (if_pos gone)
  · refine ⟨s.clearChannel c, ?_, ?_⟩
    · refine State.completes_beside h (State.takes_kind h) rfl ?_ (h.beside.clearChannel c)
      obtain ⟨-, m, taken, e⟩ := h.beside
      rw [e]
      refine ((workChannelClear_of real ((taken.param8 rest (i := 0) (by omega)).trans hc)).trans (if_neg ?_)).trans ?_
      · exact fun off => Bool.false_ne_true (off.symm.trans defined)
      · rw [← s.intakes_count c]
        rfl
    · obtain ⟨v, hv, channel, others, ended, still, only⟩ := s.handoverTaken c
      obtain ⟨record, rest', booths, staged, active, cleared⟩ := State.takenAway_facts v c (s.channel c).primary (s.channel c).partner
        (u := s.clearChannel c) (by rw [State.clearChannel_eq, hv])
      have framer : v.framer = s.framer := only .framer (by decide)
      have booth : v.booths = s.booths := only .booths (by decide)
      have away := v.takenAway_only c (s.channel c).primary (s.channel c).partner
      rw [channel] at record
      rw [framer] at staged active cleared
      refine ⟨record, fun e other => (rest' e other).trans (others e other), fun b => ?_, staged, active, cleared, fun x planned standing _ => ?_,
        fun bare => ?_⟩
      · have same : v.booth b = s.booth b := congrArg (fun x : Vector Booth 24 => x[b]) booth
        rw [← same]
        exact booths b
      · obtain ⟨list, pending, shown⟩ := ended x planned standing
        rw [State.clearChannel_eq, ← hv]
        have mem : (v.takenAway c (s.channel c).primary (s.channel c).partner).mem = v.mem := away .mem (by decide)
        have notices : (v.takenAway c (s.channel c).primary (s.channel c).partner).notices = v.notices := away .notices (by decide)
        have orders : (v.takenAway c (s.channel c).primary (s.channel c).partner).orders = v.orders := away .orders (by decide)
        exact ⟨mem ▸ shown h.2.2.2, (congrArg (fun x : Notices => x.waiting.getLsbD Notice.order.index) notices).trans pending, orders ▸ list⟩
      · rw [still bare] at away
        rw [State.clearChannel_eq, ← hv, still bare]
        exact away.router_eq

end Sys2Proof.Machine
end

section
/-!
SUPPORT. The soft restart (R21, R169, O12).
-/
namespace Sys2Proof.Machine

section
variable {s : State}

/-! ## The RESTART record -/

theorem State.makeRoom_header : ∃ x : Half, s.makeRoom.header = { s.header with changes := x } := by
  by_cases full : s.overwrites
  · rw [State.makeRoom_of_full full]
    exact ⟨_, rfl⟩
  · rw [State.makeRoom_of_room full]
    exact ⟨s.header.changes, rfl⟩

theorem State.writeTally_header (r : TallyRecord) : ∃ x : Half, (s.writeTally r).header = { s.header with changes := x } := by
  obtain ⟨y, room⟩ := State.makeRoom_header (s := s)
  unfold State.writeTally
  generalize s.makeRoom = u at room
  dsimp only
  refine ⟨u.header.changes + 2, ?_⟩
  split
  · show ({ u.header with changes := u.header.changes + 2 } : Header) = _
    rw [room]
  · show ({ u.header with changes := u.header.changes + 2 } : Header) = _
    rw [room]

/-- Room made never leaves 767 records unread (R164). -/
theorem State.makeRoom_unread (law : s.memOk) : s.makeRoom.unread = 767 ↔ s.unread = 767 := by
  by_cases full : s.overwrites
  · have count := (State.makeRoom_readCount law).1 full
    have bound := full.2
    unfold State.unread at *
    rw [State.makeRoom_writeCount, count]
    bv_omega
  · rw [State.makeRoom_of_room full]

/-- LOG is raised as the unread number goes from 767 to 768 (R168). -/
theorem State.writeTally_pending (r : TallyRecord) (law : s.memOk) :
    (s.writeTally r).notices = if s.unread = 767 then (s.raise .log).notices else s.notices := by
  have unread := State.makeRoom_unread law
  have room := State.makeRoom_notices (s := s)
  unfold State.writeTally
  generalize s.makeRoom = u at unread room
  dsimp only
  rw [if_congr unread rfl rfl]
  split
  · show ({ u.notices with waiting := _ } : Notices) = _
    rw [room]
    rfl
  · exact room

/-- What the RESTART record leaves of header, notices and log (R21, R169). -/
theorem State.restartTally_facts (s : State) (law : s.memOk) : s.onlyIn [.header, .notices, .mem, .log] s.restartTally
    ∧ (∃ x : Half, s.restartTally.header = { s.header with changes := x })
    ∧ s.restartTally.notices = (if s.logBlocked = false ∧ s.unread = 767 then (s.raise .log).notices else s.notices)
    ∧ s.restartTally.log.policy = s.log.policy ∧ s.restartTally.log.waiting = s.log.waiting
    ∧ (s.logBlocked = true → s.restartTally.mem = s.mem ∧ s.restartTally.log = { s.log with lost := satAdd 32 s.log.lost 1 })
    ∧ (s.logBlocked = false → s.restartTally = s.writeTally (.restarted s.restartCounts)) := by
  unfold State.restartTally
  by_cases blocked : s.logBlocked = true
  · rw [if_pos blocked, if_neg (fun free => Bool.false_ne_true (free.1.symm.trans blocked))]
    refine ⟨?_, ⟨_, rfl⟩, rfl, rfl, rfl, fun _ => ⟨rfl, rfl⟩, fun free => absurd (free.symm.trans blocked) Bool.false_ne_true⟩
    exact ((State.log_only s _).sub (by decide)).next (State.bumpHeader_only _) (by decide)
  · have free : s.logBlocked = false := Bool.not_eq_true _ ▸ blocked
    rw [if_neg blocked]
    refine ⟨State.writeTally_only s _, State.writeTally_header _, (State.writeTally_pending _ law).trans ?_, ?_, ?_,
      fun yes => absurd yes blocked, fun _ => rfl⟩
    · exact if_congr (and_iff_right free).symm rfl rfl
    · rw [State.writeTally_log]
    · rw [State.writeTally_log]

theorem State.onlyIn.tally_eq {u : State} (h : s.onlyIn [.header, .notices, .mem, .log] u) :
    u = { s with header := u.header, notices := u.notices, mem := u.mem, log := u.log } := by
  have written : s.onlyIn [.header, .notices, .mem, .log] ({ s with
      header := u.header, notices := u.notices, mem := u.mem, log := u.log } : State) :=
    ((((State.header_only s u.header).sub (by decide)).next (State.notices_only { s with header := u.header } u.notices) (by decide)).next
      (State.mem_only { s with header := u.header, notices := u.notices } u.mem) (by decide)).next
      (State.log_only { s with header := u.header, notices := u.notices, mem := u.mem } u.log) (by decide)
  refine h.eq written fun f hf => ?_
  rcases List.mem_cons.mp hf with rfl | hf
  · rfl
  rcases List.mem_cons.mp hf with rfl | hf
  · rfl
  rcases List.mem_cons.mp hf with rfl | hf
  · rfl
  rcases List.mem_cons.mp hf with rfl | hf
  · rfl
  exact nomatch hf

/-! ## Every block at its power-on values -/

theorem getElem_map_bump {α : Type} {k : Nat} (v : Vector α k) (f : α → α) (i : Fin k) : (v.map f)[i] = f v[i] := Vector.getElem_map _ _

/-- The soft reset of a part that has written its RESTART record (R21). -/
theorem State.softReset_becomeReady (u : State) : u.softReset.becomeReady = { State.reset with
      part := .ready, resetLow := u.resetLow, hostData := u.hostData, header := u.softReset.becomeReady.header, clock := u.clock, mem := u.mem
      notices := { u.notices with waiting := u.softReset.becomeReady.notices.waiting, vectorHigh := none }
      log := u.log, nextHire := u.nextHire, draws := u.draws, pending := u.pending
      booths := u.softReset.becomeReady.booths, channels := u.softReset.becomeReady.channels, down := u.down, audio := u.audio
      framer := { State.reset.framer with changes := u.framer.changes + 2, frames := u.framer.frames, line := u.framer.line }
      positions := u.softReset.becomeReady.positions, receivers := u.softReset.becomeReady.receivers, hires := u.softReset.becomeReady.hires
      accounts := u.softReset.becomeReady.accounts, tariffs := u.softReset.becomeReady.tariffs } := by
  unfold State.becomeReady
  split <;> rfl

theorem State.softReset_tables (u : State) :
    (∀ b : BoothId, u.softReset.becomeReady.booth b = { State.reset.booth b with changes := (u.booth b).changes + 2 })
      ∧ (∀ c : ChannelId, u.softReset.becomeReady.channel c = { State.reset.channel c with changes := (u.channel c).changes + 2 })
      ∧ (∀ p : PosId, u.softReset.becomeReady.position p = { State.reset.position p with changes := (u.position p).changes + 2 })
      ∧ (∀ e : RecvId, u.softReset.becomeReady.receiver e = { State.reset.receiver e with changes := (u.receiver e).changes + 2 })
      ∧ (∀ h : HireId, u.softReset.becomeReady.hire h = { State.reset.hire h with changes := (u.hire h).changes + 2 })
      ∧ (∀ a : AcctId, u.softReset.becomeReady.account a = { State.reset.account a with changes := (u.account a).changes + 2 })
      ∧ ∀ k : TariffId, u.softReset.becomeReady.tariffs.get k = { State.reset.tariffs.get k with changes := (u.tariffs.get k).changes + 2 } := by
  have only := u.softReset.becomeReady_only
  have booths : u.softReset.becomeReady.booths = u.booths.map _ := only .booths (by decide)
  have channels : u.softReset.becomeReady.channels = Vector.ofFn _ := only .channels (by decide)
  have positions : u.softReset.becomeReady.positions = u.positions.map _ := only .positions (by decide)
  have receivers : u.softReset.becomeReady.receivers = u.receivers.map _ := only .receivers (by decide)
  have hires : u.softReset.becomeReady.hires = u.hires.map _ := only .hires (by decide)
  have accounts : u.softReset.becomeReady.accounts = u.accounts.map _ := only .accounts (by decide)
  have tariffs : u.softReset.becomeReady.tariffs = u.tariffs.map _ := only .tariffs (by decide)
  refine ⟨fun b => ?_, fun c => ?_, fun p => ?_, fun e => ?_, fun h => ?_, fun a => ?_, fun k => ?_⟩
  · rw [State.reset_booth, State.booth, booths, getElem_map_bump]
  · rw [State.channel, channels]
    exact Vector.getElem_ofFn c.isLt
  · rw [State.reset_position, State.position, positions, getElem_map_bump]
  · rw [State.reset_receiver, State.receiver, receivers, getElem_map_bump]
  · rw [State.reset_hire, State.hire, hires, getElem_map_bump]
  · rw [State.reset_account, State.account, accounts, getElem_map_bump]
  · rw [State.reset_tariff, tariffs]
    exact getElem_map_bump _ _ k

theorem State.becomeReady_header (u : State) : u.becomeReady.header.guardHits = u.header.guardHits
    ∧ u.becomeReady.header.postRefused = u.header.postRefused ∧ u.becomeReady.header.snapTicks = u.clock.run
    ∧ ({ seconds := u.becomeReady.header.snapSeconds, fraction := u.becomeReady.header.snapFraction } : Stamp)
        = (u.clock.calendarAt u.clock.run).getD Stamp.zero := by
  unfold State.becomeReady
  split <;> exact ⟨rfl, rfl, rfl, rfl⟩

theorem State.becomeReady_pending (u : State) (n : Notice) : u.becomeReady.isPending n = (u.isPending n || (n == .clock && !u.clock.valid)) := by
  unfold State.becomeReady
  by_cases valid : u.clock.valid = true
  · rw [if_pos valid, valid, Bool.not_true, Bool.and_false, Bool.or_false]
    rfl
  · have invalid : u.clock.valid = false := Bool.not_eq_true _ ▸ valid
    rw [if_neg valid, invalid, Bool.not_false, Bool.and_true]
    refine (State.isPending_raise _ .clock n).trans ?_
    rw [BEq.comm]
    rfl

end

/-- A part that has written its RESTART record and lost its waiting ones (R21, R169). -/
def State.logLost (s : State) (x : Half) (z : BitVec 16) (m : Memory) (a : Half) (l : Nat) : State :=
  { s with
    header := { s.header with changes := x }, notices := { s.notices with waiting := z }, mem := m
    log := { writeCount := a, policy := s.log.policy, lost := l, waiting := [] } }

theorem State.loseWaiting_eq (s : State) (law : s.memOk) : ∃ x : Half, s.restartTally.loseWaiting = s.logLost x s.restartTally.notices.waiting
    s.restartTally.mem s.restartTally.log.writeCount (satAdd 32 s.restartTally.log.lost s.log.waiting.length) := by
  obtain ⟨only, ⟨x, header⟩, notices, policy, waiting, -, -⟩ := s.restartTally_facts law
  have noted : s.restartTally.notices = { s.notices with waiting := s.restartTally.notices.waiting } := by
    rw [notices]
    split <;> rfl
  have logged : ({ s.restartTally.log with lost := satAdd 32 s.restartTally.log.lost s.restartTally.log.waiting.length, waiting := [] } : TallyLog)
      = { writeCount := s.restartTally.log.writeCount, policy := s.log.policy
          lost := satAdd 32 s.restartTally.log.lost s.log.waiting.length, waiting := [] } := by
    rw [← policy, waiting]
  refine ⟨x, ?_⟩
  unfold State.loseWaiting State.logLost
  rw [logged, ← header, ← noted]
  exact congrArg (fun u : State => ({ u with log := _ } : State)) only.tally_eq

/-- A record written: its count, what is lost for it, and its place (R163, R164). -/
theorem State.writeTally_facts {s : State} (law : s.memOk) (r : TallyRecord) :
    (s.writeTally r).log.writeCount = s.log.writeCount + 1
      ∧ (s.writeTally r).log.lost = (if s.log.policy = .overwrite ∧ 1024 ≤ s.unread then satAdd 32 s.log.lost 1 else s.log.lost)
      ∧ (s.writeTally r).readCount = (if s.log.policy = .overwrite ∧ 1024 ≤ s.unread then s.readCount + 1 else s.readCount)
      ∧ (∀ a : Nat, a ≠ 0x100 → a ≠ 0x101 → (a < tallyBase s.log.writeCount ∨ tallyBase s.log.writeCount + 64 ≤ a) →
          (s.writeTally r).mem.read8 a = s.mem.read8 a)
      ∧ (s.writeTally r).mem.Tally s.log.writeCount s.clock.run r := by
  refine ⟨by rw [State.writeTally_log], ?_, ?_, fun a h0 h1 far => State.writeTally_read8 r law h0 h1 far, State.writeTally_tally r law⟩
  · rw [State.writeTally_log]
    by_cases full : s.overwrites
    · exact (State.makeRoom_lost.1 full).trans (if_pos full).symm
    · exact (State.makeRoom_lost.2 full).trans (if_neg full).symm
  · rw [State.writeTally_readCount r law]
    by_cases full : s.overwrites
    · exact ((State.makeRoom_readCount law).1 full).trans (if_pos full).symm
    · exact ((State.makeRoom_readCount law).2 full).trans (if_neg full).symm

/-- Settles O12. -/
theorem softRestartClears : Obligations.SoftRestartClears := by
  refine ⟨fun s off => congrArg Host.Outcome.next (if_neg off), fun s restarting law => ?_⟩
  obtain ⟨-, -, notices, -, -, blocked, free⟩ := s.restartTally_facts law
  obtain ⟨x, lost⟩ := s.loseWaiting_eq law
  obtain ⟨w, hw⟩ : ∃ w, w = s.restartTally.loseWaiting := ⟨_, rfl⟩
  have next : exec .softRestartComplete s = .next w.softReset.becomeReady := by
    rw [hw]
    exact congrArg Host.Outcome.next (if_pos restarting)
  rw [lost] at hw
  obtain ⟨booths, channels, positions, receivers, hires, accounts, tariffs⟩ := w.softReset_tables
  obtain ⟨guardHits, postRefused, ticks, stamp⟩ := w.softReset.becomeReady_header
  have pending := w.softReset.becomeReady_pending
  have whole := w.softReset_becomeReady
  refine ⟨_, next, ?_, ?_⟩
  · have mem : w.softReset.becomeReady.mem = w.mem := w.softReset.becomeReady_only .mem (by decide)
    have log : w.softReset.becomeReady.log = w.log := w.softReset.becomeReady_only .log (by decide)
    refine whole.trans ?_
    rw [log, mem]
    generalize w.softReset.becomeReady = t
    rw [hw]
    rfl
  · have mem : w.softReset.becomeReady.mem = s.restartTally.mem := by
      rw [show w.softReset.becomeReady.mem = w.mem from w.softReset.becomeReady_only .mem (by decide), hw]
      rfl
    have log : w.softReset.becomeReady.log = { writeCount := s.restartTally.log.writeCount, policy := s.log.policy
                                               lost := satAdd 32 s.restartTally.log.lost s.log.waiting.length, waiting := [] } := by
      rw [show w.softReset.becomeReady.log = w.log from w.softReset.becomeReady_only .log (by decide), hw]
      rfl
    have reads : w.softReset.becomeReady.readCount = s.restartTally.readCount := congrArg (fun m : Memory => m.read16 0x100) mem
    have waits (n : Notice) : w.softReset.isPending n = (s.isPending n || (n == .log && !s.logBlocked && decide (s.unread = 767))) := by
      rw [show w.softReset.isPending n = s.restartTally.notices.waiting.getLsbD n.index by rw [hw]; rfl, notices]
      by_cases warns : s.logBlocked = false ∧ s.unread = 767
      · rw [if_pos warns, warns.1, decide_eq_true warns.2, Bool.not_false, Bool.and_true, Bool.and_true]
        refine (s.isPending_raise .log n).trans ?_
        rw [BEq.comm]
      · rw [if_neg warns]
        have quiet : (!s.logBlocked && decide (s.unread = 767)) = false := by
          cases stuck : s.logBlocked
          · exact decide_eq_false (fun e => warns ⟨stuck, e⟩)
          · rfl
        rw [Bool.and_assoc, quiet, Bool.and_false, Bool.or_false]
        rfl
    have raised (n : Notice) := (pending n).trans (congrArg (· || _) (waits n))
    generalize w.softReset.becomeReady = t at *
    refine ⟨fun b => ?_, fun c => ?_, fun p => ?_, fun e => ?_, fun h => ?_, fun a => ?_, fun k => ?_, ?_, ?_, ?_, ?_, fun n => ?_, fun a low high => ?_,
      fun stuck => ?_, fun open' => ?_⟩
    · rw [booths, hw]; rfl
    · rw [channels, hw]; rfl
    · rw [positions, hw]; rfl
    · rw [receivers, hw]; rfl
    · rw [hires, hw]; rfl
    · rw [accounts, hw]; rfl
    · rw [tariffs, hw]; rfl
    · rw [guardHits, hw]; rfl
    · rw [postRefused, hw]; rfl
    · rw [ticks, hw]; rfl
    · rw [stamp, hw]; rfl
    · rw [raised, hw, Bool.or_right_comm]; rfl
    · have bounds := tallyBase_bounds s.log.writeCount
      rw [mem]
      cases stuck : s.logBlocked with
      | true => rw [(blocked stuck).1]
      | false =>
        rw [free stuck]
        exact State.writeTally_read8 _ law (by omega) (by omega) (.inl (by omega))
    · obtain ⟨kept, counted⟩ := blocked stuck
      rw [mem, log, kept, counted]
      exact ⟨rfl, rfl, rfl⟩
    · obtain ⟨count, lostTo, readTo, bytes, tally⟩ := State.writeTally_facts law (.restarted s.restartCounts)
      rw [← free open'] at count lostTo readTo bytes tally
      rw [mem, log, reads]
      refine ⟨count, ?_, readTo, bytes, tally.kind, tally.body⟩
      show satAdd 32 _ _ = _
      rw [lostTo]
      rfl

end Sys2Proof.Machine
end

section
/-!
SUPPORT. A RESTART and the orders in hand (R17, R20, O11).
-/
namespace Sys2Proof.Machine

/-! ## The memory's form through every work -/

theorem memOk_reads : Reads State.memOk [.mem] := fun s t same h => by
  have mem : t.mem = s.mem := same .mem (List.mem_singleton.mpr rfl)
  rw [State.memOk, mem]
  exact h

theorem State.memOk_endOwner {s : State} (h : s.memOk) (o : StandingOwner) (r : Result) : (s.endOwner o r).memOk := by
  unfold State.endOwner
  split
  · exact State.complete_wf { s with orders := _ } _ _ h
  · exact h

theorem State.memOk_handTally {s : State} (h : s.memOk) (o : WaitOwner) (r : TallyRecord) : (s.handTally o r).memOk := by
  unfold State.handTally
  split
  · exact keeps_ite (P := State.memOk) h h
  · exact State.writeTally_wf _ h

theorem State.memOk_drainList : ∀ (l : List WaitEntry) {s : State}, s.memOk → (State.drainList l s).memOk
  | [], _, h => h
  | w :: l, s, h => by
    unfold State.drainList
    refine keeps_ite (P := State.memOk) (State.memOk_drainList l ?_) h
    exact memOk_reads.frame (State.release_only _ _) (by decide) (State.writeTally_wf (s := { s with log := _ }) _ h)

theorem memOk_keeps : CoreKeeps State.memOk where
  reads s t same h := memOk_reads s t (fun f hf => same f (by revert f; decide)) h
  raise _ _ h := h
  endOwner _ o r h := State.memOk_endOwner h o r
  handTally _ o r h := State.memOk_handTally h o r
  merged _ _ _ h := h
  numbered _ h := h

theorem memOk_order (n : SlotId) : OrderKeeps n State.memOk State.memOk where
  working := memOk_keeps
  after := memOk_keeps
  complete s r h := State.complete_wf s n r h
  stand s _ _ h := State.setHolder_wf s n _ h
  cancelQueued s t _ h := State.complete_wf { s with orders := _ } t _ h
  setNotice _ h := h
  setPolicy _ _ h _ := keeps_ite (P := State.memOk) (State.memOk_drainList _ h) h

/-! ## Orders aborted in turn -/

/-- A slot whose order has ended ABORTED (R17, R20). -/
def State.endedAborted (s : State) (n : SlotId) : Prop :=
  s.holder n = Holder.done ∧ s.mem.read8 (slotBase n + 6) = ResultCode.aborted.code ∧ s.mem.read8 (slotBase n + 7) = 0

theorem State.endedAborted.of_same {s t : State} {n : SlotId} (h : s.endedAborted n)
    (same : ∀ a : Nat, resultByte n a → t.mem.read8 a = s.mem.read8 a) : t.endedAborted n := by
  have at' (i : Nat) (hi : i < 2 ∨ (6 ≤ i ∧ i < 10)) : t.mem.read8 (slotBase n + i) = s.mem.read8 (slotBase n + i) :=
    same _ (by unfold resultByte; omega)
  exact ⟨(Memory.read16_of_eq (at' 0 (by omega)) (at' 1 (by omega))).trans h.1, (at' 6 (by omega)).trans h.2.1,
    (at' 7 (by omega)).trans h.2.2⟩

/-- From `s` to `t` the orders of the slots `l` have ended ABORTED, and no byte but those of their results has changed. -/
structure State.AbortsTo (s : State) (l : List SlotId) (t : State) : Prop where
  wf : t.memOk
  only : s.onlyIn [.mem, .channels, .notices] t
  notices : t.notices = (if l = [] then s else s.raise .order).notices
  ended : ∀ n ∈ l, t.endedAborted n
  outside : ∀ a : Nat, (∀ n ∈ l, ¬ resultByte n a) → t.mem.read8 a = s.mem.read8 a

namespace State.AbortsTo

variable {s t u : State} {l k : List SlotId}

theorem refl (h : s.memOk) : s.AbortsTo [] s := ⟨h, State.onlyIn_refl _ _, rfl, fun _ => (nomatch ·), fun _ _ => rfl⟩

theorem trans (h : s.AbortsTo l t) (g : t.AbortsTo k u) : s.AbortsTo (l ++ k) u where
  wf := g.wf
  only := h.only.next g.only (by decide)
  notices := by
    rw [g.notices]
    by_cases hk : k = []
    · rw [if_pos hk, h.notices, hk, List.append_nil]
    · rw [if_neg hk, if_neg (by simp [hk])]
      have raised : (t.raise .order).notices = { t.notices with waiting := t.notices.waiting ||| Notice.order.bit } := rfl
      rw [raised, h.notices]
      by_cases hl : l = []
      · rw [if_pos hl]
        rfl
      · rw [if_neg hl]
        exact congrArg State.notices (s.raise_twice .order)
  ended n hn := by
    by_cases last : n ∈ k
    · exact g.ended n last
    · have first := h.ended n ((List.mem_append.mp hn).resolve_right last)
      exact first.of_same fun a ha => g.outside a fun m hm => resultByte_apart (fun e : n = m => last (e.symm ▸ hm)) ha
  outside a away := (g.outside a fun n hn => away n (List.mem_append_right l hn)).trans
    (h.outside a fun n hn => away n (List.mem_append_left k hn))

/-- Orders aborted one after another. -/
theorem each {ι : Type} (slot : ι → SlotId) {f : State → ι → State} (one : ∀ (s : State) (i : ι), s.memOk → s.AbortsTo [slot i] (f s i)) :
    ∀ (l : List ι) {s : State}, s.memOk → s.AbortsTo (l.map slot) (s.each l f)
  | [], _, h => refl h
  | i :: l, s, h => (one s i h).trans (each slot one l (one s i h).wf)

end State.AbortsTo

theorem State.complete_aborts (s : State) (n : SlotId) (r : Result) (h : s.memOk) (code : r.code = .aborted) (reason : r.reason = .noReason) :
    s.AbortsTo [n] (s.complete n r) where
  wf := State.complete_wf s n r h
  only := (State.complete_only s n r).sub (by decide)
  notices := rfl
  ended k hk := by
    cases List.mem_singleton.mp hk
    obtain ⟨holder, c, q, -⟩ := State.complete_shows s n r h
    exact ⟨holder, by rw [c, code], by rw [q, reason]; rfl⟩
  outside a away := State.complete_read8 s n r h a (away n (List.mem_singleton.mpr rfl))

theorem State.abortStanding_aborts (s : State) (x : Standing) (h : s.memOk) : s.AbortsTo [x.slot] (s.abortStanding x) := by
  obtain ⟨n, owner, c⟩ := x
  cases owner with
  | issue i => exact State.complete_aborts s n _ h rfl rfl
  | handover d =>
    have ended := State.complete_aborts (s.writeChannel d (fun ch => { ch with schedule := none })) n
      (s.abortResult ⟨n, .handover d, c⟩) h rfl rfl
    exact ⟨ended.wf, (s.abortStanding_only _).sub (by decide), ended.notices, ended.ended, ended.outside⟩

/-- The order that was WORKING, if it is aborted here, the standing ones and the queued ones (R20). -/
def State.inHand (s : State) (w : Option (SlotId × Result)) : List SlotId :=
  (w.map Prod.fst).toList ++ s.orders.standing.map (fun x => x.slot) ++ s.orders.queue

theorem State.abortOrders_aborts {s : State} (h : s.memOk) {w : Option (SlotId × Result)}
    (aborted : ∀ n r, w = some (n, r) → r.code = .aborted ∧ r.reason = .noReason) :
    ∃ u : State, s.AbortsTo (s.inHand w) u ∧ s.abortOrders w = { u with orders := { queue := [], standing := [] } } := by
  have first : s.AbortsTo (w.map Prod.fst).toList (s.abortWorking w) := by
    cases w with
    | none => exact .refl h
    | some x => exact State.complete_aborts s x.1 x.2 h (aborted _ _ rfl).1 (aborted _ _ rfl).2
  have second := State.AbortsTo.each (fun x : Standing => x.slot) State.abortStanding_aborts s.orders.standing first.wf
  have third := State.AbortsTo.each (fun n : SlotId => n) (f := State.abortQueued)
    (fun t n ht => State.complete_aborts t n _ ht rfl rfl) s.orders.queue second.wf
  rw [List.map_id'] at third
  exact ⟨_, (first.trans second).trans third, rfl⟩

/-! ## The scheduled handovers of the aborted orders -/

theorem State.abortStanding_channel (s : State) (x : Standing) (c : ChannelId) : (s.abortStanding x).channel c
    = if x.owner = .handover c then { s.channel c with schedule := none, changes := (s.channel c).changes + 2 } else s.channel c := by
  obtain ⟨n, owner, clamped⟩ := x
  cases owner with
  | issue i =>
    unfold State.abortStanding
    dsimp only
    rw [State.complete_channel, if_neg (fun e => nomatch e)]
  | handover d =>
    unfold State.abortStanding
    dsimp only
    rw [State.complete_channel, State.channel_writeChannel]
    by_cases same : d = c
    · subst same
      rw [if_pos rfl, if_pos rfl]
      rfl
    · rw [if_neg (fun e => same e.symm), if_neg (fun e => same (StandingOwner.handover.inj e))]

theorem State.each_abortStanding_channel (c : ChannelId) : ∀ (l : List Standing) (s : State),
    ((∃ x ∈ l, x.owner = .handover c) → (s.each l State.abortStanding).channel c
      = { s.channel c with schedule := none, changes := ((s.each l State.abortStanding).channel c).changes })
    ∧ ((¬ ∃ x ∈ l, x.owner = .handover c) → (s.each l State.abortStanding).channel c = s.channel c)
  | [], _ => ⟨fun ⟨_, h, _⟩ => (nomatch h), fun _ => rfl⟩
  | x :: l, s => by
    have step := s.abortStanding_channel x c
    obtain ⟨some', none'⟩ := State.each_abortStanding_channel c l (s.abortStanding x)
    have unfolded : s.each (x :: l) State.abortStanding = (s.abortStanding x).each l State.abortStanding := rfl
    rw [unfolded]
    by_cases later : ∃ y ∈ l, y.owner = .handover c
    · refine ⟨fun _ => ?_, fun no => absurd ⟨_, List.mem_cons_of_mem x later.choose_spec.1, later.choose_spec.2⟩ no⟩
      refine (some' later).trans ?_
      generalize (((s.abortStanding x).each l State.abortStanding).channel c).changes = k
      rw [step]
      split <;> rfl
    · rw [none' later, step]
      refine ⟨fun ⟨y, hy, owner⟩ => ?_, fun no => if_neg fun owner => no ⟨x, List.mem_cons_self .., owner⟩⟩
      rcases List.mem_cons.mp hy with rfl | hy
      · rw [if_pos owner]
      · exact absurd ⟨y, hy, owner⟩ later

/-- What a read of PART_CONTROL gives (R17). -/
theorem State.portRead_control (s : State) (most : s.orders.queue.length ≤ 32) :
    (s.portRead 8).extractLsb' 0 2 = BitVec.ofNat 2 s.part.code ∧ (s.portRead 8).getLsbD 2 = s.clock.valid
      ∧ (s.portRead 8).extractLsb' 3 5 = 0 ∧ ((s.portRead 8).extractLsb' 8 8).toNat = s.orders.queue.length := by
  have read : s.portRead 8 = BitVec.ofNat 16 (s.part.code + (if s.clock.valid then 4 else 0) + 256 * s.orders.queue.length) := rfl
  have code : s.part.code < 4 := by cases s.part <;> decide
  rw [read]
  generalize s.part.code = c at *
  generalize s.orders.queue.length = k at *
  refine ⟨BitVec.eq_of_toNat_eq ?_, ?_, BitVec.eq_of_toNat_eq ?_, ?_⟩
  · simp only [BitVec.extractLsb'_toNat, BitVec.toNat_ofNat, Nat.shiftRight_zero]
    split <;> omega
  · rw [BitVec.getLsbD_ofNat, Nat.testBit_eq_decide_div_mod_eq]
    cases s.clock.valid <;> simp <;> omega
  · simp only [BitVec.extractLsb'_toNat, BitVec.toNat_ofNat, Nat.shiftRight_eq_div_pow]
    split <;> simp <;> omega
  · simp only [BitVec.extractLsb'_toNat, BitVec.toNat_ofNat, Nat.shiftRight_eq_div_pow]
    split <;> omega

/-- A RESTART is taken in READY alone, for the value 1 with both byte enables (R17). -/
theorem State.restart_ignored {s : State} {v : Half} {e : ByteEnables} (w : Bool) (h : s.part ≠ .ready ∨ v ≠ 1 ∨ e.both = false) :
    s.restart v e w = s := by
  unfold State.restart
  refine if_neg fun ⟨ready, one, both⟩ => ?_
  rcases h with h | h | h
  · exact h ready
  · exact h one
  · exact nomatch both.symm.trans h

theorem State.restart_taken {s : State} {e : ByteEnables} (w : Bool) (ready : s.part = .ready) (both : e.both = true) :
    exec (.restart 1 e w) s = .next (s.beginRestart w) :=
  congrArg Host.Outcome.next (if_pos ⟨ready, rfl, both⟩)

/-- A write of a port register that carries nothing (R17). -/
theorem State.portWrite_ignored (s : State) {a : BitVec 17} {v : Half} {e : ByteEnables}
    (h : (Instr.ignoredRegisterWrite a v e).wellFormed = true) : s.portWrite a v e = s := by
  have idle : portWriteCarries (byteOffset a) v e = false := by simpa [Instr.wellFormed] using h
  by_cases both : e.both = true
  · have plain : byteOffset a ≠ 0 ∧ byteOffset a ≠ 8 ∧ byteOffset a ≠ 12 ∧ (byteOffset a = 16 → v ≠ 1) := by
      simpa [portWriteCarries, both, and_assoc] using idle
    obtain ⟨post, pending, enabled, restart⟩ := plain
    unfold State.portWrite
    split
    · rename_i at'; exact absurd at' post
    · rename_i at'; exact absurd at' pending
    · rename_i at'; exact absurd at' enabled
    · rename_i at'; exact State.restart_ignored false (.inr (.inl (restart at')))
    · rfl
  · have both : e.both = false := Bool.not_eq_true _ ▸ both
    unfold State.portWrite
    split
    · rw [State.post, both]; rfl
    · exact State.clearPending_of_not_both s v both
    · exact State.setEnabled_of_not_both s v both
    · exact State.restart_ignored false (.inr (.inr both))
    · rfl

/-- The order found WORKING, once its block has finished, is in hand as the working order or as a standing one, and ends ABORTED (R17). -/
theorem State.finishWorking_facts {s : State} {n : SlotId} {rest : List SlotId} (queue : s.orders.queue = n :: rest) (law : s.memOk) :
    s.finishWorking.1.memOk ∧ n ∈ s.finishWorking.1.enterRestarting.inHand s.finishWorking.2
      ∧ ∀ k r, s.finishWorking.2 = some (k, r) → r.code = .aborted ∧ r.reason = .noReason := by
  have unfolded : s.finishWorking = ((orderWork s n (s.takeSlot n rest) n).1,
      (orderWork s n (s.takeSlot n rest) n).1.workingResult n (orderWork s n (s.takeSlot n rest) n).2) := by
    unfold State.finishWorking
    split
    · rename_i none'
      exact nomatch none'.symm.trans queue
    · rename_i k l some'
      obtain ⟨rfl, rfl⟩ := List.cons.inj (some'.symm.trans queue)
      rfl
  have worked := ((memOk_order n).work (State.takeSlot_wf s n rest law) (orderWork_kind s n)).same
  rw [unfolded]
  generalize orderWork s n (s.takeSlot n rest) n = x at worked
  obtain ⟨t, result⟩ := x
  refine ⟨worked, ?_, ?_⟩
  · show n ∈ ((t.workingResult n result).map Prod.fst).toList ++ t.orders.standing.map (fun x => x.slot) ++ t.orders.queue
    cases result with
    | some r => simp [State.workingResult]
    | none =>
      by_cases stands : t.orders.standing.any (fun y => y.slot = n) = true
      · obtain ⟨y, hy, slot⟩ := List.any_eq_true.mp stands
        refine List.mem_append_left _ (List.mem_append_right _ (List.mem_map.mpr ⟨y, hy, of_decide_eq_true slot⟩))
      · simp [State.workingResult, stands]
  · intro k r h
    cases result with
    | some q =>
      cases h
      exact ⟨rfl, rfl⟩
    | none =>
      have shown : (if t.orders.standing.any (fun y => y.slot = n) then none else some (n, t.shownAborted n)) = some (k, r) := h
      split at shown
      · exact nomatch shown
      · cases shown
        exact ⟨rfl, rfl⟩

theorem State.AbortsTo.eq {s u : State} {l : List SlotId} (h : s.AbortsTo l u) :
    u = { s with mem := u.mem, channels := u.channels, notices := u.notices } :=
  h.only.eq ((((s.mem_only u.mem).sub (by decide)).next (State.channels_only { s with mem := u.mem } u.channels) (by decide)).next
    (State.notices_only { s with mem := u.mem, channels := u.channels } u.notices) (by decide)) (by simp [StateField.same])

theorem State.inHand_eq_nil (s : State) : s.inHand none = [] ↔ s.orders.queue = [] ∧ s.orders.standing = [] := by
  simp [State.inHand, and_comm]

theorem State.mem_inHand {s : State} {n : SlotId} :
    n ∈ s.inHand none ↔ n ∈ s.orders.queue ∨ n ∈ s.orders.standing.map (fun x => x.slot) := by
  simp [State.inHand, or_comm]

/-- A RESTART taken between orders (R20). -/
theorem State.restart_between {s : State} (law : s.memOk) : ∃ u : State, s.enterRestarting.AbortsTo (s.inHand none) u
    ∧ s.beginRestart false = { u with orders := ⟨[], []⟩ } ∧ ∀ c : ChannelId,
      ((∃ x ∈ s.orders.standing, x.owner = .handover c) →
        u.channel c = { s.channel c with schedule := none, changes := (u.channel c).changes })
      ∧ ((¬ ∃ x ∈ s.orders.standing, x.owner = .handover c) → u.channel c = s.channel c) := by
  have second := State.AbortsTo.each (fun x : Standing => x.slot) State.abortStanding_aborts s.orders.standing (s := s.enterRestarting) law
  have third := State.AbortsTo.each (fun n : SlotId => n) (f := State.abortQueued)
    (fun t n ht => State.complete_aborts t n _ ht rfl rfl) s.orders.queue second.wf
  rw [List.map_id'] at third
  refine ⟨_, second.trans third, rfl, fun c => ?_⟩
  have queued : ∀ (l : List SlotId) (t : State), (t.each l State.abortQueued).channel c = t.channel c := by
    intro l t
    have only := State.each_only (w := State.abortQueued) (x := l) (fun t n _ => State.complete_only t n _) t
    exact congrArg (fun v : Vector Channel 32 => v.get c) (only .channels (by decide))
  rw [queued]
  exact State.each_abortStanding_channel c s.orders.standing s.enterRestarting

/-- Settles O11. -/
theorem restartAbortsOrders : Obligations.RestartAbortsOrders := by
  refine ⟨fun s most => ?_, fun v e w s h => congrArg Host.Outcome.next (State.restart_ignored w h), fun e s ready both law => ?_,
    fun e s n rest ready both law queue => ?_, fun a v e s h => congrArg Host.Outcome.next (s.portWrite_ignored h)⟩
  · obtain ⟨part, valid, zero, count⟩ := s.portRead_control most
    exact ⟨part, valid, zero, count, rfl⟩
  · obtain ⟨u, aborts, began, channels⟩ := State.restart_between law
    refine ⟨_, State.restart_taken false ready both, ?_⟩
    rw [began]
    refine ⟨?_, fun n hn => aborts.ended n (State.mem_inHand.mpr hn), fun a away => aborts.outside a fun n hn =>
      away n (State.mem_inHand.mp hn), channels⟩
    rw [aborts.eq, aborts.notices]
    by_cases idle : s.orders.queue = [] ∧ s.orders.standing = []
    · rw [if_pos idle, if_pos (s.inHand_eq_nil.mpr idle)]
      rfl
    · have raised : (s.enterRestarting.raise .order).notices
          = { s.notices with waiting := 0 ||| Notice.order.bit, enabled := 0, base := 0, stride := 0 } := rfl
      rw [if_neg idle, if_neg (fun h => idle (s.inHand_eq_nil.mp h)), raised, show (0 : Half) ||| Notice.order.bit = Notice.order.bit by decide]
      rfl
  · obtain ⟨wf, inHand, aborted⟩ := State.finishWorking_facts queue law
    obtain ⟨u, aborts, eq⟩ := State.abortOrders_aborts (s := s.finishWorking.1.enterRestarting) wf aborted
    refine ⟨_, State.restart_taken true ready both, ?_⟩
    have began : s.beginRestart true = { u with orders := ⟨[], []⟩ } := eq
    rw [began]
    exact ⟨aborts.only .part (by decide), rfl, rfl, aborts.ended n inHand⟩

end Sys2Proof.Machine
end

section
/-!
SUPPORT. An order refused changes nothing but its slot (R8, O13).
-/
namespace Sys2Proof.Machine

/-! ## The refusals of a work -/

/-- A work's end that is refused, if at all, with nothing changed. -/
def RefusesAlone (s : State) (x : State × Option Result) : Prop :=
  ∀ r : Result, x.2 = some r → r.code = .refused → ∃ q : Reason, x = refuse s q

section
variable (s : State) (n : SlotId)

/-- Every work but HANDOVER's refuses before it changes anything (R8). -/
theorem OrderWork.refusesAlone {k : Nat} {w : Work} (h : OrderWork k w) (handover : k ≠ 14) : RefusesAlone s (w s n) := by
  intro r result code
  cases h with
  | setNotice => cases result; exact nomatch code
  | setTimers => cases result; exact nomatch code
  | setClock => cases result; exact nomatch code
  | unknown => exact ⟨_, rfl⟩
  | handover => exact absurd rfl handover
  | issue =>
    unfold workIssue at *
    grind [refuse, State.issue, State.issueResult]
  | setLogPolicy => unfold workSetLogPolicy at *; grind [refuse, Result.done, Result.doneAlready]
  | cancel => unfold workCancel at *; grind [refuse, Result.done]
  | clearDocks => unfold workClearDocks at *; grind [refuse, Result.done]
  | clearLinks => unfold workClearLinks at *; grind [refuse, Result.done]
  | boothDefine => unfold workBoothDefine at *; grind [refuse, Result.done, Result.doneClamped]
  | linkHold => unfold workLinkHold at *; grind [refuse, Result.done, Result.doneAlready]
  | linkRelease => unfold workLinkRelease at *; grind [refuse, Result.done]
  | boothIntake => unfold workBoothIntake at *; grind [refuse, Result.done, Result.doneAlready]
  | seatAssign => unfold workSeatAssign at *; grind [refuse, Result.done, Result.doneAlready]
  | channelDefine => unfold workChannelDefine at *; grind [refuse, Result.done]
  | channelClear => unfold workChannelClear at *; grind [refuse, Result.done, Result.doneAlready]
  | setDistribution => unfold workSetDistribution at *; grind [refuse, Result.done, Result.doneAlready]
  | declareLost => unfold workDeclareLost at *; grind [refuse, Result.done]
  | retireReceiver => unfold workRetireReceiver at *; grind [refuse, Result.done]
  | restoreReceiver => unfold workRestoreReceiver at *; grind [refuse, Result.done]
  | setTariff => unfold workSetTariff at *; grind [refuse, Result.done, Result.doneClamped]
  | accountOpen => unfold workAccountOpen at *; grind [refuse, Result.done, Result.doneClamped]
  | accountPay => unfold workAccountPay at *; grind [refuse, Result.done, Result.doneClamped]
  | accountRefund => unfold workAccountRefund at *; grind [refuse, Result.done, Result.doneClamped]
  | accountClose => unfold workAccountClose at *; grind [refuse, Result.done]


/-- HANDOVER is refused, its result values written (R88), or stands (R86). -/
theorem workHandover_cases : (∃ (q : Reason) (v : List Byte), workHandover s n = (s, some { Result.refused q with values := v }))
    ∨ ∃ (c : ChannelId) (h : Schedule) (now clamped : Bool), (s.channel c).schedule = none
        ∧ workHandover s n = (s.schedule n c h now clamped, none) := by
  unfold workHandover
  split
  · dsimp only
    split
    · exact .inl ⟨_, _, rfl⟩
    · split
      · exact .inl ⟨_, _, rfl⟩
      · split
        · exact .inl ⟨_, _, rfl⟩
        · rename_i free
          split
          · exact .inl ⟨_, _, rfl⟩
          · exact .inr ⟨_, _, _, _, by simpa using fun some => free (.inr (.inr some)), rfl⟩
  · exact .inl ⟨_, _, rfl⟩
  · exact .inl ⟨_, _, rfl⟩

/-- An ISSUE that is left standing is a reservation (R123). -/
theorem workIssue_stands (stands : (workIssue s n).2 = none) : ∃ (h : HireId) (x : Hire) (p : ChannelId) (c : Bool),
    (workIssue s n).1 = s.reserve n h x p c := by
  unfold workIssue at *
  grind [refuse, State.issue]

end

theorem ResultCode.code_eq_refused {c : ResultCode} : c.code = ResultCode.refused.code ↔ c = .refused := by cases c <;> decide

/-- The result code of a slot is not REFUSED. -/
def State.unrefused (s : State) (n : SlotId) : Prop := s.memOk ∧ s.mem.read8 (slotBase n + 6) ≠ ResultCode.refused.code

section
variable {s t : State} {n : SlotId}

theorem State.unrefused.of_mem (h : s.unrefused n) (mem : t.mem = s.mem) : t.unrefused n := by
  rw [State.unrefused, State.memOk, mem]
  exact h

theorem State.unrefused.stand (h : s.unrefused n) (k : SlotId) (o : StandingOwner) (c : Bool) : (s.makeStanding k o c).unrefused n := by
  refine ⟨State.setHolder_wf s k _ h.1, ?_⟩
  have kept := State.setHolder_read8 s k Holder.standing (slotBase n + 6) h.1 (by unfold slotBase; omega)
  exact fun e => h.2 (kept.symm.trans e)

theorem State.unrefused.complete (h : s.unrefused n) (k : SlotId) {r : Result} (code : r.code ≠ .refused) : (s.complete k r).unrefused n := by
  refine ⟨State.complete_wf s k r h.1, ?_⟩
  by_cases same : n = k
  · subst same
    rw [(State.complete_shows s n r h.1).2.1]
    exact fun e => code (ResultCode.code_eq_refused.mp e)
  · rw [State.complete_read8 s k r h.1 _ (resultByte_apart same (by unfold resultByte; omega))]
    exact h.2

theorem State.unrefused.endOwner (h : s.unrefused n) (o : StandingOwner) {r : Result} (code : r.code ≠ .refused) :
    (s.endOwner o r).unrefused n := by
  unfold State.endOwner
  split
  · exact State.unrefused.complete (s := { s with orders := _ }) h _ code
  · exact h

theorem State.unrefused.compareSchedule (h : s.unrefused n) (c : ChannelId) : (s.compareSchedule c).unrefused n := by
  rcases s.compareSchedule_cases c with ⟨-, moved⟩ | ⟨-, -, ended⟩
  · rw [moved]
    exact h
  · rw [ended, State.endSchedule_eq]
    exact State.unrefused.endOwner (s := s.rescheduled c none) h _ (fun e => nomatch e)

theorem State.unrefused.target (h : s.unrefused n) (c : ChannelId) : (s.target c).unrefused n := by
  unfold State.target
  split
  · split
    · exact h
    · split
      · rw [State.endSchedule_eq]
        exact State.unrefused.endOwner (s := s.rescheduled c none) h _ (fun e => nomatch e)
      · exact h
  · exact h

theorem State.unrefused.warn (h : s.unrefused n) (c : ChannelId) : (s.warn c).unrefused n :=
  h.of_mem (s.warn_only c .mem (by decide))

theorem State.unrefused.schedule (h : s.unrefused n) (k : SlotId) (c : ChannelId) (x : Schedule) (now clamped : Bool) :
    (s.schedule k c x now clamped).unrefused n := by
  have stood : (s.stood k c x clamped).unrefused n := State.unrefused.stand (s := s.rescheduled c (some x)) h k _ clamped
  rw [State.schedule_eq]
  refine State.unrefused.of_mem ?_ (State.settleChannel_only _ s c .mem (by decide))
  exact keeps_ite (P := fun u => u.unrefused n) ((stood.warn c).target c) (stood.compareSchedule c)

theorem State.unrefused.reserve (h : s.unrefused n) (k : SlotId) (i : HireId) (x : Hire) (p : ChannelId) (c : Bool) :
    (s.reserve k i x p c).unrefused n := by
  unfold State.reserve
  dsimp only
  refine State.unrefused.stand (h.of_mem ?_) k _ c
  refine (State.requestPreset_only _ _ _ .mem (by decide)).trans ((State.relampHolder_only _ _ .mem (by decide)).trans ?_)
  rfl

/-- An order that is left standing does not show REFUSED (R9). -/
theorem OrderWork.stands_unrefused {k : Nat} {w : Work} (h : OrderWork k w) (u : s.unrefused n) (stands : (w s n).2 = none) :
    (w s n).1.unrefused n := by
  by_cases handover : k = 14
  · cases h with
    | unknown => exact nomatch stands
    | handover =>
      rcases workHandover_cases s n with ⟨q, v, ended⟩ | ⟨c, x, now, clamped, -, stood⟩
      · exact nomatch (congrArg Prod.snd ended).symm.trans stands
      · exact congrArg Prod.fst stood ▸ u.schedule n c x now clamped
    | _ => exact absurd handover (by decide)
  · by_cases issue : k = 16
    · cases h with
      | unknown => exact nomatch stands
      | issue =>
        obtain ⟨i, x, p, c, reserved⟩ := workIssue_stands s n stands
        exact reserved ▸ u.reserve n i x p c
      | _ => exact absurd issue (by decide)
    · obtain ⟨r, result⟩ := h.answered handover issue s n
      exact nomatch stands.symm.trans result

/-- An order taken shows no result (R7). -/
theorem State.takeSlot_unrefused (s : State) (n : SlotId) (rest : List SlotId) (h : s.memOk) : (s.takeSlot n rest).unrefused n := by
  refine ⟨State.takeSlot_wf s n rest h, ?_⟩
  have zeroed : (s.takeSlot n rest).mem.read8 (slotBase n + 6) = 0 := by
    have wf : (({ s with orders := { s.orders with queue := rest } } : State).setHolder n Holder.working).memOk := State.setHolder_wf _ n _ h
    refine (State.writeResult_read8 _ n 0 0 0 [] _ wf).trans ?_
    rw [if_neg (by omega), if_pos (by omega), Nat.sub_self]
    rfl
  rw [zeroed]
  decide

/-- The work of any order that ends showing REFUSED has left all but the slot as it was taken (R8). -/
theorem OrderWork.refused {k : Nat} {w : Work} (h : OrderWork k w) (u : s.unrefused n)
    (shown : (finishOrder n (w s n)).mem.read8 (slotBase n + 6) = ResultCode.refused.code) :
    ∃ (q : Reason) (v : List Byte), w s n = (s, some { Result.refused q with values := v }) ∧ (k ≠ 14 → v = []) := by
  have wf := ((memOk_order n).work u.1 h).same
  cases result : (w s n).2 with
  | none =>
    have stands := h.stands_unrefused u result
    have left : finishOrder n (w s n) = (w s n).1 := by unfold finishOrder; rw [result]
    exact absurd (left ▸ shown) stands.2
  | some r =>
    have ended : finishOrder n (w s n) = (w s n).1.complete n r := by unfold finishOrder; rw [result]
    have code : r.code = .refused := by
      rw [ended, (State.complete_shows _ n r wf).2.1] at shown
      exact ResultCode.code_eq_refused.mp shown
    by_cases handover : k = 14
    · cases h with
      | handover =>
        rcases workHandover_cases s n with ⟨q, v, ended⟩ | ⟨c, x, now, clamped, -, stood⟩
        · exact ⟨q, v, ended, fun other => absurd rfl other⟩
        · exact nomatch result.symm.trans (congrArg Prod.snd stood)
      | unknown => exact ⟨_, _, rfl, fun _ => rfl⟩
      | _ => exact absurd handover (by decide)
    · obtain ⟨q, ended⟩ := h.refusesAlone s n handover r result code
      exact ⟨q, [], ended, fun _ => rfl⟩

end

/-- Settles O13. -/
theorem refusedOrderChangesOnlyItsSlot : Obligations.RefusedOrderChangesOnlyItsSlot := by
  refine ⟨fun s k n rest h outside => ?_, fun i hi s t k n rest h ran rest' shown => ?_⟩
  · refine State.completes_same (isMine := unknownKind) (work := workUnknown) h ?_ rfl rfl (s.takeSlot_taken n rest) rfl
    simp [unknownKind, h.2.2.1, outside]
  · obtain ⟨ready, queue, kind, law⟩ := h
    rcases State.run_order hi s with idle | ⟨m, rest'', -, front, worked⟩
    · have still : t = s := (State.run_eq ran).symm.trans idle
      rw [still, queue] at rest'
      exact absurd rest' (List.cons_ne_self n rest)
    · obtain ⟨rfl, rfl⟩ := List.cons.inj (queue.symm.trans front)
      have ended : t = finishOrder n (orderWork s n (s.takeSlot n rest) n) := (State.run_eq ran).symm.trans worked
      have work := kind ▸ orderWork_kind s n
      obtain ⟨q, v, refused, values⟩ := work.refused (s.takeSlot_unrefused n rest law) (ended ▸ shown)
      refine ⟨q, v, ?_, ?_, values⟩
      · rw [ended, refused]
        exact (State.complete_eq _ n _).trans (by rw [State.takeSlot_taken]; rfl)
      · rw [ended, refused]
        exact ⟨State.complete_shows _ n _ (State.takeSlot_wf s n rest law), fun a away =>
          (State.complete_read8 _ n _ (State.takeSlot_wf s n rest law) a away).trans (State.takeSlot_read8 s n rest law a away)⟩

end Sys2Proof.Machine
end

section
/-!
SUPPORT. The hire law (R120) in two parts: receiver entries and hire records name one another, and the standing list and the wait list agree
with the hires' states.
-/
namespace Sys2Proof.Machine

/-! ## The two parts of the law -/

/-- An entry that a hire names: RESERVED, ON_HIRE or SILENT. -/
def RecvState.hired : RecvState → Bool
  | .reserved | .onHire | .silent => true
  | .unenrolled | .docked | .adrift | .lost | .retired => false

/-- A hire that names its entry: RESERVING or OPEN. -/
def HireState.running : HireState → Bool
  | .reserving | .opened => true
  | .free | .closedWaiting => false

/-- Receiver entries and hire records name one another in matching states, and an entry in no hire names none (R120). -/
structure State.EntriesHold (s : State) : Prop where
  serial : ∀ e : RecvId, (s.receiver e).serial = 0 ↔ (s.receiver e).state = .unenrolled
  reserving : ∀ h : HireId, (s.hire h).state = .reserving →
    (s.receiver (s.hire h).receiver).state = .reserved ∧ (s.receiver (s.hire h).receiver).hire = some h
  opened : ∀ h : HireId, (s.hire h).state = .opened →
    ((s.receiver (s.hire h).receiver).state = .onHire ∨ (s.receiver (s.hire h).receiver).state = .silent)
      ∧ (s.receiver (s.hire h).receiver).hire = some h
  reserved : ∀ e : RecvId, (s.receiver e).state = .reserved → ∃ h : HireId,
    (s.receiver e).hire = some h ∧ (s.hire h).state = .reserving ∧ (s.hire h).receiver = e
  hired : ∀ e : RecvId, ((s.receiver e).state = .onHire ∨ (s.receiver e).state = .silent) → ∃ h : HireId,
    (s.receiver e).hire = some h ∧ (s.hire h).state = .opened ∧ (s.hire h).receiver = e
  idle : ∀ e : RecvId, (s.receiver e).state.hired = false → (s.receiver e).state ≠ .unenrolled → (s.receiver e).hire = none

/-- The hires of the wait list's HIRE_CLOSED records, in the list's order. -/
def State.closedInLine (s : State) : List HireId := s.log.waiting.filterMap WaitEntry.hire?

/-- The owners of the standing orders, in the list's order. -/
def State.owners (s : State) : List StandingOwner := s.orders.standing.map (fun x => x.owner)

/-- The standing orders wait for RESERVING hires and scheduled handovers, each once (R9); a hire is CLOSED_PENDING exactly while its record
waits (R136), but for `x`, which has closed and whose record is about to be handed. -/
structure State.ListsHold (x : Option HireId) (s : State) : Prop where
  once : s.owners.Nodup
  issues : ∀ h : HireId, .issue h ∈ s.owners → (s.hire h).state = .reserving
  handovers : ∀ c : ChannelId, .handover c ∈ s.owners → (s.channel c).schedule.isSome = true
  inLine : s.closedInLine.Nodup
  waiting : ∀ h : HireId, h ∈ s.closedInLine ↔ (s.hire h).state = .closedWaiting ∧ x ≠ some h
  closing : ∀ h : HireId, x = some h → (s.hire h).state = .closedWaiting

/-- The hire law, while the record of `x` is about to be handed. -/
structure State.HiresHold (x : Option HireId) (s : State) : Prop where
  entries : s.EntriesHold
  lists : s.ListsHold x

theorem State.hiresHold_iff {s : State} : s.HiresHold none ↔ s.hiresOk := by
  constructor
  · rintro ⟨⟨serial, reserving, opened, reserved, hired, idle⟩, ⟨once, issues, handovers, inLine, waiting, -⟩⟩
    refine ⟨serial, reserving, opened, reserved, hired, fun e h => ?_, once, fun t ht => ?_, inLine, fun h => ?_⟩
    · refine idle e ?_ ?_
      · rcases h with h | h | h | h <;> rw [h] <;> rfl
      · rcases h with h | h | h | h <;> rw [h] <;> exact fun e => nomatch e
    · have owned : t.owner ∈ s.owners := List.mem_map_of_mem ht
      split
      · rename_i h own
        exact issues h (own ▸ owned)
      · rename_i c own
        exact handovers c (own ▸ owned)
    · exact ((waiting h).trans (and_iff_left fun e => nomatch e)).symm
  · rintro ⟨serial, reserving, opened, reserved, hired, idle, once, owned, inLine, waiting⟩
    refine ⟨⟨serial, reserving, opened, reserved, hired, fun e out enrolled => idle e ?_⟩, ⟨once, fun h m => ?_, fun c m => ?_, inLine,
      fun h => ?_, fun h e => nomatch e⟩⟩
    · cases state : (s.receiver e).state with
      | docked | adrift | lost | retired => simp
      | unenrolled => exact absurd state enrolled
      | reserved | onHire | silent => rw [state] at out; exact nomatch out
    · obtain ⟨t, ht, own⟩ := List.mem_map.mp m
      have waits := owned t ht
      rw [own] at waits
      exact waits
    · obtain ⟨t, ht, own⟩ := List.mem_map.mp m
      have waits := owned t ht
      rw [own] at waits
      exact waits
    · exact ((waiting h).symm.trans (and_iff_left fun e => nomatch e).symm)

/-! ## Entries and hires changed -/

/-- An entry with the serial and the hire of another, in its state or as hired as it. -/
structure Receiver.likeIn (r q : Receiver) : Prop where
  serial : r.serial = q.serial
  hire : r.hire = q.hire
  state : r.state = q.state ∨ ((q.state = .onHire ∨ q.state = .silent) ∧ (r.state = .onHire ∨ r.state = .silent))

/-- A hire record in the state of another, naming the same entry. -/
def Hire.likeIn (r q : Hire) : Prop := r.state = q.state ∧ r.receiver = q.receiver

theorem Receiver.likeIn_refl (r : Receiver) : r.likeIn r := ⟨rfl, rfl, .inl rfl⟩

theorem Hire.likeIn_refl (r : Hire) : r.likeIn r := ⟨rfl, rfl⟩

namespace Receiver.likeIn

variable {r q : Receiver} (h : r.likeIn q)
include h

theorem reserved : r.state = .reserved ↔ q.state = .reserved := by
  rcases h.state with e | ⟨e, f⟩
  · rw [e]
  · rcases e with e | e <;> rcases f with f | f <;> simp [e, f]

theorem onHire : (r.state = .onHire ∨ r.state = .silent) ↔ (q.state = .onHire ∨ q.state = .silent) := by
  rcases h.state with e | ⟨e, f⟩
  · rw [e]
  · exact ⟨fun _ => e, fun _ => f⟩

theorem unenrolled : r.state = .unenrolled ↔ q.state = .unenrolled := by
  rcases h.state with e | ⟨e, f⟩
  · rw [e]
  · rcases e with e | e <;> rcases f with f | f <;> simp [e, f]

theorem hired : r.state.hired = q.state.hired := by
  rcases h.state with e | ⟨e, f⟩
  · rw [e]
  · rcases e with e | e <;> rcases f with f | f <;> rw [e, f] <;> rfl

end Receiver.likeIn

section
variable {s t : State}

/-- The law reads of the records only what is alike. -/
theorem State.EntriesHold.of_like (law : s.EntriesHold) (entries : ∀ e, (t.receiver e).likeIn (s.receiver e))
    (hires : ∀ h, (t.hire h).likeIn (s.hire h)) : t.EntriesHold where
  serial e := by rw [(entries e).serial, (entries e).unenrolled]; exact law.serial e
  reserving h state := by
    obtain ⟨same, named⟩ := hires h
    rw [named, (entries _).reserved, (entries _).hire]
    exact law.reserving h (same ▸ state)
  opened h state := by
    obtain ⟨same, named⟩ := hires h
    rw [named, (entries _).onHire, (entries _).hire]
    exact law.opened h (same ▸ state)
  reserved e state := by
    obtain ⟨h, hire, reserving, named⟩ := law.reserved e ((entries e).reserved.mp state)
    exact ⟨h, (entries e).hire.trans hire, (hires h).1.trans reserving, (hires h).2.trans named⟩
  hired e state := by
    obtain ⟨h, hire, opened, named⟩ := law.hired e ((entries e).onHire.mp state)
    exact ⟨h, (entries e).hire.trans hire, (hires h).1.trans opened, (hires h).2.trans named⟩
  idle e out enrolled := by
    rw [(entries e).hire]
    exact law.idle e ((entries e).hired ▸ out) (fun u => enrolled ((entries e).unenrolled.mpr u))

/-- What an entry and a hire of the law, apart from all others, come to. -/
structure State.Fits (t : State) (h : HireId) (e : RecvId) : Prop where
  serial : (t.receiver e).serial = 0 ↔ (t.receiver e).state = .unenrolled
  reserving : (t.hire h).state = .reserving → (t.hire h).receiver = e ∧ (t.receiver e).state = .reserved ∧ (t.receiver e).hire = some h
  opened : (t.hire h).state = .opened →
    (t.hire h).receiver = e ∧ ((t.receiver e).state = .onHire ∨ (t.receiver e).state = .silent) ∧ (t.receiver e).hire = some h
  reserved : (t.receiver e).state = .reserved → (t.hire h).state = .reserving
  hired : (t.receiver e).state = .onHire ∨ (t.receiver e).state = .silent → (t.hire h).state = .opened
  idle : (t.receiver e).state.hired = false → (t.receiver e).state ≠ .unenrolled → (t.receiver e).hire = none

theorem RecvState.hired_of {r : RecvState} (h : r = .reserved ∨ r = .onHire ∨ r = .silent) : r.hired = true := by
  rcases h with rfl | rfl | rfl <;> rfl

theorem HireState.running_of {r : HireState} (h : r = .reserving ∨ r = .opened) : r.running = true := by rcases h with rfl | rfl <;> rfl

/-- A hire and its entry change together: neither has to do with any other (R120). -/
theorem State.EntriesHold.pair (law : s.EntriesHold) {h : HireId} {e : RecvId} (entries : ∀ d, d ≠ e → t.receiver d = s.receiver d)
    (hires : ∀ k, k ≠ h → t.hire k = s.hire k) (apartHire : (s.hire h).state.running = true → (s.hire h).receiver = e)
    (apartEntry : (s.receiver e).state.hired = true → (s.receiver e).hire = some h) (fits : t.Fits h e) : t.EntriesHold where
  serial d := by
    by_cases own : d = e
    · exact own ▸ fits.serial
    · rw [entries d own]; exact law.serial d
  reserving k state := by
    by_cases own : k = h
    · subst own
      obtain ⟨named, rest⟩ := fits.reserving state
      exact named.symm ▸ rest
    · rw [hires k own] at state ⊢
      obtain ⟨reserved, hire⟩ := law.reserving k state
      have other : (s.hire k).receiver ≠ e := fun same => own (Option.some.inj (hire.symm.trans
        (same ▸ apartEntry (RecvState.hired_of (.inl (same ▸ reserved))))))
      rw [entries _ other]
      exact ⟨reserved, hire⟩
  opened k state := by
    by_cases own : k = h
    · subst own
      obtain ⟨named, rest⟩ := fits.opened state
      exact named.symm ▸ rest
    · rw [hires k own] at state ⊢
      obtain ⟨out, hire⟩ := law.opened k state
      have other : (s.hire k).receiver ≠ e := fun same => own (Option.some.inj (hire.symm.trans
        (same ▸ apartEntry (RecvState.hired_of (.inr (same ▸ out))))))
      rw [entries _ other]
      exact ⟨out, hire⟩
  reserved d state := by
    by_cases own : d = e
    · subst own
      have reserving := fits.reserved state
      exact ⟨h, (fits.reserving reserving).2.2, reserving, (fits.reserving reserving).1⟩
    · rw [entries d own] at state ⊢
      obtain ⟨k, hire, reserving, named⟩ := law.reserved d state
      have other : k ≠ h := fun same => own (named.symm.trans (same.symm ▸ apartHire (HireState.running_of (.inl (same ▸ reserving)))))
      exact ⟨k, hire, (hires k other).symm ▸ reserving, (hires k other).symm ▸ named⟩
  hired d state := by
    by_cases own : d = e
    · subst own
      have opened := fits.hired state
      exact ⟨h, (fits.opened opened).2.2, opened, (fits.opened opened).1⟩
    · rw [entries d own] at state ⊢
      obtain ⟨k, hire, opened, named⟩ := law.hired d state
      have other : k ≠ h := fun same => own (named.symm.trans (same.symm ▸ apartHire (HireState.running_of (.inr (same ▸ opened)))))
      exact ⟨k, hire, (hires k other).symm ▸ opened, (hires k other).symm ▸ named⟩
  idle d out enrolled := by
    by_cases own : d = e
    · subst own
      exact fits.idle out enrolled
    · rw [entries d own] at out enrolled ⊢
      exact law.idle d out enrolled

/-- An entry that is in no hire changes. -/
theorem State.EntriesHold.entry (law : s.EntriesHold) {e : RecvId} (entries : ∀ d, d ≠ e → t.receiver d = s.receiver d)
    (hires : ∀ h, t.hire h = s.hire h) (was : (s.receiver e).state.hired = false) (now : (t.receiver e).state.hired = false)
    (serial : (t.receiver e).serial = 0 ↔ (t.receiver e).state = .unenrolled)
    (idle : (t.receiver e).state ≠ .unenrolled → (t.receiver e).hire = none) : t.EntriesHold where
  serial d := by
    by_cases own : d = e
    · exact own ▸ serial
    · rw [entries d own]; exact law.serial d
  reserving k state := by
    rw [hires] at state ⊢
    obtain ⟨reserved, hire⟩ := law.reserving k state
    rw [entries _ (fun same => nomatch was.symm.trans (RecvState.hired_of (.inl (same ▸ reserved))))]
    exact ⟨reserved, hire⟩
  opened k state := by
    rw [hires] at state ⊢
    obtain ⟨out, hire⟩ := law.opened k state
    rw [entries _ (fun same => nomatch was.symm.trans (RecvState.hired_of (.inr (same ▸ out))))]
    exact ⟨out, hire⟩
  reserved d state := by
    have other : d ≠ e := fun own => nomatch now.symm.trans (RecvState.hired_of (.inl (own ▸ state)))
    rw [entries d other] at state ⊢
    obtain ⟨k, hire, reserving, named⟩ := law.reserved d state
    exact ⟨k, hire, (hires k).symm ▸ reserving, (hires k).symm ▸ named⟩
  hired d state := by
    have other : d ≠ e := fun own => nomatch now.symm.trans (RecvState.hired_of (.inr (own ▸ state)))
    rw [entries d other] at state ⊢
    obtain ⟨k, hire, opened, named⟩ := law.hired d state
    exact ⟨k, hire, (hires k).symm ▸ opened, (hires k).symm ▸ named⟩
  idle d out enrolled := by
    by_cases own : d = e
    · subst own
      exact idle enrolled
    · rw [entries d own] at out enrolled ⊢
      exact law.idle d out enrolled

/-- A hire that names no entry changes, and names none. -/
theorem State.EntriesHold.record (law : s.EntriesHold) {h : HireId} (entries : ∀ e, t.receiver e = s.receiver e)
    (hires : ∀ k, k ≠ h → t.hire k = s.hire k) (was : (s.hire h).state.running = false) (now : (t.hire h).state.running = false) :
    t.EntriesHold where
  serial e := by rw [entries]; exact law.serial e
  reserving k state := by
    have other : k ≠ h := fun own => nomatch now.symm.trans (HireState.running_of (.inl (own ▸ state)))
    rw [hires k other] at state ⊢
    rw [entries]
    exact law.reserving k state
  opened k state := by
    have other : k ≠ h := fun own => nomatch now.symm.trans (HireState.running_of (.inr (own ▸ state)))
    rw [hires k other] at state ⊢
    rw [entries]
    exact law.opened k state
  reserved e state := by
    rw [entries] at state ⊢
    obtain ⟨k, hire, reserving, named⟩ := law.reserved e state
    have other : k ≠ h := fun own => nomatch was.symm.trans (HireState.running_of (.inl (own ▸ reserving)))
    exact ⟨k, hire, (hires k other).symm ▸ reserving, (hires k other).symm ▸ named⟩
  hired e state := by
    rw [entries] at state ⊢
    obtain ⟨k, hire, opened, named⟩ := law.hired e state
    have other : k ≠ h := fun own => nomatch was.symm.trans (HireState.running_of (.inr (own ▸ opened)))
    exact ⟨k, hire, (hires k other).symm ▸ opened, (hires k other).symm ▸ named⟩
  idle e out enrolled := by
    rw [entries] at out enrolled ⊢
    exact law.idle e out enrolled

/-! ## The lists -/

/-- Standing orders that leave the list, one owner's with them, and hires and handovers that no other order waits for. -/
theorem State.ListsHold.ended {x : Option HireId} (law : s.ListsHold x) {o : StandingOwner} (sub : t.owners.Sublist s.owners) (gone : o ∉ t.owners)
    (issues : ∀ h, .issue h ≠ o → (s.hire h).state = .reserving → (t.hire h).state = .reserving)
    (handovers : ∀ c, .handover c ≠ o → (s.channel c).schedule.isSome = true → (t.channel c).schedule.isSome = true)
    (inLine : t.closedInLine = s.closedInLine) (closed : ∀ h, (t.hire h).state = .closedWaiting ↔ (s.hire h).state = .closedWaiting) :
    t.ListsHold x where
  once := law.once.sublist sub
  issues h m := issues h (fun e => gone (e ▸ m)) (law.issues h (sub.subset m))
  handovers c m := handovers c (fun e => gone (e ▸ m)) (law.handovers c (sub.subset m))
  inLine := by rw [inLine]; exact law.inLine
  waiting h := by rw [inLine, closed]; exact law.waiting h
  closing h e := (closed h).mpr (law.closing h e)

/-- The lists stay, and with them what they wait for. -/
theorem State.ListsHold.of_same {x : Option HireId} (law : s.ListsHold x) (owners : t.owners = s.owners)
    (issues : ∀ h, (s.hire h).state = .reserving → (t.hire h).state = .reserving)
    (handovers : ∀ c, (s.channel c).schedule.isSome = true → (t.channel c).schedule.isSome = true)
    (inLine : t.closedInLine = s.closedInLine) (closed : ∀ h, (t.hire h).state = .closedWaiting ↔ (s.hire h).state = .closedWaiting) :
    t.ListsHold x where
  once := by rw [owners]; exact law.once
  issues h m := issues h (law.issues h (owners ▸ m))
  handovers c m := handovers c (law.handovers c (owners ▸ m))
  inLine := by rw [inLine]; exact law.inLine
  waiting h := by rw [inLine, closed]; exact law.waiting h
  closing h e := (closed h).mpr (law.closing h e)

/-- A standing order ended leaves no order of its owner. -/
theorem State.endOwner_owners (s : State) (o : StandingOwner) (r : Result) : (s.endOwner o r).owners.Sublist s.owners
    ∧ (s.owners.Nodup → o ∉ (s.endOwner o r).owners) := by
  unfold State.endOwner
  cases found : s.standingOf o with
  | none =>
    refine ⟨List.Sublist.refl _, fun _ m => ?_⟩
    obtain ⟨y, hy, own⟩ := List.mem_map.mp m
    exact absurd own (by simpa using List.find?_eq_none.mp found y hy)
  | some y =>
    have mem : y ∈ s.orders.standing := List.mem_of_find?_eq_some found
    have own : y.owner = o := by simpa using List.find?_some found
    have left : (s.endStanding y r).owners = (s.orders.standing.filter (fun z => z.slot ≠ y.slot)).map (fun z => z.owner) := rfl
    show (s.endStanding y r).owners.Sublist s.owners ∧ _
    rw [left]
    refine ⟨List.Sublist.map _ List.filter_sublist, fun once m => ?_⟩
    obtain ⟨z, hz, other⟩ := List.mem_map.mp m
    obtain ⟨hz, slot⟩ := List.mem_filter.mp hz
    have same : z = y := List.inj_on_of_nodup_map once hz mem (other.trans own.symm)
    simp [same] at slot

end

end Sys2Proof.Machine
end

section
/-!
SUPPORT. The hire law through the pieces of work of the hire unit, the log writer and the hall (R9, R120, R125, R126, R136).
-/
namespace Sys2Proof.Machine

section
variable {x : Option HireId} {s t : State}

/-- The hire law reads of a state only what is alike. -/
theorem State.HiresHold.of_like (law : s.HiresHold x) (entries : ∀ e, (t.receiver e).likeIn (s.receiver e))
    (hires : ∀ h, (t.hire h).likeIn (s.hire h)) (owners : t.owners = s.owners)
    (handovers : ∀ c, (s.channel c).schedule.isSome = true → (t.channel c).schedule.isSome = true) (inLine : t.closedInLine = s.closedInLine) :
    t.HiresHold x where
  entries := law.entries.of_like entries hires
  lists := law.lists.of_same owners (fun h e => (hires h).1.trans e) handovers inLine (fun h => by rw [(hires h).1])

theorem hiresHold_reads (x : Option HireId) : Reads (State.HiresHold x) [.orders, .log, .channels, .receivers, .hires] := by
  intro s t same law
  have receiver (e : RecvId) : t.receiver e = s.receiver e := congrArg (fun v : Vector Receiver _ => v[e]) (same .receivers (by decide))
  have hire (h : HireId) : t.hire h = s.hire h := congrArg (fun v : Vector Hire _ => v[h]) (same .hires (by decide))
  have channel (c : ChannelId) : t.channel c = s.channel c := congrArg (fun v : Vector Channel _ => v[c]) (same .channels (by decide))
  refine law.of_like (fun e => ?_) (fun h => ?_) ?_ (fun c some => ?_) ?_
  · rw [receiver]; exact Receiver.likeIn_refl _
  · rw [hire]; exact Hire.likeIn_refl _
  · exact congrArg (fun o : Orders => o.standing.map (fun y => y.owner)) (same .orders (by decide))
  · rw [channel]; exact some
  · exact congrArg (fun l : TallyLog => l.waiting.filterMap WaitEntry.hire?) (same .log (by decide))

theorem State.HiresHold.frame (law : s.HiresHold x) {l : List StateField} (only : s.onlyIn l t)
    (apart : ∀ f ∈ [StateField.orders, .log, .channels, .receivers, .hires], f ∉ l) : t.HiresHold x :=
  (hiresHold_reads x).frame only apart law

/-! ## The tally log -/

theorem State.HiresHold.writeTally (law : s.HiresHold x) (r : TallyRecord) : (s.writeTally r).HiresHold x := by
  have waiting : (s.writeTally r).log.waiting = s.log.waiting := by rw [State.writeTally_log]
  have only := s.writeTally_only r
  have channels := only .channels (by decide)
  refine law.of_like (fun e => ?_) (fun h => ?_) ?_ (fun c some => ?_) ?_
  · rw [State.receiver, only .receivers (by decide)]; exact Receiver.likeIn_refl _
  · rw [State.hire, only .hires (by decide)]; exact Hire.likeIn_refl _
  · exact congrArg (fun o : Orders => o.standing.map (fun y => y.owner)) (only .orders (by decide))
  · rw [State.channel, channels]; exact some
  · exact congrArg (fun l : List WaitEntry => l.filterMap WaitEntry.hire?) waiting

theorem State.waitTally_eq (s : State) (o : WaitOwner) (r : TallyRecord) : s.waitTally o r = { s with
    log := { s.log with waiting := s.log.waiting ++ [{ owner := o, record := r }] }, notices := (s.waitTally o r).notices } := by
  unfold State.waitTally
  dsimp only
  split <;> rfl

/-- The hires of the HIRE_CLOSED records that wait, once a record joins them. -/
theorem State.waitTally_inLine (o : WaitOwner) (r : TallyRecord) :
    (s.waitTally o r).closedInLine = s.closedInLine ++ (WaitEntry.hire? { owner := o, record := r }).toList := by
  rw [State.waitTally_eq, State.closedInLine, List.filterMap_append]
  rfl

theorem State.waitTally_like (o : WaitOwner) (r : TallyRecord) : (∀ e, ((s.waitTally o r).receiver e).likeIn (s.receiver e))
    ∧ (∀ h, ((s.waitTally o r).hire h).likeIn (s.hire h)) ∧ (s.waitTally o r).owners = s.owners
    ∧ ∀ c, (s.channel c).schedule.isSome = true → ((s.waitTally o r).channel c).schedule.isSome = true := by
  rw [State.waitTally_eq]
  exact ⟨fun e => Receiver.likeIn_refl _, fun h => Hire.likeIn_refl _, rfl, fun _ some => some⟩

/-- A record that is no hire's, handed to the writer. -/
theorem State.HiresHold.handTally_other (law : s.HiresHold x) {o : WaitOwner} (other : ∀ h, o ≠ .hire h) (r : TallyRecord) :
    (s.handTally o r).HiresHold x := by
  unfold State.handTally
  split
  · obtain ⟨entries, hires, owners, handovers⟩ := s.waitTally_like o r
    refine law.of_like entries hires owners handovers ?_
    rw [State.waitTally_inLine]
    cases o with
    | hire h => exact absurd rfl (other h)
    | console | receiver => exact List.append_nil _
  · exact law.writeTally r

/-- The HIRE_CLOSED record of a hire that has closed, handed to the writer (R136). -/
theorem State.HiresHold.handTally_hire {h : HireId} (blocked : s.logBlocked = true → s.HiresHold (some h))
    (free : s.logBlocked = false → s.HiresHold none) (r : TallyRecord) : (s.handTally (.hire h) r).HiresHold none := by
  unfold State.handTally
  cases full : s.logBlocked with
  | false => rw [if_neg Bool.false_ne_true]; exact (free full).writeTally r
  | true =>
    rw [if_pos rfl]
    obtain ⟨entries, hires, owners, handovers⟩ := s.waitTally_like (.hire h) r
    obtain ⟨names, lists⟩ := blocked full
    have line : (s.waitTally (.hire h) r).closedInLine = s.closedInLine ++ [h] := State.waitTally_inLine (.hire h) r
    have apart : h ∉ s.closedInLine := fun m => ((lists.waiting h).mp m).2 rfl
    refine ⟨names.of_like entries hires, ⟨owners ▸ lists.once, fun k m => (hires k).1.trans (lists.issues k (owners ▸ m)),
      fun c m => handovers c (lists.handovers c (owners ▸ m)), ?_, fun k => ?_, fun k e => nomatch e⟩⟩
    · rw [line]
      exact List.nodup_append.mpr ⟨lists.inLine, List.nodup_singleton h, fun a ha b hb e => apart ((List.mem_singleton.mp hb) ▸ e ▸ ha)⟩
    · rw [line, (hires k).1, List.mem_append, lists.waiting, List.mem_singleton]
      by_cases own : k = h
      · subst own
        simpa using lists.closing k rfl
      · simp [own, Ne.symm own]

theorem mergeWaiting_hires (o : WaitOwner) (r : TurnRecord) (l : List WaitEntry) :
    (mergeWaiting o r l).filterMap WaitEntry.hire? = l.filterMap WaitEntry.hire? := by
  unfold mergeWaiting
  rw [List.filterMap_map]
  refine List.filterMap_congr fun w _ => ?_
  unfold Function.comp WaitEntry.hire?
  grind

theorem State.HiresHold.handTurn (law : s.HiresHold x) (r : TurnRecord) : (s.handTurn r).HiresHold x := by
  unfold State.handTurn
  dsimp only
  split
  · exact law.of_like (fun e => Receiver.likeIn_refl _) (fun h => Hire.likeIn_refl _) rfl (fun _ some => some) (mergeWaiting_hires _ _ _)
  · exact law.handTally_other (o := .console r.booth r.console) (fun h e => nomatch e) _

/-- A waiting record that is written leaves the wait list and releases what it belonged to (R165). -/
theorem State.HiresHold.release (u : State) {w : WaitEntry} {l : List WaitEntry}
    (law : ({ s with log := { s.log with waiting := w :: l } } : State).HiresHold none) (waiting : u.log.waiting = l)
    (only : s.onlyIn [.header, .notices, .mem, .log] u) : (u.release w.owner).HiresHold none := by
  have receiver (e : RecvId) : u.receiver e = s.receiver e := congrArg (fun v : Vector Receiver _ => v[e]) (only .receivers (by decide))
  have hire (h : HireId) : u.hire h = s.hire h := congrArg (fun v : Vector Hire _ => v[h]) (only .hires (by decide))
  have channel (c : ChannelId) : u.channel c = s.channel c := congrArg (fun v : Vector Channel _ => v[c]) (only .channels (by decide))
  have owners : u.owners = s.owners := congrArg (fun o : Orders => o.standing.map Standing.owner) (only .orders (by decide))
  have inLine : u.closedInLine = l.filterMap WaitEntry.hire? := congrArg (fun l : List WaitEntry => l.filterMap WaitEntry.hire?) waiting
  have line : ({ s with log := { s.log with waiting := w :: l } } : State).closedInLine = w.hire?.toList ++ l.filterMap WaitEntry.hire? := by
    show List.filterMap _ (w :: l) = _
    rw [List.filterMap_cons]
    cases w.hire? <;> rfl
  have kept (other : w.hire? = none) : u.HiresHold none := by
    refine law.of_like (fun e => ?_) (fun h => ?_) owners (fun c some => ?_) ?_
    · rw [receiver]; exact Receiver.likeIn_refl _
    · rw [hire]; exact Hire.likeIn_refl _
    · rw [channel]; exact some
    · rw [inLine, line, other]; rfl
  obtain ⟨owner, record⟩ := w
  cases owner with
  | console b n => exact (kept rfl).frame (State.writeBooth_only u b id) (by decide)
  | receiver e =>
    refine (kept rfl).of_like (fun d => ?_) (fun h => Hire.likeIn_refl _) rfl (fun _ some => some) rfl
    show ((u.writeReceiver e _).receiver d).likeIn _
    rw [State.receiver_writeReceiver]
    split
    · rename_i own; subst own; exact ⟨rfl, rfl, .inl rfl⟩
    · exact Receiver.likeIn_refl _
  | hire h =>
    obtain ⟨names, lists⟩ := law
    have line' : ({ s with log := { s.log with waiting := ⟨.hire h, record⟩ :: l } } : State).closedInLine
      = h :: l.filterMap WaitEntry.hire? := line
    have distinct := List.nodup_cons.mp (line' ▸ lists.inLine)
    have closed : (s.hire h).state = .closedWaiting := ((lists.waiting h).mp (line' ▸ List.mem_cons_self ..)).1
    have freed (k : HireId) : (u.release (.hire h)).hire k = if k = h then ({ s.hire h with state := .free } : Hire).bump else s.hire k := by
      refine (State.hire_writeHire u h k (fun r => { r with state := .free })).trans ?_
      rw [hire, hire]
    refine ⟨names.record (h := h) receiver (fun k other => (freed k).trans (if_neg other)) ?_ ?_, ?_⟩
    · show (s.hire h).state.running = false
      rw [closed]; rfl
    · rw [freed, if_pos rfl]; rfl
    · have state (k : HireId) (other : k ≠ h) : ((u.release (.hire h)).hire k).state = (s.hire k).state := by rw [freed, if_neg other]
      have own : ((u.release (.hire h)).hire h).state = .free := by rw [freed, if_pos rfl]; rfl
      refine ⟨owners ▸ lists.once, fun k m => ?_, fun c m => ?_, inLine ▸ distinct.2, fun k => ?_, fun k e => nomatch e⟩
      · have reserving : (s.hire k).state = .reserving := lists.issues k (owners ▸ m)
        rw [state k (fun e => (nomatch closed.symm.trans (show (s.hire h).state = .reserving from e ▸ reserving)))]
        exact reserving
      · have some := lists.handovers c (owners ▸ m)
        exact (congrArg (fun r : Channel => r.schedule.isSome) (channel c)).trans some
      · have before := lists.waiting k
        rw [line', List.mem_cons] at before
        show k ∈ u.closedInLine ↔ _
        rw [inLine]
        by_cases same : k = h
        · subst same
          rw [own]
          simp [distinct.1]
        · rw [state k same]
          simpa [same] using before

/-- The front record of the wait list written, with the rest of the list. -/
theorem State.HiresHold.releaseFront {w : WaitEntry} {l : List WaitEntry}
    (law : ({ s with log := { s.log with waiting := w :: l } } : State).HiresHold none) {u : State}
    (written : u = (({ s with log := { s.log with waiting := l } } : State).writeTally w.record).release w.owner) :
    ({ u with log := { u.log with waiting := l } } : State).HiresHold none := by
  have only : s.onlyIn [.header, .notices, .mem, .log] (({ s with log := { s.log with waiting := l } } : State).writeTally w.record) :=
    ((State.log_only s _).sub (by decide)).next (State.writeTally_only _ _) (by decide)
  have waiting : (({ s with log := { s.log with waiting := l } } : State).writeTally w.record).log.waiting = l := by rw [State.writeTally_log]
  have released := State.HiresHold.release _ law waiting only
  rw [← written] at released
  have log : u.log.waiting = l := written ▸ (congrArg TallyLog.waiting (State.release_only _ _ .log (by decide))).trans waiting
  exact released.of_like (fun e => Receiver.likeIn_refl _) (fun h => Hire.likeIn_refl _) rfl (fun _ some => some)
    (congrArg (fun l : List WaitEntry => l.filterMap WaitEntry.hire?) log.symm)

theorem State.HiresHold.drainList : ∀ (l : List WaitEntry) {s : State}, ({ s with log := { s.log with waiting := l } } : State).HiresHold none →
    (State.drainList l s).HiresHold none
  | [], _, law => law
  | w :: l, s, law => by
    unfold State.drainList
    split
    · exact State.HiresHold.drainList l (State.HiresHold.releaseFront law rfl)
    · exact law

theorem State.HiresHold.drain (law : s.HiresHold none) : s.drain.HiresHold none :=
  State.HiresHold.drainList s.log.waiting law

end

end Sys2Proof.Machine
end

section
/-!
SUPPORT. The hire law through reservations, openings and closings (R120, R125, R126, R135, R136).
-/
namespace Sys2Proof.Machine

/-! ## What an order's completion leaves of the log's state -/

theorem Memory.read8_write8_apart {a b : Nat} (v : Byte) (other : b ≠ a) : ∀ m : Memory, (m.write8 a v).read8 b = m.read8 b
  | [] => by
    unfold Memory.write8
    split
    · rfl
    · show (if a = b then v else 0) = 0
      rw [if_neg (Ne.symm other)]
  | (x, w) :: m => by
    have front : Memory.read8 ((x, w) :: m) b = if x = b then w else Memory.read8 m b := rfl
    unfold Memory.write8
    split
    · split
      · rfl
      · show (if a = b then v else _) = _
        rw [if_neg (Ne.symm other)]
    · split
      · rename_i own
        subst own
        rw [front, if_neg (Ne.symm other)]
        split
        · rfl
        · show (if a = b then v else _) = _
          rw [if_neg (Ne.symm other)]
      · show (if x = b then w else (Memory.write8 m a v).read8 b) = _
        rw [Memory.read8_write8_apart v other m, front]

theorem Memory.read8_writeBytes_apart {b : Nat} : ∀ (l : List Byte) (m : Memory) {a : Nat}, b < a → (m.writeBytes a l).read8 b = m.read8 b
  | [], _, _, _ => rfl
  | v :: l, m, a, below => (Memory.read8_writeBytes_apart l (m.write8 a v) (by omega)).trans (Memory.read8_write8_apart v (by omega) m)

section
variable {s t : State}

/-- The completion of an order leaves the bytes below the slots. -/
theorem State.complete_read8_below (s : State) (n : SlotId) (r : Result) {b : Nat} (below : b < 0x200) :
    (s.complete n r).mem.read8 b = s.mem.read8 b := by
  have base : b < slotBase n := by unfold slotBase; omega
  unfold State.complete State.setHolder State.writeResult Memory.write16
  dsimp only [State.raise_mem]
  rw [Memory.read8_write8_apart _ (by omega), Memory.read8_write8_apart _ (by omega), Memory.read8_writeBytes_apart _ _ (by omega),
    Memory.read8_writeBytes_apart _ _ (by omega)]

theorem State.logBlocked_of (log : t.log = s.log) (low : t.mem.read8 0x100 = s.mem.read8 0x100) (high : t.mem.read8 0x101 = s.mem.read8 0x101) :
    t.logBlocked = s.logBlocked := by
  have count : t.readCount = s.readCount := Memory.read16_of_eq low high
  unfold State.logBlocked State.logRoom State.unread
  rw [log, count]

theorem State.endOwner_logBlocked (s : State) (o : StandingOwner) (r : Result) : (s.endOwner o r).logBlocked = s.logBlocked := by
  refine State.logBlocked_of (State.endOwner_only s o r .log (by decide)) ?_ ?_
  all_goals
    unfold State.endOwner
    split
    · exact State.complete_read8_below { s with orders := _ } _ _ (by omega)
    · rfl

end

/-! ## Standing orders ended -/

section
variable {x : Option HireId} {s u : State}

/-- The law where a standing order ends, and what it waited for has come to an end with it (R9). -/
theorem State.HiresHold.ended (law : s.HiresHold x) {o : StandingOwner} (entries : u.EntriesHold) (owners : u.owners = s.owners)
    (issues : ∀ h, .issue h ≠ o → (s.hire h).state = .reserving → (u.hire h).state = .reserving)
    (handovers : ∀ c, .handover c ≠ o → (s.channel c).schedule.isSome = true → (u.channel c).schedule.isSome = true)
    (inLine : u.closedInLine = s.closedInLine) (closed : ∀ h, (u.hire h).state = .closedWaiting ↔ (s.hire h).state = .closedWaiting)
    (r : Result) : (u.endOwner o r).HiresHold x := by
  have same := u.endOwner_same o r
  obtain ⟨sub, gone⟩ := u.endOwner_owners o r
  rw [owners] at sub gone
  have receiver (e : RecvId) : (u.endOwner o r).receiver e = u.receiver e := by rw [same]
  have hire (h : HireId) : (u.endOwner o r).hire h = u.hire h := by rw [same]
  have channel (c : ChannelId) : (u.endOwner o r).channel c = u.channel c := by rw [same]
  have line : (u.endOwner o r).closedInLine = u.closedInLine := (congrArg State.closedInLine same).trans rfl
  refine ⟨entries.of_like (fun e => ?_) (fun h => ?_), law.lists.ended sub (gone law.lists.once) (fun h other state => ?_)
    (fun c other some => ?_) (line.trans inLine) (fun h => ?_)⟩
  · rw [receiver]; exact Receiver.likeIn_refl _
  · rw [hire]; exact Hire.likeIn_refl _
  · rw [hire]; exact issues h other state
  · rw [channel]; exact handovers c other some
  · rw [hire]; exact closed h

theorem State.HiresHold.endSchedule (law : s.HiresHold x) (c : ChannelId) (code : ResultCode) (reason : Reason) (already : Bool) (tick : Nat) :
    (s.endSchedule c code reason already tick).HiresHold x := by
  rw [State.endSchedule_eq]
  refine law.ended (u := s.rescheduled c none) ?_ rfl (fun _ _ state => state) (fun d other some => ?_) rfl (fun _ => Iff.rfl) _
  · exact law.entries.of_like (fun e => Receiver.likeIn_refl _) (fun h => Hire.likeIn_refl _)
  · rw [State.rescheduled_channel, if_neg (fun e : d = c => other (congrArg StandingOwner.handover e))]
    exact some

theorem hiresHold_hall (x : Option HireId) : HallKeeps (State.HiresHold x) where
  reads s t same law := hiresHold_reads x s t (fun f hf => same f (by revert f; decide)) law
  raise s c law := law.frame (s.raise_only c) (by decide)
  handTurn _ r law := law.handTurn r
  endSchedule _ c code reason already tick law := law.endSchedule c code reason already tick
  setPhase s c h h' _ law := by
    refine law.of_like (fun e => Receiver.likeIn_refl _) (fun h => Hire.likeIn_refl _) rfl (fun d some => ?_) rfl
    rw [State.setPhase_eq, State.rescheduled_channel]
    split
    · rfl
    · exact some
  booths s v _ law := law.frame (s.booths_only v) (by decide)
  channels s v same law := by
    refine law.of_like (fun e => Receiver.likeIn_refl _) (fun h => Hire.likeIn_refl _) rfl (fun d some => ?_) rfl
    show (v[d]).schedule.isSome = true
    rw [(same d).2.2.2]
    exact some

/-! ## The ends of a reservation -/

/-- A reservation taken back leaves entries and hires naming one another (R125). -/
theorem State.EntriesHold.released (law : s.EntriesHold) {h : HireId} (reserving : (s.hire h).state = .reserving) :
    (s.released h).EntriesHold := by
  obtain ⟨reserved, named⟩ := law.reserving h reserving
  have freed : ((s.released h).hire h).state = .free := by rw [State.released_hire, if_pos rfl]; rfl
  have docked : (s.released h).receiver (s.hire h).receiver
      = ({ s.receiver (s.hire h).receiver with state := .docked, hire := none } : Receiver).bump := by rw [State.released_receiver, if_pos rfl]
  refine law.pair (h := h) (e := (s.hire h).receiver) (fun d other => ?_) (fun k other => ?_) (fun _ => rfl) (fun _ => named) ?_
  · rw [State.released_receiver, if_neg other]
  · rw [State.released_hire, if_neg other]
  · refine ⟨?_, fun e => (nomatch freed.symm.trans e), fun e => (nomatch freed.symm.trans e), fun e => ?_, fun e => ?_, fun _ _ => ?_⟩
    · rw [docked]
      refine iff_of_false (fun zero => ?_) (fun e => nomatch e)
      exact nomatch reserved.symm.trans ((law.serial _).mp zero)
    · rw [docked] at e
      exact nomatch e
    · rw [docked] at e
      exact e.elim (fun e => nomatch e) (fun e => nomatch e)
    · rw [docked]
      rfl

theorem State.HiresHold.dropReservation (law : s.HiresHold x) {h : HireId} (reserving : (s.hire h).state = .reserving) (code : ResultCode)
    (reason : Reason) : (s.dropReservation h code reason).HiresHold x := by
  have hire (k : HireId) (other : k ≠ h) : (s.released h).hire k = s.hire k := by rw [State.released_hire, if_neg other]
  have freed : ((s.released h).hire h).state = .free := by rw [State.released_hire, if_pos rfl]; rfl
  rw [State.dropReservation_eq]
  refine law.ended (law.entries.released reserving) ?_ (fun k other state => ?_) (fun c _ some => ?_) ?_ (fun k => ?_) _
  · rw [State.owners, State.released_eq]; rfl
  · rw [hire k (fun e => other (e ▸ rfl))]
    exact state
  · have channel : (s.released h).channel c = s.channel c := by rw [State.released_eq]
    rw [channel]
    exact some
  · rw [State.closedInLine, State.released_eq]; rfl
  · by_cases own : k = h
    · subst own
      rw [freed, reserving]
      exact iff_of_false (fun e => nomatch e) (fun e => nomatch e)
    · rw [hire k own]

theorem State.HiresHold.endReservation (law : s.HiresHold x) {h : HireId} (reserving : (s.hire h).state = .reserving) (code : ResultCode)
    (reason : Reason) : (s.endReservation h code reason).HiresHold x :=
  (law.dropReservation reserving code reason).frame (State.closeAccount_only _ s _) (by decide)

theorem State.dropReservation_hire (s : State) {h k : HireId} (other : k ≠ h) (code : ResultCode) (reason : Reason) :
    (s.dropReservation h code reason).hire k = s.hire k := by
  have same : (s.dropReservation h code reason).hire k = (s.released h).hire k := by rw [State.dropReservation_same]
  rw [same, State.released_hire, if_neg other]

theorem State.HiresHold.dropEach : ∀ (l : List HireId) {s : State}, l.Nodup → s.HiresHold x →
    (∀ h ∈ l, (s.hire h).state = .reserving) → (s.each l (fun s h => s.dropReservation h .refused .accountHeld)).HiresHold x
  | [], _, _, law, _ => law
  | h :: l, s, distinct, law, reserving => by
    obtain ⟨apart, distinct⟩ := List.nodup_cons.mp distinct
    refine State.HiresHold.dropEach l distinct (law.dropReservation (reserving h (List.mem_cons_self ..)) _ _) fun k hk => ?_
    have same := State.dropReservation_hire s (h := h) (fun e : k = h => apart (e ▸ hk)) .refused .accountHeld
    rw [same]
    exact reserving k (List.mem_cons_of_mem h hk)

theorem State.HiresHold.dropReservations (law : s.HiresHold x) (a : AcctId) : (s.dropReservations a).HiresHold x := by
  refine State.HiresHold.dropEach _ (tblAll_nodup _ _) law fun h hh => ?_
  have named := (mem_tblAll _ _ _).mp hh
  simp only [Bool.and_eq_true, beq_iff_eq] at named
  exact named.1

end

end Sys2Proof.Machine
end

section
/-!
SUPPORT. The hire law through openings, closings and new hires (R120 to R126, R130, R135, R136).
-/
namespace Sys2Proof.Machine

/-! ## Openings -/

/-- A RESERVING hire opened at run tick `k` (R126). -/
def Hire.begun (r : Hire) (k : Nat) (stamp : Stamp × Bool) : Hire :=
  { r with state := .opened, startTick := k, start := stamp.1, clockUnset := stamp.2 }

/-- A RESERVED entry whose receiver has left at run tick `k` (R126). -/
def Receiver.goneOut (r : Receiver) (k : Nat) : Receiver :=
  { r with state := .onHire, lastHeard := k, heard := none, counted := none, hires := satAdd 16 r.hires 1 }

/-- The hire and the entry of a reservation whose removal has taken effect (R126); the standing ISSUE is the caller's. -/
def State.opened (s : State) (h : HireId) (e : RecvId) (k : Nat) : State :=
  (s.writeHire h (fun r => r.begun k (s.clock.stamp k))).writeReceiver e (fun r => r.goneOut k)

section
variable {s t : State} {x : Option HireId} {h : HireId} {e : RecvId}

theorem State.openHire_of (named : (s.receiver e).hire = some h) (k : Nat) : s.openHire e k
    = (s.opened h e k).endOwner (.issue h) ((s.opened h e k).issueResult h .done .noReason) := by
  have found : s.receivers[e].hire = some h := named
  unfold State.openHire
  rw [found]
  rfl

theorem State.opened_hire (k : Nat) (i : HireId) : (s.opened h e k).hire i
    = if i = h then ((s.hire h).begun k (s.clock.stamp k)).bump else s.hire i := by
  have same : (s.opened h e k).hires = (s.writeHire h (fun r => r.begun k (s.clock.stamp k))).hires :=
    State.writeReceiver_only _ e _ .hires (by decide)
  exact (congrArg (fun v : Vector Hire _ => v[i]) same).trans (State.hire_writeHire s h i _)

theorem State.opened_receiver (k : Nat) (d : RecvId) : (s.opened h e k).receiver d
    = if d = e then ((s.receiver e).goneOut k).bump else s.receiver d := State.receiver_writeReceiver (s.writeHire h _) e d _

theorem State.EntriesHold.begun (law : s.EntriesHold) (reserving : (s.hire h).state = .reserving) (own : (s.hire h).receiver = e) (k : Nat) :
    (s.opened h e k).EntriesHold := by
  obtain ⟨reserved, named⟩ := own ▸ law.reserving h reserving
  have hire : (s.opened h e k).hire h = ((s.hire h).begun k (s.clock.stamp k)).bump := (State.opened_hire k h).trans (if_pos rfl)
  have entry : (s.opened h e k).receiver e = ((s.receiver e).goneOut k).bump := (State.opened_receiver k e).trans (if_pos rfl)
  refine law.pair (h := h) (e := e) (fun d other => (State.opened_receiver k d).trans (if_neg other))
    (fun i other => (State.opened_hire k i).trans (if_neg other)) (fun _ => own) (fun _ => named) ?_
  constructor
  · rw [entry]
    refine iff_of_false (fun zero => ?_) (fun e => nomatch e)
    exact nomatch reserved.symm.trans ((law.serial _).mp zero)
  · rw [hire]
    exact fun e => nomatch e
  · rw [hire, entry]
    exact fun _ => ⟨own, .inl rfl, named⟩
  · rw [entry]
    exact fun e => nomatch e
  · rw [hire]
    exact fun _ => rfl
  · rw [entry]
    exact fun e => nomatch e

/-- A reservation whose removal takes effect opens its hire (R126). -/
theorem State.HiresHold.openHire (law : s.HiresHold x) (reserved : (s.receiver e).state = .reserved) (k : Nat) : (s.openHire e k).HiresHold x := by
  obtain ⟨h, named, reserving, own⟩ := law.entries.reserved e reserved
  rw [State.openHire_of named]
  refine law.ended (law.entries.begun reserving own k) rfl (fun i other state => ?_) (fun c _ some => some) rfl (fun i => ?_) _
  · rw [State.opened_hire, if_neg (fun e : i = h => other (congrArg StandingOwner.issue e))]
    exact state
  · rw [State.opened_hire]
    split
    · rename_i own
      subst own
      rw [reserving]
      exact iff_of_false (fun e => nomatch e) (fun e => nomatch e)
    · exact Iff.rfl

/-! ## Settlements -/

theorem State.onlyIn.logBlocked {l : List StateField} (only : s.onlyIn l t) (log : StateField.log ∉ l) (mem : StateField.mem ∉ l) :
    t.logBlocked = s.logBlocked := by
  have same : t.mem = s.mem := only .mem mem
  exact State.logBlocked_of (only .log log) (by rw [same]) (by rw [same])

theorem State.dropReservation_logBlocked (s : State) (h : HireId) (code : ResultCode) (reason : Reason) :
    (s.dropReservation h code reason).logBlocked = s.logBlocked := by
  rw [State.dropReservation_eq, State.endOwner_logBlocked, State.released_eq]
  rfl

theorem State.dropReservations_logBlocked (s : State) (a : AcctId) : (s.dropReservations a).logBlocked = s.logBlocked :=
  State.each_keeps State.logBlocked (fun _ _ _ => State.dropReservation_logBlocked _ _ _ _) s

/-- The hire whose HIRE_CLOSED record would wait, were it handed now (R136). -/
def State.closes (s : State) (h : HireId) : Option HireId := if s.logBlocked then some h else none

/-- The settlement of a hire that has closed hands its record (R135, R136, R157 to R159). -/
theorem State.HiresHold.settleHire (law : s.HiresHold (s.closes h)) : (s.settleHire h).HiresHold none := by
  unfold State.settleHire
  extract_lets r s1 a minutes charge s2 s3 s4 s5
  have h2 : s2.HiresHold (s.closes h) :=
    (law.frame (State.updAccount_only s _ _) (by decide)).frame (State.updAccount_only s1 _ _) (by decide)
  have blocked3 : s3.logBlocked = s.logBlocked := by
    show (if _ then _ else _ : State).logBlocked = _
    split
    · exact State.dropReservations_logBlocked s2 _
    · rfl
  have h3 : s3.HiresHold (s.closes h) := keeps_ite (P := State.HiresHold _) (h2.dropReservations _) h2
  have h4 : s4.HiresHold (s.closes h) := by
    refine (h3.frame (t := s3.updAccount r.account Account.bump) (State.updAccount_only s3 _ _) (by decide)).of_like (t := s4) (fun e => Receiver.likeIn_refl _) (fun k => ?_) rfl
      (fun _ some => some) rfl
    rw [show s4.hire k = _ from State.hire_writeHire (s3.updAccount r.account Account.bump) h k _]
    split
    · rename_i own
      subst own
      exact ⟨rfl, rfl⟩
    · exact Hire.likeIn_refl _
  have h5 : s5.HiresHold (s.closes h) := keeps_ite (P := State.HiresHold _) (h4.frame (State.raise_only _ _) (by decide)) h4
  have blocked5 : s5.logBlocked = s.logBlocked := by
    have raised : s4.onlyIn [.notices] s5 := State.onlyIn.either (s4.raise_only .account) (s4.onlyIn_refl _)
    have settled : s3.onlyIn [.accounts, .hires] s4 :=
      ((State.updAccount_only s3 r.account Account.bump).sub (by decide)).next (State.writeHire_only _ h _) (by decide)
    exact (raised.logBlocked (by decide) (by decide)).trans ((settled.logBlocked (by decide) (by decide)).trans blocked3)
  refine State.HiresHold.handTally_hire (fun full => ?_) (fun free => ?_) _
  · rw [State.closes, if_pos (blocked5 ▸ full)] at h5
    exact h5
  · rw [State.closes, if_neg (fun full => nomatch (blocked5 ▸ free).symm.trans full)] at h5
    exact h5

/-- A hire record as it closes, its settlement ahead (R133, R135). -/
def Hire.ended (r : Hire) (waits : Bool) (k : Nat) (stamp : Stamp × Bool) (cause : CloseCause) : Hire :=
  { r with
    state := if waits then .closedWaiting else .free, endTick := k, finish := stamp.1, cause := cause, clockUnset := r.clockUnset || stamp.2 }

/-- The state in which the settlement of a closing hire begins. -/
def State.closedBy (s : State) (h : HireId) (k : Nat) (cause : CloseCause) : State :=
  s.writeHire h (fun r => r.ended s.logBlocked k (s.clock.stamp k) cause)

theorem State.closeHire_eq (s : State) (h : HireId) (k : Nat) (cause : CloseCause) :
    s.closeHire h k cause = (s.closedBy h k cause).settleHire h := rfl

theorem State.closedBy_hire (k : Nat) (cause : CloseCause) (i : HireId) : (s.closedBy h k cause).hire i
    = if i = h then ((s.hire h).ended s.logBlocked k (s.clock.stamp k) cause).bump else s.hire i := State.hire_writeHire s h i _

/-- An OPEN hire closes together with its entry's change to a state in no hire (R120, R133, R134). -/
theorem State.HiresHold.closeHire (law : s.HiresHold none) (opened : (s.hire h).state = .opened) (own : (s.hire h).receiver = e)
    (entries : ∀ d, d ≠ e → t.receiver d = s.receiver d) (hires : t.hires = s.hires) (serial : (t.receiver e).serial = (s.receiver e).serial)
    (idle : (t.receiver e).state.hired = false) (enrolled : (t.receiver e).state ≠ .unenrolled) (left : (t.receiver e).hire = none)
    (owners : t.owners = s.owners) (channels : t.channels = s.channels) (log : t.log = s.log) (k : Nat)
    (cause : CloseCause) : (t.closeHire h k cause).HiresHold none := by
  have hire (i : HireId) : t.hire i = s.hire i := congrArg (fun v : Vector Hire _ => v[i]) hires
  have channel (c : ChannelId) : t.channel c = s.channel c := congrArg (fun v : Vector Channel _ => v[c]) channels
  have line : t.closedInLine = s.closedInLine := congrArg (fun l : TallyLog => l.waiting.filterMap WaitEntry.hire?) log
  obtain ⟨out, named⟩ := own ▸ law.entries.opened h opened
  have other (i : HireId) (apart : i ≠ h) : (t.closedBy h k cause).hire i = s.hire i :=
    (State.closedBy_hire k cause i).trans ((if_neg apart).trans (hire i))
  have state : ((t.closedBy h k cause).hire h).state = if t.logBlocked then .closedWaiting else .free := by
    rw [State.closedBy_hire, if_pos rfl]
    rfl
  have entry : (t.closedBy h k cause).receiver e = t.receiver e := rfl
  rw [State.closeHire_eq]
  refine State.HiresHold.settleHire ⟨?_, ?_⟩
  · refine law.entries.pair (h := h) (e := e) (fun d apart => entries d apart) other (fun _ => own) (fun _ => named) ?_
    constructor
    · rw [entry, serial]
      exact iff_of_false (fun zero => by have := (law.entries.serial e).mp zero; rcases out with o | o <;> exact nomatch o.symm.trans this) enrolled
    · rw [state]
      split <;> exact fun e => nomatch e
    · rw [state]
      split <;> exact fun e => nomatch e
    · exact fun e => nomatch idle.symm.trans (RecvState.hired_of (.inl e))
    · exact fun e => nomatch idle.symm.trans (RecvState.hired_of (.inr e))
    · exact fun _ _ => left
  · have apart : h ∉ s.closedInLine := fun m => nomatch opened.symm.trans ((law.lists.waiting h).mp m).1
    refine ⟨owners ▸ law.lists.once, fun i m => ?_, fun c m => ?_, line ▸ law.lists.inLine, fun i => ?_, fun i e => ?_⟩
    · have reserving := law.lists.issues i (owners ▸ m)
      rw [other i (fun e => nomatch opened.symm.trans (show (s.hire h).state = .reserving from e ▸ reserving))]
      exact reserving
    · exact (congrArg (fun r : Channel => r.schedule.isSome) (channel c)).trans (law.lists.handovers c (owners ▸ m))
    · show i ∈ t.closedInLine ↔ _
      rw [line]
      have closes : (t.closedBy h k cause).closes h = if t.logBlocked then some h else none := rfl
      rw [closes]
      by_cases same : i = h
      · subst same
        rw [state]
        refine iff_of_false apart ?_
        split <;> simp
      · rw [other i same, law.lists.waiting i]
        have differs : (if t.logBlocked = true then some h else none) ≠ some i := by
          split
          · exact fun e => same (Option.some.inj e).symm
          · exact fun e => nomatch e
        simp [differs]
    · have closes : (if t.logBlocked then some h else none) = some i := e
      split at closes
      · rename_i full
        obtain rfl := Option.some.inj closes
        rw [state, if_pos full]
      · exact nomatch closes

end

end Sys2Proof.Machine
end

section
/-!
SUPPORT. The hire law through the dock interface, ISSUE, the receiver table, beacons and the census (R108 to R112, R121 to R124, R142).
-/
namespace Sys2Proof.Machine

section
variable {x : Option HireId} {s t : State} {h : HireId} {e : RecvId}

/-! ## Entries written -/

/-- An entry in no hire rewritten, in no hire (R120). -/
theorem State.HiresHold.writeEntry (law : s.HiresHold x) {f : Receiver → Receiver} (was : (s.receiver e).state.hired = false)
    (enrolled : (s.receiver e).state ≠ .unenrolled) (now : (f (s.receiver e)).state.hired = false)
    (still : (f (s.receiver e)).state ≠ .unenrolled) (serial : (f (s.receiver e)).serial = (s.receiver e).serial)
    (left : (s.receiver e).hire = none → (f (s.receiver e)).hire = none) : (s.writeReceiver e f).HiresHold x := by
  have entry : (s.writeReceiver e f).receiver e = (f (s.receiver e)).bump := (State.receiver_writeReceiver s e e f).trans (if_pos rfl)
  refine ⟨law.entries.entry (e := e) (fun d other => (State.receiver_writeReceiver s e d f).trans (if_neg other)) (fun _ => rfl) was
    (entry ▸ now) ?_ (fun _ => entry ▸ left (law.entries.idle e was enrolled)), law.lists.of_same rfl (fun _ state => state) (fun _ some => some)
    rfl (fun _ => Iff.rfl)⟩
  rw [entry]
  exact iff_of_false (fun zero => enrolled ((law.entries.serial e).mp (serial ▸ zero))) still

/-- An entry rewritten in what the law does not read. -/
theorem State.HiresHold.writeLike (law : s.HiresHold x) {f : Receiver → Receiver} (like : (f (s.receiver e)).likeIn (s.receiver e)) :
    (s.writeReceiver e f).HiresHold x := by
  refine law.of_like (fun d => ?_) (fun h => Hire.likeIn_refl _) rfl (fun _ some => some) rfl
  rw [State.receiver_writeReceiver]
  split
  · rename_i own
    subst own
    exact ⟨like.serial, like.hire, like.state⟩
  · exact Receiver.likeIn_refl _

theorem State.HiresHold.rewriteLike (law : s.HiresHold x) {f : Receiver → Receiver} (like : (f (s.receiver e)).likeIn (s.receiver e)) :
    (s.rewriteReceiver e f).HiresHold x := by
  refine law.of_like (fun d => ?_) (fun h => Hire.likeIn_refl _) rfl (fun _ some => some) rfl
  rw [State.receiver_rewriteReceiver]
  split
  · rename_i own
    subst own
    rcases rewritten_or Receiver.bump f (s.receiver d) with same | same
    · rw [same]; exact like
    · rw [same]; exact ⟨like.serial, like.hire, like.state⟩
  · exact Receiver.likeIn_refl _

/-- A hire record rewritten in what the law does not read. -/
theorem State.HiresHold.writeHire (law : s.HiresHold x) {f : Hire → Hire} (like : (f (s.hire h)).likeIn (s.hire h)) :
    (s.writeHire h f).HiresHold x := by
  refine law.of_like (fun d => Receiver.likeIn_refl _) (fun k => ?_) rfl (fun _ some => some) rfl
  rw [State.hire_writeHire]
  split
  · rename_i own
    subst own
    exact like
  · exact Hire.likeIn_refl _

/-! ## New hires -/

/-- A free hire record and an entry in no hire, a DOCKED or ADRIFT one, become a hire (R122 to R124). -/
theorem State.HiresHold.create (law : s.HiresHold none) (free : (s.hire h).state = .free) (was : (s.receiver e).state.hired = false)
    (enrolled : (s.receiver e).state ≠ .unenrolled) (entries : ∀ d, d ≠ e → t.receiver d = s.receiver d)
    (hires : ∀ k, k ≠ h → t.hire k = s.hire k) (own : (t.hire h).receiver = e) (named : (t.receiver e).hire = some h)
    (serial : (t.receiver e).serial = (s.receiver e).serial)
    (states : ((t.hire h).state = .reserving ∧ (t.receiver e).state = .reserved) ∨ ((t.hire h).state = .opened ∧ (t.receiver e).state = .onHire))
    (owners : t.owners = s.owners) (channels : t.channels = s.channels) (log : t.log = s.log) : t.HiresHold none := by
  have channel (c : ChannelId) : t.channel c = s.channel c := congrArg (fun v : Vector Channel _ => v[c]) channels
  have line : t.closedInLine = s.closedInLine := congrArg (fun l : TallyLog => l.waiting.filterMap WaitEntry.hire?) log
  refine ⟨law.entries.pair (h := h) (e := e) entries hires (fun running => ?_) (fun hired => nomatch was.symm.trans hired) ?_,
    owners ▸ law.lists.once, fun k m => ?_, fun c m => ?_, line ▸ law.lists.inLine, fun k => ?_, fun k e => nomatch e⟩
  · rw [free] at running
    exact nomatch running
  · have positive : ¬ (s.receiver e).serial = 0 := fun zero => enrolled ((law.entries.serial e).mp zero)
    rcases states with ⟨reserving, reserved⟩ | ⟨opened, out⟩
    · exact ⟨by rw [serial, reserved]; simpa using positive, fun _ => ⟨own, reserved, named⟩, fun e => (nomatch reserving.symm.trans e),
        fun _ => reserving, fun e => e.elim (fun e => nomatch reserved.symm.trans e) (fun e => nomatch reserved.symm.trans e),
        fun e _ => nomatch e.symm.trans (RecvState.hired_of (.inl reserved))⟩
    · exact ⟨by rw [serial, out]; simpa using positive, fun e => (nomatch opened.symm.trans e), fun _ => ⟨own, .inl out, named⟩,
        fun e => (nomatch out.symm.trans e), fun _ => opened, fun e _ => nomatch e.symm.trans (RecvState.hired_of (.inr (.inl out)))⟩
  · have reserving := law.lists.issues k (owners ▸ m)
    rw [hires k (fun e => nomatch free.symm.trans (show (s.hire h).state = .reserving from e ▸ reserving))]
    exact reserving
  · rw [channel]
    exact law.lists.handovers c (owners ▸ m)
  · rw [line, law.lists.waiting]
    by_cases same : k = h
    · subst same
      refine iff_of_false (fun e => nomatch free.symm.trans e.1) (fun e => ?_)
      rcases states with ⟨state, -⟩ | ⟨state, -⟩ <;> exact nomatch state.symm.trans e.1
    · rw [hires k same]

/-- An order made standing for what it waits for (R9). -/
theorem State.HiresHold.makeStanding (law : s.HiresHold none) {o : StandingOwner} (fresh : o ∉ s.owners)
    (issue : ∀ h, o = .issue h → (s.hire h).state = .reserving) (handover : ∀ c, o = .handover c → (s.channel c).schedule.isSome = true)
    (n : SlotId) (c : Bool) : (s.makeStanding n o c).HiresHold none := by
  have owners : (s.makeStanding n o c).owners = s.owners ++ [o] := by
    show List.map _ (s.orders.standing ++ [_]) = _
    rw [List.map_append]
    rfl
  refine ⟨law.entries.of_like (fun e => Receiver.likeIn_refl _) (fun h => Hire.likeIn_refl _), ?_, fun h m => ?_, fun d m => ?_,
    law.lists.inLine, law.lists.waiting, law.lists.closing⟩
  · rw [owners]
    exact List.nodup_append.mpr ⟨law.lists.once, List.nodup_singleton o, fun a ha b hb e => fresh ((List.mem_singleton.mp hb) ▸ e ▸ ha)⟩
  · rcases List.mem_append.mp (owners ▸ m) with m | m
    · exact law.lists.issues h m
    · exact issue h (List.mem_singleton.mp m).symm
  · rcases List.mem_append.mp (owners ▸ m) with m | m
    · exact law.lists.handovers d m
    · exact handover d (List.mem_singleton.mp m).symm

end

/-! ## Removals and insertions -/

section
variable {s : State} {e : RecvId} {p : PosId}

theorem State.HiresHold.atPosition (law : s.HiresHold none) (p : PosId) (f : Position → Position) : (s.writePosition p f).HiresHold none :=
  law.frame (s.writePosition_only p f) (by decide)

/-- A removal that takes effect (R112). -/
theorem State.HiresHold.removal (law : s.HiresHold none) (p : PosId) (k : Nat) (keep : Bool) : (s.removal p k keep).HiresHold none := by
  unfold State.removal
  extract_lets pos s1
  have h1 : s1.HiresHold none := (law.atPosition p _).frame (State.dropWaiting_only _ p) (by decide)
  have entry (e : RecvId) : s1.receiver e = s.receiver e := by
    have only : s.onlyIn [.positions, .presets] s1 :=
      ((State.writePosition_only s p _).sub (by decide)).next (State.dropWaiting_only _ p) (by decide)
    exact congrArg (fun v : Vector Receiver _ => v[e]) (only .receivers (by decide))
  split
  · exact h1
  · rename_i e _
    split
    · rename_i docked
      have docked : (s1.receiver e).state = .docked := (congrArg Receiver.state (entry e)).trans docked
      refine State.HiresHold.frame ?_ (State.raise_only _ _) (by decide)
      exact h1.writeEntry (by rw [docked]; rfl) (fun e => nomatch docked.symm.trans e) rfl (fun e => nomatch e) rfl id
    · rename_i reserved
      exact h1.openHire ((congrArg Receiver.state (entry e)).trans reserved) k
    · exact h1.writeLike ⟨rfl, rfl, .inl rfl⟩
    all_goals exact h1

theorem State.HiresHold.takeRemove (law : s.HiresHold none) (p : PosId) : (s.takeRemove p).HiresHold none :=
  State.takeRemove_elim (P := State.HiresHold none) (fun _ _ _ _ => (law.atPosition p _).removal p _ _) (fun _ _ _ _ => law.atPosition p _)
    (fun _ _ => law.atPosition p _) (fun _ => law)

theorem State.HiresHold.writeBattery (law : s.HiresHold none) (p : PosId) (e : RecvId) (y : BitVec 4) : (s.writeBattery p e y).HiresHold none :=
  (law.rewriteLike (e := e) (f := fun r => { r with battery := y }) ⟨rfl, rfl, .inl rfl⟩).frame (State.relampPos_only _ p) (by decide)

theorem State.HiresHold.reseat (law : s.HiresHold none) (p : PosId) (e : RecvId) (y : BitVec 4) : (s.reseat p e y).HiresHold none := by
  have written := (law.atPosition p (fun r => { r with state := .occupied })).writeBattery p e y
  unfold State.reseat
  dsimp only
  split
  · split
    · rename_i ends
      exact written.endReservation ends.2.1 _ _
    · exact written
  · exact written

theorem State.HiresHold.handFound {x : Option HireId} (law : s.HiresHold x) (e : RecvId) (place : FoundWhere) (waiting : Bool) :
    (s.handFound e place waiting).HiresHold x :=
  keeps_ite (P := State.HiresHold x) law (law.handTally_other (o := .receiver e) (fun _ e => nomatch e) _)

/-- The entry that holds a serial (R110). -/
theorem State.entryOf_some {x : Serial} (found : s.entryOf x = some e) : (s.receiver e).serial = x ∧ x ≠ 0 := by
  unfold State.entryOf at found
  split at found
  · exact nomatch found
  · rename_i positive
    exact ⟨by simpa using ((tblFind_eq_some _ _ e).mp found).1, positive⟩

/-- An entry that an OPEN hire names is put back into a rack (R111, R133). -/
theorem State.HiresHold.returned (law : s.HiresHold none) {u : State} (only : s.onlyIn [.positions, .receivers] u)
    (out : (s.receiver e).state = .onHire ∨ (s.receiver e).state = .silent) (others : ∀ d, d ≠ e → u.receiver d = s.receiver d)
    (serial : (u.receiver e).serial = (s.receiver e).serial) (docked : (u.receiver e).state = .docked) (left : (u.receiver e).hire = none)
    (k : Nat) : (u.returnHire (s.receiver e).hire k).HiresHold none := by
  obtain ⟨h, named, opened, own⟩ := law.entries.hired e out
  have state : u.hires[h].state = .opened := (congrArg (fun v : Vector Hire _ => v[h].state) (only .hires (by decide))).trans opened
  rw [named]
  unfold State.returnHire
  dsimp only
  rw [if_pos state]
  exact law.closeHire opened own others (only .hires (by decide)) serial (by rw [docked]; rfl) (fun e => nomatch docked.symm.trans e) left
    (congrArg (fun o : Orders => o.standing.map Standing.owner) (only .orders (by decide))) (only .channels (by decide))
    (only .log (by decide)) k .returned

section
variable {r : Receiver} (p : PosId) (y : BitVec 4) (w : Bool)

theorem Receiver.inserted_serial : (r.inserted p y w).serial = r.serial := by
  unfold Receiver.inserted
  split <;> rfl

/-- A receiver that is not taken in from outside keeps its state and its hire (R111 step 3). -/
theorem Receiver.inserted_likeIn (inside : r.state = .docked ∨ r.state = .reserved ∨ r.state = .retired) : (r.inserted p y w).likeIn r := by
  refine ⟨r.inserted_serial p y w, ?_, .inl ?_⟩ <;> rcases inside with e | e | e <;> unfold Receiver.inserted <;> rw [e]

theorem Receiver.inserted_docked (outside : r.state = .adrift ∨ r.state = .onHire ∨ r.state = .silent ∨ r.state = .lost) :
    (r.inserted p y w).state = .docked := by
  rcases outside with e | e | e | e <;> unfold Receiver.inserted <;> rw [e]

theorem Receiver.inserted_left (out : r.state = .onHire ∨ r.state = .silent) : (r.inserted p y w).hire = none := by
  rcases out with e | e <;> unfold Receiver.inserted <;> rw [e]

theorem Receiver.inserted_hire (desk : r.state = .adrift ∨ r.state = .lost) : (r.inserted p y w).hire = r.hire := by
  rcases desk with e | e <;> unfold Receiver.inserted <;> rw [e]

end

/-- The insertion taken at a cleared position (R111 step 3). -/
theorem State.HiresHold.takeInsertion (law : s.HiresHold none) (p : PosId) {x : Serial} (positive : x ≠ 0) (y : BitVec 4) :
    (s.takeInsertion p x y).HiresHold none := by
  have occupied (o : Option RecvId) : (s.occupy p o).HiresHold none := law.atPosition p _
  unfold State.takeInsertion
  split
  · rename_i e found
    dsimp only
    obtain ⟨serial, -⟩ := State.entryOf_some found
    have enrolled : (s.receiver e).state ≠ .unenrolled := fun u => positive (serial.symm.trans ((law.entries.serial e).mpr u))
    refine State.HiresHold.frame ?_ (State.relampPos_only _ p) (by decide)
    generalize hu : (s.occupy p (some e)).writeReceiver e (fun r => r.inserted p y s.logBlocked) = u
    have only : s.onlyIn [.positions, .receivers] u :=
      hu ▸ ((State.writePosition_only s p _).sub (by decide)).next (State.writeReceiver_only _ e _) (by decide)
    have others (d : RecvId) (other : d ≠ e) : u.receiver d = s.receiver d :=
      hu ▸ (State.receiver_writeReceiver (s.occupy p (some e)) e d _).trans (if_neg other)
    have own : u.receiver e = ((s.receiver e).inserted p y s.logBlocked).bump :=
      hu ▸ (State.receiver_writeReceiver (s.occupy p (some e)) e e _).trans (if_pos rfl)
    have written (like : ((s.receiver e).inserted p y s.logBlocked).likeIn (s.receiver e)) : u.HiresHold none := hu ▸ (occupied _).writeLike like
    have docked (desk : (s.receiver e).state = .adrift ∨ (s.receiver e).state = .lost) : u.HiresHold none := by
      have now := (s.receiver e).inserted_docked p y s.logBlocked (desk.elim .inl fun l => .inr (.inr (.inr l)))
      exact hu ▸ (occupied (some e)).writeEntry (by rcases desk with d | d <;> exact (congrArg RecvState.hired d).trans rfl) enrolled
        ((congrArg RecvState.hired now).trans rfl) (fun e => nomatch now.symm.trans e) (Receiver.inserted_serial ..)
        (fun none => (Receiver.inserted_hire p y s.logBlocked desk).trans none)
    unfold State.afterInsertion
    split
    case h_1 | h_2 =>
      rename_i out
      have out : (s.receiver e).state = .onHire ∨ (s.receiver e).state = .silent := by first | exact .inl out | exact .inr out
      refine law.returned only out others ?_ ?_ ?_ _
      · rw [own]
        exact Receiver.inserted_serial ..
      · rw [own]
        exact Receiver.inserted_docked p y s.logBlocked (.inr (out.elim .inl fun s => .inr (.inl s)))
      · rw [own]
        exact Receiver.inserted_left p y s.logBlocked out
    case h_3 lost => exact ((docked (.inr lost)).frame (State.raise_only _ _) (by decide)).handFound _ _ _
    case h_4 unenrolled => exact absurd unenrolled enrolled
    case h_5 inside => exact written (Receiver.inserted_likeIn p y s.logBlocked (.inl inside))
    case h_6 inside => exact written (Receiver.inserted_likeIn p y s.logBlocked (.inr (.inl inside)))
    case h_7 adrift => exact docked (.inl adrift)
    case h_8 inside => exact written (Receiver.inserted_likeIn p y s.logBlocked (.inr (.inr inside)))
  · split
    · rename_i e free
      have zero : (s.receiver e).serial = 0 := by simpa using ((tblFind_eq_some _ _ e).mp free).1
      have was := (law.entries.serial e).mp zero
      refine State.HiresHold.frame ?_ (State.relampPos_only _ p) (by decide)
      have entry := (State.receiver_writeReceiver (s.occupy p (some e)) e e (fun r => r.enrolled x p y)).trans (if_pos rfl)
      refine ⟨(occupied (some e)).entries.entry (e := e) (fun d other => (State.receiver_writeReceiver _ e d _).trans (if_neg other))
        (fun _ => rfl) ?_ ?_ ?_ (fun _ => ?_), (occupied (some e)).lists.of_same rfl (fun _ state => state) (fun _ some => some) rfl
        (fun _ => Iff.rfl)⟩
      · exact (congrArg RecvState.hired was).trans rfl
      · rw [entry]; rfl
      · rw [entry]
        exact iff_of_false positive (fun e => nomatch e)
      · rw [entry]; rfl
    · exact (occupied none).frame (State.raise_only _ _) (by decide)

theorem State.HiresHold.insertAt (law : s.HiresHold none) (p : PosId) {x : Serial} (positive : x ≠ 0) (y : BitVec 4) :
    (s.insertAt p x y).HiresHold none := by
  have cleared : (s.clearElsewhere x).HiresHold none := by
    unfold State.clearElsewhere
    split
    · exact law.removal _ _ _
    · exact law
  exact cleared.takeInsertion p positive y

theorem State.HiresHold.takeInsert (law : s.HiresHold none) (p : PosId) {x : Serial} (positive : x ≠ 0) (y : BitVec 4) :
    (s.takeInsert p x y).HiresHold none :=
  State.takeInsert_elim (P := State.HiresHold none) (fun e _ _ _ => law.reseat p e y)
    (fun _ _ _ _ => (law.removal p _ false).insertAt p positive y) (fun e _ _ _ => law.writeBattery p e y)
    (fun _ _ _ _ => (law.removal p _ false).insertAt p positive y) (fun _ _ => (law.atPosition p _).insertAt p positive y)
    (fun _ => law.insertAt p positive y)

theorem State.HiresHold.failReservation (law : s.HiresHold none) (p : PosId) : (s.failReservation p).HiresHold none := by
  unfold State.failReservation
  split
  · rename_i e _
    split
    · rename_i h reserved named
      obtain ⟨k, found, reserving, -⟩ := law.entries.reserved e reserved
      obtain rfl := Option.some.inj (found.symm.trans named)
      exact law.endReservation reserving _ _
    · exact law
  · exact law

theorem State.HiresHold.rackFault (law : s.HiresHold none) (r : RackId) : (s.rackFault r).HiresHold none := by
  unfold State.rackFault
  dsimp only
  refine State.each_induct (P := State.HiresHold none) (f := State.failReservation) (fun t p _ ht => ht.failReservation p)
    (State.HiresHold.frame ?_ (State.raise_only _ _) (by decide))
  exact State.each_induct (P := State.HiresHold none) (l := rackPositions r)
    (f := fun t p => (t.writePosition p (fun x => { x with state := .fault, lamp := .dark })).setPreset p none)
    (fun t p _ ht => (ht.atPosition p _).frame (State.setPreset_only _ p none) (by decide)) (law.frame (State.setRack_only s r _) (by decide))

theorem State.HiresHold.presetResult (law : s.HiresHold none) (e : RecvId) (d : Bool) : (s.presetResult e d).HiresHold none := by
  unfold State.presetResult
  split
  · split
    · exact law.writeHire ⟨rfl, rfl⟩
    · exact law
  · exact law

theorem State.HiresHold.reconcile (law : s.HiresHold none) (p : PosId) (x : Option InventoryItem) : (s.reconcile p x).HiresHold none :=
  State.reconcile_elim (P := State.HiresHold none) (fun e _ _ _ _ _ => (law.atPosition p _).writeBattery p e _)
    (fun _ i _ _ read _ => (law.removal p _ false).insertAt p (readItem_serial read) i.battery) (fun _ _ _ _ => law.removal p _ false)
    (fun _ _ _ => law.atPosition p _) (fun i _ read => law.takeInsert p (readItem_serial read) i.battery) (fun _ _ => law)

end

theorem hiresHold_docks : DockKeeps (State.HiresHold none) where
  takeInsert _ p _ y positive law := law.takeInsert p positive y
  takeRemove _ p law := law.takeRemove p
  writeBattery _ p e y law := law.writeBattery p e y
  presetResult _ e d law := law.presetResult e d
  reconcile _ p x law := law.reconcile p x
  rackFault _ r law := law.rackFault r

end Sys2Proof.Machine
end

section
/-!
SUPPORT. The hire law through the orders, beacons, the census and the restarts (R120, O57).
-/
namespace Sys2Proof.Machine

section
variable {s t : State} {n : SlotId}

/-! ## States that differ beside the law -/

/-- Whatever leaves entries, hires and both lists, and the schedules in the channel records, keeps the law. -/
theorem State.HiresHold.ofChannels (law : s.HiresHold none) {l : List StateField} (only : s.onlyIn l t)
    (apart : ∀ f ∈ [StateField.orders, .log, .receivers, .hires], f ∉ l)
    (schedules : ∀ c, (t.channel c).schedule = (s.channel c).schedule) : t.HiresHold none := by
  have at' (f : StateField) (hf : f ∈ [StateField.orders, .log, .receivers, .hires]) : f.same s t := only f (apart f hf)
  refine law.of_like (fun e => ?_) (fun h => ?_) (congrArg (fun o : Orders => o.standing.map Standing.owner) (at' .orders (by decide)))
    (fun c some => ?_) (congrArg (fun l : TallyLog => l.waiting.filterMap WaitEntry.hire?) (at' .log (by decide)))
  · rw [State.receiver, at' .receivers (by decide)]; exact Receiver.likeIn_refl _
  · rw [State.hire, at' .hires (by decide)]; exact Hire.likeIn_refl _
  · rw [schedules]; exact some

/-- The post queue is no part of the law. -/
theorem State.HiresHold.queue (law : s.HiresHold none) (q : List SlotId) : ({ s with orders := { s.orders with queue := q } } : State).HiresHold none :=
  law.of_like (fun _ => Receiver.likeIn_refl _) (fun _ => Hire.likeIn_refl _) rfl (fun _ some => some) rfl

theorem State.HiresHold.takeSlot (law : s.HiresHold none) (n : SlotId) (rest : List SlotId) : (s.takeSlot n rest).HiresHold none := by
  rw [State.takeSlot_taken]
  exact (law.queue rest).frame (State.mem_only _ _) (by decide)

theorem State.HiresHold.complete (law : s.HiresHold none) (n : SlotId) (r : Result) : (s.complete n r).HiresHold none :=
  law.frame (State.complete_only s n r) (by decide)

/-! ## The works of the orders -/

theorem State.HiresHold.cancel (law : s.HiresHold none) (n : SlotId) : (workCancel s n).1.HiresHold none := by
  unfold workCancel
  split
  · split
    · rename_i u found
      have owned : u.owner ∈ s.owners := List.mem_map_of_mem (List.mem_of_find?_eq_some found)
      dsimp only
      cases own : u.owner with
      | issue h => exact law.endReservation (law.lists.issues h (own ▸ owned)) _ _
      | handover c => exact (hiresHold_hall none).cancelHandover law c
    · split
      · exact (law.queue _).complete _ _
      · exact law
  · exact law

theorem State.HiresHold.markClockSet (law : s.HiresHold none) : s.markClockSet.HiresHold none := by
  rw [State.markClockSet_eq]
  have marked : s.hiresMarked.HiresHold none :=
    State.each_induct (P := State.HiresHold none) (f := fun s h => s.writeHire h Hire.marked) (fun _ _ _ law => law.writeHire ⟨rfl, rfl⟩) law
  exact State.each_induct (P := State.HiresHold none) (f := fun s b => s.rewriteBooth b Booth.marked)
    (fun t b _ law => law.frame (State.rewriteBooth_only t b _) (by decide)) marked

theorem State.HiresHold.setClock (law : s.HiresHold none) (n : SlotId) : (workSetClock s n).1.HiresHold none := by
  unfold workSetClock
  extract_lets fraction was values s1 s2
  have h1 : s1.HiresHold none := law.frame (State.clock_only s _) (by decide)
  have h2 : s2.HiresHold none := keeps_ite (P := State.HiresHold none)
    (((hiresHold_hall none).compareSchedules h1.markClockSet).frame (State.raise_only _ _) (by decide)) h1
  exact h2.frame (State.snapshot_only s2) (by decide)

theorem State.HiresHold.channelClear (law : s.HiresHold none) (n : SlotId) : (workChannelClear s n).1.HiresHold none := by
  unfold workChannelClear
  split
  · rename_i c _
    split
    · exact law
    · split
      · exact law
      · show (s.clearChannel c).HiresHold none
        rw [State.clearChannel_eq]
        have ended : (if (s.channel c).schedule.isSome then s.endSchedule c .failed .channelCleared false 0 else s).HiresHold none :=
          keeps_ite (P := State.HiresHold none) (law.endSchedule c _ _ _ _) law
        generalize (if (s.channel c).schedule.isSome then s.endSchedule c .failed .channelCleared false 0 else s) = u at ended
        obtain ⟨own, others, -⟩ := State.takenAway_facts u c (s.channel c).primary (s.channel c).partner rfl
        refine ended.ofChannels (State.takenAway_only u c _ _) (by decide) fun d => ?_
        by_cases same : d = c
        · subst same
          rw [own]
          rfl
        · rw [others d same]
  · exact law

theorem State.HiresHold.channelDefine (law : s.HiresHold none) (n : SlotId) : (workChannelDefine s n).1.HiresHold none := by
  have defined (c : ChannelId) (p : ChannelParams) : (s.defineChannel c p).HiresHold none := by
    obtain ⟨channels, -, -, same⟩ := s.defineChannel_facts c p rfl
    refine law.ofChannels (s.defineChannel_only c p) (by decide) fun d => ?_
    refine (congrArg (fun v : Vector Channel 32 => v[d].schedule) channels).trans ?_
    refine (congrArg Channel.schedule (get_set s.channels c d _)).trans ?_
    split
    · rename_i same
      subst same
      rfl
    · rfl
  unfold workChannelDefine
  split
  · split
    · exact law
    · split
      · exact law
      · split
        · exact law
        · split
          · exact law
          · exact defined _ _
  · exact law

/-- A HANDOVER that stands waits for the handover that it has scheduled (R86). -/
theorem State.HiresHold.schedule (law : s.HiresHold none) {c : ChannelId} (fresh : (s.channel c).schedule = none) (n : SlotId) (x : Schedule)
    (now clamped : Bool) : (s.schedule n c x now clamped).HiresHold none := by
  have planned : (s.rescheduled c (some x)).HiresHold none := by
    refine law.of_like (fun _ => Receiver.likeIn_refl _) (fun _ => Hire.likeIn_refl _) rfl (fun d some => ?_) rfl
    rw [State.rescheduled_channel]
    split
    · rfl
    · exact some
  have stood : (s.stood n c x clamped).HiresHold none := by
    refine planned.makeStanding (o := .handover c) (fun m => ?_) (fun _ e => nomatch e) (fun d e => ?_) n clamped
    · have some := law.lists.handovers c m
      rw [fresh] at some
      exact nomatch some
    · cases e
      rw [State.rescheduled_own]
      rfl
  have hall := hiresHold_hall none
  rw [State.schedule_eq]
  exact hall.settleChannel (keeps_ite (P := State.HiresHold none) (hall.target (hall.warn stood c) c) (hall.compareSchedule stood c)) s c

theorem State.HiresHold.handover (law : s.HiresHold none) (n : SlotId) : (workHandover s n).1.HiresHold none := by
  rcases workHandover_cases s n with ⟨q, v, refused⟩ | ⟨c, x, now, clamped, fresh, stood⟩
  · rw [refused]
    exact law
  · rw [stood]
    exact law.schedule fresh n x now clamped

/-! ## ISSUE and DECLARE_LOST -/

theorem bestOf_mem {x : Nat × RecvId} : ∀ {l : List (Nat × RecvId)}, bestOf l = some x → x ∈ l
  | [], h => nomatch h
  | y :: l, h => by
    unfold bestOf at h
    split at h
    · rename_i z found
      split at h
      · exact List.mem_cons_of_mem y (bestOf_mem (found.trans h))
      · exact Option.some.inj h ▸ List.mem_cons_self ..
    · exact Option.some.inj h ▸ List.mem_cons_self ..

theorem State.qualifies_some {p : PosId} {x : Nat × RecvId} (found : s.qualifies p = some x) :
    (s.position p).state = .occupied ∧ (s.position p).entry = some x.2 ∧ (s.receiver x.2).state = .docked
      ∧ s.timers.battery ≤ (s.receiver x.2).battery.toNat ∧ x.1 = (s.receiver x.2).battery.toNat := by
  unfold State.qualifies at found
  split at found
  · rename_i e state entry
    dsimp only at found
    split at found
    · rename_i fit
      cases found
      exact ⟨state, entry, fit.1, fit.2, rfl⟩
    · exact nomatch found
  · exact nomatch found

/-- The entry of an ISSUE, by name or by choice, is a DOCKED or an ADRIFT one (R115, R121). -/
theorem State.issueReceiver_state {x : Serial} {e : RecvId} (found : s.issueReceiver x = some e) :
    (s.receiver e).state = .docked ∨ (s.receiver e).state = .adrift := by
  unfold State.issueReceiver at found
  split at found
  · obtain ⟨y, best, rfl⟩ := Option.map_eq_some_iff.mp found
    obtain ⟨p, -, fit⟩ := List.mem_filterMap.mp (bestOf_mem best)
    exact .inl (State.qualifies_some fit).2.2.1
  · split at found
    · rename_i d _
      split at found
      · rename_i fit
        obtain rfl := Option.some.inj found
        unfold State.issuable at fit
        simp only [Bool.or_eq_true, Bool.and_eq_true, beq_iff_eq] at fit
        exact fit.elim .inr fun docked => .inl docked.1.1
      · exact nomatch found
    · exact nomatch found

theorem State.createHire_hire (h k : HireId) (x : Hire) : (s.createHire h x).hire k
    = if k = h then ({ x with changes := (s.hire h).changes } : Hire).bump else s.hire k :=
  State.hire_writeHire s h k (fun r => { x with changes := r.changes })

/-- A reservation (R123). -/
theorem State.HiresHold.reserve (law : s.HiresHold none) {h : HireId} (free : (s.hire h).state = .free) (x : Hire)
    (desk : (s.receiver x.receiver).state = .docked ∨ (s.receiver x.receiver).state = .adrift) (n : SlotId) (c : ChannelId) (clamped : Bool) :
    (s.reserve n h x c clamped).HiresHold none := by
  unfold State.reserve
  extract_lets s1 s2
  have hire (k : HireId) : s2.hire k = if k = h then ({ x with
      state := .reserving, slot := n, deadline := s.clock.run + secTicks s.timers.reservation, changes := (s.hire h).changes } : Hire).bump
      else s.hire k := by
    have same : s2.hires = s1.hires := State.writeReceiver_only s1 x.receiver _ .hires (by decide)
    exact (congrArg (fun v : Vector Hire _ => v[k]) same).trans (State.createHire_hire h k _)
  have entry (d : RecvId) : s2.receiver d = if d = x.receiver then
      ({ s.receiver x.receiver with state := .reserved, hire := some h, preset := c } : Receiver).bump else s.receiver d :=
    State.receiver_writeReceiver s1 x.receiver d _
  have only : s.onlyIn [.hires, .nextHire, .accounts, .receivers] s2 :=
    ((State.createHire_only s h _).sub (by decide)).next (State.writeReceiver_only s1 _ _) (by decide)
  have owners : s2.owners = s.owners := congrArg (fun o : Orders => o.standing.map Standing.owner) (only .orders (by decide))
  have h2 : s2.HiresHold none := by
    refine law.create (h := h) (e := x.receiver) free ?_ ?_ (fun d other => (entry d).trans (if_neg other))
      (fun k other => (hire k).trans (if_neg other)) ?_ ?_ ?_ (.inl ⟨?_, ?_⟩) owners (only .channels (by decide)) (only .log (by decide))
    · rcases desk with e | e <;> rw [e] <;> rfl
    · rcases desk with e | e <;> rw [e] <;> exact fun e => nomatch e
    · rw [hire, if_pos rfl]; rfl
    · rw [entry, if_pos rfl]; rfl
    · rw [entry, if_pos rfl]; rfl
    · rw [hire, if_pos rfl]; rfl
    · rw [entry, if_pos rfl]; rfl
  have fresh : .issue h ∉ s2.owners := fun m => nomatch free.symm.trans (law.lists.issues h (owners ▸ m))
  have only3 : s2.onlyIn [.positions, .presets] ((s2.relampHolder x.receiver).requestPreset x.receiver c) :=
    ((State.relampHolder_only s2 _).sub (by decide)).next (State.requestPreset_only _ _ _) (by decide)
  have h3 := h2.frame only3 (by decide)
  refine h3.makeStanding (o := .issue h) ?_ (fun k e => ?_) (fun _ e => nomatch e) n clamped
  · rw [State.owners, only3 .orders (by decide)]
    exact fresh
  · cases e
    rw [State.hire, only3 .hires (by decide)]
    exact (congrArg Hire.state ((hire h).trans (if_pos rfl))).trans rfl

/-- An adoption (R124). -/
theorem State.HiresHold.adopt (law : s.HiresHold none) {h : HireId} (free : (s.hire h).state = .free) (x : Hire)
    (desk : (s.receiver x.receiver).state = .docked ∨ (s.receiver x.receiver).state = .adrift) (c : ChannelId) :
    (s.adopt h x c).HiresHold none := by
  unfold State.adopt
  extract_lets stamp s1
  generalize hu : s1.writeReceiver x.receiver _ = u
  have hire (k : HireId) : u.hire k = if k = h then ({ x with
      state := .opened, startTick := s.clock.run, start := stamp.1, adopted := true, clockUnset := stamp.2, changes := (s.hire h).changes } :
        Hire).bump else s.hire k := by
    have same : u.hires = s1.hires := hu ▸ State.writeReceiver_only s1 x.receiver _ .hires (by decide)
    exact (congrArg (fun v : Vector Hire _ => v[k]) same).trans (State.createHire_hire h k _)
  have entry (d : RecvId) : u.receiver d = if d = x.receiver then ({ s.receiver x.receiver with
      state := .onHire, hire := some h, preset := c, lastHeard := s.clock.run, hires := satAdd 16 (s.receiver x.receiver).hires 1 } :
        Receiver).bump else s.receiver d := hu ▸ State.receiver_writeReceiver s1 x.receiver d _
  have only : s.onlyIn [.hires, .nextHire, .accounts, .receivers] u :=
    hu ▸ ((State.createHire_only s h _).sub (by decide)).next (State.writeReceiver_only s1 _ _) (by decide)
  refine law.create (h := h) (e := x.receiver) free ?_ ?_ (fun d other => (entry d).trans (if_neg other))
    (fun k other => (hire k).trans (if_neg other)) ?_ ?_ ?_ (.inr ⟨?_, ?_⟩)
    (congrArg (fun o : Orders => o.standing.map Standing.owner) (only .orders (by decide))) (only .channels (by decide)) (only .log (by decide))
  · rcases desk with e | e <;> rw [e] <;> rfl
  · rcases desk with e | e <;> rw [e] <;> exact fun e => nomatch e
  · rw [hire, if_pos rfl]; rfl
  · rw [entry, if_pos rfl]; rfl
  · rw [entry, if_pos rfl]; rfl
  · rw [hire, if_pos rfl]; rfl
  · rw [entry, if_pos rfl]; rfl

theorem State.HiresHold.issue (law : s.HiresHold none) (n : SlotId) : (workIssue s n).1.HiresHold none := by
  unfold workIssue
  split
  · exact law
  · rename_i p _
    dsimp only
    split
    · exact law
    · split
      · exact law
      · split
        · exact law
        · split
          · exact law
          · split
            · exact law
            · split
              · exact law
              · exact law
              · rename_i h e free found
                have free : (s.hire h).state = .free := by simpa using ((tblFind_eq_some _ _ h).mp free).1
                have desk := State.issueReceiver_state found
                unfold State.issue
                dsimp only
                split
                · exact law.adopt free _ desk _
                · exact law.reserve free _ desk n _ _

theorem State.HiresHold.workLost (law : s.HiresHold none) (n : SlotId) : (workDeclareLost s n).1.HiresHold none := by
  have lost (h : HireId) (opened : (s.hire h).state = .opened) : (s.declareLost h).HiresHold none := by
    unfold State.declareLost
    extract_lets r s1
    have entry (d : RecvId) : s1.receiver d = if d = (s.hire h).receiver then ({ s.receiver (s.hire h).receiver with
        state := .lost, hire := none, lostHire := r.number, foundBy := .nobody, counted := none } : Receiver).bump else s.receiver d :=
      State.receiver_writeReceiver s (s.hire h).receiver d _
    refine law.closeHire (t := s1) opened rfl (fun d other => (entry d).trans (if_neg other)) rfl ?_ ?_ ?_ ?_ rfl rfl rfl _ _
    all_goals rw [entry, if_pos rfl]
    · rfl
    · rfl
    · exact fun e => nomatch e
    · rfl
  unfold workDeclareLost
  dsimp only
  split
  · exact law
  · split
    · exact law
    · split
      · exact law
      · rename_i h _ opened
        exact fst_keeps (P := State.HiresHold none) (lost h (not_not.mp opened))

end
end Sys2Proof.Machine
end

section
/-!
SUPPORT. The hire law over every command (R120, O57).
-/
namespace Sys2Proof.Machine

section
variable {s t : State}

theorem State.HiresHold.setPolicy (law : s.HiresHold none) (n : SlotId) : (workSetLogPolicy s n).1.HiresHold none := by
  have set (p : LogPolicy) : (({ s with log := { s.log with policy := p } } : State).bumpHeader).HiresHold none := by
    refine law.of_like (fun _ => Receiver.likeIn_refl _) (fun _ => Hire.likeIn_refl _) rfl (fun _ some => some) rfl
  unfold workSetLogPolicy
  split
  · split
    · exact law
    · exact keeps_ite (P := State.HiresHold none) (set _).drain (set _)
  · exact law

/-- A receiver retired or restored (R116, R117). -/
theorem State.HiresHold.restate (law : s.HiresHold none) {e : RecvId} {x : RecvState} (was : (s.receiver e).state.hired = false)
    (enrolled : (s.receiver e).state ≠ .unenrolled) (now : x.hired = false) (still : x ≠ .unenrolled) :
    ((s.writeReceiver e (fun r => { r with state := x })).relampHolder e).HiresHold none :=
  (law.writeEntry was enrolled now still rfl id).frame (State.relampHolder_only _ e) (by decide)

theorem RecvState.desk_of_retirable {x : RecvState} (h : x.retirable = true) : x.hired = false ∧ x ≠ .unenrolled := by
  cases x <;> simp_all [RecvState.retirable, RecvState.hired]

theorem State.HiresHold.retire (law : s.HiresHold none) (n : SlotId) : (workRetireReceiver s n).1.HiresHold none := by
  unfold workRetireReceiver
  split
  · exact law
  · split
    · exact law
    · rename_i e _
      dsimp only
      split
      · exact law
      · rename_i fit
        have fit : (s.receiver e).state.retirable = true := by simpa using fit
        obtain ⟨was, enrolled⟩ := RecvState.desk_of_retirable fit
        exact law.restate was enrolled rfl (fun e => nomatch e)

theorem State.HiresHold.restore (law : s.HiresHold none) (n : SlotId) : (workRestoreReceiver s n).1.HiresHold none := by
  unfold workRestoreReceiver
  split
  · exact law
  · split
    · exact law
    · rename_i e _
      dsimp only
      split
      · exact law
      · rename_i retired
        have retired : (s.receiver e).state = .retired := not_not.mp retired
        refine law.restate (by rw [retired]; rfl) (fun e => nomatch retired.symm.trans e) ?_ ?_
        · split <;> rfl
        · split <;> exact fun e => nomatch e

theorem State.HiresHold.accountClose (law : s.HiresHold none) (n : SlotId) : (workAccountClose s n).1.HiresHold none := by
  unfold workAccountClose
  split
  · dsimp only
    split
    · exact law
    · split
      · exact law
      · split
        · exact law
        · exact (law.frame (State.writeAccount_only s _ _) (by decide)).writeTally _
  · exact law

theorem State.HiresHold.setDistribution (law : s.HiresHold none) (n : SlotId) : (workSetDistribution s n).1.HiresHold none := by
  have hall := hiresHold_hall none
  unfold workSetDistribution
  split
  · dsimp only
    split
    · exact law
    · exact hall.stagePlan (hall.writeChannel (hall.framer law _) 0 _ ⟨rfl, rfl, rfl, rfl⟩)
  · exact law

/-- The work of any order keeps the law. -/
theorem OrderWork.hiresHold {k : Nat} {w : Work} (h : OrderWork k w) (law : s.HiresHold none) (n : SlotId) : (w s n).1.HiresHold none := by
  have framed (apart : ∀ f ∈ [StateField.orders, .log, .channels, .receivers, .hires], f ∉ kindTouches k) : (w s n).1.HiresHold none :=
    law.frame (h.only s n) apart
  cases h with
  | setLogPolicy => exact law.setPolicy n
  | cancel => exact law.cancel n
  | setClock => exact law.setClock n
  | linkHold => exact (hiresHold_hall none).linkHold law n
  | seatAssign => exact (hiresHold_hall none).seatAssign law n
  | channelDefine => exact law.channelDefine n
  | channelClear => exact law.channelClear n
  | handover => exact law.handover n
  | setDistribution => exact law.setDistribution n
  | issue => exact law.issue n
  | declareLost => exact law.workLost n
  | retireReceiver => exact law.retire n
  | restoreReceiver => exact law.restore n
  | accountClose => exact law.accountClose n
  | unknown => exact law
  | setNotice | setTimers | clearDocks | clearLinks | boothDefine | linkRelease | boothIntake | setTariff | accountOpen | accountPay
  | accountRefund => exact framed (by decide)

/-! ## Restarts -/

/-- The standing list emptied, with the schedules it waited for (R20). -/
theorem State.HiresHold.cleared (law : s.HiresHold none) (receivers : t.receivers = s.receivers) (hires : t.hires = s.hires)
    (log : t.log = s.log) (empty : t.owners = []) : t.HiresHold none := by
  have receiver (e : RecvId) : t.receiver e = s.receiver e := congrArg (fun v : Vector Receiver _ => v[e]) receivers
  have hire (h : HireId) : t.hire h = s.hire h := congrArg (fun v : Vector Hire _ => v[h]) hires
  have line : t.closedInLine = s.closedInLine := congrArg (fun l : TallyLog => l.waiting.filterMap WaitEntry.hire?) log
  refine ⟨law.entries.of_like (fun e => ?_) (fun h => ?_), empty ▸ List.nodup_nil, fun _ m => ?_, fun _ m => ?_, line ▸ law.lists.inLine,
    fun h => ?_, fun _ e => nomatch e⟩
  · rw [receiver]; exact Receiver.likeIn_refl _
  · rw [hire]; exact Hire.likeIn_refl _
  · exact nomatch empty ▸ m
  · exact nomatch empty ▸ m
  · rw [line, hire]
    exact law.lists.waiting h

theorem State.HiresHold.abortOrders (law : s.HiresHold none) (w : Option (SlotId × Result)) :
    (s.enterRestarting.abortOrders w).HiresHold none := by
  have only : s.onlyIn [.part, .header, .notices, .mem, .channels, .orders] (s.enterRestarting.abortOrders w) :=
    ((State.enterRestarting_only s).sub (by decide)).next (State.abortOrders_only _ w) (by decide)
  exact law.cleared (only .receivers (by decide)) (only .hires (by decide)) (only .log (by decide)) rfl

theorem State.HiresHold.restart (law : s.HiresHold none) (v : Half) (e : ByteEnables) (w : Bool) : (s.restart v e w).HiresHold none := by
  refine keeps_ite (P := State.HiresHold none) ?_ law
  cases w with
  | false => exact law.abortOrders none
  | true =>
    have finished : s.finishWorking.1.HiresHold none := by
      unfold State.finishWorking
      split
      · exact law
      · exact (orderWork_kind s _).hiresHold (law.takeSlot _ _) _
    exact finished.abortOrders _

/-- Zero entries and free hires, with nothing standing or waiting, have the law. -/
theorem State.hiresHold_of_zero (entries : ∀ e, ∃ x : Half, s.receiver e = { Receiver.zero with changes := x })
    (hires : ∀ h, ∃ x : Half, s.hire h = { Hire.zero with changes := x }) (owners : s.owners = []) (line : s.closedInLine = []) :
    s.HiresHold none := by
  refine ⟨State.EntriesHold.of_like (s := State.reset) (State.hiresHold_iff.mpr State.reset_hiresOk).entries (fun e => ?_) (fun h => ?_),
    owners ▸ List.nodup_nil, fun _ m => ?_, fun _ m => ?_, line ▸ List.nodup_nil, fun h => ?_, fun _ e => nomatch e⟩
  · obtain ⟨x, same⟩ := entries e
    rw [same, State.reset_receiver]
    exact ⟨rfl, rfl, .inl rfl⟩
  · obtain ⟨x, same⟩ := hires h
    rw [same, State.reset_hire]
    exact ⟨rfl, rfl⟩
  · exact nomatch owners ▸ m
  · exact nomatch owners ▸ m
  · obtain ⟨x, same⟩ := hires h
    rw [line, same]
    exact iff_of_false (fun m => nomatch m) (fun e => nomatch e.1)

theorem State.HiresHold.completeStartup (law : s.HiresHold none) : s.completeStartup.HiresHold none := by
  refine keeps_ite (P := State.HiresHold none) ?_ law
  refine State.HiresHold.frame ?_ (State.becomeReady_only _) (by decide)
  exact (State.hiresHold_iff.mpr State.reset_hiresOk).of_like (fun _ => Receiver.likeIn_refl _) (fun _ => Hire.likeIn_refl _) rfl
    (fun _ some => some) rfl

theorem State.HiresHold.completeRestart (law : s.HiresHold none) : s.completeRestart.HiresHold none := by
  refine keeps_ite (P := State.HiresHold none) ?_ law
  refine State.HiresHold.frame ?_ (State.becomeReady_only _) (by decide)
  refine State.hiresHold_of_zero (fun e => ⟨(s.restartTally.loseWaiting.receiver e).changes + 2, ?_⟩)
    (fun h => ⟨(s.restartTally.loseWaiting.hire h).changes + 2, ?_⟩) rfl rfl
  · show (s.restartTally.loseWaiting.receivers.map _)[e] = _
    rw [Fin.getElem_fin, Vector.getElem_map]
    rfl
  · show (s.restartTally.loseWaiting.hires.map _)[h] = _
    rw [Fin.getElem_fin, Vector.getElem_map]
    rfl

/-! ## Beacons and the census -/

theorem Receiver.heardFrom_likeIn (r : Receiver) (m : HubMessage) (k : Nat) (w : Bool) : (r.heardFrom m k w).likeIn r := by
  refine ⟨rfl, rfl, ?_⟩
  show (if r.state = .silent then RecvState.onHire else r.state) = r.state ∨ _ ∧ ((if r.state = .silent then RecvState.onHire else r.state) = _ ∨ _)
  by_cases silent : r.state = .silent
  · rw [if_pos silent]
    exact .inr ⟨.inr silent, .inl rfl⟩
  · exact .inl (if_neg silent)

theorem State.HiresHold.beacon (law : s.HiresHold none) (m : HubMessage) : (s.beacon m).HiresHold none := by
  have counted (f : BeaconCounts → BeaconCounts) : (s.countBeacon f).HiresHold none := law.frame (State.countBeacon_only s f) (by decide)
  have stray (d : Bool) : (s.stray d).HiresHold none :=
    keeps_ite (P := State.HiresHold none) ((counted _).frame (State.raise_only _ _) (by decide)) (counted _)
  have accepted (e : RecvId) : (s.acceptBeacon e m).HiresHold none := by
    unfold State.acceptBeacon
    extract_lets r s1 s2
    have h2 : s2.HiresHold none := (counted _).writeLike (Receiver.heardFrom_likeIn _ m _ _)
    exact keeps_ite (P := State.HiresHold none) ((h2.frame (State.raise_only _ _) (by decide)).handFound e _ _) h2
  unfold State.beacon
  refine keeps_ite (P := State.HiresHold none) law (keeps_ite (P := State.HiresHold none) (counted _) ?_)
  split
  · unfold State.workBeacon
    split
    case h_1 | h_2 | h_3 | h_4 => exact stray true
    all_goals exact keeps_ite (P := State.HiresHold none) (counted _) (accepted _)
  · exact stray false

theorem Receiver.censused_likeIn (k : Timers) (now : Nat) (r : Receiver) : (r.censused k now).likeIn r := by
  unfold Receiver.censused
  split
  · rename_i out
    have out : r.state = .onHire ∨ r.state = .silent := by simpa [Receiver.inCensus] using out
    have bracketed (q : Receiver) (like : q.likeIn r) : (if q = r then r else q.bump).likeIn r := by
      split
      · exact Receiver.likeIn_refl r
      · exact ⟨like.serial, like.hire, like.state⟩
    refine bracketed _ ⟨rfl, rfl, ?_⟩
    by_cases silent : r.goesSilent k now = true
    · exact .inr ⟨out, .inr (if_pos silent)⟩
    · exact .inl (if_neg silent)
  · exact Receiver.likeIn_refl r

theorem State.HiresHold.censusMark (law : s.HiresHold none) : s.censusMark.HiresHold none := by
  have hall := hiresHold_hall none
  have passed : ({ s with clock := { s.clock with markDue := false } } : State).HiresHold none := law.frame (State.clock_only s _) (by decide)
  refine keeps_ite (P := State.HiresHold none) law (keeps_ite (P := State.HiresHold none) ?_ passed)
  generalize ({ s with clock := { s.clock with markDue := false } } : State) = u at passed
  unfold State.workCensusMark
  extract_lets counts s1 s2
  have taken : (u.takeCensus counts).HiresHold none := by
    unfold State.takeCensus
    extract_lets silent t1 t2
    have censused : ({ u with receivers := u.receivers.map (Receiver.censused u.timers u.clock.run) } : State).HiresHold none := by
      refine passed.of_like (fun e => ?_) (fun _ => Hire.likeIn_refl _) rfl (fun _ some => some) rfl
      show Receiver.likeIn (u.receivers.map _)[e] _
      rw [Fin.getElem_fin, Vector.getElem_map]
      exact Receiver.censused_likeIn _ _ _
    have h2 : t2.HiresHold none := (hall.writeListeners censused counts).frame (State.countBeacon_only _ _) (by decide)
    exact keeps_ite (P := State.HiresHold none) (h2.frame (State.raise_only _ _) (by decide)) h2
  have h1 : s1.HiresHold none := hall.clearStranded taken counts
  have h2 : s2.HiresHold none := keeps_ite (P := State.HiresHold none) (hall.creditMinutes h1) h1
  exact h2.frame (State.snapshot_only s2) (by decide)

/-! ## Every command -/

theorem State.HiresHold.hostWrite (law : s.HiresHold none) (o : Nat) (v : Half) (e : ByteEnables) : (s.hostWrite o v e).HiresHold none := by
  have guard : s.guardHit.HiresHold none := law.frame (State.guardHit_only s) (by decide)
  have written (m : Memory) : ({ s with mem := m } : State).HiresHold none := law.frame (State.mem_only s m) (by decide)
  refine keeps_ite (P := State.HiresHold none) law (keeps_ite (P := State.HiresHold none) ?_ (keeps_ite (P := State.HiresHold none) (written _) ?_))
  · exact keeps_ite (P := State.HiresHold none) (keeps_ite (P := State.HiresHold none) law (written _).drain) guard
  · split
    · exact law.frame (State.writeSlot_only s _ _ v e) (by decide)
    · exact guard

theorem State.HiresHold.post (law : s.HiresHold none) (v : Half) (e : ByteEnables) : (s.post v e).HiresHold none := by
  have refused : s.postRefusal.HiresHold none := law.frame (State.postRefusal_only s) (by decide)
  unfold State.post
  refine keeps_ite (P := State.HiresHold none) law ?_
  split
  · exact keeps_ite (P := State.HiresHold none) ((law.frame (State.setHolder_only s _ _) (by decide)).queue _) refused
  · exact refused

theorem State.HiresHold.run (s : State) (i : Instr) (law : s.HiresHold none) : (s.run i).HiresHold none := by
  have hall := hiresHold_hall none
  have reads := hiresHold_reads none
  have framed (apart : ∀ f ∈ [StateField.orders, .log, .channels, .receivers, .hires], f ∉ commandTouches i) : (s.run i).HiresHold none :=
    law.frame (s.run_only i) apart
  cases i with
  | startupComplete => exact law.completeStartup
  | softRestartComplete => exact law.completeRestart
  | exchangeWrite a v e => exact law.hostWrite _ v e
  | holderWordWrite n v e => exact law.hostWrite _ v e
  | logReadCountWrite v e => exact law.hostWrite _ v e
  | post v e => exact law.post v e
  | restart v e w => exact law.restart v e w
  | ignoredRegisterWrite a v e =>
    exact portWrite_keeps (P := State.HiresHold none) a v e (law.post v e) (law.frame (s.clearPending_only v e) (by decide))
      (law.frame (s.setEnabled_only v e) (by decide)) (law.restart v e false) law
  | frameBoundary => exact hall.frameBoundary law
  | superframeBoundary => exact hall.superframe law
  | audioFrame b a => exact hall.takeAudioFrame law b a
  | announceFrame b f => exact hall.takeAnnounce law b f
  | missingMarker b => exact hall.missMarker law b
  | micOn b k | micOff b k | offer b k | accept b k | consoleCancel b k | offerOut b k => exact hall.deliver law b _ k
  | gapDeadlineExpiry b k => exact hall.gapExpiry law b k
  | outgoingOfferLapse c => exact hall.outgoingLapse law c
  | warningReached c => exact hall.warningReached law c
  | targetReached c => exact hall.targetReached law c
  | waitDeadlineExpiry c => exact hall.waitExpiry law c
  | floorFrame a => exact hall.floorFrame law a
  | rackAnswer a => exact hiresHold_docks.rackAnswer reads (by decide) s a law
  | inventoryAnswer inv =>
    exact hiresHold_docks.inventoryAnswer reads (fun t ht => ht.frame (State.raise_only t _) (by decide)) (by decide) s inv law
  | answerWindowExpiry => exact hiresHold_docks.answerExpiry reads (by decide) s law
  | settleDeadlineExpiry p => exact keeps_ite (P := State.HiresHold none) (law.removal p _ _) law
  | reserveDeadlineExpiry h =>
    show (s.reserveExpiry h).HiresHold none
    unfold State.reserveExpiry
    dsimp only
    split
    · rename_i due
      exact keeps_ite (P := State.HiresHold none) (law.writeHire ⟨rfl, rfl⟩) (law.endReservation due.2.1 _ _)
    · exact law
  | beacon m => exact law.beacon m
  | censusMark => exact law.censusMark
  | resetAssert | resetRelease | noticePendingWrite | noticeEnableWrite | noticeVectorLowRead | noticeVectorHighRead | pollSend
  | busyDeadlineExpiry | offerDeadlineExpiry | runCounterTick => exact framed (by dsimp only [commandTouches]; decide)
  | unknownOrder | setNotice | setTimers | setLogPolicy | cancel | clearCountsLinks | clearCountsDocks | setClock | boothDefine | linkHold
  | linkRelease | boothIntake | seatAssign | channelDefine | channelClear | handover | setDistribution | issue | declareLost
  | retireReceiver | restoreReceiver | setTariff | accountOpen | accountPay | accountRefund | accountClose =>
    exact order_keeps (by decide) (fun k w hw u n rest _ _ hu =>
      (hw.hiresHold (hu.takeSlot n rest) n).frame (finishOrder_only n _) (by decide)) law

end

/-- Settles O57. -/
theorem stepsKeepTheHireLaw : Obligations.StepsKeepTheHireLaw := fun _ _ step law =>
  State.hiresHold_iff.mp ((hiresHold_reads none).step (by decide) State.HiresHold.run step (State.hiresHold_iff.mpr law))

end Sys2Proof.Machine
end

section
/-!
SUPPORT. The account law (R151, R159): the books of an account are the holds and the number of the hires that run on it.
-/
namespace Sys2Proof.Machine

/-! ## Sums over the hire records -/

theorem toList_sum {α : Type} {n : Nat} (v : Vector α n) (f : α → Nat) : (v.toList.map f).sum = ∑ i : Fin n, f v[i] := by
  rw [← List.sum_ofFn]
  congr 1
  refine List.ext_getElem (by simp) fun i _ _ => ?_
  simp

theorem toList_countP {α : Type} {n : Nat} (v : Vector α n) (p : α → Bool) :
    v.toList.countP p = ∑ i : Fin n, if p v[i] then 1 else 0 := by
  rw [← toList_sum v (fun x => if p x then 1 else 0)]
  induction v.toList with
  | nil => rfl
  | cons x l ih =>
    rw [List.countP_cons, List.map_cons, List.sum_cons, ih, Nat.add_comm]

theorem toList_filter_sum {α : Type} {n : Nat} (v : Vector α n) (p : α → Bool) (f : α → Nat) :
    ((v.toList.filter p).map f).sum = ∑ i : Fin n, if p v[i] then f v[i] else 0 := by
  rw [← toList_sum v (fun x => if p x then f x else 0)]
  induction v.toList with
  | nil => rfl
  | cons x l ih =>
    rw [List.filter_cons, List.map_cons, List.sum_cons, ← ih]
    split
    · rw [List.map_cons, List.sum_cons]
    · rw [Nat.zero_add]

/-- Two sums whose terms are the same but at one place. -/
theorem sum_changed {ι : Type} [Fintype ι] [DecidableEq ι] {f g : ι → Nat} (i : ι) (others : ∀ j, j ≠ i → g j = f j) :
    (∑ j, g j) + f i = (∑ j, f j) + g i := by
  have apart : ∑ j ∈ Finset.univ.erase i, g j = ∑ j ∈ Finset.univ.erase i, f j :=
    Finset.sum_congr rfl fun j hj => others j (Finset.ne_of_mem_erase hj)
  have left := Finset.add_sum_erase Finset.univ g (Finset.mem_univ i)
  have right := Finset.add_sum_erase Finset.univ f (Finset.mem_univ i)
  omega

/-! ## Hires that run on an account -/

/-- What a hire adds to the count of an account. -/
def Hire.counted (r : Hire) (a : AcctId) : Nat := if r.runsOn a then 1 else 0

/-- What a hire adds to the holds of an account. -/
def Hire.holding (r : Hire) (a : AcctId) : Nat := if r.runsOn a then r.hold else 0

/-- The number of hires that run on an account. -/
def State.runningOn (s : State) (a : AcctId) : Nat := ∑ h : HireId, (s.hire h).counted a

/-- The holds of the hires that run on an account. -/
def State.heldOn (s : State) (a : AcctId) : Nat := ∑ h : HireId, (s.hire h).holding a

theorem Hire.runsOn_iff (r : Hire) (a : AcctId) : r.runsOn a = true ↔ r.state.running = true ∧ r.account = a := by
  unfold Hire.runsOn
  cases state : r.state <;> simp [HireState.running]

section
variable {r : Hire} {a : AcctId}

theorem Hire.counted_idle (idle : r.state.running = false) : r.counted a = 0 :=
  if_neg fun runs => nomatch idle.symm.trans ((r.runsOn_iff a).mp runs).1

theorem Hire.holding_idle (idle : r.state.running = false) : r.holding a = 0 :=
  if_neg fun runs => nomatch idle.symm.trans ((r.runsOn_iff a).mp runs).1

theorem Hire.counted_own (runs : r.state.running = true) : r.counted a = if a = r.account then 1 else 0 := by
  have : r.runsOn a = true ↔ a = r.account := by rw [r.runsOn_iff, runs]; simp [eq_comm]
  simp only [Hire.counted, this]

theorem Hire.holding_own (runs : r.state.running = true) : r.holding a = if a = r.account then r.hold else 0 := by
  have : r.runsOn a = true ↔ a = r.account := by rw [r.runsOn_iff, runs]; simp [eq_comm]
  simp only [Hire.holding, this]

end

/-- A hire record that runs as another does, on its account with its hold, and is a reservation only where it is one. -/
structure Hire.bookedAs (r q : Hire) : Prop where
  running : r.state.running = q.state.running
  account : r.account = q.account
  hold : r.hold = q.hold
  reserving : r.state = .reserving → q.state = .reserving

theorem Hire.bookedAs_refl (r : Hire) : r.bookedAs r := ⟨rfl, rfl, rfl, id⟩

theorem Hire.bookedAs.runsOn {r q : Hire} (h : r.bookedAs q) (a : AcctId) : r.runsOn a = q.runsOn a := by
  rw [Bool.eq_iff_iff, Hire.runsOn_iff, Hire.runsOn_iff, h.running, h.account]

theorem Hire.bookedAs.counted {r q : Hire} (h : r.bookedAs q) (a : AcctId) : r.counted a = q.counted a := by
  rw [Hire.counted, Hire.counted, h.runsOn]

theorem Hire.bookedAs.holding {r q : Hire} (h : r.bookedAs q) (a : AcctId) : r.holding a = q.holding a := by
  rw [Hire.holding, Hire.holding, h.runsOn, h.hold]

/-! ## The law -/

/-- The books of an account on which `count` hires run with `holds` in all (R151, R159). -/
structure Account.Books (r : Account) (count holds : Nat) : Prop where
  count : r.count = count
  holds : r.holds = holds
  covered : r.holds ≤ r.deposit
  within : r.count ≤ r.limit
  deposit : r.deposit ≤ maxCents
  owed : r.owed ≤ maxCents
  held : r.state = .held ↔ 0 < r.owed
  free : r.state = .free → r.count = 0

/-- The account law, while the reservations of `x`, which is HELD, are about to end. -/
structure State.BooksHold (x : Option AcctId) (s : State) : Prop where
  books : ∀ a, (s.account a).Books (s.runningOn a) (s.heldOn a)
  spared : ∀ h, (s.hire h).state = .reserving → (s.account (s.hire h).account).state = .held → x = some (s.hire h).account

theorem State.booksHold_iff {s : State} : s.BooksHold none ↔ s.accountsOk := by
  have count (a : AcctId) : s.hires.toList.countP (fun r => r.runsOn a) = s.runningOn a := toList_countP _ _
  have holds (a : AcctId) : ((s.hires.toList.filter (fun r => r.runsOn a)).map (fun r => r.hold)).sum = s.heldOn a := toList_filter_sum _ _ _
  constructor
  · rintro ⟨books, spared⟩ a
    obtain ⟨counted, held, covered, within, deposit, owed, state, free⟩ := books a
    rw [count, holds]
    refine ⟨counted, held, covered, within, deposit, owed, state, fun held h reserving own => ?_, free⟩
    exact nomatch spared h reserving (own.symm ▸ held)
  · intro law
    refine ⟨fun a => ?_, fun h reserving held => ?_⟩
    · obtain ⟨counted, held, covered, within, deposit, owed, state, -, free⟩ := law a
      exact ⟨counted.trans (count a), held.trans (holds a), covered, within, deposit, owed, state, free⟩
    · obtain ⟨-, -, -, -, -, -, -, spared, -⟩ := law (s.hire h).account
      exact absurd rfl (spared held h reserving)

section
variable {s t : State} {x y : Option AcctId}

theorem State.runningOn_like (hires : ∀ h, (t.hire h).bookedAs (s.hire h)) (a : AcctId) : t.runningOn a = s.runningOn a :=
  Finset.sum_congr rfl fun h _ => (hires h).counted a

theorem State.heldOn_like (hires : ∀ h, (t.hire h).bookedAs (s.hire h)) (a : AcctId) : t.heldOn a = s.heldOn a :=
  Finset.sum_congr rfl fun h _ => (hires h).holding a

/-- Account records whose books are right over the hires as they were. -/
theorem State.BooksHold.rebook (law : s.BooksHold x) (hires : ∀ h, (t.hire h).bookedAs (s.hire h))
    (books : ∀ a, (t.account a).Books (s.runningOn a) (s.heldOn a))
    (held : ∀ a, (t.account a).state = .held → (s.account a).state = .held ∧ x ≠ some a ∨ y = some a) : t.BooksHold y where
  books a := by rw [State.runningOn_like hires, State.heldOn_like hires]; exact books a
  spared h reserving state := by
    have was := (hires h).reserving reserving
    rw [(hires h).account] at state ⊢
    rcases held _ state with ⟨still, apart⟩ | own
    · exact absurd (law.spared h was still) apart
    · exact own

/-- The account law reads of a state only what is booked alike. -/
theorem State.BooksHold.of_like (law : s.BooksHold x) (hires : ∀ h, (t.hire h).bookedAs (s.hire h))
    (accounts : ∀ a, ∃ k : Half, t.account a = { s.account a with changes := k }) : t.BooksHold x where
  books a := by
    obtain ⟨k, same⟩ := accounts a
    rw [State.runningOn_like hires, State.heldOn_like hires, same]
    obtain ⟨count, holds, covered, within, deposit, owed, held, free⟩ := law.books a
    exact ⟨count, holds, covered, within, deposit, owed, held, free⟩
  spared h reserving state := by
    obtain ⟨k, same⟩ := accounts (t.hire h).account
    rw [same] at state
    rw [(hires h).account] at state ⊢
    exact law.spared h ((hires h).reserving reserving) state

theorem booksHold_reads (x : Option AcctId) : Reads (State.BooksHold x) [.hires, .accounts] := by
  intro s t same law
  refine law.of_like (fun h => ?_) fun a => ⟨(s.account a).changes, ?_⟩
  · rw [show t.hire h = s.hire h from congrArg (fun v : Vector Hire _ => v[h]) (same .hires (by decide))]
    exact Hire.bookedAs_refl _
  · exact congrArg (fun v : Vector Account _ => v[a]) (same .accounts (by decide))

theorem State.BooksHold.frame (law : s.BooksHold x) {l : List StateField} (only : s.onlyIn l t)
    (apart : ∀ f ∈ [StateField.hires, .accounts], f ∉ l) : t.BooksHold x := (booksHold_reads x).frame only apart law

/-! ## One hire changed -/

theorem State.runningOn_changed {h : HireId} (others : ∀ k, k ≠ h → t.hire k = s.hire k) (a : AcctId) :
    t.runningOn a + (s.hire h).counted a = s.runningOn a + (t.hire h).counted a :=
  sum_changed (f := fun k => (s.hire k).counted a) (g := fun k => (t.hire k).counted a) h fun k other => by rw [others k other]

theorem State.heldOn_changed {h : HireId} (others : ∀ k, k ≠ h → t.hire k = s.hire k) (a : AcctId) :
    t.heldOn a + (s.hire h).holding a = s.heldOn a + (t.hire h).holding a :=
  sum_changed (f := fun k => (s.hire k).holding a) (g := fun k => (t.hire k).holding a) h fun k other => by rw [others k other]

/-- A hire that runs is counted, so its account is not FREE. -/
theorem State.BooksHold.not_free (law : s.BooksHold x) {h : HireId} (runs : (s.hire h).state.running = true) :
    (s.account (s.hire h).account).state ≠ .free := fun free => by
  have zero : s.runningOn (s.hire h).account = 0 := (law.books _).count.symm.trans ((law.books _).free free)
  have one := (Finset.sum_eq_zero_iff.mp zero) h (Finset.mem_univ h)
  rw [Hire.counted_own runs, if_pos rfl] at one
  exact nomatch one

/-- A hire ends, and its account releases its hold (R125, R157). -/
theorem State.BooksHold.ended (law : s.BooksHold x) {h : HireId} (runs : (s.hire h).state.running = true)
    (others : ∀ k, k ≠ h → t.hire k = s.hire k) (idle : (t.hire h).state.running = false)
    (accounts : ∀ a, t.account a = if a = (s.hire h).account then (s.account a).release (s.hire h).hold else s.account a) : t.BooksHold x where
  books a := by
    have count := State.runningOn_changed others a
    have holds := State.heldOn_changed others a
    rw [Hire.counted_own runs, Hire.counted_idle idle] at count
    rw [Hire.holding_own runs, Hire.holding_idle idle] at holds
    obtain ⟨counted, held, covered, within, deposit, owed, state, free⟩ := law.books a
    rw [accounts]
    split
    · rename_i own
      rw [if_pos own] at count holds
      refine ⟨?_, ?_, ?_, ?_, deposit, owed, state, fun e => ?_⟩
      · show (s.account a).count - 1 = _
        omega
      · show (s.account a).holds - _ = _
        omega
      · exact (Nat.sub_le _ _).trans covered
      · exact (Nat.sub_le _ _).trans within
      · show (s.account a).count - 1 = 0
        rw [free e]
    · rename_i other
      rw [if_neg other] at count holds
      exact ⟨counted.trans (by omega), held.trans (by omega), covered, within, deposit, owed, state, free⟩
  spared k reserving held := by
    have other : k ≠ h := fun own => nomatch idle.symm.trans (HireState.running_of (.inl (own ▸ reserving)))
    rw [others k other] at reserving held ⊢
    refine law.spared k reserving ?_
    rw [accounts] at held
    split at held
    · exact held
    · exact held

/-- A free hire record becomes a hire on an ACTIVE account that has room for it (R122, R151). -/
theorem State.BooksHold.begun (law : s.BooksHold x) {h : HireId} {a : AcctId} (free : (s.hire h).state = .free)
    (others : ∀ k, k ≠ h → t.hire k = s.hire k) (runs : (t.hire h).state.running = true) (own : (t.hire h).account = a)
    (active : (s.account a).state = .active) (room : (s.account a).count ≠ (s.account a).limit) (fits : (t.hire h).hold ≤ (s.account a).free)
    (accounts : ∀ b, t.account b = if b = a then ((s.account a).reserve (t.hire h).hold).bump else s.account b) : t.BooksHold x where
  books b := by
    have idle : (s.hire h).state.running = false := by rw [free]; rfl
    have count := State.runningOn_changed others b
    have holds := State.heldOn_changed others b
    rw [Hire.counted_own runs, Hire.counted_idle idle, own] at count
    rw [Hire.holding_own runs, Hire.holding_idle idle, own] at holds
    obtain ⟨counted, held, covered, within, deposit, owed, state, empty⟩ := law.books b
    rw [accounts]
    split
    · rename_i same
      subst same
      rw [if_pos rfl] at count holds
      unfold Account.free at fits
      refine ⟨?_, ?_, ?_, ?_, deposit, owed, state, fun e => (nomatch active.symm.trans e)⟩
      · show (s.account b).count + 1 = _
        omega
      · show (s.account b).holds + _ = _
        omega
      · show (s.account b).holds + _ ≤ (s.account b).deposit
        omega
      · show (s.account b).count + 1 ≤ (s.account b).limit
        omega
    · rename_i other
      rw [if_neg other] at count holds
      exact ⟨counted.trans (by omega), held.trans (by omega), covered, within, deposit, owed, state, empty⟩
  spared k reserving held := by
    rw [accounts] at held
    by_cases same : k = h
    · subst same
      rw [own, if_pos rfl] at held
      exact nomatch active.symm.trans held
    · rw [others k same] at reserving held ⊢
      split at held
      · rename_i named
        exact nomatch active.symm.trans held
      · exact law.spared k reserving held

end

end Sys2Proof.Machine
end

section
/-!
SUPPORT. The account law through reservations, settlements and closings (R125, R126, R130, R157 to R159).
-/
namespace Sys2Proof.Machine

section
variable {s t : State} {x : Option AcctId} {h : HireId}

/-! ## Records written -/

theorem State.BooksHold.writeHire (law : s.BooksHold x) {f : Hire → Hire} (like : (f (s.hire h)).bookedAs (s.hire h)) :
    (s.writeHire h f).BooksHold x := by
  refine law.of_like (fun k => ?_) fun a => ⟨(s.account a).changes, rfl⟩
  rw [State.hire_writeHire]
  split
  · rename_i own
    subst own
    exact ⟨like.running, like.account, like.hold, like.reserving⟩
  · exact Hire.bookedAs_refl _

/-- An account record rewritten, its books right over the same hires. -/
theorem State.BooksHold.updAccount {y : Option AcctId} (law : s.BooksHold x) {a : AcctId} {f : Account → Account}
    (books : (f (s.account a)).Books (s.runningOn a) (s.heldOn a))
    (held : (f (s.account a)).state = .held → (s.account a).state = .held ∧ x ≠ some a ∨ y = some a)
    (rest : ∀ b, b ≠ a → x = some b → y = some b) : (s.updAccount a f).BooksHold y := by
  refine law.rebook (fun k => Hire.bookedAs_refl _) (fun b => ?_) fun b state => ?_
  · rw [State.account_updAccount]
    split
    · rename_i own
      exact own ▸ books
    · exact law.books b
  · rw [State.account_updAccount] at state
    split at state
    · rename_i own
      exact own ▸ held state
    · rename_i other
      by_cases named : x = some b
      · exact .inr (rest b other named)
      · exact .inl ⟨state, named⟩

theorem State.BooksHold.bracket (law : s.BooksHold x) (a : AcctId) {f : Account → Account}
    (same : ∃ k : Half, f (s.account a) = { s.account a with changes := k }) : (s.updAccount a f).BooksHold x := by
  refine law.of_like (fun k => Hire.bookedAs_refl _) fun b => ?_
  rw [State.account_updAccount]
  split
  · rename_i own
    exact own ▸ same
  · exact ⟨_, rfl⟩

/-! ## The ends of a reservation -/

theorem State.BooksHold.dropReservation (law : s.BooksHold x) (reserving : (s.hire h).state = .reserving) (code : ResultCode) (reason : Reason) :
    (s.dropReservation h code reason).BooksHold x := by
  have same := s.dropReservation_same h code reason
  have hire (k : HireId) : (s.dropReservation h code reason).hire k = (s.released h).hire k := by rw [same]
  have account (a : AcctId) : (s.dropReservation h code reason).account a = (s.released h).account a := by rw [same]
  refine law.ended (h := h) (HireState.running_of (.inl reserving)) (fun k other => ?_) ?_ fun a => ?_
  · rw [hire, State.released_hire, if_neg other]
  · rw [hire, State.released_hire, if_pos rfl]
    rfl
  · rw [account, State.released_account]
    split
    · rename_i own
      rw [own]
    · rfl

theorem State.BooksHold.endReservation (law : s.BooksHold x) (reserving : (s.hire h).state = .reserving) (code : ResultCode) (reason : Reason) :
    (s.endReservation h code reason).BooksHold x := by
  refine (law.dropReservation reserving code reason).bracket (s.hire h).account
    (f := fun r => if r = s.account (s.hire h).account then r else r.bump) ?_
  dsimp only
  split
  · exact ⟨_, rfl⟩
  · exact ⟨_, rfl⟩

theorem State.BooksHold.dropEach : ∀ (l : List HireId) {s : State}, l.Nodup → s.BooksHold x →
    (∀ h ∈ l, (s.hire h).state = .reserving) → (s.each l (fun s h => s.dropReservation h .refused .accountHeld)).BooksHold x
  | [], _, _, law, _ => law
  | h :: l, s, distinct, law, reserving => by
    obtain ⟨apart, distinct⟩ := List.nodup_cons.mp distinct
    refine State.BooksHold.dropEach l distinct (law.dropReservation (reserving h (List.mem_cons_self ..)) _ _) fun k hk => ?_
    rw [State.dropReservation_hire s (h := h) (fun e : k = h => apart (e ▸ hk)) .refused .accountHeld]
    exact reserving k (List.mem_cons_of_mem h hk)

/-- A hire that is a reservation after others were dropped is none of them. -/
theorem State.dropEach_spared {k : HireId} : ∀ (l : List HireId) {s : State},
    ((s.each l (fun s h => s.dropReservation h .refused .accountHeld)).hire k).state = .reserving →
      k ∉ l ∧ (s.each l (fun s h => s.dropReservation h .refused .accountHeld)).hire k = s.hire k
  | [], _, _ => ⟨fun m => (nomatch m), rfl⟩
  | h :: l, s, reserving => by
    obtain ⟨apart, same⟩ := State.dropEach_spared l (s := s.dropReservation h .refused .accountHeld) reserving
    have other : k ≠ h := fun own => by
      have freed : ((s.dropReservation h .refused .accountHeld).hire k).state = .free := by
        have released : (s.dropReservation h .refused .accountHeld).hire k = (s.released h).hire k := by rw [State.dropReservation_same]
        rw [released, State.released_hire, if_pos own]
        rfl
      exact nomatch freed.symm.trans ((congrArg Hire.state same).symm.trans reserving)
    refine ⟨fun m => (List.mem_cons.mp m).elim other apart, same.trans ?_⟩
    exact State.dropReservation_hire s other .refused .accountHeld

/-- An account that has become HELD is left with no reservation (R130, R159). -/
theorem State.BooksHold.dropReservations {a : AcctId} (law : s.BooksHold (some a)) : (s.dropReservations a).BooksHold none := by
  have dropped : (s.dropReservations a).BooksHold (some a) := by
    refine State.BooksHold.dropEach _ (tblAll_nodup _ _) law fun h hh => ?_
    have named := (mem_tblAll _ _ _).mp hh
    simp only [Bool.and_eq_true, beq_iff_eq] at named
    exact named.1
  refine ⟨dropped.books, fun k reserving held => ?_⟩
  have own := Option.some.inj (dropped.spared k reserving held)
  obtain ⟨apart, same⟩ := State.dropEach_spared (k := k) _ reserving
  refine absurd ((mem_tblAll _ _ _).mpr ?_) apart
  simp only [Bool.and_eq_true, beq_iff_eq]
  exact ⟨(congrArg Hire.state same).symm.trans reserving, (congrArg Hire.account same).symm.trans own.symm⟩

/-! ## Settlements -/

theorem Account.adds_le (r : Account) (charge : Nat) : r.adds charge ≤ maxCents - r.owed := Nat.min_le_right _ _

/-- A settlement leaves the books right; what it takes is free (R158, R159). -/
theorem Account.Books.settle {r : Account} {count holds : Nat} (books : r.Books count holds) (used : r.state ≠ .free) (charge : Nat) :
    (r.settle charge).Books count holds := by
  obtain ⟨counted, held, covered, within, deposit, owed, state, free⟩ := books
  have taken : r.takes charge ≤ r.deposit - r.holds := Nat.min_le_right _ _
  have added := r.adds_le charge
  refine ⟨counted, held, ?_, within, ?_, ?_, ?_, ?_⟩
  · show r.holds ≤ r.deposit - r.takes charge
    omega
  · exact (Nat.sub_le _ _).trans deposit
  · show r.owed + r.adds charge ≤ maxCents
    omega
  · show (if r.state = .active ∧ 0 < r.owed + r.adds charge then .held else r.state) = AcctState.held ↔ 0 < r.owed + r.adds charge
    split
    · rename_i owes
      exact iff_of_true rfl owes.2
    · rename_i not
      rw [state]
      cases at' : r.state with
      | free => exact absurd at' used
      | active => exact iff_of_false (fun p => nomatch at'.symm.trans (state.mpr p)) fun p => not ⟨at', p⟩
      | held => exact iff_of_true (state.mp at') (Nat.lt_of_lt_of_le (state.mp at') (Nat.le_add_right _ _))
  · show (if r.state = .active ∧ 0 < r.owed + r.adds charge then .held else r.state) = AcctState.free → r.count = 0
    split
    · exact fun e => nomatch e
    · exact free

theorem Account.settle_held {r : Account} {charge : Nat} (now : (r.settle charge).state = .held) :
    r.state = .held ∨ (r.state = .active ∧ 0 < r.owed + r.adds charge) := by
  have now : (if r.state = .active ∧ 0 < r.owed + r.adds charge then .held else r.state) = AcctState.held := now
  split at now
  · rename_i becomes
    exact .inr becomes
  · exact .inl now

/-- The settlement of a hire that has ended, its hold to be released (R157 to R159). -/
theorem State.BooksHold.settleHire
    (law : (s.updAccount (s.hire h).account (fun a => a.release (s.hire h).hold)).BooksHold none)
    (used : (s.account (s.hire h).account).state ≠ .free) : (s.settleHire h).BooksHold none := by
  unfold State.settleHire
  extract_lets r s1 a minutes charge s2 s3 s4 s5
  have h1 : s1.BooksHold none := law
  have named : s1.account r.account = a := rfl
  have used1 : a.state ≠ .free := by
    rw [← named, show s1.account r.account = _ from State.account_updAccount s r.account r.account _, if_pos rfl]
    exact used
  have books := (named ▸ h1.books r.account : a.Books _ _).settle used1 charge
  have h3 : s3.BooksHold none := by
    show (if _ then _ else _ : State).BooksHold none
    split
    · refine State.BooksHold.dropReservations (h1.updAccount (y := some r.account) (f := fun a => a.settle charge) books (fun _ => .inr rfl) ?_)
      exact fun _ _ e => nomatch e
    · rename_i stays
      refine h1.updAccount (y := none) (f := fun a => a.settle charge) books (fun now => .inl ⟨?_, fun e => nomatch e⟩) fun _ _ e => nomatch e
      exact (Account.settle_held now).elim id fun becomes => absurd becomes stays
  have h4 : s4.BooksHold none :=
    State.BooksHold.writeHire (h3.bracket r.account (f := Account.bump) ⟨_, rfl⟩) ⟨rfl, rfl, rfl, id⟩
  have h5 : s5.BooksHold none := keeps_ite (P := State.BooksHold none) (h4.frame (State.raise_only _ _) (by decide)) h4
  exact h5.frame (State.handTally_only s5 _ _) (by decide)

/-- A hire that is OPEN closes and is settled (R133 to R135, R157 to R159). -/
theorem State.BooksHold.closeHire (law : s.BooksHold none) (opened : (s.hire h).state = .opened) (k : Nat) (cause : CloseCause) :
    (s.closeHire h k cause).BooksHold none := by
  have runs := HireState.running_of (.inr opened)
  have own : (s.closedBy h k cause).hire h = ((s.hire h).ended s.logBlocked k (s.clock.stamp k) cause).bump :=
    (State.closedBy_hire k cause h).trans (if_pos rfl)
  rw [State.closeHire_eq]
  refine State.BooksHold.settleHire ?_ ?_
  · rw [own]
    refine law.ended (h := h) runs (fun i other => (State.closedBy_hire k cause i).trans (if_neg other)) ?_ fun a => ?_
    · refine (congrArg (fun r : Hire => r.state.running) own).trans ?_
      show (if s.logBlocked then HireState.closedWaiting else .free).running = false
      split <;> rfl
    · refine (State.account_updAccount _ _ _ _).trans ?_
      split
      · rename_i same
        exact same ▸ (if_pos rfl).symm
      · rename_i other
        exact (if_neg other).symm
  · rw [own]
    exact law.not_free runs

/-! ## Openings -/

theorem State.BooksHold.opened (law : s.BooksHold x) (e : RecvId) (reserving : (s.hire h).state = .reserving) (k : Nat) :
    (s.opened h e k).BooksHold x := by
  refine law.of_like (fun i => ?_) fun a => ⟨(s.account a).changes, rfl⟩
  rw [State.opened_hire]
  split
  · rename_i own
    rw [own]
    exact ⟨by rw [reserving]; rfl, rfl, rfl, fun e => nomatch e⟩
  · exact Hire.bookedAs_refl _

theorem State.BooksHold.openHire (law : s.BooksHold x) {e : RecvId} (hires : s.HiresHold none) (reserved : (s.receiver e).state = .reserved)
    (k : Nat) : (s.openHire e k).BooksHold x := by
  obtain ⟨h, named, reserving, -⟩ := hires.entries.reserved e reserved
  rw [State.openHire_of named]
  exact (law.opened e reserving k).frame (State.endOwner_only _ _ _) (by decide)

/-! ## New hires -/

theorem State.createHire_account (s : State) (h : HireId) (x : Hire) (a : AcctId) : (s.createHire h x).account a
    = if a = x.account then ((s.account a).reserve x.hold).bump else s.account a := by
  refine (State.account_writeAccount _ x.account a _).trans ?_
  split
  · rename_i own
    rw [own]
    rfl
  · rfl

/-- A hire created on an ACTIVE account that has room for it (R122, R151). -/
theorem State.BooksHold.createHire (law : s.BooksHold x) (free : (s.hire h).state = .free) {r : Hire} (runs : r.state.running = true)
    (active : (s.account r.account).state = .active) (room : (s.account r.account).count ≠ (s.account r.account).limit)
    (fits : r.hold ≤ (s.account r.account).free) : (s.createHire h r).BooksHold x := by
  have own : (s.createHire h r).hire h = ({ r with changes := (s.hire h).changes } : Hire).bump :=
    (State.createHire_hire h h r).trans (if_pos rfl)
  refine law.begun (h := h) (a := r.account) free (fun k other => (State.createHire_hire h k r).trans (if_neg other)) ?_ ?_ active room ?_
    fun b => ?_
  · rw [own]
    exact runs
  · rw [own]
    rfl
  · rw [own]
    exact fits
  · rw [own, State.createHire_account]
    split
    · rename_i same
      rw [same]
      rfl
    · rfl

/-! ## The wait list -/

theorem State.BooksHold.release (law : s.BooksHold x) {u : State} {w : WaitEntry} {l : List WaitEntry}
    (hires : ({ s with log := { s.log with waiting := w :: l } } : State).HiresHold none)
    (only : s.onlyIn [.header, .notices, .mem, .log] u) : (u.release w.owner).BooksHold x := by
  have before := law.frame only (by decide)
  obtain ⟨owner, record⟩ := w
  cases owner with
  | console b n => exact before.frame (State.writeBooth_only u b id) (by decide)
  | receiver e => exact before.frame (State.writeReceiver_only u e _) (by decide)
  | hire h =>
    have hire : u.hire h = s.hire h := congrArg (fun v : Vector Hire _ => v[h]) (only .hires (by decide))
    have closed : (u.hire h).state = .closedWaiting := by
      rw [hire]
      exact ((hires.lists.waiting h).mp (List.mem_cons_self ..)).1
    exact before.writeHire (f := fun r => { r with state := .free }) ⟨by rw [closed]; rfl, rfl, rfl, fun e => nomatch e⟩

theorem State.BooksHold.drainList : ∀ (l : List WaitEntry) {s : State}, ({ s with log := { s.log with waiting := l } } : State).HiresHold none →
    s.BooksHold x → (State.drainList l s).BooksHold x
  | [], s, _, law => law.frame (State.log_only s { s.log with waiting := [] }) (by decide)
  | w :: l, s, hires, law => by
    unfold State.drainList
    split
    · have only : s.onlyIn [.header, .notices, .mem, .log] (({ s with log := { s.log with waiting := l } } : State).writeTally w.record) :=
        ((State.log_only s _).sub (by decide)).next (State.writeTally_only _ _) (by decide)
      exact State.BooksHold.drainList l (State.HiresHold.releaseFront hires rfl) (law.release hires only)
    · exact law.frame (State.log_only s { s.log with waiting := w :: l }) (by decide)

theorem State.BooksHold.drain (law : s.BooksHold x) (hires : s.HiresHold none) : s.drain.BooksHold x :=
  State.BooksHold.drainList s.log.waiting hires law

end

end Sys2Proof.Machine
end

section
/-!
SUPPORT. The account law through the dock interface, every order and every command (O59).
-/
namespace Sys2Proof.Machine

/-! ## Beside the hire law -/

/-- The hire law and the account law. -/
structure State.HireBooks (s : State) : Prop where
  hires : s.HiresHold none
  books : s.BooksHold none

theorem hireBooks_reads : Reads State.HireBooks [.orders, .log, .channels, .receivers, .hires, .accounts] := fun s t same law =>
  ⟨hiresHold_reads none s t (fun f hf => same f (by revert f; decide)) law.hires,
    booksHold_reads none s t (fun f hf => same f (by revert f; decide)) law.books⟩

section
variable {s t : State}

theorem State.HireBooks.frame (law : s.HireBooks) {l : List StateField} (only : s.onlyIn l t)
    (apart : ∀ f ∈ [StateField.orders, .log, .channels, .receivers, .hires, .accounts], f ∉ l) : t.HireBooks :=
  hireBooks_reads.frame only apart law

/-! ## The dock interface -/

section
variable {e : RecvId}

theorem State.BooksHold.atPosition {x : Option AcctId} (law : s.BooksHold x) (p : PosId) (f : Position → Position) :
    (s.writePosition p f).BooksHold x := law.frame (s.writePosition_only p f) (by decide)

theorem State.BooksHold.writeEntry {x : Option AcctId} (law : s.BooksHold x) (e : RecvId) (f : Receiver → Receiver) :
    (s.writeReceiver e f).BooksHold x := law.frame (s.writeReceiver_only e f) (by decide)

theorem State.HireBooks.removal (law : s.HireBooks) (p : PosId) (k : Nat) (keep : Bool) : (s.removal p k keep).HireBooks := by
  refine ⟨law.hires.removal p k keep, ?_⟩
  unfold State.removal
  extract_lets pos s1
  have only : s.onlyIn [.positions, .presets] s1 :=
    ((State.writePosition_only s p _).sub (by decide)).next (State.dropWaiting_only _ p) (by decide)
  have h1 : s1.HireBooks := law.frame only (by decide)
  have entry (e : RecvId) : s1.receiver e = s.receiver e := congrArg (fun v : Vector Receiver _ => v[e]) (only .receivers (by decide))
  split
  · exact h1.books
  · rename_i e _
    split
    · exact (h1.books.writeEntry e _).frame (State.raise_only _ _) (by decide)
    · rename_i reserved
      exact h1.books.openHire h1.hires ((congrArg Receiver.state (entry e)).trans reserved) k
    · exact h1.books.writeEntry e _
    all_goals exact h1.books

theorem State.HireBooks.atPosition (law : s.HireBooks) (p : PosId) (f : Position → Position) : (s.writePosition p f).HireBooks :=
  ⟨law.hires.atPosition p f, law.books.atPosition p f⟩

theorem State.HireBooks.takeRemove (law : s.HireBooks) (p : PosId) : (s.takeRemove p).HireBooks :=
  State.takeRemove_elim (P := State.HireBooks) (fun _ _ _ _ => (law.atPosition p _).removal p _ _) (fun _ _ _ _ => law.atPosition p _)
    (fun _ _ => law.atPosition p _) (fun _ => law)

theorem State.HireBooks.writeBattery (law : s.HireBooks) (p : PosId) (e : RecvId) (y : BitVec 4) : (s.writeBattery p e y).HireBooks :=
  ⟨law.hires.writeBattery p e y, law.books.frame (s.writeBattery_only p e y) (by decide)⟩

theorem State.HireBooks.reseat (law : s.HireBooks) (p : PosId) (e : RecvId) (y : BitVec 4) : (s.reseat p e y).HireBooks := by
  refine ⟨law.hires.reseat p e y, ?_⟩
  have written := (law.atPosition p (fun r => { r with state := .occupied })).writeBattery p e y
  unfold State.reseat
  dsimp only
  split
  · split
    · rename_i ends
      exact written.books.endReservation ends.2.1 _ _
    · exact written.books
  · exact written.books

theorem State.BooksHold.returnHire (law : s.BooksHold none) (h : Option HireId) (k : Nat) : (s.returnHire h k).BooksHold none := by
  unfold State.returnHire
  split
  · split
    · rename_i opened
      exact law.closeHire opened k .returned
    · exact law
  · exact law

theorem State.BooksHold.takeInsertion (law : s.BooksHold none) (p : PosId) (x : Serial) (y : BitVec 4) :
    (s.takeInsertion p x y).BooksHold none := by
  have occupied (o : Option RecvId) : (s.occupy p o).BooksHold none := law.atPosition p _
  unfold State.takeInsertion
  split
  · rename_i e _
    refine State.BooksHold.frame ?_ (State.relampPos_only _ p) (by decide)
    have inserted : ((s.occupy p (some e)).writeReceiver e (fun r => r.inserted p y s.logBlocked)).BooksHold none :=
      (occupied _).writeEntry e _
    unfold State.afterInsertion
    split
    case h_1 | h_2 => exact inserted.returnHire _ _
    case h_3 => exact (inserted.frame (State.raise_only _ _) (by decide)).frame (State.handFound_only _ _ _ _) (by decide)
    all_goals exact inserted
  · split
    · rename_i e _
      exact ((occupied _).writeEntry e _).frame (State.relampPos_only _ p) (by decide)
    · exact (occupied none).frame (State.raise_only _ _) (by decide)

theorem State.HireBooks.insertAt (law : s.HireBooks) (p : PosId) {x : Serial} (positive : x ≠ 0) (y : BitVec 4) : (s.insertAt p x y).HireBooks := by
  have cleared : (s.clearElsewhere x).HireBooks := by
    unfold State.clearElsewhere
    split
    · exact law.removal _ _ _
    · exact law
  exact ⟨cleared.hires.takeInsertion p positive y, cleared.books.takeInsertion p x y⟩

theorem State.HireBooks.takeInsert (law : s.HireBooks) (p : PosId) {x : Serial} (positive : x ≠ 0) (y : BitVec 4) : (s.takeInsert p x y).HireBooks :=
  State.takeInsert_elim (P := State.HireBooks) (fun e _ _ _ => law.reseat p e y)
    (fun _ _ _ _ => (law.removal p _ false).insertAt p positive y) (fun e _ _ _ => law.writeBattery p e y)
    (fun _ _ _ _ => (law.removal p _ false).insertAt p positive y) (fun _ _ => (law.atPosition p _).insertAt p positive y)
    (fun _ => law.insertAt p positive y)

theorem State.HireBooks.failReservation (law : s.HireBooks) (p : PosId) : (s.failReservation p).HireBooks := by
  refine ⟨law.hires.failReservation p, ?_⟩
  unfold State.failReservation
  split
  · rename_i e _
    split
    · rename_i h reserved named
      obtain ⟨k, found, reserving, -⟩ := law.hires.entries.reserved e reserved
      obtain rfl := Option.some.inj (found.symm.trans named)
      exact law.books.endReservation reserving _ _
    · exact law.books
  · exact law.books

theorem State.HireBooks.rackFault (law : s.HireBooks) (r : RackId) : (s.rackFault r).HireBooks := by
  unfold State.rackFault
  dsimp only
  refine State.each_induct (P := State.HireBooks) (f := State.failReservation) (fun t p _ ht => ht.failReservation p)
    (State.HireBooks.frame ?_ (State.raise_only _ _) (by decide))
  exact State.each_induct (P := State.HireBooks) (l := rackPositions r)
    (f := fun t p => (t.writePosition p (fun x => { x with state := .fault, lamp := .dark })).setPreset p none)
    (fun t p _ ht => (ht.atPosition p _).frame (State.setPreset_only _ p none) (by decide)) (law.frame (State.setRack_only s r _) (by decide))

theorem State.HireBooks.presetResult (law : s.HireBooks) (e : RecvId) (d : Bool) : (s.presetResult e d).HireBooks := by
  refine ⟨law.hires.presetResult e d, ?_⟩
  unfold State.presetResult
  split
  · split
    · exact law.books.writeHire ⟨rfl, rfl, rfl, id⟩
    · exact law.books
  · exact law.books

theorem State.HireBooks.reconcile (law : s.HireBooks) (p : PosId) (x : Option InventoryItem) : (s.reconcile p x).HireBooks :=
  State.reconcile_elim (P := State.HireBooks) (fun e _ _ _ _ _ => (law.atPosition p _).writeBattery p e _)
    (fun _ i _ _ read _ => (law.removal p _ false).insertAt p (readItem_serial read) i.battery) (fun _ _ _ _ => law.removal p _ false)
    (fun _ _ _ => law.atPosition p _) (fun i _ read => law.takeInsert p (readItem_serial read) i.battery) (fun _ _ => law)

end

theorem hireBooks_docks : DockKeeps State.HireBooks where
  takeInsert _ p _ y positive law := law.takeInsert p positive y
  takeRemove _ p law := law.takeRemove p
  writeBattery _ p e y law := law.writeBattery p e y
  presetResult _ e d law := law.presetResult e d
  reconcile _ p x law := law.reconcile p x
  rackFault _ r law := law.rackFault r

/-! ## Account orders -/

section
variable {r : Account} {count holds : Nat}

theorem Account.Books.pay (books : r.Books count holds) (amount : Nat) : (r.pay amount).Books count holds := by
  obtain ⟨counted, held, covered, within, deposit, owed, state, free⟩ := books
  have toOwed : r.toOwed amount ≤ r.owed := Nat.min_le_right _ _
  have room : r.toDeposit amount ≤ maxCents - r.deposit := Nat.min_le_right _ _
  refine ⟨counted, held, covered.trans (Nat.le_add_right _ _), within, ?_, (Nat.sub_le _ _).trans owed, ?_, ?_⟩
  · show r.deposit + r.toDeposit amount ≤ maxCents
    omega
  · show (if r.state = .held ∧ 0 < r.owed ∧ r.owed - r.toOwed amount = 0 then .active else r.state) = AcctState.held ↔ 0 < r.owed - r.toOwed amount
    split
    · rename_i paid
      exact iff_of_false (fun e => nomatch e) (by omega)
    · rename_i not
      refine ⟨fun e => ?_, fun p => state.mpr (by omega)⟩
      have := state.mp e
      simp only [e, true_and, this] at not
      omega
  · show (if r.state = .held ∧ 0 < r.owed ∧ r.owed - r.toOwed amount = 0 then .active else r.state) = AcctState.free → r.count = 0
    split
    · exact fun e => nomatch e
    · exact free

theorem Account.pay_held (amount : Nat) (now : (r.pay amount).state = .held) : r.state = .held := by
  have now : (if r.state = .held ∧ 0 < r.owed ∧ r.owed - r.toOwed amount = 0 then .active else r.state) = AcctState.held := now
  split at now
  · exact nomatch now
  · exact now

theorem Account.Books.refund (books : r.Books count holds) {out : Nat} (fits : out ≤ r.free) : (r.refund out).Books count holds := by
  obtain ⟨counted, held, covered, within, deposit, owed, state, free⟩ := books
  unfold Account.free at fits
  refine ⟨counted, held, ?_, within, (Nat.sub_le _ _).trans deposit, owed, state, free⟩
  show r.holds ≤ r.deposit - out
  omega

theorem Account.Books.closed (books : r.Books count 0) (empty : r.count = 0) (paid : r.owed = 0) : r.closed.Books count 0 := by
  obtain ⟨counted, held, covered, within, deposit, owed, state, free⟩ := books
  refine ⟨counted, held, ?_, within, (Nat.sub_le _ _).trans deposit, owed, iff_of_false (fun e => nomatch e) ?_, fun _ => empty⟩
  · exact held.le.trans (Nat.zero_le _)
  · show ¬ 0 < r.owed
    omega

theorem Account.Books.opened (holder : BitVec 32) (k : TariffId) (limit : Nat) {payment : Nat} (fits : payment ≤ maxCents) :
    (r.opened holder k limit payment).Books 0 0 :=
  ⟨rfl, rfl, Nat.zero_le _, Nat.zero_le _, fits, Nat.zero_le _, iff_of_false (fun e => nomatch e) (Nat.lt_irrefl 0), fun e => nomatch e⟩

theorem Account.Books.rewritten {f : Account → Account} (now : (f r).Books count holds) :
    (rewritten Account.bump f r).Books count holds := by
  rcases rewritten_or Account.bump f r with same | same
  · rw [same]
    exact now
  · rw [same]
    obtain ⟨counted, held, covered, within, deposit, owed, state, free⟩ := now
    exact ⟨counted, held, covered, within, deposit, owed, state, free⟩

end

theorem State.heldOn_of_none {a : AcctId} (idle : s.runningOn a = 0) : s.heldOn a = 0 := by
  refine Finset.sum_eq_zero fun h _ => ?_
  have own := Finset.sum_eq_zero_iff.mp idle h (Finset.mem_univ h)
  unfold Hire.counted at own
  unfold Hire.holding
  split at own
  · exact nomatch own
  · rename_i not
    exact if_neg not

section
variable (law : s.BooksHold none) (a : AcctId) {f : Account → Account}
include law

/-- An account written whose books are right, and HELD only where it was. -/
theorem State.BooksHold.writeAccount (books : (f (s.account a)).Books (s.runningOn a) (s.heldOn a))
    (held : (f (s.account a)).state = .held → (s.account a).state = .held) : (s.writeAccount a f).BooksHold none := by
  refine law.updAccount (y := none) (f := fun r => (f r).bump) ?_ (fun now => .inl ⟨held now, fun e => nomatch e⟩) fun _ _ e => nomatch e
  obtain ⟨counted, held, covered, within, deposit, owed, state, free⟩ := books
  exact ⟨counted, held, covered, within, deposit, owed, state, free⟩

theorem State.BooksHold.rewriteAccount (books : (f (s.account a)).Books (s.runningOn a) (s.heldOn a))
    (held : (f (s.account a)).state = .held → (s.account a).state = .held) : (s.rewriteAccount a f).BooksHold none := by
  refine law.updAccount (y := none) (f := rewritten Account.bump f) books.rewritten (fun now => .inl ⟨?_, fun e => nomatch e⟩)
    fun _ _ e => nomatch e
  rcases rewritten_or Account.bump f (s.account a) with same | same
  · rw [same] at now
    exact held now
  · rw [same] at now
    exact held now

end

theorem State.BooksHold.accountOpen (law : s.BooksHold none) (n : SlotId) : (workAccountOpen s n).1.BooksHold none := by
  unfold workAccountOpen
  split
  · rename_i a k _ _
    dsimp only
    split
    · exact law
    · rename_i free
      have free : (s.account a).state = .free := not_not.mp free
      have count : s.runningOn a = 0 := (law.books a).count.symm.trans ((law.books a).free free)
      refine fst_keeps (P := State.BooksHold none) (law.writeAccount a ?_ fun e => nomatch e)
      rw [count, State.heldOn_of_none count]
      have below := s.paramLE_lt n 8 4
      exact Account.Books.opened _ _ _ (by unfold maxCents; omega)
  · exact law

theorem State.BooksHold.accountPay (law : s.BooksHold none) (n : SlotId) : (workAccountPay s n).1.BooksHold none := by
  unfold workAccountPay
  split
  · rename_i a _
    dsimp only
    split
    · exact law
    · exact fst_keeps (P := State.BooksHold none) (law.rewriteAccount a ((law.books a).pay _) (Account.pay_held _))
  · exact law

theorem State.BooksHold.accountRefund (law : s.BooksHold none) (n : SlotId) : (workAccountRefund s n).1.BooksHold none := by
  unfold workAccountRefund
  split
  · rename_i a _
    dsimp only
    split
    · exact law
    · split
      · exact law
      · exact fst_keeps (P := State.BooksHold none) (law.rewriteAccount a ((law.books a).refund (Nat.min_le_right _ _)) id)
  · exact law

theorem State.BooksHold.accountClose (law : s.BooksHold none) (n : SlotId) : (workAccountClose s n).1.BooksHold none := by
  unfold workAccountClose
  split
  · rename_i a _
    dsimp only
    split
    · exact law
    · split
      · exact law
      · rename_i idle
        have idle : ¬ (0 < (s.account a).count ∨ 0 < (s.account a).owed) := idle
        split
        · exact law
        · have empty : (s.account a).count = 0 := by omega
          have zero : s.heldOn a = 0 := State.heldOn_of_none ((law.books a).count.symm.trans empty)
          refine fst_keeps (P := State.BooksHold none) (State.BooksHold.frame ?_ (State.writeTally_only _ _) (by decide))
          refine law.writeAccount a ?_ fun e => nomatch e
          rw [zero]
          exact (zero ▸ law.books a).closed empty (by omega)
  · exact law

/-! ## The other orders -/

theorem State.BooksHold.issue (law : s.BooksHold none) (n : SlotId) : (workIssue s n).1.BooksHold none := by
  unfold workIssue
  split
  · exact law
  · rename_i p _
    dsimp only
    split
    · exact law
    · split
      · exact law
      · rename_i used
        split
        · exact law
        · rename_i clear
          split
          · exact law
          · rename_i room
            split
            · exact law
            · rename_i fits
              split
              · exact law
              · exact law
              · rename_i h e free found
                have free : (s.hire h).state = .free := by simpa using ((tblFind_eq_some _ _ h).mp free).1
                have active : (s.account p.account).state = .active := by
                  cases state : (s.account p.account).state with
                  | active => rfl
                  | free => exact absurd state used
                  | held => exact absurd state clear
                have created (x : Hire) (runs : x.state.running = true) (own : x.account = p.account)
                    (hold : x.hold = s.tariffs[s.accounts[p.account].tariff].hold) : (s.createHire h x).BooksHold none :=
                  law.createHire free runs (own ▸ active) (own ▸ room) (own ▸ hold ▸ Nat.le_of_not_lt fits)
                unfold State.issue
                dsimp only
                split
                · exact fst_keeps (P := State.BooksHold none) (State.BooksHold.writeEntry (created _ rfl rfl rfl) _ _)
                · refine State.BooksHold.frame ?_ (State.makeStanding_only _ _ _ _) (by decide)
                  refine State.BooksHold.frame ?_ (State.requestPreset_only _ _ _) (by decide)
                  refine State.BooksHold.frame ?_ (State.relampHolder_only _ _) (by decide)
                  exact State.BooksHold.writeEntry (created _ rfl rfl rfl) _ _

theorem State.BooksHold.workLost (law : s.BooksHold none) (n : SlotId) : (workDeclareLost s n).1.BooksHold none := by
  have lost (h : HireId) (opened : (s.hire h).state = .opened) : (s.declareLost h).BooksHold none :=
    (law.writeEntry (s.hire h).receiver _).closeHire opened _ _
  unfold workDeclareLost
  dsimp only
  split
  · exact law
  · split
    · exact law
    · split
      · exact law
      · rename_i h _ opened
        exact fst_keeps (P := State.BooksHold none) (lost h (not_not.mp opened))

theorem State.HireBooks.cancel (law : s.HireBooks) (n : SlotId) : (workCancel s n).1.BooksHold none := by
  unfold workCancel
  split
  · split
    · rename_i u found
      have owned : u.owner ∈ s.owners := List.mem_map_of_mem (List.mem_of_find?_eq_some found)
      dsimp only
      cases own : u.owner with
      | issue h => exact law.books.endReservation (law.hires.lists.issues h (own ▸ owned)) _ _
      | handover c => exact law.books.frame (s.cancelHandover_only c) (by decide)
    · split
      · exact State.BooksHold.frame (law.books.frame (State.orders_only s _) (by decide)) (State.complete_only _ _ _) (by decide)
      · exact law.books
  · exact law.books

theorem State.HireBooks.setPolicy (law : s.HireBooks) (n : SlotId) : (workSetLogPolicy s n).1.BooksHold none := by
  have set (p : LogPolicy) : (({ s with log := { s.log with policy := p } } : State).bumpHeader).HireBooks := by
    refine ⟨law.hires.of_like (fun _ => Receiver.likeIn_refl _) (fun _ => Hire.likeIn_refl _) rfl (fun _ some => some) rfl, ?_⟩
    exact law.books.of_like (fun _ => Hire.bookedAs_refl _) fun a => ⟨(s.account a).changes, rfl⟩
  unfold workSetLogPolicy
  split
  · split
    · exact law.books
    · exact keeps_ite (P := State.BooksHold none) ((set _).books.drain (set _).hires) (set _).books
  · exact law.books

theorem State.BooksHold.setClock (law : s.BooksHold none) (n : SlotId) : (workSetClock s n).1.BooksHold none := by
  have marked (u : State) (hu : u.BooksHold none) : u.markClockSet.BooksHold none := by
    rw [State.markClockSet_eq]
    have hires : u.hiresMarked.BooksHold none := State.each_induct (P := State.BooksHold none) (f := fun s h => s.writeHire h Hire.marked)
      (fun _ _ _ law => law.writeHire ⟨rfl, rfl, rfl, id⟩) hu
    exact State.each_induct (P := State.BooksHold none) (f := fun s b => s.rewriteBooth b Booth.marked)
      (fun t b _ law => law.frame (State.rewriteBooth_only t b _) (by decide)) hires
  unfold workSetClock
  extract_lets fraction was values s1 s2
  have h1 : s1.BooksHold none := law.frame (State.clock_only s _) (by decide)
  have h2 : s2.BooksHold none := keeps_ite (P := State.BooksHold none)
    (((marked s1 h1).frame (State.compareSchedules_only _) (by decide)).frame (State.raise_only _ _) (by decide)) h1
  exact h2.frame (State.snapshot_only s2) (by decide)

/-- The work of any order keeps the account law beside the hire law. -/
theorem OrderWork.booksHold {k : Nat} {w : Work} (h : OrderWork k w) (law : s.HireBooks) (n : SlotId) : (w s n).1.BooksHold none := by
  have framed (apart : ∀ f ∈ [StateField.hires, .accounts], f ∉ kindTouches k) : (w s n).1.BooksHold none := law.books.frame (h.only s n) apart
  cases h with
  | setLogPolicy => exact law.setPolicy n
  | cancel => exact law.cancel n
  | setClock => exact law.books.setClock n
  | issue => exact law.books.issue n
  | declareLost => exact law.books.workLost n
  | accountOpen => exact law.books.accountOpen n
  | accountPay => exact law.books.accountPay n
  | accountRefund => exact law.books.accountRefund n
  | accountClose => exact law.books.accountClose n
  | unknown => exact law.books
  | setNotice | setTimers | clearDocks | clearLinks | boothDefine | linkHold | linkRelease | boothIntake | seatAssign | channelDefine
  | channelClear | handover | setDistribution | retireReceiver | restoreReceiver | setTariff => exact framed (by decide)

/-! ## Restarts and every command -/

theorem State.HireBooks.takeSlot (law : s.HireBooks) (n : SlotId) (rest : List SlotId) : (s.takeSlot n rest).HireBooks :=
  ⟨law.hires.takeSlot n rest, law.books.frame (s.takeSlot_only n rest) (by decide)⟩

theorem State.HireBooks.restart (law : s.HireBooks) (v : Half) (e : ByteEnables) (w : Bool) : (s.restart v e w).BooksHold none := by
  refine keeps_ite (P := State.BooksHold none) ?_ law.books
  have aborted (u : State) (x : Option (SlotId × Result)) (hu : u.BooksHold none) : (u.enterRestarting.abortOrders x).BooksHold none :=
    (hu.frame (State.enterRestarting_only u) (by decide)).frame (State.abortOrders_only _ x) (by decide)
  cases w with
  | false => exact aborted s none law.books
  | true =>
    have finished : s.finishWorking.1.BooksHold none := by
      unfold State.finishWorking
      split
      · exact law.books
      · exact (orderWork_kind s _).booksHold (law.takeSlot _ _) _
    exact aborted _ _ finished

theorem State.booksHold_of_zero (accounts : ∀ a, ∃ x : Half, s.account a = { Account.zero with changes := x })
    (hires : ∀ h, ∃ x : Half, s.hire h = { Hire.zero with changes := x }) : s.BooksHold none := by
  have idle (h : HireId) : (s.hire h).state.running = false := by
    obtain ⟨x, same⟩ := hires h
    rw [same]
    rfl
  refine ⟨fun a => ?_, fun h reserving => (nomatch (idle h).symm.trans (HireState.running_of (.inl reserving)))⟩
  have count : s.runningOn a = 0 := Finset.sum_eq_zero fun h _ => Hire.counted_idle (idle h)
  obtain ⟨x, same⟩ := accounts a
  rw [count, State.heldOn_of_none count, same]
  exact ⟨rfl, rfl, Nat.zero_le _, Nat.zero_le _, Nat.zero_le _, Nat.zero_le _, iff_of_false (fun e => nomatch e) (Nat.lt_irrefl 0), fun _ => rfl⟩

theorem State.BooksHold.completeStartup (law : s.BooksHold none) : s.completeStartup.BooksHold none := by
  refine keeps_ite (P := State.BooksHold none) ?_ law
  refine State.BooksHold.frame ?_ (State.becomeReady_only _) (by decide)
  refine State.booksHold_of_zero (fun a => ⟨0, ?_⟩) (fun h => ⟨0, ?_⟩)
  · exact State.reset_account a
  · exact State.reset_hire h

theorem State.BooksHold.completeRestart (law : s.BooksHold none) : s.completeRestart.BooksHold none := by
  refine keeps_ite (P := State.BooksHold none) ?_ law
  refine State.BooksHold.frame ?_ (State.becomeReady_only _) (by decide)
  refine State.booksHold_of_zero (fun a => ⟨(s.restartTally.loseWaiting.account a).changes + 2, ?_⟩)
    (fun h => ⟨(s.restartTally.loseWaiting.hire h).changes + 2, ?_⟩)
  · show (s.restartTally.loseWaiting.accounts.map _)[a] = _
    rw [Fin.getElem_fin, Vector.getElem_map]
    rfl
  · show (s.restartTally.loseWaiting.hires.map _)[h] = _
    rw [Fin.getElem_fin, Vector.getElem_map]
    rfl

theorem State.HireBooks.hostWrite (law : s.HireBooks) (o : Nat) (v : Half) (e : ByteEnables) : (s.hostWrite o v e).BooksHold none := by
  have guard : s.guardHit.BooksHold none := law.books.frame (State.guardHit_only s) (by decide)
  have written (m : Memory) : ({ s with mem := m } : State).HireBooks := law.frame (State.mem_only s m) (by decide)
  have counted (m : Memory) : ({ s with mem := m } : State).drain.BooksHold none := (written m).books.drain (written m).hires
  refine keeps_ite (P := State.BooksHold none) law.books (keeps_ite (P := State.BooksHold none) ?_
    (keeps_ite (P := State.BooksHold none) (written _).books ?_))
  · exact keeps_ite (P := State.BooksHold none) (keeps_ite (P := State.BooksHold none) law.books (counted _)) guard
  · split
    · exact law.books.frame (State.writeSlot_only s _ _ v e) (by decide)
    · exact guard

theorem State.HireBooks.run (s : State) (i : Instr) (law : s.HireBooks) : (s.run i).HireBooks := by
  refine ⟨State.HiresHold.run s i law.hires, ?_⟩
  have framed (apart : ∀ f ∈ [StateField.hires, .accounts], f ∉ commandTouches i) : (s.run i).BooksHold none :=
    law.books.frame (s.run_only i) apart
  cases i with
  | startupComplete => exact law.books.completeStartup
  | softRestartComplete => exact law.books.completeRestart
  | exchangeWrite a v e => exact law.hostWrite _ v e
  | holderWordWrite n v e => exact law.hostWrite _ v e
  | logReadCountWrite v e => exact law.hostWrite _ v e
  | restart v e w => exact law.restart v e w
  | ignoredRegisterWrite a v e =>
    exact portWrite_keeps (P := State.BooksHold none) a v e (law.books.frame (s.post_only v e) (by decide))
      (law.books.frame (s.clearPending_only v e) (by decide)) (law.books.frame (s.setEnabled_only v e) (by decide)) (law.restart v e false)
      law.books
  | rackAnswer a => exact (hireBooks_docks.rackAnswer hireBooks_reads (by decide) s a law).books
  | inventoryAnswer inv =>
    exact (hireBooks_docks.inventoryAnswer hireBooks_reads (fun t ht => ht.frame (State.raise_only t _) (by decide)) (by decide) s inv law).books
  | answerWindowExpiry => exact (hireBooks_docks.answerExpiry hireBooks_reads (by decide) s law).books
  | settleDeadlineExpiry p => exact (keeps_ite (P := State.HireBooks) (law.removal p _ _) law).books
  | reserveDeadlineExpiry h =>
    show (s.reserveExpiry h).BooksHold none
    unfold State.reserveExpiry
    dsimp only
    split
    · rename_i due
      exact keeps_ite (P := State.BooksHold none) (law.books.writeHire ⟨rfl, rfl, rfl, id⟩) (law.books.endReservation due.2.1 _ _)
    · exact law.books
  | unknownOrder | setNotice | setTimers | setLogPolicy | cancel | clearCountsLinks | clearCountsDocks | setClock | boothDefine | linkHold
  | linkRelease | boothIntake | seatAssign | channelDefine | channelClear | handover | setDistribution | issue | declareLost
  | retireReceiver | restoreReceiver | setTariff | accountOpen | accountPay | accountRefund | accountClose =>
    refine (order_keeps (P := State.HireBooks) (by decide) (fun k w hw u n rest _ _ hu => ?_) law).books
    have worked : (w (u.takeSlot n rest) n).1.HireBooks := ⟨hw.hiresHold (hu.takeSlot n rest).hires n, hw.booksHold (hu.takeSlot n rest) n⟩
    exact ⟨worked.hires.frame (finishOrder_only n _) (by decide), worked.books.frame (finishOrder_only n _) (by decide)⟩
  | _ => exact framed (by dsimp only [commandTouches]; decide)

end

/-- Settles O59. -/
theorem stepsKeepTheAccountLaw : Obligations.StepsKeepTheAccountLaw := fun _ _ step hires accounts =>
  State.booksHold_iff.mp (hireBooks_reads.step (by decide) State.HireBooks.run step
    ⟨State.hiresHold_iff.mpr hires, State.booksHold_iff.mpr accounts⟩).books

end Sys2Proof.Machine
end

section
/-!
SUPPORT. The racks' law (R103, R104, R106, R107): what each piece of work does to the states of the positions.
-/
namespace Sys2Proof.Machine

/-! ## Positions in the states and with the entries they had -/

/-- Every position has the state and the entry that it had. -/
def State.samePlaces (s t : State) : Prop :=
  ∀ p, (t.position p).state = (s.position p).state ∧ (t.position p).entry = (s.position p).entry

section
variable {s t u : State}

theorem State.samePlaces_refl (s : State) : s.samePlaces s := fun _ => ⟨rfl, rfl⟩

theorem State.samePlaces.trans (h : s.samePlaces t) (g : t.samePlaces u) : s.samePlaces u :=
  fun p => ⟨(g p).1.trans (h p).1, (g p).2.trans (h p).2⟩

theorem samePlaces_reads (s : State) : Reads s.samePlaces [.positions] := fun t u same h p => by
  rw [show u.position p = t.position p from congrArg (fun v : Vector Position _ => v[p]) (same .positions (by decide))]
  exact h p

theorem State.samePlaces.frame (h : s.samePlaces t) {l : List StateField} (only : t.onlyIn l u) (apart : ∀ f ∈ [StateField.positions], f ∉ l) :
    s.samePlaces u := (samePlaces_reads s).frame only apart h

theorem State.samePlaces_of_litAs (lit : ∀ p, (t.position p).litAs (s.position p)) : s.samePlaces t :=
  fun p => ⟨(lit p).state, (lit p).entry⟩

theorem State.samePlaces.each {α : Type} {f : State → α → State} {l : List α} (h : s.samePlaces t) (work : ∀ (u : State) (x : α), u.samePlaces (f u x)) :
    s.samePlaces (t.each l f) :=
  State.each_induct (P := s.samePlaces) (fun u x _ hu => hu.trans (work u x)) h

/-- A position written in what is not its state and not its entry. -/
theorem State.writePosition_samePlaces (s : State) (p : PosId) {f : Position → Position} (state : (f (s.position p)).state = (s.position p).state)
    (entry : (f (s.position p)).entry = (s.position p).entry) : s.samePlaces (s.writePosition p f) := fun q => by
  rw [State.position_writePosition]
  split
  · rename_i own
    subst own
    exact ⟨state, entry⟩
  · exact ⟨rfl, rfl⟩

theorem State.relampPos_samePlaces (s : State) (p : PosId) : s.samePlaces (s.relampPos p) := by
  refine State.samePlaces_of_litAs fun q => ?_
  rw [State.relampPos, State.position_rewritePosition]
  split
  · rename_i own
    subst own
    exact Position.rewritten_litAs _ _
  · exact Position.litAs_refl _

theorem State.relampHolder_samePlaces (s : State) (e : RecvId) : s.samePlaces (s.relampHolder e) :=
  State.samePlaces_of_litAs (s.relampHolder_litAs e)

theorem State.writeBattery_samePlaces (s : State) (p : PosId) (e : RecvId) (y : BitVec 4) : s.samePlaces (s.writeBattery p e y) :=
  (s.samePlaces_refl.frame (State.rewriteReceiver_only s e _) (by decide)).trans (State.relampPos_samePlaces _ p)

theorem State.dropReservation_samePlaces (s : State) (h : HireId) (code : ResultCode) (reason : Reason) :
    s.samePlaces (s.dropReservation h code reason) := by
  rw [State.dropReservation_eq]
  exact (State.samePlaces_of_litAs State.released_position).frame (State.endOwner_only _ _ _) (by decide)

theorem State.endReservation_samePlaces (s : State) (h : HireId) (code : ResultCode) (reason : Reason) :
    s.samePlaces (s.endReservation h code reason) :=
  (s.dropReservation_samePlaces h code reason).frame (State.closeAccount_only _ s _) (by decide)

theorem State.dropReservations_samePlaces (s : State) (a : AcctId) : s.samePlaces (s.dropReservations a) :=
  s.samePlaces_refl.each fun u h => u.dropReservation_samePlaces h _ _

theorem State.settleHire_samePlaces (s : State) (h : HireId) : s.samePlaces (s.settleHire h) := by
  unfold State.settleHire
  extract_lets r s1 a minutes charge s2 s3 s4 s5
  have h2 : s.samePlaces s2 :=
    (s.samePlaces_refl.frame (State.updAccount_only s _ _) (by decide)).frame (State.updAccount_only s1 _ _) (by decide)
  have h3 : s.samePlaces s3 := keeps_ite (P := s.samePlaces) (h2.trans (s2.dropReservations_samePlaces _)) h2
  have h4 : s.samePlaces s4 := (h3.frame (State.updAccount_only s3 r.account _) (by decide)).frame (State.writeHire_only _ h _) (by decide)
  have h5 : s.samePlaces s5 := keeps_ite (P := s.samePlaces) (h4.frame (State.raise_only _ _) (by decide)) h4
  exact h5.frame (State.handTally_only s5 _ _) (by decide)

theorem State.closeHire_samePlaces (s : State) (h : HireId) (k : Nat) (cause : CloseCause) : s.samePlaces (s.closeHire h k cause) :=
  (s.samePlaces_refl.frame (State.writeHire_only s h _) (by decide)).trans (State.settleHire_samePlaces _ h)

theorem State.returnHire_samePlaces (s : State) (h : Option HireId) (k : Nat) : s.samePlaces (s.returnHire h k) := by
  unfold State.returnHire
  split
  · exact keeps_ite (P := s.samePlaces) (s.closeHire_samePlaces _ k .returned) s.samePlaces_refl
  · exact s.samePlaces_refl

theorem State.afterInsertion_samePlaces (s : State) (e : RecvId) (was : Receiver) : s.samePlaces (s.afterInsertion e was) := by
  unfold State.afterInsertion
  split
  · exact s.returnHire_samePlaces _ _
  · exact s.returnHire_samePlaces _ _
  · exact (s.samePlaces_refl.frame (State.raise_only _ _) (by decide)).frame (State.handFound_only _ _ _ _) (by decide)
  all_goals exact s.samePlaces_refl

/-! ## Orders -/

theorem State.relampCharged_samePlaces (s : State) : s.samePlaces s.relampCharged := s.samePlaces_refl.each fun u p => u.relampPos_samePlaces p

theorem State.clearRack_samePlaces (s : State) (r : RackId) : s.samePlaces (s.clearRack r) :=
  s.samePlaces_refl.each (f := fun s p => s.writePosition p (fun x => { x with insertions := 0, removals := 0 }))
    fun u p => u.writePosition_samePlaces p rfl rfl

theorem workCancel_samePlaces (s : State) (n : SlotId) : s.samePlaces (workCancel s n).1 := by
  unfold workCancel
  split
  · split
    · rename_i x _
      dsimp only
      cases x.owner with
      | issue h => exact s.endReservation_samePlaces h _ _
      | handover c => exact s.samePlaces_refl.frame (s.cancelHandover_only c) (by decide)
    · split
      · exact (s.samePlaces_refl.frame (State.orders_only s _) (by decide)).frame (State.complete_only _ _ _) (by decide)
      · exact s.samePlaces_refl
  · exact s.samePlaces_refl

theorem State.issue_samePlaces (s : State) (n : SlotId) (p : IssueParams) (h : HireId) (e : RecvId) : s.samePlaces (s.issue n p h e).1 := by
  have created (x : Hire) (f : Receiver → Receiver) : s.samePlaces ((s.createHire h x).writeReceiver x.receiver f) :=
    (s.samePlaces_refl.frame (State.createHire_only s h x) (by decide)).frame (State.writeReceiver_only _ _ f) (by decide)
  unfold State.issue
  dsimp only
  split
  · exact fst_keeps (P := s.samePlaces) (created _ _)
  · refine State.samePlaces.frame ?_ (State.makeStanding_only _ _ _ _) (by decide)
    refine State.samePlaces.frame ?_ (State.requestPreset_only _ _ _) (by decide)
    exact (created _ _).trans (State.relampHolder_samePlaces _ _)

theorem workIssue_samePlaces (s : State) (n : SlotId) : s.samePlaces (workIssue s n).1 := by
  unfold workIssue
  split
  · exact s.samePlaces_refl
  · dsimp only
    repeat' split
    case h_3 => exact s.issue_samePlaces n _ _ _
    all_goals exact s.samePlaces_refl

theorem workDeclareLost_samePlaces (s : State) (n : SlotId) : s.samePlaces (workDeclareLost s n).1 := by
  have lost (h : HireId) : s.samePlaces (s.declareLost h) :=
    (s.samePlaces_refl.frame (State.writeReceiver_only s _ _) (by decide)).trans (State.closeHire_samePlaces _ h _ _)
  unfold workDeclareLost
  dsimp only
  split
  · exact s.samePlaces_refl
  · split
    · exact s.samePlaces_refl
    · split
      · exact s.samePlaces_refl
      · exact fst_keeps (P := s.samePlaces) (lost _)

/-- No order changes the state or the entry of a position. -/
theorem OrderWork.samePlaces {k : Nat} {w : Work} (h : OrderWork k w) (s : State) (n : SlotId) : s.samePlaces (w s n).1 := by
  have framed (apart : ∀ f ∈ [StateField.positions], f ∉ kindTouches k) : s.samePlaces (w s n).1 := s.samePlaces_refl.frame (h.only s n) apart
  have lamped (e : RecvId) (f : Receiver → Receiver) : s.samePlaces ((s.writeReceiver e f).relampHolder e) :=
    (s.samePlaces_refl.frame (State.writeReceiver_only s e f) (by decide)).trans (State.relampHolder_samePlaces _ e)
  cases h with
  | setTimers =>
    have set : s.samePlaces ({ s with timers := (s.timerParams n).1 }).bumpHeader := fun _ => ⟨rfl, rfl⟩
    exact set.trans (State.relampCharged_samePlaces _)
  | cancel => exact workCancel_samePlaces s n
  | clearDocks =>
    unfold workClearDocks
    split
    · exact s.samePlaces_refl.each State.clearRack_samePlaces
    · split
      · exact s.clearRack_samePlaces _
      · exact s.samePlaces_refl
  | issue => exact workIssue_samePlaces s n
  | declareLost => exact workDeclareLost_samePlaces s n
  | retireReceiver =>
    unfold workRetireReceiver
    split
    · exact s.samePlaces_refl
    · split
      · exact s.samePlaces_refl
      · dsimp only
        split
        · exact s.samePlaces_refl
        · exact lamped _ _
  | restoreReceiver =>
    unfold workRestoreReceiver
    split
    · exact s.samePlaces_refl
    · split
      · exact s.samePlaces_refl
      · dsimp only
        split
        · exact s.samePlaces_refl
        · exact lamped _ _
  | clearLinks => exact s.samePlaces_refl.frame (workClearLinks_only s n) (by decide)
  | unknown => exact s.samePlaces_refl
  | setNotice | setLogPolicy | setClock | boothDefine | linkHold | linkRelease | boothIntake | seatAssign | channelDefine
  | channelClear | handover | setDistribution | setTariff | accountOpen | accountPay | accountRefund | accountClose => exact framed (by decide)

end

end Sys2Proof.Machine
end

section
/-!
SUPPORT. The racks' law through the dock interface, and every command (R103, R104, R106, R107).
-/
namespace Sys2Proof.Machine

/-! ## What work at one position does -/

/-- A position is FAULT exactly where it was, and EMPTY where it was. -/
def Position.staysAs (r q : Position) : Prop := (r.state = .fault ↔ q.state = .fault) ∧ (q.state = .empty → r.state = .empty)

/-- Work at position `p`: the others stay as they are, and `p` is left not FAULT. -/
structure State.worksAt (s t : State) (p : PosId) : Prop where
  others : ∀ q, q ≠ p → (t.position q).staysAs (s.position q)
  own : (t.position p).state ≠ .fault

theorem Position.staysAs_of_state {r q : Position} (h : r.state = q.state) : r.staysAs q := by
  unfold Position.staysAs
  rw [h]
  exact ⟨Iff.rfl, id⟩

theorem Position.staysAs.trans {r q v : Position} (h : r.staysAs q) (g : q.staysAs v) : r.staysAs v := ⟨h.1.trans g.1, fun e => h.2 (g.2 e)⟩

/-- A position without what it held (R112). -/
def Position.vacated (r : Position) (keep : Bool) : Position :=
  { r with
    state := if keep && r.state == .fault then .fault else .empty, entry := none, lamp := .dark, removals := satAdd 16 r.removals 1 }

/-- What a removal begins with: position `p` without what it held, and without a preset that waits there (R112). -/
def State.vacated (s : State) (p : PosId) (keep : Bool) : State := (s.writePosition p (fun r => r.vacated keep)).dropWaiting p

section
variable {s t u : State} {p : PosId}

theorem State.samePlaces.stays (h : s.samePlaces t) (q : PosId) : (t.position q).staysAs (s.position q) := Position.staysAs_of_state (h q).1

theorem State.vacated_position (s : State) (p : PosId) (keep : Bool) (q : PosId) :
    (s.vacated p keep).position q = if q = p then ((s.position p).vacated keep).bump else s.position q := by
  have same := State.dropWaiting_only (s.writePosition p (fun r => r.vacated keep)) p .positions (by decide)
  exact (congrArg (fun v : Vector Position _ => v[q]) same).trans (State.position_writePosition s p q _)

theorem State.vacated_removal_only (s : State) (p : PosId) (k : Nat) (keep : Bool) :
    (s.vacated p keep).onlyIn [.mem, .orders, .notices, .receivers, .hires] (s.removal p k keep) := by
  unfold State.removal
  extract_lets pos s1
  show s1.onlyIn _ _
  split
  · exact s1.onlyIn_refl _
  · split
    · exact ((State.writeReceiver_only s1 _ _).sub (by decide)).next (State.raise_only _ _) (by decide)
    · exact (State.openHire_only s1 _ _).sub (by decide)
    · exact (State.writeReceiver_only s1 _ _).sub (by decide)
    all_goals exact s1.onlyIn_refl _

theorem State.removal_samePlaces (s : State) (p : PosId) (k : Nat) (keep : Bool) : (s.vacated p keep).samePlaces (s.removal p k keep) :=
  (State.samePlaces_refl _).frame (s.vacated_removal_only p k keep) (by decide)

theorem Position.vacated_stays {r : Position} {keep : Bool} (kept : keep = true ∨ r.state ≠ .fault) : (r.vacated keep).staysAs r := by
  have state : (r.vacated keep).state = if keep && r.state == .fault then .fault else .empty := rfl
  unfold Position.staysAs
  rw [state]
  by_cases fault : r.state = .fault
  · obtain rfl := kept.resolve_right (not_not.mpr fault)
    rw [fault]
    decide
  · have other : (keep && r.state == .fault) = false := by simp [fault]
    rw [other]
    exact ⟨iff_of_false (fun e => nomatch e) fault, fun _ => rfl⟩

theorem State.removal_stays (k : Nat) {keep : Bool} {q : PosId} (kept : q = p → keep = true ∨ (s.position p).state ≠ .fault) :
    ((s.removal p k keep).position q).staysAs (s.position q) := by
  refine ((s.removal_samePlaces p k keep).stays q).trans ?_
  rw [State.vacated_position]
  split
  · rename_i own
    subst own
    exact Position.vacated_stays (kept rfl)
  · exact Position.staysAs_of_state rfl

theorem State.removal_worksAt (k : Nat) : s.worksAt (s.removal p k false) p where
  others q other := State.removal_stays k fun own => absurd own other
  own := by
    rw [((s.removal_samePlaces p k false) p).1, State.vacated_position, if_pos rfl]
    exact fun e => nomatch e

theorem State.worksAt.next (h : s.worksAt t p) (others : ∀ q, q ≠ p → (u.position q).staysAs (t.position q)) (own : (u.position p).state ≠ .fault) :
    s.worksAt u p := ⟨fun q other => (others q other).trans (h.others q other), own⟩

theorem State.worksAt.same (h : s.worksAt t p) (same : t.samePlaces u) : s.worksAt u p :=
  h.next (fun q _ => same.stays q) (by rw [(same p).1]; exact h.own)

theorem State.worksAt.trans (h : s.worksAt t p) (g : t.worksAt u p) : s.worksAt u p := h.next g.others g.own

theorem State.writePosition_worksAt {f : Position → Position} (state : (f (s.position p)).state ≠ .fault) : s.worksAt (s.writePosition p f) p where
  others q other := Position.staysAs_of_state (by rw [State.position_writePosition, if_neg other])
  own := by
    rw [State.position_writePosition, if_pos rfl]
    exact state

theorem State.worksAt_of_same (same : s.samePlaces t) (state : (s.position p).state ≠ .fault) : s.worksAt t p where
  others q _ := same.stays q
  own := by rw [(same p).1]; exact state

/-! ## The pieces of an answer -/

theorem State.takeInsertion_places (s : State) (p : PosId) (x : Serial) (y : BitVec 4) :
    ∃ o : Option RecvId, (s.occupy p o).samePlaces (s.takeInsertion p x y) := by
  have written (o : Option RecvId) (e : RecvId) (f : Receiver → Receiver) : (s.occupy p o).samePlaces ((s.occupy p o).writeReceiver e f) :=
    (s.occupy p o).samePlaces_refl.frame (State.writeReceiver_only _ e f) (by decide)
  unfold State.takeInsertion
  split
  · rename_i e _
    exact ⟨some e, ((written _ e _).trans (State.afterInsertion_samePlaces _ e _)).trans (State.relampPos_samePlaces _ p)⟩
  · split
    · rename_i e _
      exact ⟨some e, (written _ e _).trans (State.relampPos_samePlaces _ p)⟩
    · exact ⟨none, (State.samePlaces_refl _).frame (State.raise_only _ _) (by decide)⟩

theorem State.insertAt_worksAt (s : State) (p : PosId) (x : Serial) (y : BitVec 4) : s.worksAt (s.insertAt p x y) p := by
  have cleared (q : PosId) : ((s.clearElsewhere x).position q).staysAs (s.position q) := by
    unfold State.clearElsewhere
    split
    · exact State.removal_stays _ fun _ => .inl rfl
    · exact Position.staysAs_of_state rfl
  obtain ⟨o, same⟩ := (s.clearElsewhere x).takeInsertion_places p x y
  have occupied : (s.clearElsewhere x).worksAt ((s.clearElsewhere x).occupy p o) p := State.writePosition_worksAt fun e => nomatch e
  exact ⟨fun q other => ((occupied.same same).others q other).trans (cleared q), (occupied.same same).own⟩

theorem State.reseat_worksAt (s : State) (p : PosId) (e : RecvId) (y : BitVec 4) : s.worksAt (s.reseat p e y) p := by
  have occupied : s.worksAt (s.writePosition p (fun r => { r with state := .occupied })) p := State.writePosition_worksAt fun e => nomatch e
  have written := occupied.same (State.writeBattery_samePlaces _ p e y)
  unfold State.reseat
  dsimp only
  split
  · exact keeps_ite (P := fun t => s.worksAt t p) (written.same (State.endReservation_samePlaces _ _ _ _)) written
  · exact written

theorem State.takeInsert_worksAt (s : State) (p : PosId) (x : Serial) (y : BitVec 4) : s.worksAt (s.takeInsert p x y) p := by
  refine State.takeInsert_elim (P := fun t => s.worksAt t p) (fun e _ _ _ => s.reseat_worksAt p e y) (fun _ _ _ _ => ?_) (fun e state _ _ => ?_)
    (fun _ _ _ _ => ?_) (fun state _ => ?_) (fun _ => s.insertAt_worksAt p x y)
  · exact (State.removal_worksAt _).trans (State.insertAt_worksAt _ p x y)
  · exact State.worksAt_of_same (s.writeBattery_samePlaces p e y) fun fault => nomatch state.symm.trans fault
  · exact (State.removal_worksAt _).trans (State.insertAt_worksAt _ p x y)
  · refine (State.writePosition_worksAt ?_).trans (State.insertAt_worksAt _ p x y)
    show (s.position p).state ≠ .fault
    exact fun fault => nomatch state.symm.trans fault

theorem State.reconcile_worksAt (s : State) (p : PosId) (x : Option InventoryItem) : s.worksAt (s.reconcile p x) p := by
  refine State.reconcile_elim (P := fun t => s.worksAt t p) (fun e _ _ _ _ _ => ?_) (fun _ i _ _ _ _ => ?_) (fun _ _ _ _ => State.removal_worksAt _)
    (fun _ _ _ => State.writePosition_worksAt fun e => nomatch e) (fun i _ _ => s.takeInsert_worksAt p i.serial i.battery) (fun state _ => ?_)
  · have occupied : s.worksAt (s.writePosition p (fun r => { r with state := .occupied })) p := State.writePosition_worksAt fun e => nomatch e
    exact occupied.same (State.writeBattery_samePlaces _ p e _)
  · exact (State.removal_worksAt _).trans (State.insertAt_worksAt _ p i.serial i.battery)
  · exact State.worksAt_of_same s.samePlaces_refl state

theorem State.takeRemove_stays (s : State) (p q : PosId) : ((s.takeRemove p).position q).staysAs (s.position q) := by
  have written (f : Position → Position) (occupied : (s.position p).state = .occupied) (state : (f (s.position p)).state ≠ .fault) :
      ((s.writePosition p f).position q).staysAs (s.position q) := by
    rw [State.position_writePosition]
    split
    · rename_i own
      subst own
      refine ⟨iff_of_false state (fun e => nomatch occupied.symm.trans e), fun e => nomatch occupied.symm.trans e⟩
    · exact Position.staysAs_of_state rfl
  refine State.takeRemove_elim (P := fun t => (t.position q).staysAs (s.position q)) (fun _ occupied _ _ => ?_) (fun _ occupied _ _ => ?_)
    (fun occupied _ => ?_) (fun _ => Position.staysAs_of_state rfl)
  · refine (State.removal_stays _ fun _ => .inr ?_).trans (written _ occupied fun e => nomatch e)
    rw [State.position_writePosition, if_pos rfl]
    exact fun e => nomatch e
  · exact written _ occupied fun e => nomatch e
  · exact written _ occupied fun e => nomatch e

end

end Sys2Proof.Machine
end

section
/-!
SUPPORT. The racks' law through every command (R103, R104, R106, R107).
-/
namespace Sys2Proof.Machine

/-- The state of a rack and that of one of its positions match (R103). -/
def RackState.fits (x : RackState) (r : Position) : Prop := (x = .unknown → r.state = .empty) ∧ (r.state = .fault ↔ x = .fault)

section
variable {s t : State} {p : PosId}

theorem RackState.fits_online {r : Position} (healthy : r.state ≠ .fault) : RackState.online.fits r :=
  ⟨fun e => (nomatch e), iff_of_false healthy fun e => nomatch e⟩

theorem RackState.fits.stays {x : RackState} {r q : Position} (h : x.fits q) (stays : r.staysAs q) : x.fits r :=
  ⟨fun e => stays.2 (h.1 e), stays.1.trans h.2⟩

/-- Positions that stay as they are keep the law. -/
theorem State.racksOk.stays (law : s.racksOk) (stays : ∀ q, (t.position q).staysAs (s.position q)) (racks : t.racks = s.racks)
    (bus : t.bus = s.bus) : t.racksOk := by
  refine ⟨fun q => ?_, fun x h => ?_⟩
  · rw [racks]
    exact RackState.fits.stays (law.1 q) (stays q)
  · rw [racks]
    exact law.2 x (bus ▸ h)

theorem racksOk_reads : Reads State.racksOk [.positions, .racks, .bus] := fun s t same law =>
  law.stays (fun q => Position.staysAs_of_state (congrArg (fun v : Vector Position _ => v[q].state) (same .positions (by decide))))
    (same .racks (by decide)) (same .bus (by decide))

theorem State.racksOk.frame (law : s.racksOk) {l : List StateField} (only : s.onlyIn l t)
    (apart : ∀ f ∈ [StateField.positions, .racks, .bus], f ∉ l) : t.racksOk := racksOk_reads.frame only apart law

/-- Work that changes no position's state, and no rack. -/
theorem State.racksOk.same (law : s.racksOk) (same : s.samePlaces t) {l : List StateField} (only : s.onlyIn l t)
    (apart : ∀ f ∈ [StateField.racks, .bus], f ∉ l) : t.racksOk :=
  law.stays same.stays (only .racks (apart _ (by decide))) (only .bus (apart _ (by decide)))

theorem rackOf_posIndex (r : RackId) (k : PlaceId) : rackOf (posIndex r k) = r := by
  refine Fin.ext ?_
  show (r.val * 40 + k.val) / 40 = r.val
  omega

/-! ## The answer of an ONLINE rack -/

/-- The racks' law, with rack `r` ONLINE. -/
def State.racksOnline (r : RackId) (s : State) : Prop := s.racksOk ∧ (s.racks.get r).state = .online

theorem State.racksOnline.works {r : RackId} (law : s.racksOnline r) {k : PlaceId} (works : s.worksAt t (posIndex r k)) {l : List StateField}
    (only : s.onlyIn l t) (apart : ∀ f ∈ [StateField.racks, .bus], f ∉ l) : t.racksOnline r := by
  obtain ⟨⟨places, polls⟩, online⟩ := law
  have racks : t.racks = s.racks := only .racks (apart _ (by decide))
  have bus : t.bus = s.bus := only .bus (apart _ (by decide))
  refine ⟨⟨fun q => ?_, fun x h => ?_⟩, racks ▸ online⟩
  · rw [racks]
    by_cases own : q = posIndex r k
    · subst own
      rw [rackOf_posIndex, online]
      exact RackState.fits_online works.own
    · exact RackState.fits.stays (places q) (works.others q own)
  · rw [racks]
    exact polls x (bus ▸ h)

theorem State.racksOnline.stays {r : RackId} (law : s.racksOnline r) (stays : ∀ q, (t.position q).staysAs (s.position q)) {l : List StateField}
    (only : s.onlyIn l t) (apart : ∀ f ∈ [StateField.racks, .bus], f ∉ l) : t.racksOnline r := by
  have racks : t.racks = s.racks := only .racks (apart _ (by decide))
  exact ⟨law.1.stays stays racks (only .bus (apart _ (by decide))), racks ▸ law.2⟩

theorem State.racksOnline.takeChange {r : RackId} (law : s.racksOnline r) (c : DockChange) : (s.takeChange r c).racksOnline r := by
  unfold State.takeChange
  split
  · split
    · exact keeps_ite (P := State.racksOnline r) law (law.works (s.takeInsert_worksAt _ _ _) (s.takeInsert_only _ _ _) (by decide))
    · exact law
  · split
    · exact law.stays (s.takeRemove_stays _) (s.takeRemove_only _) (by decide)
    · exact law

theorem State.racksOnline.takeReport {r : RackId} (law : s.racksOnline r) (x : BatteryReport) : (s.takeReport r x).racksOnline r := by
  unfold State.takeReport
  split
  · dsimp only
    split
    · exact law.stays (State.samePlaces.stays (s.writeBattery_samePlaces _ _ _)) (s.writeBattery_only _ _ _) (by decide)
    · exact law
  · exact law

theorem State.takeResult_samePlaces (s : State) (poll : Poll) (x : PresetResult) : s.samePlaces (s.takeResult poll x) := by
  have marked (e : RecvId) (d : Bool) : s.samePlaces (s.presetResult e d) := by
    unfold State.presetResult
    split
    · exact keeps_ite (P := s.samePlaces) (s.samePlaces_refl.frame (State.writeHire_only s _ _) (by decide)) s.samePlaces_refl
    · exact s.samePlaces_refl
  unfold State.takeResult
  split
  · split
    · exact marked _ _
    · exact s.samePlaces_refl
  · exact s.samePlaces_refl

theorem State.racksOnline.takeResult {r : RackId} (law : s.racksOnline r) (poll : Poll) (x : PresetResult) :
    (s.takeResult poll x).racksOnline r :=
  law.stays (s.takeResult_samePlaces poll x).stays (s.takeResult_only poll x) (by decide)

/-- What an answer starts from: the bus is free and the rack ONLINE. -/
theorem State.racksOk.answered (law : s.racksOk) {poll : Poll} (asked : s.bus.poll = some poll) (plain : poll.inventory = false) :
    (s.endPoll.setRack poll.rack { state := .online, unanswered := 0 }).racksOnline poll.rack := by
  have online : (s.racks.get poll.rack).state = .online := by
    by_contra other
    exact nomatch plain.symm.trans ((law.2 poll asked).mpr other)
  have state (r : RackId) : ((s.endPoll.setRack poll.rack { state := .online, unanswered := 0 }).racks.get r).state = (s.racks.get r).state := by
    rw [State.rack_setRack]
    split
    · rename_i own
      subst own
      exact online.symm
    · rfl
  refine ⟨⟨fun q => ?_, fun x h => (nomatch h)⟩, (state _).trans online⟩
  rw [state]
  exact law.1 q

theorem State.racksOk.rackAnswer (law : s.racksOk) (a : RackAnswer) : (s.rackAnswer a).racksOk := by
  unfold State.rackAnswer
  split
  · rename_i poll asked
    split
    · rename_i answers
      have started := law.answered asked answers.2
      have freed : ((s.endPoll.setRack poll.rack { state := .online, unanswered := 0 }).updPresets poll.rack
          (fun x => if x.sent then none else some x)).racksOnline poll.rack :=
        started.stays ((State.samePlaces_refl _).frame (State.updPresets_only _ _ _) (by decide)).stays (State.updPresets_only _ _ _) (by decide)
      have changed := State.each_induct (P := State.racksOnline poll.rack) (l := a.changes) (f := State.takeChange poll.rack)
        (fun _ c _ ht => ht.takeChange c) freed
      have reported := State.each_induct (P := State.racksOnline poll.rack) (l := a.reports) (f := State.takeReport poll.rack)
        (fun _ c _ ht => ht.takeReport c) changed
      exact (State.each_induct (P := State.racksOnline poll.rack) (l := a.results) (f := State.takeResult poll)
        (fun _ c _ ht => ht.takeResult poll c) reported).1
    · exact law
  · exact law

/-! ## Inventories -/

/-- Positions reconciled one after another: none of them is FAULT, and the others stay as they were. -/
theorem State.reconcileEach_works (r : RackId) (inv : Inventory) (q : PosId) : ∀ (l : List PlaceId) (s : State),
    ((q ∈ l.map (posIndex r) ∨ (s.position q).state ≠ .fault) →
        ((s.each l (fun s k => s.reconcile (posIndex r k) inv[k])).position q).state ≠ .fault)
      ∧ (q ∉ l.map (posIndex r) → ((s.each l (fun s k => s.reconcile (posIndex r k) inv[k])).position q).staysAs (s.position q))
  | [], s => ⟨fun h => h.elim (fun m => nomatch m) id, fun _ => Position.staysAs_of_state rfl⟩
  | k :: l, s => by
    obtain ⟨healthy, stays⟩ := State.reconcileEach_works r inv q l (s.reconcile (posIndex r k) inv[k])
    have works := s.reconcile_worksAt (posIndex r k) inv[k]
    refine ⟨fun h => healthy ?_, fun apart => ?_⟩
    · by_cases own : q = posIndex r k
      · exact .inr (own ▸ works.own)
      · refine h.imp (fun m => (List.mem_cons.mp m).resolve_left own) fun state => ?_
        exact fun fault => state ((works.others q own).1.mp fault)
    · obtain ⟨other, rest⟩ := not_or.mp (mt List.mem_cons.mpr apart)
      exact (stays rest).trans (works.others q other)

/-- A rack whose positions have been reconciled is ONLINE (R107). -/
theorem State.racksOk.reconciled (law : s.racksOk) {r : RackId} (healthy : ∀ q, rackOf q = r → (t.position q).state ≠ .fault)
    (stays : ∀ q, rackOf q ≠ r → (t.position q).staysAs (s.position q)) (racks : t.racks = s.racks) (free : t.bus.poll = none) :
    (t.setRack r { state := .online, unanswered := 0 }).racksOk := by
  refine ⟨fun q => ?_, fun x h => nomatch free.symm.trans h⟩
  show ((t.setRack r _).racks.get (rackOf q)).state.fits (t.position q)
  rw [State.rack_setRack]
  split
  · rename_i own
    exact RackState.fits_online (healthy q own)
  · rename_i other
    rw [racks]
    exact RackState.fits.stays (law.1 q) (stays q other)

theorem rackOf_eq (q : PosId) (r : RackId) : rackOf q = r ↔ q ∈ rackPositions r := Fin.ext_iff.trans (mem_rackPositions r q).symm

theorem State.racksOk.inventoryAnswer (law : s.racksOk) (inv : Inventory) : (s.inventoryAnswer inv).racksOk := by
  unfold State.inventoryAnswer
  split
  · rename_i poll _
    refine keeps_ite (P := State.racksOk) ?_ law
    unfold State.workInventory
    dsimp only
    have started : s.onlyIn [.bus, .presets] (s.endPoll.updPresets poll.rack (fun x => if x.sent then none else some x)) :=
      ((State.endPoll_only s).sub (by decide)).next (State.updPresets_only _ _ _) (by decide)
    have free : (s.endPoll.updPresets poll.rack (fun x => if x.sent then none else some x)).bus.poll = none :=
      congrArg DockBus.poll (State.updPresets_only s.endPoll _ _ .bus (by decide))
    generalize s.endPoll.updPresets poll.rack (fun x => if x.sent then none else some x) = u at started free
    have works (q : PosId) := State.reconcileEach_works poll.rack inv q (List.finRange 40) u
    have reconciled : u.onlyIn dockTouches (u.each (List.finRange 40) (fun s k => s.reconcile (posIndex poll.rack k) inv[k])) :=
      State.each_only (fun t k _ => State.reconcile_only t (posIndex poll.rack k) inv[k]) u
    generalize u.each (List.finRange 40) (fun s k => s.reconcile (posIndex poll.rack k) inv[k]) = v at works reconciled
    have online : (v.setRack poll.rack { state := .online, unanswered := 0 }).racksOk := by
      refine law.reconciled (fun q own => (works q).1 (.inl ((rackOf_eq q _).mp own))) (fun q other => ?_)
        ((reconciled .racks (by decide)).trans (started .racks (by decide))) ((congrArg DockBus.poll (reconciled .bus (by decide))).trans free)
      exact ((works q).2 (mt (rackOf_eq q _).mpr other)).trans ((s.samePlaces_refl.frame started (by decide)).stays q)
    exact keeps_ite (P := State.racksOk) (online.frame (State.raise_only _ _) (by decide)) online
  · exact law

/-! ## Polls and failures -/

theorem State.failReservation_samePlaces (s : State) (p : PosId) : s.samePlaces (s.failReservation p) := by
  unfold State.failReservation
  split
  · split
    · exact s.endReservation_samePlaces _ _ _
    · exact s.samePlaces_refl
  · exact s.samePlaces_refl

/-- A rack's positions after its failure. -/
theorem State.failEach_position (r : RackId) (s : State) (q : PosId) :
    ((s.each (rackPositions r) (fun s p => (s.writePosition p (fun x => { x with state := .fault, lamp := .dark })).setPreset p none)).position q)
      = if q ∈ rackPositions r then ({ s.position q with state := .fault, lamp := .dark } : Position).bump else s.position q := by
  have own (t : State) (i j : PosId) :
      ((t.writePosition j (fun x => { x with state := .fault, lamp := .dark })).setPreset j none).position i
        = if i = j then ({ t.position j with state := .fault, lamp := .dark } : Position).bump else t.position i :=
    (congrArg (fun v : Vector Position _ => v[i]) (State.setPreset_only _ j none .positions (by decide))).trans (State.position_writePosition t j i _)
  exact State.each_get (I := fun _ => True) State.position s.position (fun q => ({ s.position q with state := .fault, lamp := .dark } : Position).bump)
    (fun _ _ _ => trivial) (fun t i j _ other => (own t i j).trans (if_neg other)) (fun t i _ was => (own t i i).trans (by rw [if_pos rfl, was]))
    (rackPositions_nodup r) trivial (fun _ => rfl) q

theorem State.rackFault_state (s : State) (r : RackId) (q : PosId) :
    ((s.rackFault r).position q).state = if rackOf q = r then .fault else (s.position q).state := by
  unfold State.rackFault
  extract_lets s1
  have after := ((State.samePlaces_refl _).frame (State.raise_only s1 .dock) (by decide)).each (l := rackPositions r) State.failReservation_samePlaces
  refine (after q).1.trans ?_
  refine (congrArg Position.state (State.failEach_position r _ q)).trans ?_
  have mem := rackOf_eq q r
  by_cases own : rackOf q = r
  · rw [if_pos (mem.mp own), if_pos own]
    rfl
  · rw [if_neg (mt mem.mpr own), if_neg own]
    rfl

theorem State.rackFault_racks (s : State) (r : RackId) : (s.rackFault r).racks = (s.setRack r { state := .fault, unanswered := 3 }).racks := by
  unfold State.rackFault
  extract_lets s1
  have failed : s1.onlyIn [.notices, .mem, .orders, .positions, .presets, .receivers, .hires, .accounts]
      ((s1.raise .dock).each (rackPositions r) State.failReservation) :=
    ((State.raise_only s1 _).sub (by decide)).next (State.each_only (fun t p _ => State.failReservation_only t p) _) (by decide)
  have faulted : (s.setRack r { state := .fault, unanswered := 3 }).onlyIn [.positions, .presets] s1 :=
    State.each_only (fun t p _ => ((State.writePosition_only t p _).sub (by decide)).next (State.setPreset_only _ p none) (by decide)) _
  exact (failed .racks (by decide)).trans (faulted .racks (by decide))

theorem State.racksOk.rackFault (law : s.racksOk) (free : s.bus.poll = none) (r : RackId) : (s.rackFault r).racksOk := by
  refine ⟨fun q => ?_, fun x h => ?_⟩
  · have state := s.rackFault_state r q
    rw [State.rackFault_racks, State.rack_setRack, state]
    split
    · exact ⟨fun e => (nomatch e), iff_of_true rfl rfl⟩
    · exact law.1 q
  · have bus : (s.rackFault r).bus = s.bus := s.rackFault_only r .bus (by decide)
    exact nomatch free.symm.trans ((congrArg DockBus.poll bus).symm.trans h)

theorem State.racksOk.answerExpiry (law : s.racksOk) : s.answerExpiry.racksOk := by
  unfold State.answerExpiry
  split
  · rename_i poll _
    refine keeps_ite (P := State.racksOk) ?_ law
    have ended : s.endPoll.racksOk := ⟨law.1, fun x h => nomatch h⟩
    have waiting := ended.frame (State.updPresets_only s.endPoll poll.rack (fun x => some { x with sent := false })) (by decide)
    have free : (s.endPoll.updPresets poll.rack (fun x => some { x with sent := false })).bus.poll = none :=
      congrArg DockBus.poll (State.updPresets_only s.endPoll _ _ .bus (by decide))
    generalize s.endPoll.updPresets poll.rack (fun x => some { x with sent := false }) = u at waiting free
    unfold State.unanswered
    dsimp only
    split
    · exact waiting
    · rename_i online
      have online : (u.racks.get poll.rack).state = .online := not_not.mp online
      split
      · exact waiting.rackFault free _
      · refine ⟨fun q => ?_, fun x h => nomatch free.symm.trans h⟩
        rw [State.rack_setRack]
        split
        · rename_i own
          have fits := waiting.1 q
          rw [own, online] at fits
          exact fits
        · exact waiting.1 q
  · exact law

theorem State.racksOk.sendPoll (law : s.racksOk) : s.sendPoll.racksOk := by
  refine keeps_ite (P := State.racksOk) ?_ law
  refine State.racksOk.frame ?_ (State.updPresets_only _ _ _) (by decide)
  refine ⟨law.1, fun x h => ?_⟩
  obtain rfl := Option.some.inj h
  exact bne_iff_ne

/-! ## Every command -/

theorem State.racksOk.completeStartup (law : s.racksOk) : s.completeStartup.racksOk := by
  refine keeps_ite (P := State.racksOk) ?_ law
  refine State.racksOk.frame ?_ (State.becomeReady_only _) (by decide)
  exact State.reset_racksOk.stays (fun q => Position.staysAs_of_state rfl) rfl rfl

theorem State.racksOk.completeRestart (law : s.racksOk) : s.completeRestart.racksOk := by
  refine keeps_ite (P := State.racksOk) ?_ law
  refine State.racksOk.frame ?_ (State.becomeReady_only _) (by decide)
  refine State.reset_racksOk.stays (fun q => Position.staysAs_of_state ?_) rfl rfl
  rw [State.reset_position]
  have position : s.restartTally.loseWaiting.softReset.position q
      = { Position.initial with changes := (s.restartTally.loseWaiting.position q).changes + 2 } := by
    show (s.restartTally.loseWaiting.positions.map _)[q] = _
    rw [Fin.getElem_fin, Vector.getElem_map]
    rfl
  rw [position]

/-- No order changes a rack or the poll on the bus. -/
theorem kindTouches_racks (k : Nat) : ∀ f ∈ [StateField.racks, .bus], f ∉ kindTouches k := by
  unfold kindTouches
  split <;> decide

theorem State.racksOk.run (s : State) (i : Instr) (law : s.racksOk) : (s.run i).racksOk := by
  have framed (apart : ∀ f ∈ [StateField.positions, .racks, .bus], f ∉ commandTouches i) : (s.run i).racksOk := law.frame (s.run_only i) apart
  have worked (k : Nat) (w : Work) (hw : OrderWork k w) (u : State) (n : SlotId) (hu : u.racksOk) : (w u n).1.racksOk :=
    hu.same (hw.samePlaces u n) (hw.only u n) (kindTouches_racks k)
  have restarts (v : Half) (e : ByteEnables) (w : Bool) : (s.restart v e w).racksOk := racksOk_reads.restart (by decide) worked v e w law
  cases i with
  | startupComplete => exact law.completeStartup
  | softRestartComplete => exact law.completeRestart
  | restart v e w => exact restarts v e w
  | ignoredRegisterWrite a v e =>
    exact portWrite_keeps (P := State.racksOk) a v e (law.frame (s.post_only v e) (by decide)) (law.frame (s.clearPending_only v e) (by decide))
      (law.frame (s.setEnabled_only v e) (by decide)) (restarts v e false) law
  | pollSend => exact law.sendPoll
  | rackAnswer a => exact law.rackAnswer a
  | inventoryAnswer inv => exact law.inventoryAnswer inv
  | answerWindowExpiry => exact law.answerExpiry
  | settleDeadlineExpiry p =>
    show (s.settleExpiry p).racksOk
    unfold State.settleExpiry
    dsimp only
    split
    · rename_i due
      exact law.stays (fun q => State.removal_stays _ fun _ => .inr fun fault => nomatch due.2.1.symm.trans fault)
        (s.removal_only p _ false .racks (by decide)) (s.removal_only p _ false .bus (by decide))
    · exact law
  | reserveDeadlineExpiry h =>
    refine keeps_ite (P := State.racksOk) (keeps_ite (P := State.racksOk) (law.frame (State.writeHire_only s h _) (by decide)) ?_) law
    exact law.same (s.endReservation_samePlaces h _ _) (s.endReservation_only h _ _) (by decide)
  | unknownOrder | setNotice | setTimers | setLogPolicy | cancel | clearCountsLinks | clearCountsDocks | setClock | boothDefine | linkHold
  | linkRelease | boothIntake | seatAssign | channelDefine | channelClear | handover | setDistribution | issue | declareLost
  | retireReceiver | restoreReceiver | setTariff | accountOpen | accountPay | accountRefund | accountClose =>
    exact racksOk_reads.order (by decide) worked (by decide) law
  | _ => exact framed (by dsimp only [commandTouches]; decide)

end

end Sys2Proof.Machine
end

section
/-!
SUPPORT. The docks' law (R103, R110 to R112): entries and positions, and the work that leaves both as they stand.
-/
namespace Sys2Proof.Machine

/-! ## The law -/

/-- A receiver that stands in a dock: DOCKED or RESERVED. -/
def RecvState.atDock : RecvState → Bool
  | .docked | .reserved => true
  | .unenrolled | .onHire | .silent | .adrift | .lost | .retired => false

theorem RecvState.atDock_iff (x : RecvState) : x.atDock = true ↔ x = .docked ∨ x = .reserved := by cases x <;> simp [RecvState.atDock]

/-- The docks' law: one entry for a serial, one position for an entry, and states that match (R103, R110, R111). -/
structure State.DocksHold (s : State) : Prop where
  serial : ∀ e d : RecvId, (s.receiver e).serial ≠ 0 → (s.receiver e).serial = (s.receiver d).serial → e = d
  once : ∀ (p q : PosId) (e : RecvId), (s.position p).entry = some e → (s.position q).entry = some e → p = q
  held : ∀ (p : PosId) (e : RecvId), (s.position p).entry = some e → (s.receiver e).state.atDock = true ∨ (s.receiver e).state = .retired
  docked : ∀ e : RecvId, (s.receiver e).state.atDock = true → ∃ p : PosId, (s.position p).entry = some e
  empty : ∀ p : PosId, (s.position p).state = .empty → (s.position p).entry = none
  settling : ∀ p : PosId, (s.position p).state = .settlingOut → (s.position p).entry ≠ none

theorem State.docksHold_iff {s : State} : s.DocksHold ↔ s.docksOk := by
  constructor
  · rintro ⟨serial, once, held, docked, empty, settling⟩
    refine ⟨serial, once, fun p e h => ?_, fun e h => docked e ((RecvState.atDock_iff _).mpr h), fun p => ⟨empty p, settling p⟩⟩
    exact or_assoc.mp ((held p e h).imp (RecvState.atDock_iff _).mp id)
  · rintro ⟨serial, once, held, docked, both⟩
    refine ⟨serial, once, fun p e h => ?_, fun e h => docked e ((RecvState.atDock_iff _).mp h), fun p => (both p).1, fun p => (both p).2⟩
    exact (or_assoc.mpr (held p e h)).imp (RecvState.atDock_iff _).mpr id

/-- An entry with the serial of another, at a dock or RETIRED exactly where it is. -/
structure Receiver.dockedAs (r q : Receiver) : Prop where
  serial : r.serial = q.serial
  docked : r.state.atDock = q.state.atDock
  retired : r.state = .retired ↔ q.state = .retired

theorem Receiver.dockedAs_refl (r : Receiver) : r.dockedAs r := ⟨rfl, rfl, Iff.rfl⟩

theorem Receiver.dockedAs.trans {r q v : Receiver} (h : r.dockedAs q) (g : q.dockedAs v) : r.dockedAs v :=
  ⟨h.serial.trans g.serial, h.docked.trans g.docked, h.retired.trans g.retired⟩

theorem Receiver.dockedAs_of_state {r q : Receiver} (serial : r.serial = q.serial) (state : r.state = q.state) : r.dockedAs q :=
  ⟨serial, by rw [state], by rw [state]⟩

/-- Positions and entries stand as they did. -/
structure State.sameDocks (s t : State) : Prop where
  places : s.samePlaces t
  entries : ∀ e, (t.receiver e).dockedAs (s.receiver e)

section
variable {s t u : State}

theorem State.sameDocks_refl (s : State) : s.sameDocks s := ⟨s.samePlaces_refl, fun _ => Receiver.dockedAs_refl _⟩

theorem State.sameDocks.trans (h : s.sameDocks t) (g : t.sameDocks u) : s.sameDocks u :=
  ⟨h.places.trans g.places, fun e => (g.entries e).trans (h.entries e)⟩

theorem sameDocks_reads (s : State) : Reads s.sameDocks [.positions, .receivers] := fun t u same h =>
  ⟨samePlaces_reads s t u (fun f hf => same f (by revert f; decide)) h.places, fun e => by
    rw [show u.receiver e = t.receiver e from congrArg (fun v : Vector Receiver _ => v[e]) (same .receivers (by decide))]
    exact h.entries e⟩

theorem State.sameDocks.frame (h : s.sameDocks t) {l : List StateField} (only : t.onlyIn l u)
    (apart : ∀ f ∈ [StateField.positions, .receivers], f ∉ l) : s.sameDocks u := (sameDocks_reads s).frame only apart h

/-- Work on the entries alone. -/
theorem State.sameDocks_of_entries {l : List StateField} (only : s.onlyIn l t) (apart : StateField.positions ∉ l)
    (entries : ∀ e, (t.receiver e).dockedAs (s.receiver e)) : s.sameDocks t :=
  ⟨s.samePlaces_refl.frame only (List.forall_mem_singleton.mpr apart), entries⟩

/-- Work on the positions alone. -/
theorem State.sameDocks_of_places {l : List StateField} (places : s.samePlaces t) (only : s.onlyIn l t) (apart : StateField.receivers ∉ l) :
    s.sameDocks t :=
  ⟨places, fun e => by
    rw [show t.receiver e = s.receiver e from congrArg (fun v : Vector Receiver _ => v[e]) (only .receivers apart)]
    exact Receiver.dockedAs_refl _⟩

theorem State.DocksHold.same (law : s.DocksHold) (same : s.sameDocks t) : t.DocksHold where
  serial e d := by
    rw [(same.entries e).serial, (same.entries d).serial]
    exact law.serial e d
  once p q e := by
    rw [(same.places p).2, (same.places q).2]
    exact law.once p q e
  held p e := by
    rw [(same.places p).2, (same.entries e).docked, (same.entries e).retired]
    exact law.held p e
  docked e at' := by
    obtain ⟨p, entry⟩ := law.docked e ((same.entries e).docked ▸ at')
    exact ⟨p, (same.places p).2.trans entry⟩
  empty p := by
    rw [(same.places p).1, (same.places p).2]
    exact law.empty p
  settling p := by
    rw [(same.places p).1, (same.places p).2]
    exact law.settling p

theorem State.DocksHold.frame (law : s.DocksHold) {l : List StateField} (only : s.onlyIn l t)
    (apart : ∀ f ∈ [StateField.positions, .receivers], f ∉ l) : t.DocksHold := law.same (s.sameDocks_refl.frame only apart)

theorem docksHold_reads : Reads State.DocksHold [.positions, .receivers] := fun s t same law =>
  law.same (sameDocks_reads s s t same s.sameDocks_refl)

/-! ## Entries written -/

theorem State.writeReceiver_sameDocks (s : State) (e : RecvId) {f : Receiver → Receiver} (like : (f (s.receiver e)).dockedAs (s.receiver e)) :
    s.sameDocks (s.writeReceiver e f) := by
  refine State.sameDocks_of_entries (s.writeReceiver_only e f) (by decide) fun d => ?_
  rw [State.receiver_writeReceiver]
  split
  · rename_i own
    subst own
    exact ⟨like.serial, like.docked, like.retired⟩
  · exact Receiver.dockedAs_refl _

theorem State.writeBattery_sameDocks (s : State) (p : PosId) (e : RecvId) (y : BitVec 4) : s.sameDocks (s.writeBattery p e y) := by
  refine ⟨s.writeBattery_samePlaces p e y, fun d => ?_⟩
  have same : (s.writeBattery p e y).receivers = (s.rewriteReceiver e (fun r => { r with battery := y })).receivers :=
    State.relampPos_only _ p .receivers (by decide)
  rw [show (s.writeBattery p e y).receiver d = (s.rewriteReceiver e (fun r => { r with battery := y })).receiver d from
    congrArg (fun v : Vector Receiver _ => v[d]) same, State.receiver_rewriteReceiver]
  split
  · rename_i own
    subst own
    rcases rewritten_or Receiver.bump (fun r => { r with battery := y }) (s.receiver d) with same | same
    · rw [same]
      exact Receiver.dockedAs_of_state rfl rfl
    · rw [same]
      exact Receiver.dockedAs_of_state rfl rfl
  · exact Receiver.dockedAs_refl _

theorem State.relampHolder_sameDocks (s : State) (e : RecvId) : s.sameDocks (s.relampHolder e) :=
  State.sameDocks_of_places (s.relampHolder_samePlaces e) (s.relampHolder_only e) (by decide)

/-! ## Reservations that end, and settlements -/

/-- The entry of every RESERVING hire stands in a dock. -/
def State.bookedAtDock (s : State) : Prop := ∀ h, (s.hire h).state = .reserving → (s.receiver (s.hire h).receiver).state.atDock = true

theorem State.HiresHold.bookedAtDock {x : Option HireId} (law : s.HiresHold x) : s.bookedAtDock := fun h reserving => by
  rw [(law.entries.reserving h reserving).1]
  rfl

theorem State.dropReservation_sameDocks {h : HireId} (docked : (s.receiver (s.hire h).receiver).state.atDock = true) (code : ResultCode)
    (reason : Reason) : s.sameDocks (s.dropReservation h code reason) := by
  refine ⟨s.dropReservation_samePlaces h code reason, fun e => ?_⟩
  have same : (s.dropReservation h code reason).receiver e = (s.released h).receiver e := by rw [State.dropReservation_same]
  rw [same, State.released_receiver]
  split
  · rename_i own
    subst own
    refine ⟨rfl, docked.symm, iff_of_false (fun e => nomatch e) fun e => ?_⟩
    rw [e] at docked
    exact nomatch docked
  · exact Receiver.dockedAs_refl _

theorem State.endReservation_sameDocks {h : HireId} (docked : (s.receiver (s.hire h).receiver).state.atDock = true) (code : ResultCode)
    (reason : Reason) : s.sameDocks (s.endReservation h code reason) :=
  (State.dropReservation_sameDocks docked code reason).frame (State.closeAccount_only _ s _) (by decide)

theorem State.dropReservation_hire_receiver (s : State) (h k : HireId) (code : ResultCode) (reason : Reason) :
    ((s.dropReservation h code reason).hire k).receiver = (s.hire k).receiver := by
  have same : (s.dropReservation h code reason).hire k = (s.released h).hire k := by rw [State.dropReservation_same]
  rw [same, State.released_hire]
  split
  · rename_i own
    rw [own]
    rfl
  · rfl

theorem State.dropEach_sameDocks : ∀ (l : List HireId) {s : State}, (∀ h ∈ l, (s.receiver (s.hire h).receiver).state.atDock = true) →
    s.sameDocks (s.each l (fun s h => s.dropReservation h .refused .accountHeld))
  | [], s, _ => s.sameDocks_refl
  | h :: l, s, docked => by
    have first := State.dropReservation_sameDocks (docked h (List.mem_cons_self ..)) .refused .accountHeld
    refine first.trans (State.dropEach_sameDocks l fun k hk => ?_)
    rw [State.dropReservation_hire_receiver, (first.entries _).docked]
    exact docked k (List.mem_cons_of_mem h hk)

theorem State.dropReservations_sameDocks (booked : s.bookedAtDock) (a : AcctId) : s.sameDocks (s.dropReservations a) := by
  refine State.dropEach_sameDocks _ fun h hh => ?_
  have named := (mem_tblAll _ _ _).mp hh
  simp only [Bool.and_eq_true, beq_iff_eq] at named
  exact booked h named.1

theorem State.settleHire_sameDocks {h : HireId} (booked : s.bookedAtDock) : s.sameDocks (s.settleHire h) := by
  unfold State.settleHire
  extract_lets r s1 a minutes charge s2 s3 s4 s5
  have h2 : s.sameDocks s2 :=
    (s.sameDocks_refl.frame (State.updAccount_only s _ _) (by decide)).frame (State.updAccount_only s1 _ _) (by decide)
  have booked2 : s2.bookedAtDock := booked
  have h3 : s.sameDocks s3 := keeps_ite (P := s.sameDocks) (h2.trans (State.dropReservations_sameDocks booked2 _)) h2
  have h4 : s.sameDocks s4 := (h3.frame (State.updAccount_only s3 r.account _) (by decide)).frame (State.writeHire_only _ h _) (by decide)
  have h5 : s.sameDocks s5 := keeps_ite (P := s.sameDocks) (h4.frame (State.raise_only _ _) (by decide)) h4
  exact h5.frame (State.handTally_only s5 _ _) (by decide)

theorem State.closeHire_sameDocks {h : HireId} (booked : s.bookedAtDock) (k : Nat) (cause : CloseCause) : s.sameDocks (s.closeHire h k cause) := by
  have ended : s.sameDocks (s.closedBy h k cause) := s.sameDocks_refl.frame (State.writeHire_only s h _) (by decide)
  have still : (s.closedBy h k cause).bookedAtDock := fun i reserving => by
    have other : i ≠ h := fun own => by
      rw [State.closedBy_hire, if_pos own] at reserving
      have reserving : (if s.logBlocked then HireState.closedWaiting else .free) = .reserving := reserving
      split at reserving <;> exact nomatch reserving
    rw [State.closedBy_hire, if_neg other] at reserving ⊢
    exact booked i reserving
  rw [State.closeHire_eq]
  exact ended.trans (State.settleHire_sameDocks still)

theorem State.returnHire_sameDocks (booked : s.bookedAtDock) (h : Option HireId) (k : Nat) : s.sameDocks (s.returnHire h k) := by
  unfold State.returnHire
  split
  · exact keeps_ite (P := s.sameDocks) (State.closeHire_sameDocks booked k .returned) s.sameDocks_refl
  · exact s.sameDocks_refl

/-! ## The wait list -/

theorem State.release_sameDocks (s : State) (o : WaitOwner) : s.sameDocks (s.release o) := by
  cases o with
  | console b n => exact s.sameDocks_refl.frame (State.writeBooth_only s b id) (by decide)
  | receiver e => exact s.writeReceiver_sameDocks e (f := fun r => { r with foundWaiting := false }) (Receiver.dockedAs_of_state rfl rfl)
  | hire h => exact s.sameDocks_refl.frame (State.writeHire_only s h _) (by decide)

theorem State.drainList_sameDocks : ∀ (l : List WaitEntry) (s : State), s.sameDocks (State.drainList l s)
  | [], s => s.sameDocks_refl.frame (State.log_only s { s.log with waiting := [] }) (by decide)
  | w :: l, s => by
    unfold State.drainList
    split
    · have written : s.sameDocks (({ s with log := { s.log with waiting := l } } : State).writeTally w.record) :=
        (s.sameDocks_refl.frame (State.log_only s { s.log with waiting := l }) (by decide)).frame (State.writeTally_only _ _) (by decide)
      exact (written.trans (State.release_sameDocks _ _)).trans (State.drainList_sameDocks l _)
    · exact s.sameDocks_refl.frame (State.log_only s { s.log with waiting := w :: l }) (by decide)

theorem State.drain_sameDocks (s : State) : s.sameDocks s.drain := State.drainList_sameDocks s.log.waiting s

end

end Sys2Proof.Machine
end

section
/-!
SUPPORT. The docks' law through removals, insertions, answers and inventories (R105 to R112), beside the hire law.
-/
namespace Sys2Proof.Machine

section
variable {s t u : State} {p : PosId} {e : RecvId}

/-! ## Removals -/

/-- A position that no longer holds its entry, and that entry gone from the dock (R112). -/
theorem State.DocksHold.removed (law : s.DocksHold) (places : ∀ q, q ≠ p → (t.position q).state = (s.position q).state ∧ (t.position q).entry = (s.position q).entry)
    (entry : (t.position p).entry = none)
    (state : (t.position p).state ≠ .settlingOut) (others : ∀ d, (s.position p).entry ≠ some d → t.receiver d = s.receiver d)
    (own : ∀ d, (s.position p).entry = some d → (t.receiver d).serial = (s.receiver d).serial ∧ (t.receiver d).state.atDock = false) :
    t.DocksHold := by
  have serial (d : RecvId) : (t.receiver d).serial = (s.receiver d).serial := by
    by_cases held : (s.position p).entry = some d
    · exact (own d held).1
    · rw [others d held]
  have place (q : PosId) (d : RecvId) (h : (t.position q).entry = some d) : q ≠ p ∧ (s.position q).entry = some d := by
    have other : q ≠ p := fun same => nomatch (same ▸ h).symm.trans entry
    exact ⟨other, (places q other).2 ▸ h⟩
  refine ⟨fun d e => ?_, fun q r d hq hr => ?_, fun q d h => ?_, fun d docked => ?_, fun q empty => ?_, fun q settling => ?_⟩
  · rw [serial, serial]
    exact law.serial d e
  · exact law.once q r d (place q d hq).2 (place r d hr).2
  · obtain ⟨other, held⟩ := place q d h
    rw [others d fun own => other (law.once q p d held own)]
    exact law.held q d held
  · have apart : (s.position p).entry ≠ some d := fun held => nomatch docked.symm.trans (own d held).2
    rw [others d apart] at docked
    obtain ⟨q, held⟩ := law.docked d docked
    have other : q ≠ p := fun same => apart (same ▸ held)
    exact ⟨q, (places q other).2.trans held⟩
  · by_cases same : q = p
    · exact same ▸ entry
    · rw [(places q same).1] at empty
      rw [(places q same).2]
      exact law.empty q empty
  · by_cases same : q = p
    · exact absurd (same ▸ settling) state
    · rw [(places q same).1] at settling
      rw [(places q same).2]
      exact law.settling q settling

/-- The entry of an opening reservation is out (R126). -/
theorem State.openHire_receiver (hires : s.HiresHold none) (reserved : (s.receiver e).state = .reserved) (k : Nat) (d : RecvId) :
    (s.openHire e k).receiver d = if d = e then ((s.receiver e).goneOut k).bump else s.receiver d := by
  obtain ⟨h, named, -, -⟩ := hires.entries.reserved e reserved
  rw [State.openHire_of named]
  have same : (((s.opened h e k).endOwner (.issue h) ((s.opened h e k).issueResult h .done .noReason))).receivers = (s.opened h e k).receivers :=
    State.endOwner_only _ _ _ .receivers (by decide)
  exact (congrArg (fun v : Vector Receiver _ => v[d]) same).trans (State.opened_receiver k d)

theorem State.vacated_only (s : State) (p : PosId) (keep : Bool) : s.onlyIn [.positions, .presets] (s.vacated p keep) :=
  ((State.writePosition_only s p _).sub (by decide)).next (State.dropWaiting_only _ p) (by decide)

theorem State.vacated_receiver (s : State) (p : PosId) (keep : Bool) (d : RecvId) : (s.vacated p keep).receiver d = s.receiver d :=
  congrArg (fun v : Vector Receiver _ => v[d]) (s.vacated_only p keep .receivers (by decide))

/-- What a removal does to the entries: the one held leaves the dock, the others stay (R112). -/
theorem State.removal_receiver (hires : s.HiresHold none) (held : (s.position p).entry = some e) (k : Nat) (keep : Bool) :
    ∃ r : Receiver, r.serial = (s.receiver e).serial ∧ r.state.atDock = false
      ∧ ∀ d, (s.removal p k keep).receiver d = if d = e then r else s.receiver d := by
  have law : (s.vacated p keep).HiresHold none := hires.frame (s.vacated_only p keep) (by decide)
  have same := s.vacated_receiver p keep
  have written (f : Receiver → Receiver) (d : RecvId) : ((s.vacated p keep).writeReceiver e f).receiver d
      = if d = e then (f (s.receiver e)).bump else s.receiver d := by
    rw [State.receiver_writeReceiver, same, same]
  have raised (u : State) (d : RecvId) : (u.raise .dock).receiver d = u.receiver d :=
    congrArg (fun v : Vector Receiver _ => v[d]) (u.raise_only .dock .receivers (by decide))
  have apart (state : (s.receiver e).state.atDock = false) : ∃ r : Receiver, r.serial = (s.receiver e).serial ∧ r.state.atDock = false
      ∧ ∀ d, (s.vacated p keep).receiver d = if d = e then r else s.receiver d :=
    ⟨s.receiver e, rfl, state, fun d => (same d).trans (by split <;> simp [*])⟩
  unfold State.removal
  extract_lets pos s1
  have own : s1 = s.vacated p keep := rfl
  rw [own]
  split
  · rename_i none
    exact nomatch held.symm.trans none
  · rename_i e' held'
    obtain rfl : e' = e := Option.some.inj (held'.symm.trans held)
    split
    · refine ⟨({ s.receiver e' with state := .adrift } : Receiver).bump, rfl, rfl, fun d => ?_⟩
      rw [raised]
      exact written _ d
    · rename_i reserved
      have gone := State.openHire_receiver law ((congrArg Receiver.state (same e')).trans reserved) k
      refine ⟨((s.receiver e').goneOut k).bump, rfl, rfl, fun d => ?_⟩
      rw [gone, same, same]
    · rename_i retired
      exact ⟨({ s.receiver e' with dock := none } : Receiver).bump, rfl, congrArg RecvState.atDock retired, written _⟩
    all_goals
      rename_i state
      exact apart (congrArg RecvState.atDock state)

/-- A removal where nothing is held leaves the entries. -/
theorem State.removal_receiver_none (unheld : (s.position p).entry = none) (k : Nat) (keep : Bool) (d : RecvId) :
    (s.removal p k keep).receiver d = s.receiver d := by
  unfold State.removal
  extract_lets pos s1
  have own : s1 = s.vacated p keep := rfl
  rw [own]
  split
  · exact s.vacated_receiver p keep d
  · rename_i held
    exact nomatch unheld.symm.trans held

theorem State.removal_entry (s : State) (p : PosId) (k : Nat) (keep : Bool) (q : PosId) :
    ((s.removal p k keep).position q).entry = if q = p then none else (s.position q).entry := by
  rw [((s.removal_samePlaces p k keep) q).2, State.vacated_position]
  split <;> rfl

/-- A removal that takes effect keeps the docks' law (R112). -/
theorem State.DocksHold.removal (law : s.DocksHold) (hires : s.HiresHold none) (p : PosId) (k : Nat) (keep : Bool) :
    (s.removal p k keep).DocksHold := by
  have same := s.removal_samePlaces p k keep
  refine law.removed (p := p) (fun q other => ?_) ?_ ?_ (fun d apart => ?_) fun d held => ?_
  · rw [(same q).1, (same q).2, State.vacated_position, if_neg other]
    exact ⟨rfl, rfl⟩
  · rw [State.removal_entry, if_pos rfl]
  · rw [(same p).1, State.vacated_position, if_pos rfl]
    show (if keep && (s.position p).state == .fault then PosState.fault else .empty) ≠ .settlingOut
    split <;> exact fun e => nomatch e
  · cases held : (s.position p).entry with
    | none => exact State.removal_receiver_none held k keep d
    | some e =>
      obtain ⟨r, -, -, entries⟩ := State.removal_receiver hires held k keep
      exact (entries d).trans (if_neg fun own : d = e => apart (held.trans (own ▸ rfl)))
  · obtain ⟨r, serial, out, entries⟩ := State.removal_receiver hires held k keep
    rw [(entries d).trans (if_pos rfl)]
    exact ⟨serial, out⟩

theorem State.removal_serial (hires : s.HiresHold none) (p : PosId) (k : Nat) (keep : Bool) (d : RecvId) :
    ((s.removal p k keep).receiver d).serial = (s.receiver d).serial := by
  cases held : (s.position p).entry with
  | none => rw [State.removal_receiver_none held]
  | some e =>
    obtain ⟨r, serial, -, entries⟩ := State.removal_receiver hires held k keep
    rw [entries]
    split
    · rename_i own
      rw [own]
      exact serial
    · rfl

/-! ## Positions written -/

/-- A position whose state changes beside its entry. -/
theorem State.DocksHold.writePosition (law : s.DocksHold) {f : Position → Position} (entry : (f (s.position p)).entry = (s.position p).entry)
    (empty : (f (s.position p)).state = .empty → (s.position p).entry = none)
    (settling : (f (s.position p)).state = .settlingOut → (s.position p).entry ≠ none) : (s.writePosition p f).DocksHold := by
  have same (q : PosId) : ((s.writePosition p f).position q).entry = (s.position q).entry := by
    rw [State.position_writePosition]
    split
    · rename_i own
      rw [own]
      exact entry
    · rfl
  have state (q : PosId) : ((s.writePosition p f).position q).state = if q = p then (f (s.position p)).state else (s.position q).state := by
    rw [State.position_writePosition]
    split <;> rfl
  refine ⟨law.serial, fun q r e => ?_, fun q e => ?_, fun e docked => ?_, fun q => ?_, fun q => ?_⟩
  · rw [same, same]
    exact law.once q r e
  · rw [same]
    exact law.held q e
  · obtain ⟨q, held⟩ := law.docked e docked
    exact ⟨q, (same q).trans held⟩
  · rw [same, state]
    split
    · rename_i own
      exact own ▸ empty
    · exact law.empty q
  · rw [same, state]
    split
    · rename_i own
      exact own ▸ settling
    · exact law.settling q

/-! ## Insertions -/

/-- A receiver that no position holds stands at a position that holds none, DOCKED or RETIRED (R110, R111). -/
theorem State.DocksHold.placed (law : s.DocksHold) (free : (s.position p).entry = none) (unheld : ∀ q, (s.position q).entry ≠ some e)
    (places : ∀ q, q ≠ p → t.position q = s.position q) (entry : (t.position p).entry = some e) (state : (t.position p).state = .occupied)
    (entries : ∀ d, d ≠ e → t.receiver d = s.receiver d) (now : (t.receiver e).state.atDock = true ∨ (t.receiver e).state = .retired)
    (unique : ∀ d, d ≠ e → (s.receiver d).serial ≠ (t.receiver e).serial) : t.DocksHold := by
  have place (q : PosId) (d : RecvId) (h : (t.position q).entry = some d) : q = p ∧ d = e ∨ q ≠ p ∧ d ≠ e ∧ (s.position q).entry = some d := by
    by_cases own : q = p
    · exact .inl ⟨own, Option.some.inj ((own ▸ h).symm.trans entry)⟩
    · rw [places q own] at h
      exact .inr ⟨own, fun same => unheld q (same ▸ h), h⟩
  refine ⟨fun d f => ?_, fun q r d hq hr => ?_, fun q d h => ?_, fun d docked => ?_, fun q empty => ?_, fun q settling => ?_⟩
  · by_cases hd : d = e
    · by_cases hf : f = e
      · exact fun _ _ => hd.trans hf.symm
      · rw [entries f hf, hd]
        exact fun _ same => absurd same.symm (unique f hf)
    · by_cases hf : f = e
      · rw [entries d hd, hf]
        exact fun _ same => absurd same (unique d hd)
      · rw [entries d hd, entries f hf]
        exact law.serial d f
  · rcases place q d hq with ⟨own, named⟩ | ⟨-, other, held⟩
    · rcases place r d hr with ⟨own', -⟩ | ⟨-, other, -⟩
      · exact own.trans own'.symm
      · exact absurd named other
    · rcases place r d hr with ⟨-, named⟩ | ⟨-, -, held'⟩
      · exact absurd named other
      · exact law.once q r d held held'
  · rcases place q d h with ⟨-, named⟩ | ⟨-, other, held⟩
    · exact named ▸ now
    · rw [entries d other]
      exact law.held q d held
  · by_cases own : d = e
    · exact ⟨p, own ▸ entry⟩
    · rw [entries d own] at docked
      obtain ⟨q, held⟩ := law.docked d docked
      have other : q ≠ p := fun same => nomatch (same ▸ held).symm.trans free
      exact ⟨q, (places q other).symm ▸ held⟩
  · by_cases own : q = p
    · exact nomatch (own ▸ empty).symm.trans state
    · rw [places q own] at empty ⊢
      exact law.empty q empty
  · by_cases own : q = p
    · exact nomatch (own ▸ settling).symm.trans state
    · rw [places q own] at settling ⊢
      exact law.settling q settling

theorem State.occupy_position (s : State) (p : PosId) (o : Option RecvId) (q : PosId) : ∃ x : Position,
    x.entry = o ∧ x.state = .occupied ∧ (s.occupy p o).position q = if q = p then x else s.position q :=
  ⟨_, rfl, rfl, State.position_writePosition s p q _⟩

/-- A receiver put into a rack stands in the dock, or is RETIRED (R111). -/
theorem Receiver.inserted_stands {r : Receiver} (enrolled : r.state ≠ .unenrolled) (p : PosId) (y : BitVec 4) (w : Bool) :
    (r.inserted p y w).state.atDock = true ∨ (r.inserted p y w).state = .retired := by
  unfold Receiver.inserted
  cases state : r.state with
  | unenrolled => exact absurd state enrolled
  | docked | reserved => exact .inl rfl
  | retired => exact .inr rfl
  | adrift | onHire | silent | lost => exact .inl rfl

/-- The insertion taken at a cleared position (R110, R111). -/
theorem State.DocksHold.takeInsertion (law : s.DocksHold) (hires : s.HiresHold none) (free : (s.position p).entry = none) {x : Serial}
    (positive : x ≠ 0) (unheld : ∀ e, (s.receiver e).serial = x → ∀ q, (s.position q).entry ≠ some e) (y : BitVec 4) :
    (s.takeInsertion p x y).DocksHold := by
  have stood (e : RecvId) (f : Receiver → Receiver) (apart : ∀ q, (s.position q).entry ≠ some e)
      (now : (f (s.receiver e)).state.atDock = true ∨ (f (s.receiver e)).state = .retired)
      (unique : ∀ d, d ≠ e → (s.receiver d).serial ≠ (f (s.receiver e)).serial) : ((s.occupy p (some e)).writeReceiver e f).DocksHold := by
    have entry (d : RecvId) : ((s.occupy p (some e)).writeReceiver e f).receiver d = if d = e then (f (s.receiver e)).bump else s.receiver d :=
      State.receiver_writeReceiver (s.occupy p (some e)) e d f
    have place (q : PosId) : ((s.occupy p (some e)).writeReceiver e f).position q = (s.occupy p (some e)).position q :=
      congrArg (fun v : Vector Position _ => v[q]) (State.writeReceiver_only _ e f .positions (by decide))
    obtain ⟨v, named, occupied, own⟩ := s.occupy_position p (some e) p
    refine law.placed (p := p) (e := e) free apart (fun q other => ?_) ?_ ?_ (fun d other => (entry d).trans (if_neg other)) ?_ fun d other => ?_
    · obtain ⟨w, -, -, at'⟩ := s.occupy_position p (some e) q
      rw [place, at', if_neg other]
    · rw [place, own, if_pos rfl]
      exact named
    · rw [place, own, if_pos rfl]
      exact occupied
    · rw [entry, if_pos rfl]
      exact now
    · rw [entry, if_pos rfl]
      exact unique d other
  unfold State.takeInsertion
  split
  · rename_i e found
    dsimp only
    obtain ⟨serial, -⟩ := State.entryOf_some found
    have apart := unheld e serial
    have enrolled : (s.receiver e).state ≠ .unenrolled := fun u => positive (serial.symm.trans ((hires.entries.serial e).mpr u))
    have away : (s.receiver e).state.atDock = false := by
      rw [← Bool.not_eq_true]
      exact fun docked => (law.docked e docked).elim apart
    have inserted : ((s.occupy p (some e)).writeReceiver e (fun r => r.inserted p y s.logBlocked)).DocksHold := by
      refine stood e (fun r => r.inserted p y s.logBlocked) apart ?_ fun d other same => ?_
      · exact Receiver.inserted_stands enrolled p y s.logBlocked
      · rw [Receiver.inserted_serial] at same
        exact other (law.serial d e (same.trans serial ▸ positive) same)
    have booked : ((s.occupy p (some e)).writeReceiver e (fun r => r.inserted p y s.logBlocked)).bookedAtDock := fun h reserving => by
      have docked := hires.bookedAtDock h reserving
      have other : (s.hire h).receiver ≠ e := fun own => by
        rw [own, away] at docked
        exact nomatch docked
      exact (congrArg (fun r : Receiver => r.state.atDock)
        ((State.receiver_writeReceiver (s.occupy p (some e)) e (s.hire h).receiver _).trans (if_neg other))).trans docked
    generalize (s.occupy p (some e)).writeReceiver e (fun r => r.inserted p y s.logBlocked) = u at inserted booked
    refine State.DocksHold.same (s := u.afterInsertion e (s.receiver e)) ?_
      (State.sameDocks_of_places (State.relampPos_samePlaces _ p) (State.relampPos_only _ p) (by decide))
    unfold State.afterInsertion
    split
    · exact inserted.same (State.returnHire_sameDocks booked _ _)
    · exact inserted.same (State.returnHire_sameDocks booked _ _)
    · exact (inserted.frame (State.raise_only _ _) (by decide)).frame (State.handFound_only _ _ _ _) (by decide)
    all_goals exact inserted
  · rename_i unknown
    split
    · rename_i e found
      have zero : (s.receiver e).serial = 0 := by simpa using ((tblFind_eq_some _ _ e).mp found).1
      have was := (hires.entries.serial e).mp zero
      have apart (q : PosId) : (s.position q).entry ≠ some e := fun held => by
        have state := law.held q e held
        rw [was] at state
        exact state.elim (fun e => nomatch e) (fun e => nomatch e)
      refine State.DocksHold.same (stood e (fun r => r.enrolled x p y) apart (.inl rfl) fun d _ same => ?_)
        (State.sameDocks_of_places (State.relampPos_samePlaces _ p) (State.relampPos_only _ p) (by decide))
      unfold State.entryOf at unknown
      rw [if_neg positive] at unknown
      have other := (tblFind_eq_none _ _).mp unknown d
      have differs : (s.receiver d).serial ≠ x := by simpa using other
      exact differs same
    · refine State.DocksHold.frame ?_ (State.raise_only _ _) (by decide)
      exact law.writePosition free.symm (fun e => nomatch e) fun e => nomatch e

theorem State.posHolding_some {p : PosId} (h : s.posHolding e = some p) : (s.position p).entry = some e := by
  simpa using ((tblFind_eq_some _ _ p).mp h).1

/-! ## Beside the hire law -/

/-- The hire law and the docks' law. -/
structure State.HireDocks (s : State) : Prop where
  hires : s.HiresHold none
  docks : s.DocksHold

theorem hireDocks_reads : Reads State.HireDocks [.orders, .log, .channels, .receivers, .hires, .positions] := fun s t same law =>
  ⟨hiresHold_reads none s t (fun f hf => same f (by revert f; decide)) law.hires,
    docksHold_reads s t (fun f hf => same f (by revert f; decide)) law.docks⟩

theorem State.HireDocks.frame (law : s.HireDocks) {l : List StateField} (only : s.onlyIn l t)
    (apart : ∀ f ∈ [StateField.orders, .log, .channels, .receivers, .hires, .positions], f ∉ l) : t.HireDocks :=
  hireDocks_reads.frame only apart law

theorem State.HireDocks.removal (law : s.HireDocks) (p : PosId) (k : Nat) (keep : Bool) : (s.removal p k keep).HireDocks :=
  ⟨law.hires.removal p k keep, law.docks.removal law.hires p k keep⟩

/-- The receiver of a serial taken out where it stands (R111 step 2). -/
theorem State.HireDocks.clearElsewhere (law : s.HireDocks) {x : Serial} (positive : x ≠ 0) : (s.clearElsewhere x).HireDocks
    ∧ (∀ e, ((s.clearElsewhere x).receiver e).serial = x → ∀ q, ((s.clearElsewhere x).position q).entry ≠ some e)
    ∧ ∀ q, (s.position q).entry = none → ((s.clearElsewhere x).position q).entry = none := by
  have known {e : RecvId} (serial : (s.receiver e).serial = x) : s.entryOf x = some e := by
    unfold State.entryOf
    rw [if_neg positive]
    refine (tblFind_eq_some _ _ e).mpr ⟨by simpa using serial, fun d below => ?_⟩
    have differs : (s.receiver d).serial ≠ x := fun same =>
      absurd (law.docks.serial d e (same ▸ positive) (same.trans serial.symm)) (Fin.ne_of_lt below)
    simpa using differs
  unfold State.clearElsewhere
  split
  · rename_i q found
    obtain ⟨e, named, holds⟩ := Option.bind_eq_some_iff.mp found
    have held := State.posHolding_some holds
    dsimp only
    generalize (if s.positions[q].state = .settlingOut then s.positions[q].rawRemoval else s.clock.run) = k
    refine ⟨law.removal q k true, fun d serial r at' => ?_, fun r none => ?_⟩
    · rw [State.removal_serial law.hires] at serial
      obtain rfl := Option.some.inj (named.symm.trans (known serial))
      rw [State.removal_entry] at at'
      split at at'
      · exact nomatch at'
      · rename_i other
        exact other (law.docks.once r q _ at' held)
    · rw [State.removal_entry]
      split
      · rfl
      · exact none
  · rename_i absent
    refine ⟨law, fun e serial q held => ?_, fun _ none => none⟩
    have gone : s.posHolding e = none := (congrArg (fun o : Option RecvId => o.bind s.posHolding) (known serial)).symm.trans absent
    exact State.posHolding_none.mp gone q held

theorem State.HireDocks.insertAt (law : s.HireDocks) (free : (s.position p).entry = none) {x : Serial} (positive : x ≠ 0) (y : BitVec 4) :
    (s.insertAt p x y).HireDocks := by
  obtain ⟨cleared, unheld, kept⟩ := law.clearElsewhere positive
  exact ⟨cleared.hires.takeInsertion p positive y, cleared.docks.takeInsertion cleared.hires (kept p free) positive unheld y⟩

/-- A removal at a position, and an insertion there. -/
theorem State.HireDocks.replace (law : s.HireDocks) (p : PosId) (k : Nat) {x : Serial} (positive : x ≠ 0) (y : BitVec 4) :
    ((s.removal p k false).insertAt p x y).HireDocks :=
  (law.removal p k false).insertAt ((s.removal_entry p k false p).trans (if_pos rfl)) positive y

theorem State.HireDocks.atPosition (law : s.HireDocks) {f : Position → Position} (entry : (f (s.position p)).entry = (s.position p).entry)
    (empty : (f (s.position p)).state = .empty → (s.position p).entry = none)
    (settling : (f (s.position p)).state = .settlingOut → (s.position p).entry ≠ none) : (s.writePosition p f).HireDocks :=
  ⟨law.hires.atPosition p f, law.docks.writePosition entry empty settling⟩

theorem State.HireDocks.occupied (law : s.HireDocks) (p : PosId) : (s.writePosition p (fun r => { r with state := .occupied })).HireDocks :=
  law.atPosition rfl (fun e => nomatch e) fun e => nomatch e

theorem State.HireDocks.writeBattery (law : s.HireDocks) (p : PosId) (e : RecvId) (y : BitVec 4) : (s.writeBattery p e y).HireDocks :=
  ⟨law.hires.writeBattery p e y, law.docks.same (s.writeBattery_sameDocks p e y)⟩

theorem State.HireDocks.endReservation (law : s.HireDocks) {h : HireId} (reserving : (s.hire h).state = .reserving) (code : ResultCode)
    (reason : Reason) : (s.endReservation h code reason).HireDocks :=
  ⟨law.hires.endReservation reserving code reason,
    law.docks.same (State.endReservation_sameDocks (law.hires.bookedAtDock h reserving) code reason)⟩

theorem State.HireDocks.reseat (law : s.HireDocks) (p : PosId) (e : RecvId) (y : BitVec 4) : (s.reseat p e y).HireDocks := by
  have written := (law.occupied p).writeBattery p e y
  unfold State.reseat
  dsimp only
  split
  · split
    · rename_i ends
      exact written.endReservation ends.2.1 _ _
    · exact written
  · exact written

theorem State.HireDocks.takeRemove (law : s.HireDocks) (p : PosId) : (s.takeRemove p).HireDocks := by
  have settling (e : RecvId) (held : (s.position p).entry = some e) (k d : Nat) : (s.writePosition p (fun r => { r with
      state := .settlingOut, rawRemoval := k, settleDeadline := d, lamp := .dark })).HireDocks :=
    law.atPosition rfl (fun e => nomatch e) fun _ none => nomatch held.symm.trans none
  exact State.takeRemove_elim (P := State.HireDocks) (fun e _ held _ => (settling e held _ _).removal p _ _) (fun e _ held _ => settling e held _ _)
    (fun _ none => law.atPosition rfl (fun _ => none) fun e => nomatch e) (fun _ => law)

theorem State.HireDocks.takeInsert (law : s.HireDocks) (clear : (s.position p).state = .fault → (s.position p).entry = none) {x : Serial}
    (positive : x ≠ 0) (y : BitVec 4) : (s.takeInsert p x y).HireDocks := by
  refine State.takeInsert_elim (P := State.HireDocks) (fun e _ _ _ => law.reseat p e y) (fun _ _ _ _ => law.replace p _ positive y)
    (fun e _ _ _ => law.writeBattery p e y) (fun _ _ _ _ => law.replace p _ positive y) (fun occupied none => ?_) (fun at' => ?_)
  · have counted : (s.writePosition p (fun r => { r with removals := satAdd 16 r.removals 1 })).HireDocks :=
      law.atPosition rfl (fun _ => none) fun settling => nomatch occupied.symm.trans (show (s.position p).state = .settlingOut from settling)
    refine counted.insertAt ?_ positive y
    rw [State.position_writePosition, if_pos rfl]
    exact none
  · refine law.insertAt ?_ positive y
    rcases at' with empty | fault | ⟨-, none⟩
    · exact law.docks.empty p empty
    · exact clear fault
    · exact none

theorem State.HireDocks.reconcile (law : s.HireDocks) (p : PosId) (x : Option InventoryItem) : (s.reconcile p x).HireDocks :=
  State.reconcile_elim (P := State.HireDocks) (fun e _ _ _ _ _ => (law.occupied p).writeBattery p e _)
    (fun _ i _ _ read _ => law.replace p _ (readItem_serial read) i.battery) (fun _ _ _ _ => law.removal p _ false)
    (fun _ none _ => law.atPosition rfl (fun _ => none) fun e => nomatch e)
    (fun i clear read => law.takeInsert clear (readItem_serial read) i.battery) (fun _ _ => law)

theorem State.HireDocks.failReservation (law : s.HireDocks) (p : PosId) : (s.failReservation p).HireDocks := by
  unfold State.failReservation
  split
  · rename_i e _
    split
    · rename_i h reserved named
      obtain ⟨k, found, reserving, -⟩ := law.hires.entries.reserved e reserved
      obtain rfl := Option.some.inj (found.symm.trans named)
      exact law.endReservation reserving _ _
    · exact law
  · exact law

theorem State.HireDocks.rackFault (law : s.HireDocks) (r : RackId) : (s.rackFault r).HireDocks := by
  unfold State.rackFault
  dsimp only
  refine State.each_induct (P := State.HireDocks) (f := State.failReservation) (fun t p _ ht => ht.failReservation p)
    (State.HireDocks.frame ?_ (State.raise_only _ _) (by decide))
  refine State.each_induct (P := State.HireDocks) (l := rackPositions r)
    (f := fun t p => (t.writePosition p (fun x => { x with state := .fault, lamp := .dark })).setPreset p none)
    (fun t p _ ht => ?_) (law.frame (State.setRack_only s r _) (by decide))
  have failed : (t.writePosition p (fun x => { x with state := .fault, lamp := .dark })).HireDocks :=
    ht.atPosition rfl (fun e => nomatch e) fun e => nomatch e
  exact failed.frame (State.setPreset_only _ p none) (by decide)

theorem State.HireDocks.presetResult (law : s.HireDocks) (e : RecvId) (d : Bool) : (s.presetResult e d).HireDocks := by
  refine ⟨law.hires.presetResult e d, ?_⟩
  unfold State.presetResult
  split
  · exact keeps_ite (P := State.DocksHold) (law.docks.frame (State.writeHire_only s _ _) (by decide)) law.docks
  · exact law.docks

/-! ## Answers and inventories -/

/-- Changes, reports and results of an ONLINE rack's answer keep the law; the rack has no FAULT position (R103). -/
theorem State.HireDocks.takeChange {r : RackId} (law : s.HireDocks) (racks : s.racksOnline r) (c : DockChange) : (s.takeChange r c).HireDocks := by
  have healthy (k : PlaceId) : (s.position (posIndex r k)).state = .fault → (s.position (posIndex r k)).entry = none := fun fault => by
    have fits := (racks.1.1 (posIndex r k)).2.mp fault
    rw [rackOf_posIndex, racks.2] at fits
    exact nomatch fits
  unfold State.takeChange
  split
  · split
    · split
      · exact law
      · rename_i positive
        exact law.takeInsert (healthy _) positive _
    · exact law
  · split
    · exact law.takeRemove _
    · exact law

theorem State.HireDocks.takeReport (law : s.HireDocks) (r : RackId) (x : BatteryReport) : (s.takeReport r x).HireDocks := by
  unfold State.takeReport
  split
  · dsimp only
    split
    · exact law.writeBattery _ _ _
    · exact law
  · exact law

theorem State.HireDocks.takeResult (law : s.HireDocks) (poll : Poll) (x : PresetResult) : (s.takeResult poll x).HireDocks := by
  unfold State.takeResult
  split
  · split
    · exact law.presetResult _ _
    · exact law
  · exact law

theorem State.HireDocks.rackAnswer (law : s.HireDocks) (racks : s.racksOk) (a : RackAnswer) : (s.rackAnswer a).HireDocks := by
  unfold State.rackAnswer
  split
  · rename_i poll asked
    split
    · rename_i answers
      have started := racks.answered asked answers.2
      have only : s.onlyIn [.racks, .bus, .presets] ((s.endPoll.setRack poll.rack { state := .online, unanswered := 0 }).updPresets poll.rack
          (fun x => if x.sent then none else some x)) :=
        (((State.endPoll_only s).sub (by decide)).next (State.setRack_only _ _ _) (by decide)).next (State.updPresets_only _ _ _) (by decide)
      have freed : ((s.endPoll.setRack poll.rack { state := .online, unanswered := 0 }).updPresets poll.rack
          (fun x => if x.sent then none else some x)).racksOnline poll.rack :=
        started.stays ((State.samePlaces_refl _).frame (State.updPresets_only _ _ _) (by decide)).stays (State.updPresets_only _ _ _) (by decide)
      have changed := State.each_induct (P := fun t => t.HireDocks ∧ t.racksOnline poll.rack) (l := a.changes) (f := State.takeChange poll.rack)
        (fun _ c _ ht => ⟨ht.1.takeChange ht.2 c, ht.2.takeChange c⟩) ⟨law.frame only (by decide), freed⟩
      have reported := State.each_induct (P := State.HireDocks) (l := a.reports) (f := State.takeReport poll.rack)
        (fun _ c _ ht => ht.takeReport _ c) changed.1
      exact State.each_induct (P := State.HireDocks) (l := a.results) (f := State.takeResult poll) (fun _ c _ ht => ht.takeResult poll c) reported
    · exact law
  · exact law

theorem State.HireDocks.inventoryAnswer (law : s.HireDocks) (inv : Inventory) : (s.inventoryAnswer inv).HireDocks := by
  unfold State.inventoryAnswer
  split
  · rename_i poll _
    refine keeps_ite (P := State.HireDocks) ?_ law
    have started : s.onlyIn [.bus, .presets] (s.endPoll.updPresets poll.rack (fun x => if x.sent then none else some x)) :=
      ((State.endPoll_only s).sub (by decide)).next (State.updPresets_only _ _ _) (by decide)
    have reconciled := State.each_induct (P := State.HireDocks) (l := List.finRange 40)
      (f := fun s k => s.reconcile (posIndex poll.rack k) inv[k]) (fun _ _ _ ht => ht.reconcile _ _) (law.frame started (by decide))
    have online := reconciled.frame (State.setRack_only _ poll.rack { state := .online, unanswered := 0 }) (by decide)
    exact keeps_ite (P := State.HireDocks) (online.frame (State.raise_only _ _) (by decide)) online
  · exact law

theorem State.HireDocks.answerExpiry (law : s.HireDocks) : s.answerExpiry.HireDocks := by
  unfold State.answerExpiry
  split
  · rename_i poll _
    refine keeps_ite (P := State.HireDocks) ?_ law
    have ended : s.onlyIn [.bus, .presets] (s.endPoll.updPresets poll.rack (fun x => some { x with sent := false })) :=
      ((State.endPoll_only s).sub (by decide)).next (State.updPresets_only _ _ _) (by decide)
    have waiting := law.frame ended (by decide)
    exact keeps_ite (P := State.HireDocks) waiting (keeps_ite (P := State.HireDocks) (waiting.rackFault _)
      (waiting.frame (State.setRack_only _ _ _) (by decide)))
  · exact law

end

end Sys2Proof.Machine
end

section
/-!
SUPPORT. The docks' law through the orders and every command (O58).
-/
namespace Sys2Proof.Machine

section
variable {s t : State}

/-! ## Orders -/

theorem State.sameDocks_apart {l : List StateField} (only : s.onlyIn l t) (apart : ∀ f ∈ [StateField.positions, .receivers], f ∉ l) :
    s.sameDocks t := s.sameDocks_refl.frame only apart

theorem State.HireDocks.cancel (law : s.HireDocks) (n : SlotId) : (workCancel s n).1.DocksHold := by
  unfold workCancel
  split
  · split
    · rename_i u found
      have owned : u.owner ∈ s.owners := List.mem_map_of_mem (List.mem_of_find?_eq_some found)
      dsimp only
      cases own : u.owner with
      | issue h => exact (law.endReservation (law.hires.lists.issues h (own ▸ owned)) _ _).docks
      | handover c => exact law.docks.frame (s.cancelHandover_only c) (by decide)
    · split
      · exact State.DocksHold.frame (law.docks.frame (State.orders_only s _) (by decide)) (State.complete_only _ _ _) (by decide)
      · exact law.docks
  · exact law.docks

theorem State.DocksHold.setPolicy (law : s.DocksHold) (n : SlotId) : (workSetLogPolicy s n).1.DocksHold := by
  have set (p : LogPolicy) : (({ s with log := { s.log with policy := p } } : State).bumpHeader).DocksHold :=
    (law.frame (State.log_only s { s.log with policy := p }) (by decide)).frame (State.bumpHeader_only _) (by decide)
  unfold workSetLogPolicy
  split
  · split
    · exact law
    · exact keeps_ite (P := State.DocksHold) ((set _).same (State.drain_sameDocks _)) (set _)
  · exact law

theorem State.issue_sameDocks {p : IssueParams} {h : HireId} {e : RecvId}
    (desk : (s.receiver e).state = .docked ∨ (s.receiver e).state = .adrift) (n : SlotId) : s.sameDocks (s.issue n p h e).1 := by
  have created (x : Hire) (f : Receiver → Receiver) (like : (f (s.receiver x.receiver)).dockedAs (s.receiver x.receiver)) :
      s.sameDocks ((s.createHire h x).writeReceiver x.receiver f) :=
    (State.sameDocks_apart (State.createHire_only s h x) (by decide)).trans (State.writeReceiver_sameDocks (s.createHire h x) _ like)
  unfold State.issue
  dsimp only
  split
  · rename_i adrift
    have adrift : (s.receiver e).state = .adrift := adrift
    refine fst_keeps (P := s.sameDocks) (created _ _ ⟨rfl, ?_, ?_⟩)
    · exact (congrArg RecvState.atDock adrift).symm
    · exact iff_of_false (fun e => nomatch e) fun retired => nomatch adrift.symm.trans retired
  · rename_i other
    have docked : (s.receiver e).state = .docked := desk.resolve_right other
    refine State.sameDocks.frame ?_ (State.makeStanding_only _ _ _ _) (by decide)
    refine State.sameDocks.frame ?_ (State.requestPreset_only _ _ _) (by decide)
    refine State.sameDocks.trans (created _ _ ⟨rfl, ?_, ?_⟩) (State.relampHolder_sameDocks _ _)
    · exact (congrArg RecvState.atDock docked).symm
    · exact iff_of_false (fun e => nomatch e) fun retired => nomatch docked.symm.trans retired

theorem State.DocksHold.issue (law : s.DocksHold) (n : SlotId) : (workIssue s n).1.DocksHold := by
  unfold workIssue
  split
  · exact law
  · dsimp only
    repeat' split
    case h_3 _ _ _ found => exact law.same (State.issue_sameDocks (State.issueReceiver_state found) n)
    all_goals exact law

theorem State.HireDocks.workLost (law : s.HireDocks) (n : SlotId) : (workDeclareLost s n).1.DocksHold := by
  have lost (h : HireId) (opened : (s.hire h).state = .opened) : s.sameDocks (s.declareLost h) := by
    obtain ⟨out, -⟩ := law.hires.entries.opened h opened
    unfold State.declareLost
    extract_lets r s1
    have like : s.sameDocks s1 := s.writeReceiver_sameDocks (s.hire h).receiver (f := fun e => { e with
        state := .lost, hire := none, lostHire := r.number, foundBy := .nobody, counted := none }) ⟨rfl, ?_, ?_⟩
    · refine like.trans (State.closeHire_sameDocks (fun k reserving => ?_) _ _)
      rw [(like.entries _).docked]
      exact law.hires.bookedAtDock k reserving
    · rcases out with e | e <;> exact (congrArg RecvState.atDock e).symm
    · exact iff_of_false (fun e => nomatch e) fun retired => by rcases out with e | e <;> exact nomatch e.symm.trans retired
  unfold workDeclareLost
  dsimp only
  split
  · exact law.docks
  · split
    · exact law.docks
    · split
      · exact law.docks
      · rename_i h _ opened
        exact fst_keeps (P := State.DocksHold) (law.docks.same (lost h (not_not.mp opened)))

/-- An entry retired or restored (R116, R117). -/
theorem State.DocksHold.restate (law : s.DocksHold) {e : RecvId} {x : RecvState}
    (held : (∃ p, (s.position p).entry = some e) → x.atDock = true ∨ x = .retired)
    (docked : x.atDock = true → ∃ p, (s.position p).entry = some e) :
    ((s.writeReceiver e (fun r => { r with state := x })).relampHolder e).DocksHold := by
  refine State.DocksHold.same ?_ (State.relampHolder_sameDocks _ e)
  have entry (d : RecvId) : (s.writeReceiver e (fun r => { r with state := x })).receiver d
      = if d = e then ({ s.receiver e with state := x } : Receiver).bump else s.receiver d := State.receiver_writeReceiver s e d _
  have serial (d : RecvId) : ((s.writeReceiver e (fun r => { r with state := x })).receiver d).serial = (s.receiver d).serial := by
    rw [entry]
    split
    · rename_i own
      rw [own]
      rfl
    · rfl
  refine ⟨fun d f => ?_, law.once, fun p d h => ?_, fun d at' => ?_, law.empty, law.settling⟩
  · rw [serial, serial]
    exact law.serial d f
  · rw [entry]
    split
    · rename_i own
      exact held ⟨p, own ▸ h⟩
    · exact law.held p d h
  · rw [entry] at at'
    split at at'
    · rename_i own
      exact own ▸ docked at'
    · exact law.docked d at'

theorem State.DocksHold.retire (law : s.DocksHold) (n : SlotId) : (workRetireReceiver s n).1.DocksHold := by
  unfold workRetireReceiver
  split
  · exact law
  · split
    · exact law
    · dsimp only
      split
      · exact law
      · exact law.restate (fun _ => .inr rfl) fun e => nomatch e

theorem State.DocksHold.restore (law : s.DocksHold) (n : SlotId) : (workRestoreReceiver s n).1.DocksHold := by
  unfold workRestoreReceiver
  split
  · exact law
  · split
    · exact law
    · rename_i e _
      dsimp only
      split
      · exact law
      · cases holds : s.posHolding e with
        | none => exact law.restate (fun ⟨p, h⟩ => absurd h (State.posHolding_none.mp holds p)) fun e => nomatch e
        | some p => exact law.restate (fun _ => .inl rfl) fun _ => ⟨p, State.posHolding_some holds⟩

/-- The work of any order keeps the docks' law beside the hire law. -/
theorem OrderWork.docksHold {k : Nat} {w : Work} (h : OrderWork k w) (law : s.HireDocks) (n : SlotId) : (w s n).1.DocksHold := by
  have framed (apart : ∀ f ∈ [StateField.positions, .receivers], f ∉ kindTouches k) : (w s n).1.DocksHold := law.docks.frame (h.only s n) apart
  have places (apart : StateField.receivers ∉ kindTouches k) : (w s n).1.DocksHold :=
    law.docks.same (State.sameDocks_of_places (h.samePlaces s n) (h.only s n) apart)
  cases h with
  | setLogPolicy => exact law.docks.setPolicy n
  | cancel => exact law.cancel n
  | issue => exact law.docks.issue n
  | declareLost => exact law.workLost n
  | retireReceiver => exact law.docks.retire n
  | restoreReceiver => exact law.docks.restore n
  | unknown => exact law.docks
  | setTimers | clearDocks | clearLinks => exact places (by decide)
  | setNotice | setClock | boothDefine | linkHold | linkRelease | boothIntake | seatAssign | channelDefine
  | channelClear | handover | setDistribution | setTariff | accountOpen | accountPay | accountRefund | accountClose => exact framed (by decide)

/-! ## Restarts, beacons and the census -/

theorem State.HireDocks.takeSlot (law : s.HireDocks) (n : SlotId) (rest : List SlotId) : (s.takeSlot n rest).HireDocks :=
  ⟨law.hires.takeSlot n rest, law.docks.frame (s.takeSlot_only n rest) (by decide)⟩

theorem State.HireDocks.restart (law : s.HireDocks) (v : Half) (e : ByteEnables) (w : Bool) : (s.restart v e w).DocksHold := by
  refine keeps_ite (P := State.DocksHold) ?_ law.docks
  have aborted (u : State) (x : Option (SlotId × Result)) (hu : u.DocksHold) : (u.enterRestarting.abortOrders x).DocksHold :=
    (hu.frame (State.enterRestarting_only u) (by decide)).frame (State.abortOrders_only _ x) (by decide)
  cases w with
  | false => exact aborted s none law.docks
  | true =>
    have finished : s.finishWorking.1.DocksHold := by
      unfold State.finishWorking
      split
      · exact law.docks
      · exact (orderWork_kind s _).docksHold (law.takeSlot _ _) _
    exact aborted _ _ finished

/-- Zero entries and EMPTY positions have the law. -/
theorem State.docksHold_of_zero (entries : ∀ e, ∃ x : Half, t.receiver e = { Receiver.zero with changes := x })
    (places : ∀ p, ∃ x : Half, t.position p = { Position.initial with changes := x }) : t.DocksHold := by
  refine (State.docksHold_iff.mpr State.reset_docksOk).same ⟨fun p => ?_, fun e => ?_⟩
  · obtain ⟨x, same⟩ := places p
    rw [same, State.reset_position]
    exact ⟨rfl, rfl⟩
  · obtain ⟨x, same⟩ := entries e
    rw [same, State.reset_receiver]
    exact Receiver.dockedAs_of_state rfl rfl

theorem State.DocksHold.completeStartup (law : s.DocksHold) : s.completeStartup.DocksHold := by
  refine keeps_ite (P := State.DocksHold) ?_ law
  refine State.DocksHold.frame ?_ (State.becomeReady_only _) (by decide)
  refine State.docksHold_of_zero (fun e => ⟨0, ?_⟩) (fun p => ⟨0, ?_⟩)
  · exact State.reset_receiver e
  · exact State.reset_position p

theorem State.DocksHold.completeRestart (law : s.DocksHold) : s.completeRestart.DocksHold := by
  refine keeps_ite (P := State.DocksHold) ?_ law
  refine State.DocksHold.frame ?_ (State.becomeReady_only _) (by decide)
  refine State.docksHold_of_zero (fun e => ⟨(s.restartTally.loseWaiting.receiver e).changes + 2, ?_⟩)
    (fun p => ⟨(s.restartTally.loseWaiting.position p).changes + 2, ?_⟩)
  · show (s.restartTally.loseWaiting.receivers.map _)[e] = _
    rw [Fin.getElem_fin, Vector.getElem_map]
    rfl
  · show (s.restartTally.loseWaiting.positions.map _)[p] = _
    rw [Fin.getElem_fin, Vector.getElem_map]
    rfl

theorem Receiver.heardFrom_dockedAs (r : Receiver) (m : HubMessage) (k : Nat) (w : Bool) : (r.heardFrom m k w).dockedAs r := by
  have state : (r.heardFrom m k w).state = if r.state = .silent then .onHire else r.state := rfl
  by_cases silent : r.state = .silent
  · rw [if_pos silent] at state
    exact ⟨rfl, by rw [state, silent]; rfl, by rw [state, silent]; exact iff_of_false (fun e => nomatch e) fun e => nomatch e⟩
  · exact Receiver.dockedAs_of_state rfl (state.trans (if_neg silent))

theorem State.beacon_sameDocks (s : State) (m : HubMessage) : s.sameDocks (s.beacon m) := by
  have counted (f : BeaconCounts → BeaconCounts) : s.sameDocks (s.countBeacon f) := State.sameDocks_apart (State.countBeacon_only s f) (by decide)
  have stray (d : Bool) : s.sameDocks (s.stray d) :=
    keeps_ite (P := s.sameDocks) ((counted _).frame (State.raise_only _ _) (by decide)) (counted _)
  have accepted (e : RecvId) : s.sameDocks (s.acceptBeacon e m) := by
    unfold State.acceptBeacon
    extract_lets r s1 s2
    have h2 : s.sameDocks s2 := (counted _).trans (State.writeReceiver_sameDocks s1 e (Receiver.heardFrom_dockedAs _ m _ _))
    exact keeps_ite (P := s.sameDocks)
      ((h2.frame (State.raise_only _ _) (by decide)).frame (State.handFound_only _ _ _ _) (by decide)) h2
  unfold State.beacon
  refine keeps_ite (P := s.sameDocks) s.sameDocks_refl (keeps_ite (P := s.sameDocks) (counted _) ?_)
  split
  · unfold State.workBeacon
    split
    case h_1 | h_2 | h_3 | h_4 => exact stray true
    all_goals exact keeps_ite (P := s.sameDocks) (counted _) (accepted _)
  · exact stray false

theorem Receiver.censused_dockedAs (k : Timers) (now : Nat) (r : Receiver) : (r.censused k now).dockedAs r := by
  have like := Receiver.censused_likeIn k now r
  refine ⟨like.serial, ?_, ?_⟩ <;> rcases like.state with same | ⟨was, is⟩
  · rw [same]
  · rcases was with e | e <;> rcases is with f | f <;> rw [e, f] <;> rfl
  · rw [same]
  · exact iff_of_false (fun e => by rcases is with f | f <;> exact nomatch f.symm.trans e)
      fun e => by rcases was with f | f <;> exact nomatch f.symm.trans e

theorem State.censusMark_sameDocks (s : State) : s.sameDocks s.censusMark := by
  have passed : s.sameDocks ({ s with clock := { s.clock with markDue := false } } : State) :=
    State.sameDocks_apart (State.clock_only s _) (by decide)
  refine keeps_ite (P := s.sameDocks) s.sameDocks_refl (keeps_ite (P := s.sameDocks) (passed.trans ?_) passed)
  generalize ({ s with clock := { s.clock with markDue := false } } : State) = u
  unfold State.workCensusMark
  extract_lets counts s1 s2
  have taken : u.sameDocks (u.takeCensus counts) := by
    unfold State.takeCensus
    extract_lets silent t1 t2
    have censused : u.sameDocks ({ u with receivers := u.receivers.map (Receiver.censused u.timers u.clock.run) } : State) := by
      refine ⟨fun _ => ⟨rfl, rfl⟩, fun e => ?_⟩
      show Receiver.dockedAs (u.receivers.map _)[e] _
      rw [Fin.getElem_fin, Vector.getElem_map]
      exact Receiver.censused_dockedAs _ _ _
    have h2 : u.sameDocks t2 := (censused.frame (State.writeListeners_only _ _) (by decide)).frame (State.countBeacon_only t1 _) (by decide)
    exact keeps_ite (P := u.sameDocks) (h2.frame (State.raise_only _ _) (by decide)) h2
  have h1 : u.sameDocks s1 := taken.frame (State.clearStranded_only _ counts) (by decide)
  have h2 : u.sameDocks s2 := keeps_ite (P := u.sameDocks) (h1.frame (State.creditMinutes_only s1) (by decide)) h1
  exact h2.frame (State.snapshot_only s2) (by decide)

/-! ## Every command -/

theorem State.HireDocks.hostWrite (law : s.HireDocks) (o : Nat) (v : Half) (e : ByteEnables) : (s.hostWrite o v e).DocksHold := by
  have guard : s.guardHit.DocksHold := law.docks.frame (State.guardHit_only s) (by decide)
  have written (m : Memory) : ({ s with mem := m } : State).DocksHold := law.docks.frame (State.mem_only s m) (by decide)
  refine keeps_ite (P := State.DocksHold) law.docks (keeps_ite (P := State.DocksHold) ?_ (keeps_ite (P := State.DocksHold) (written _) ?_))
  · exact keeps_ite (P := State.DocksHold)
      (keeps_ite (P := State.DocksHold) law.docks ((written _).same (State.drain_sameDocks _))) guard
  · split
    · exact law.docks.frame (State.writeSlot_only s _ _ v e) (by decide)
    · exact guard

theorem State.HireDocks.run (s : State) (i : Instr) (racks : s.racksOk) (law : s.HireDocks) : (s.run i).HireDocks := by
  refine ⟨State.HiresHold.run s i law.hires, ?_⟩
  have framed (apart : ∀ f ∈ [StateField.positions, .receivers], f ∉ commandTouches i) : (s.run i).DocksHold :=
    law.docks.frame (s.run_only i) apart
  cases i with
  | startupComplete => exact law.docks.completeStartup
  | softRestartComplete => exact law.docks.completeRestart
  | exchangeWrite a v e => exact law.hostWrite _ v e
  | holderWordWrite n v e => exact law.hostWrite _ v e
  | logReadCountWrite v e => exact law.hostWrite _ v e
  | restart v e w => exact law.restart v e w
  | ignoredRegisterWrite a v e =>
    exact portWrite_keeps (P := State.DocksHold) a v e (law.docks.frame (s.post_only v e) (by decide))
      (law.docks.frame (s.clearPending_only v e) (by decide)) (law.docks.frame (s.setEnabled_only v e) (by decide)) (law.restart v e false)
      law.docks
  | rackAnswer a => exact (law.rackAnswer racks a).docks
  | inventoryAnswer inv => exact (law.inventoryAnswer inv).docks
  | answerWindowExpiry => exact law.answerExpiry.docks
  | settleDeadlineExpiry p => exact (keeps_ite (P := State.HireDocks) (law.removal p _ _) law).docks
  | reserveDeadlineExpiry h =>
    show (s.reserveExpiry h).DocksHold
    unfold State.reserveExpiry
    dsimp only
    split
    · rename_i due
      exact keeps_ite (P := State.DocksHold) (law.docks.frame (State.writeHire_only s h _) (by decide)) (law.endReservation due.2.1 _ _).docks
    · exact law.docks
  | beacon m => exact law.docks.same (s.beacon_sameDocks m)
  | censusMark => exact law.docks.same s.censusMark_sameDocks
  | unknownOrder | setNotice | setTimers | setLogPolicy | cancel | clearCountsLinks | clearCountsDocks | setClock | boothDefine | linkHold
  | linkRelease | boothIntake | seatAssign | channelDefine | channelClear | handover | setDistribution | issue | declareLost
  | retireReceiver | restoreReceiver | setTariff | accountOpen | accountPay | accountRefund | accountClose =>
    refine (order_keeps (P := State.HireDocks) (by decide) (fun k w hw u n rest _ _ hu => ?_) law).docks
    have worked : (w (u.takeSlot n rest) n).1.HireDocks := ⟨hw.hiresHold (hu.takeSlot n rest).hires n, hw.docksHold (hu.takeSlot n rest) n⟩
    exact worked.frame (finishOrder_only n _) (by decide)
  | _ => exact framed (by dsimp only [commandTouches]; decide)

end

/-- Settles O58. -/
theorem stepsKeepTheDockLaw : Obligations.StepsKeepTheDockLaw := fun s t step racks => by
  refine ⟨racksOk_reads.step (by decide) State.racksOk.run step racks, fun hires docks => ?_⟩
  have reads : Reads (fun u => u.racksOk ∧ u.HireDocks) [.orders, .log, .channels, .receivers, .hires, .positions, .racks, .bus] :=
    fun u v same law => ⟨racksOk_reads u v (fun f hf => same f (by revert f; decide)) law.1,
      hireDocks_reads u v (fun f hf => same f (by revert f; decide)) law.2⟩
  have law := reads.step (by decide) (fun u i hu => ⟨State.racksOk.run u i hu.1, State.HireDocks.run u i hu.1 hu.2⟩) step
    ⟨racks, State.hiresHold_iff.mpr hires, State.docksHold_iff.mpr docks⟩
  exact State.docksHold_iff.mp law.2.docks

end Sys2Proof.Machine
end

section
/-!
SUPPORT. Removals that take effect, said field by field (R112, R114, R126), and the dock's two deadlines (R109, R127, O44).
-/
namespace Sys2Proof.Machine

section
variable {s t : State} {p : PosId} {e : RecvId} {h : HireId}

/-! ## A standing ISSUE that ends -/

/-- The values of an ISSUE's result name the hire's number and entry, and the entry's serial and preset (R122). -/
theorem State.issueValues_of (number : (t.hire h).number = (s.hire h).number) (receiver : (t.hire h).receiver = (s.hire h).receiver)
    (serial : ∀ e, (t.receiver e).serial = (s.receiver e).serial) (preset : ∀ e, (t.receiver e).preset = (s.receiver e).preset) :
    t.issueValues h = s.issueValues h := by
  have values (u : State) : u.issueValues h = leBytes 4 (u.hire h).number.toNat ++ leBytes 2 h.val
    ++ leBytes 3 (u.receiver (u.hire h).receiver).serial.toNat ++ leBytes 1 (u.receiver (u.hire h).receiver).preset.val
    ++ leBytes 2 (u.hire h).receiver.val := rfl
  rw [values, values, number, receiver, serial, preset]

theorem State.opened_issueValues (k : Nat) : (s.opened h e k).issueValues h = s.issueValues h := by
  refine State.issueValues_of ?_ ?_ (fun d => ?_) (fun d => ?_)
  · rw [State.opened_hire, if_pos rfl]
    rfl
  · rw [State.opened_hire, if_pos rfl]
    rfl
  all_goals
    rw [State.opened_receiver]
    split
    · rename_i own
      rw [own]
      rfl
    · rfl

/-- A reservation that opens: its hire, its entry, and its order DONE (R126). -/
theorem State.openHire_facts (named : (s.receiver e).hire = some h) (k : Nat) :
    (s.openHire e k).hire h = ((s.hire h).begun k (s.clock.stamp k)).bump
      ∧ (s.openHire e k).receiver e = ((s.receiver e).goneOut k).bump
      ∧ ∀ x : Standing, s.standingOf (.issue h) = some x → s.memOk →
        (s.openHire e k).orders.standing = s.orders.standing.filter (fun y => y.slot ≠ x.slot)
          ∧ (s.openHire e k).mem.answers s.mem x.slot
            { code := .done, reason := .noReason, clamped := x.clamped, already := false, values := s.issueValues h } := by
  rw [State.openHire_of named]
  have same := (s.opened h e k).endOwner_same (.issue h) ((s.opened h e k).issueResult h .done .noReason)
  refine ⟨?_, ?_, fun x standing law => ?_⟩
  · rw [same]
    exact (State.opened_hire (e := e) k h).trans (if_pos rfl)
  · rw [same]
    exact (State.opened_receiver k e).trans (if_pos rfl)
  · have standing : (s.opened h e k).standingOf (.issue h) = some x := standing
    rw [State.endOwner_of_some standing]
    obtain ⟨ended, answers⟩ := (s.opened h e k).endStanding_facts x ((s.opened h e k).issueResult h .done .noReason)
    refine ⟨?_, ?_⟩
    · rw [ended]
      rfl
    · rw [← State.opened_issueValues (s := s) (e := e) k]
      exact answers law

/-! ## Removals -/

/-- The vacated position and its presets, of a removal that takes effect. -/
theorem State.removal_position (s : State) (p : PosId) (k : Nat) (keep : Bool) (q : PosId) :
    (s.removal p k keep).position q = if q = p then ((s.position p).vacated keep).bump else s.position q :=
  (congrArg (fun v : Vector Position _ => v[q]) (s.vacated_removal_only p k keep .positions (by decide))).trans (s.vacated_position p keep q)

theorem State.removal_preset (s : State) (p : PosId) (k : Nat) (keep : Bool) (q : PosId) :
    (s.removal p k keep).presets.get q = if q = p then (s.presets.get p).filter (fun x => x.sent) else s.presets.get q := by
  have same : (s.removal p k keep).presets = (s.vacated p keep).presets := s.vacated_removal_only p k keep .presets (by decide)
  rw [same]
  exact State.preset_setPreset (s.writePosition p _) p q _

/-- What a removal takes out, by the state of its entry (R112, R126). -/
theorem State.removal_takenOut (held : (s.position p).entry = some e) (k : Nat) (keep : Bool) : s.takenOut (s.removal p k keep) e k := by
  have same := s.vacated_receiver p keep
  have hire (i : HireId) : (s.vacated p keep).hire i = s.hire i :=
    congrArg (fun v : Vector Hire _ => v[i]) (s.vacated_only p keep .hires (by decide))
  have written (f : Receiver → Receiver) : ((s.vacated p keep).writeReceiver e f).receiver e = (f (s.receiver e)).bump := by
    rw [State.receiver_writeReceiver, if_pos rfl, same]
  have raised (u : State) : (u.raise .dock).receiver e = u.receiver e :=
    congrArg (fun v : Vector Receiver _ => v[e]) (u.raise_only .dock .receivers (by decide))
  unfold State.removal
  extract_lets pos s1
  have own : s1 = s.vacated p keep := rfl
  rw [own]
  split
  · rename_i none
    exact nomatch held.symm.trans none
  · rename_i e' held'
    obtain rfl : e' = e := Option.some.inj (held'.symm.trans held)
    split
    · rename_i docked
      have docked : (s.receiver e').state = .docked := docked
      refine ⟨fun _ => ⟨(raised _).trans (written _), State.raise_isPending _ _, rfl⟩, fun _ reserved => ?_, fun retired => ?_⟩
      · exact nomatch docked.symm.trans reserved
      · exact nomatch docked.symm.trans retired
    · rename_i reserved
      have reserved : (s.receiver e').state = .reserved := reserved
      refine ⟨fun docked => (nomatch reserved.symm.trans docked), fun h _ named => ?_, fun retired => (nomatch reserved.symm.trans retired)⟩
      obtain ⟨opened, out, done⟩ := State.openHire_facts (s := s.vacated p keep) (e := e') (h := h)
        ((congrArg Receiver.hire (same e')).trans named) k
      have values : (s.vacated p keep).issueValues h = s.issueValues h :=
        State.issueValues_of (congrArg Hire.number (hire h)) (congrArg Hire.receiver (hire h)) (fun d => congrArg Receiver.serial (same d))
          (fun d => congrArg Receiver.preset (same d))
      rw [hire] at opened
      rw [same] at out
      rw [values] at done
      refine ⟨opened, out, fun x standing law => ?_⟩
      obtain ⟨left, answers⟩ := done x standing law
      exact ⟨left, answers.1⟩
    · rename_i retired
      have retired : (s.receiver e').state = .retired := retired
      refine ⟨fun docked => (nomatch retired.symm.trans docked), fun h reserved => (nomatch retired.symm.trans reserved), fun _ => written _⟩
    all_goals
      rename_i state
      have state : (s.receiver e').state = _ := state
      exact ⟨fun docked => (nomatch state.symm.trans docked), fun h reserved => (nomatch state.symm.trans reserved),
        fun retired => (nomatch state.symm.trans retired)⟩

/-- A removal that takes effect (R112, R114). -/
theorem State.removal_removed (s : State) (p : PosId) (k : Nat) (keep : Bool) : s.removed (s.removal p k keep) p k keep := by
  refine ⟨?_, ?_, fun q other => (s.removal_position p k keep q).trans (if_neg other), s.removal_preset p k keep,
    fun e held => State.removal_takenOut held k keep, fun none => ?_⟩
  · refine (s.removal_only p k keep).eq (u := { s with
      mem := (s.removal p k keep).mem, orders := (s.removal p k keep).orders, notices := (s.removal p k keep).notices
      positions := (s.removal p k keep).positions, presets := (s.removal p k keep).presets, receivers := (s.removal p k keep).receivers
      hires := (s.removal p k keep).hires }) (fun f hf => ?_) fun f hf => ?_
    · cases f <;> first | rfl | exact absurd (by decide) hf
    · revert f
      exact List.forall_mem_cons.mpr ⟨rfl, List.forall_mem_cons.mpr ⟨rfl, List.forall_mem_cons.mpr ⟨rfl, List.forall_mem_cons.mpr ⟨rfl,
        List.forall_mem_cons.mpr ⟨rfl, List.forall_mem_cons.mpr ⟨rfl, List.forall_mem_singleton.mpr rfl⟩⟩⟩⟩⟩⟩
  · rw [State.removal_position, if_pos rfl]
    unfold Position.vacated Position.bump
    simp only [Bool.and_eq_true, beq_iff_eq]
    rfl
  · unfold State.removal
    extract_lets pos s1
    have empty : pos.entry = .none := none
    rw [empty]
    exact ⟨rfl, rfl, rfl⟩

/-! ## Deadlines -/

theorem State.exec_settleExpiry (p : PosId) (s : State) : exec (.settleDeadlineExpiry p) s = .next (s.settleExpiry p) := by
  rfl

theorem State.exec_reserveExpiry (h : HireId) (s : State) : exec (.reserveDeadlineExpiry h) s = .next (s.reserveExpiry h) := by
  rfl

theorem State.settleExpiry_early (early : s.part ≠ .ready ∨ (s.position p).state ≠ .settlingOut ∨ s.clock.run < (s.position p).settleDeadline) :
    s.settleExpiry p = s := if_neg fun ⟨ready, settling, due⟩ => by
  have due : (s.position p).settleDeadline ≤ s.clock.run := due
  rcases early with part | state | soon
  · exact part ready
  · exact state settling
  · omega

theorem State.reserveExpiry_early (early : s.part ≠ .ready ∨ (s.hire h).state ≠ .reserving ∨ (s.hire h).passed = true
    ∨ s.clock.run < (s.hire h).deadline) : s.reserveExpiry h = s := if_neg fun ⟨ready, reserving, open', due⟩ => by
  have due : (s.hire h).deadline ≤ s.clock.run := due
  rcases early with part | state | passed | soon
  · exact part ready
  · exact state reserving
  · exact nomatch passed.symm.trans open'
  · omega

/-- A reservation that ends, field by field (R125). -/
theorem State.endReservation_facts (s : State) (h : HireId) (code : ResultCode) (reason : Reason) {t : State}
    (ht : t = s.endReservation h code reason) : t.hire h = ({ s.hire h with state := .free } : Hire).bump
      ∧ t.receiver (s.hire h).receiver = ({ s.receiver (s.hire h).receiver with state := .docked, hire := none } : Receiver).bump
      ∧ (t.account (s.hire h).account).holds = (s.account (s.hire h).account).holds - (s.hire h).hold
      ∧ (t.account (s.hire h).account).count = (s.account (s.hire h).account).count - 1
      ∧ ∀ x : Standing, s.standingOf (.issue h) = some x → s.memOk → t.orders.standing = s.orders.standing.filter (fun y => y.slot ≠ x.slot)
        ∧ t.mem.answers s.mem x.slot { code := code, reason := reason, clamped := x.clamped, already := false, values := s.issueValues h } := by
  subst ht
  have same := s.endReservation_same h code reason
  have values : (s.released h).issueValues h = s.issueValues h := by
    refine State.issueValues_of ?_ ?_ (fun d => ?_) (fun d => ?_)
    · rw [State.released_hire, if_pos rfl]
      rfl
    · rw [State.released_hire, if_pos rfl]
      rfl
    all_goals
      rw [State.released_receiver]
      split
      · rename_i own
        rw [own]
        rfl
      · rfl
  refine ⟨?_, ?_, ?_, ?_, fun x standing law => ?_⟩
  · rw [show (s.endReservation h code reason).hire h = (s.released h).hire h by rw [same], State.released_hire, if_pos rfl]
  · rw [show (s.endReservation h code reason).receiver (s.hire h).receiver = (s.released h).receiver (s.hire h).receiver by rw [same],
      State.released_receiver, if_pos rfl]
  · rw [State.endReservation_account, if_pos rfl]
    split
    · rename_i still
      exact (congrArg Account.holds still).symm
    · rfl
  · rw [State.endReservation_account, if_pos rfl]
    split
    · rename_i still
      exact (congrArg Account.count still).symm
    · rfl
  · obtain ⟨left, ended⟩ := State.dropReservation_standing standing code reason
    rw [show (s.endReservation h code reason).orders = (s.dropReservation h code reason).orders by rw [same],
      show (s.endReservation h code reason).mem = (s.dropReservation h code reason).mem by rw [same], left, ← values]
    exact ⟨rfl, (ended law).2⟩

/-- Settles O44. -/
theorem dockAndReserveDeadlines : Obligations.DockAndReserveDeadlines := by
  refine ⟨fun s p early => ?_, fun s p e ready settling due _ => ⟨s.settleExpiry p, rfl, ?_⟩, fun s h early => ?_,
    fun s h ready reserving clear due settling => ?_, fun s h ready reserving clear due settled => ⟨s.reserveExpiry h, rfl, ?_⟩⟩
  · rw [State.exec_settleExpiry, State.settleExpiry_early early]
  · rw [show s.settleExpiry p = s.removal p (s.position p).rawRemoval false from if_pos ⟨ready, settling, due⟩]
    exact s.removal_removed p _ false
  · rw [State.exec_reserveExpiry, State.reserveExpiry_early early]
  · rw [State.exec_reserveExpiry]
    exact congrArg _ ((if_pos ⟨ready, reserving, clear, due⟩).trans (if_pos settling))
  · have ended : s.reserveExpiry h = s.endReservation h .expired .noReason :=
      (if_pos ⟨ready, reserving, clear, due⟩).trans (if_neg (Bool.eq_false_iff.mp settled))
    rw [ended]
    have only := s.endReservation_only h .expired .noReason
    obtain ⟨hire, receiver, holds, count, standing⟩ := s.endReservation_facts h .expired .noReason rfl
    exact ⟨hire, receiver, holds, count, standing, only .log (by decide), only .clock (by decide), only .booths (by decide), only .channels (by decide)⟩

end

end Sys2Proof.Machine
end

section
/-!
SUPPORT. Reservations that end one after another (R106, R125, R130): what a list of them leaves of hires, entries, accounts and orders.
-/
namespace Sys2Proof.Machine

/-- The standing ISSUEs of the hires in `l` have ended with a code and a reason; no other order has. -/
structure State.IssuesEnd (s t : State) (l : List HireId) (code : ResultCode) (reason : Reason) : Prop where
  slots : t.slotsOk
  fewer : t.orders.standing.Sublist s.orders.standing
  others : ∀ o, (∀ h ∈ l, o ≠ .issue h) → t.standingOf o = s.standingOf o
  mem : ∀ a, (∀ y ∈ s.orders.standing, ∀ h ∈ l, y.owner = .issue h → ¬ resultByte y.slot a) → t.mem.read8 a = s.mem.read8 a
  results : ∀ h ∈ l, ∀ y : Standing, s.standingOf (.issue h) = some y → y ∉ t.orders.standing ∧ t.mem.shows y.slot
    { code := code, reason := reason, clamped := y.clamped, already := false, values := s.issueValues h }

/-- What a hire of the list `l` that is on account `a` holds in all. -/
def State.holdsOf (s : State) (l : List HireId) (a : AcctId) : Nat :=
  ((l.filter (fun h => (s.hire h).account == a)).map (fun h => (s.hire h).hold)).sum

/-- How many of the hires of the list `l` are on account `a`. -/
def State.countOf (s : State) (l : List HireId) (a : AcctId) : Nat := (l.filter (fun h => (s.hire h).account == a)).length

/-- The reservations in `l` have ended (R125). -/
structure State.Dropped (s t : State) (l : List HireId) (code : ResultCode) (reason : Reason) : Prop where
  hires : ∀ k, t.hire k = if k ∈ l then ({ s.hire k with state := .free } : Hire).bump else s.hire k
  away : ∀ e, (∀ h ∈ l, (s.hire h).receiver ≠ e) → t.receiver e = s.receiver e
  docked : ∀ h ∈ l, t.receiver (s.hire h).receiver
    = ({ s.receiver (s.hire h).receiver with state := .docked, hire := none } : Receiver).bump
  accounts : ∀ a, ∃ k : Half, t.account a = { s.account a with
    changes := k, holds := (s.account a).holds - s.holdsOf l a, count := (s.account a).count - s.countOf l a }
  orders : s.slotsOk → s.IssuesEnd t l code reason

section
variable {s t u : State} {h : HireId} {l : List HireId} {code : ResultCode} {reason : Reason}

theorem State.dropped_nil (s : State) (code : ResultCode) (reason : Reason) : s.Dropped s [] code reason where
  hires _ := (if_neg List.not_mem_nil).symm
  away _ _ := rfl
  docked _ m := nomatch m
  accounts a := ⟨(s.account a).changes, rfl⟩
  orders law := ⟨law, List.Sublist.refl _, fun _ _ => rfl, fun _ _ => rfl, fun _ m => nomatch m⟩

/-- What is left of the standing list when the order in one slot has gone. -/
theorem find?_filter_slot {l : List Standing} {o : StandingOwner} {n : SlotId} (apart : ∀ y ∈ l, y.slot = n → y.owner ≠ o) :
    (l.filter (fun y => y.slot ≠ n)).find? (fun y => y.owner = o) = l.find? (fun y => y.owner = o) := by
  rw [List.find?_filter]
  refine List.find?_congr fun y hy => ?_
  by_cases own : y.slot = n
  · simp [own, apart y hy own]
  · simp [own]

/-- The standing ISSUE of one reservation ends. -/
theorem State.issuesEnd_one (law : s.slotsOk) (slots : t.slotsOk) (none : s.standingOf (.issue h) = none → t.orders = s.orders ∧ t.mem = s.mem)
    (some : ∀ y, s.standingOf (.issue h) = some y → t.orders.standing = s.orders.standing.filter (fun z => z.slot ≠ y.slot)
      ∧ t.mem.answers s.mem y.slot { code := code, reason := reason, clamped := y.clamped, already := false, values := s.issueValues h }) :
    s.IssuesEnd t [h] code reason := by
  have only (o : StandingOwner) (other : ∀ k ∈ [h], o ≠ .issue k) : o ≠ .issue h := other h (List.mem_singleton_self h)
  cases found : s.standingOf (.issue h) with
  | none =>
    obtain ⟨orders, mem⟩ := none found
    refine ⟨slots, orders ▸ List.Sublist.refl _, fun o _ => ?_, fun _ _ => by rw [mem], fun k m y standing => ?_⟩
    · unfold State.standingOf
      rw [orders]
    · rw [List.mem_singleton.mp m] at standing
      exact nomatch found.symm.trans standing
  | some y =>
    obtain ⟨listed, own⟩ := State.standingOf_some found
    obtain ⟨orders, answers⟩ := some y found
    have distinct := law.2.2.1
    refine ⟨slots, orders ▸ List.filter_sublist, fun o other => ?_, fun a apart => ?_, fun k m z standing => ?_⟩
    · unfold State.standingOf
      rw [orders]
      refine find?_filter_slot fun z hz same => ?_
      have zy : z = y := List.inj_on_of_nodup_map distinct hz listed same
      exact fun e => only o other (e.symm.trans ((congrArg Standing.owner zy).trans own))
    · exact answers.2 a (apart y listed h (List.mem_singleton_self h) own)
    · obtain rfl := List.mem_singleton.mp m
      obtain rfl := Option.some.inj (found.symm.trans standing)
      refine ⟨?_, answers.1⟩
      rw [orders]
      simp

theorem State.issueValues_congr (hire : t.hire h = s.hire h) (entry : t.receiver (s.hire h).receiver = s.receiver (s.hire h).receiver) :
    t.issueValues h = s.issueValues h := by
  have values (u : State) : u.issueValues h = leBytes 4 (u.hire h).number.toNat ++ leBytes 2 h.val
    ++ leBytes 3 (u.receiver (u.hire h).receiver).serial.toNat ++ leBytes 1 (u.receiver (u.hire h).receiver).preset.val
    ++ leBytes 2 (u.hire h).receiver.val := rfl
  rw [values, values, hire, entry]

/-- A reservation that ends, before others that end. -/
theorem State.Dropped.cons (first : s.Dropped u [h] code reason) (rest : u.Dropped t l code reason) (fresh : h ∉ l)
    (apart : ∀ k ∈ l, (s.hire k).receiver ≠ (s.hire h).receiver) : s.Dropped t (h :: l) code reason := by
  have hire (k : HireId) (hk : k ∈ l) : u.hire k = s.hire k := by
    rw [first.hires, if_neg fun m => fresh (by rw [← List.mem_singleton.mp m]; exact hk)]
  have entry (k : HireId) (hk : k ∈ l) : u.receiver (s.hire k).receiver = s.receiver (s.hire k).receiver := by
    refine first.away _ fun j hj => ?_
    rw [List.mem_singleton.mp hj]
    exact (apart k hk).symm
  have values (k : HireId) (hk : k ∈ l) : u.issueValues k = s.issueValues k :=
    State.issueValues_congr (hire k hk) (entry k hk)
  have onAccount (a : AcctId) : l.filter (fun k => (u.hire k).account == a) = l.filter (fun k => (s.hire k).account == a) :=
    List.filter_congr fun k hk => by rw [hire k hk]
  refine ⟨fun k => ?_, fun e other => ?_, fun k hk => ?_, fun a => ?_, fun law => ?_⟩
  · rw [rest.hires]
    by_cases later : k ∈ l
    · rw [if_pos later, if_pos (List.mem_cons_of_mem h later), hire k later]
    · rw [if_neg later, first.hires]
      by_cases own : k = h
      · rw [if_pos (own ▸ List.mem_singleton_self h), if_pos (own ▸ List.mem_cons_self ..)]
      · rw [if_neg (fun m => own (List.mem_singleton.mp m)), if_neg (fun m => (List.mem_cons.mp m).elim own later)]
  · rw [rest.away e fun k hk => by rw [hire k hk]; exact other k (List.mem_cons_of_mem h hk)]
    exact first.away e fun k hk => other k (List.mem_singleton.mp hk ▸ List.mem_cons_self ..)
  · rcases List.mem_cons.mp hk with own | later
    · rw [own, rest.away _ fun j hj => by rw [hire j hj]; exact apart j hj]
      exact first.docked h (List.mem_singleton_self h)
    · have := rest.docked k later
      rw [hire k later, entry k later] at this
      exact this
  · obtain ⟨x, one⟩ := first.accounts a
    obtain ⟨y, more⟩ := rest.accounts a
    refine ⟨y, ?_⟩
    have holds : s.holdsOf (h :: l) a = s.holdsOf [h] a + u.holdsOf l a := by
      unfold State.holdsOf
      rw [onAccount, List.filter_cons, List.filter_cons, List.filter_nil]
      have same : (l.filter (fun k => (s.hire k).account == a)).map (fun k => (u.hire k).hold)
          = (l.filter (fun k => (s.hire k).account == a)).map (fun k => (s.hire k).hold) :=
        List.map_congr_left fun k hk => by rw [hire k (List.mem_of_mem_filter hk)]
      rw [same]
      split <;> simp
    have count : s.countOf (h :: l) a = s.countOf [h] a + u.countOf l a := by
      unfold State.countOf
      rw [onAccount, List.filter_cons, List.filter_cons, List.filter_nil]
      split
      · simp [Nat.add_comm]
      · simp
    rw [more, one, holds, count, Nat.sub_add_eq, Nat.sub_add_eq]
  · have before := first.orders law
    have after := rest.orders before.slots
    have named (k : HireId) (hk : k ∈ l) : ∀ j ∈ [h], StandingOwner.issue k ≠ .issue j := fun j hj e => by
      cases e
      exact fresh (List.mem_singleton.mp hj ▸ hk)
    refine ⟨after.slots, after.fewer.trans before.fewer, fun o other => ?_, fun a clear => ?_, fun k hk y standing => ?_⟩
    · rw [after.others o fun k hk => other k (List.mem_cons_of_mem h hk)]
      exact before.others o fun k hk => other k (List.mem_singleton.mp hk ▸ List.mem_cons_self ..)
    · rw [after.mem a fun y hy k hk => clear y (before.fewer.subset hy) k (List.mem_cons_of_mem h hk)]
      exact before.mem a fun y hy k hk => clear y hy k (List.mem_singleton.mp hk ▸ List.mem_cons_self ..)
    · rcases List.mem_cons.mp hk with own | later
      · subst own
        obtain ⟨gone, shown⟩ := before.results k (List.mem_singleton_self k) y standing
        refine ⟨fun m => gone (after.fewer.subset m), Memory.shows_of_same shown fun a ha => ?_⟩
        refine after.mem a fun z hz j hj owner => ?_
        have listed := State.standingOf_some standing
        have other : y.slot ≠ z.slot := fun same => by
          have yz : y = z := List.inj_on_of_nodup_map law.2.2.1 listed.1 (before.fewer.subset hz) same
          have e : StandingOwner.issue k = .issue j := listed.2.symm.trans ((congrArg Standing.owner yz).trans owner)
          cases e
          exact fresh hj
        exact resultByte_apart other ha
      · have := after.results k later y ((before.others _ (named k later)).trans standing)
        rw [values k later] at this
        exact this

/-- The values of a reservation's result, as its end finds them. -/
theorem State.released_issueValues (s : State) (h : HireId) : (s.released h).issueValues h = s.issueValues h := by
  refine State.issueValues_of ?_ ?_ (fun d => ?_) (fun d => ?_)
  · rw [State.released_hire, if_pos rfl]
    rfl
  · rw [State.released_hire, if_pos rfl]
    rfl
  all_goals
    rw [State.released_receiver]
    split
    · rename_i own
      rw [own]
      rfl
    · rfl

/-- The standing ISSUE of a reservation that is dropped. -/
theorem State.dropReservation_issuesEnd (s : State) (h : HireId) (code : ResultCode) (reason : Reason) (law : s.slotsOk) :
    s.IssuesEnd (s.dropReservation h code reason) [h] code reason := by
  refine State.issuesEnd_one law (State.slotsHold_none.mp ((slotsHold_keeps none).dropReservation (State.slotsHold_none.mpr law) h code reason))
    (fun missing => ?_) fun y standing => ?_
  · have same := State.released_eq s h
    have missing : (s.released h).standingOf (.issue h) = none := by
      rw [same]
      exact missing
    rw [State.dropReservation_eq, State.endOwner_of_none missing, same]
    exact ⟨rfl, rfl⟩
  · obtain ⟨left, ended⟩ := State.dropReservation_standing standing code reason
    rw [left, ← State.released_issueValues]
    exact ⟨rfl, (ended law.1).2⟩

/-- One reservation that ends (R125), whatever becomes of the account's bracket. -/
theorem State.dropped_one (hires : t.hires = (s.released h).hires) (receivers : t.receivers = (s.released h).receivers)
    (accounts : ∀ a, ∃ k : Half, t.account a = { (s.released h).account a with changes := k })
    (orders : s.slotsOk → s.IssuesEnd t [h] code reason) : s.Dropped t [h] code reason := by
  have hire (k : HireId) : t.hire k = (s.released h).hire k := congrArg (fun v : Vector Hire _ => v[k]) hires
  have receiver (e : RecvId) : t.receiver e = (s.released h).receiver e := congrArg (fun v : Vector Receiver _ => v[e]) receivers
  refine ⟨fun k => ?_, fun e other => ?_, fun k hk => ?_, fun a => ?_, orders⟩
  · rw [hire, State.released_hire]
    by_cases own : k = h
    · subst own
      rw [if_pos rfl, if_pos (List.mem_singleton_self k)]
    · rw [if_neg own, if_neg fun m => own (List.mem_singleton.mp m)]
  · rw [receiver, State.released_receiver, if_neg fun own => other h (List.mem_singleton_self h) own.symm]
  · obtain rfl := List.mem_singleton.mp hk
    rw [receiver, State.released_receiver, if_pos rfl]
  · obtain ⟨k, account⟩ := accounts a
    refine ⟨k, ?_⟩
    rw [account, State.released_account]
    unfold State.holdsOf State.countOf
    by_cases own : a = (s.hire h).account
    · subst own
      rw [if_pos rfl, List.filter_cons, if_pos (beq_self_eq_true _)]
      rfl
    · rw [if_neg own, List.filter_cons, if_neg fun same => own (beq_iff_eq.mp same).symm]
      rfl

theorem State.dropReservation_dropped (s : State) (h : HireId) (code : ResultCode) (reason : Reason) :
    s.Dropped (s.dropReservation h code reason) [h] code reason := by
  have same := s.dropReservation_same h code reason
  refine State.dropped_one ((congrArg State.hires same).trans rfl) ((congrArg State.receivers same).trans rfl) (fun a => ⟨((s.released h).account a).changes, ?_⟩)
    (s.dropReservation_issuesEnd h code reason)
  exact congrArg (fun v : Vector Account _ => v[a]) ((congrArg State.accounts same).trans rfl)

theorem State.endReservation_dropped (s : State) (h : HireId) (code : ResultCode) (reason : Reason) :
    s.Dropped (s.endReservation h code reason) [h] code reason := by
  have same := s.endReservation_same h code reason
  refine State.dropped_one ((congrArg State.hires same).trans rfl) ((congrArg State.receivers same).trans rfl) (fun a => ?_) fun law => ?_
  · rw [State.endReservation_account, State.released_account]
    by_cases own : a = (s.hire h).account
    · subst own
      rw [if_pos rfl, if_pos rfl]
      split
      · rename_i still
        exact ⟨_, still.symm⟩
      · exact ⟨_, rfl⟩
    · rw [if_neg own, if_neg own]
      exact ⟨_, rfl⟩
  · obtain ⟨slots, fewer, others, mem, results⟩ := s.dropReservation_issuesEnd h code reason law
    have orders : (s.endReservation h code reason).orders = (s.dropReservation h code reason).orders := (congrArg State.orders same).trans rfl
    have memory : (s.endReservation h code reason).mem = (s.dropReservation h code reason).mem := (congrArg State.mem same).trans rfl
    refine ⟨State.slotsHold_none.mp ((slotsHold_keeps none).endReservation (State.slotsHold_none.mpr law) h code reason), orders ▸ fewer,
      fun o other => ?_, memory ▸ mem, fun k hk y standing => ?_⟩
    · rw [State.standingOf, orders]
      exact others o other
    · rw [orders, memory]
      exact results k hk y standing

end

/-- Reservations of different receivers that end one after another, in the order of a list. -/
theorem State.each_dropped {f : State → HireId → State} {code : ResultCode} {reason : Reason}
    (one : ∀ (s : State) (h : HireId), s.Dropped (f s h) [h] code reason) {l : List HireId} (nodup : l.Nodup) :
    ∀ s : State, (∀ h ∈ l, ∀ k ∈ l, (s.hire h).receiver = (s.hire k).receiver → h = k) → s.Dropped (s.each l f) l code reason := by
  induction l with
  | nil => exact fun s _ => s.dropped_nil code reason
  | cons h l ih =>
    intro s apart
    obtain ⟨fresh, nodup⟩ := List.nodup_cons.mp nodup
    have first := one s h
    have hire (k : HireId) (hk : k ∈ l) : (f s h).hire k = s.hire k := by
      rw [first.hires, if_neg fun m => fresh (by rw [← List.mem_singleton.mp m]; exact hk)]
    refine first.cons (ih nodup (f s h) fun j hj k hk same => ?_) fresh fun k hk same => ?_
    · rw [hire j hj, hire k hk] at same
      exact apart j (List.mem_cons_of_mem h hj) k (List.mem_cons_of_mem h hk) same
    · exact fresh (apart k (List.mem_cons_of_mem h hk) h (List.mem_cons_self ..) same ▸ hk)

end Sys2Proof.Machine
end

section
/-!
SUPPORT. The settlement of a hire that closes, whole (R130, R133 to R135, R157 to R159).
-/
namespace Sys2Proof.Machine

section
variable {s t u : State} {h : HireId}

/-! ## The parts of a settlement -/

/-- The charge of a hire that has closed (R155, R156). -/
def State.chargeOf (u : State) (h : HireId) : Nat :=
  (u.tariffs.get (u.hire h).tariff).charge (billedMinutes ((u.hire h).endTick - (u.hire h).startTick)) (u.hire h).cause

/-- The account of a hire that has closed, its hold released (R157). -/
def State.unheld (u : State) (h : HireId) : Account := (u.account (u.hire h).account).release (u.hire h).hold

/-- The hold released and the charge divided (R157, R158). -/
def State.divided (u : State) (h : HireId) : State :=
  (u.updAccount (u.hire h).account (fun a => a.release (u.hire h).hold)).updAccount (u.hire h).account (fun a => a.settle (u.chargeOf h))

/-- And the reservations of an account now HELD ended (R130). -/
def State.reservationsEnded (u : State) (h : HireId) : State :=
  if (u.unheld h).state = .active ∧ 0 < (u.unheld h).owed + (u.unheld h).adds (u.chargeOf h) then (u.divided h).dropReservations (u.hire h).account else u.divided h

/-- A hire record with its charge (R157). -/
def Hire.charged (r : Hire) (a : Account) (minutes charge : Nat) : Hire :=
  { r with billed := minutes, charge := charge, taken := a.takes charge, added := a.adds charge }

/-- And the charge in the hire record, with the account's bracket closed (R157). -/
def State.booked (u : State) (h : HireId) : State :=
  ((u.reservationsEnded h).updAccount (u.hire h).account Account.bump).writeHire h (fun x =>
    x.charged (u.unheld h) (billedMinutes ((u.hire h).endTick - (u.hire h).startTick)) (u.chargeOf h))

/-- The state in which the record of a settled hire is handed (R135). -/
def State.charged (u : State) (h : HireId) : State :=
  if 0 < (u.unheld h).adds (u.chargeOf h) then (u.booked h).raise .account else u.booked h

theorem State.settleHire_eq (u : State) (h : HireId) :
    u.settleHire h = (u.charged h).handTally (.hire h) (.hireClosed ((u.charged h).hireRecord h)) := by
  have unheld : (u.updAccount (u.hire h).account (fun a => a.release (u.hire h).hold)).account (u.hire h).account = u.unheld h :=
    (State.account_updAccount _ _ _ _).trans (if_pos rfl)
  unfold State.settleHire
  extract_lets r s1 a minutes charge s2 s3 s4 s5
  have a_eq : a = u.unheld h := unheld
  have e3 : s3 = u.reservationsEnded h := by
    unfold State.reservationsEnded
    rw [← a_eq]
    rfl
  have e4 : s4 = u.booked h := by
    show (s3.updAccount _ _).writeHire h _ = _
    rw [e3, a_eq]
    rfl
  have e5 : s5 = u.charged h := by
    show (if 0 < a.adds charge then s4.raise .account else s4) = _
    rw [e4, a_eq]
    rfl
  rw [e5]


/-! ## The reservations of an account that becomes HELD -/

theorem State.divided_account (u : State) (h : HireId) (a : AcctId) : (u.divided h).account a
    = if a = (u.hire h).account then (u.unheld h).settle (u.chargeOf h) else u.account a := by
  refine (State.account_updAccount _ _ _ _).trans ?_
  rw [State.account_updAccount, State.account_updAccount, if_pos rfl]
  by_cases own : a = (u.hire h).account
  · rw [if_pos own, if_pos own]
    rfl
  · rw [if_neg own, if_neg own, if_neg own]

theorem State.divided_only (u : State) (h : HireId) : u.onlyIn [.accounts] (u.divided h) :=
  (State.updAccount_only u _ _).next (State.updAccount_only _ _ _) (by decide)

/-- The reservations that a settlement ends (R130). -/
def State.toEnd (u : State) (h : HireId) : List HireId :=
  if (u.unheld h).state = .active ∧ 0 < (u.unheld h).owed + (u.unheld h).adds (u.chargeOf h)
  then tblAll u.hires (fun r => r.state == .reserving && r.account == (u.hire h).account) else []

theorem State.mem_toEnd {k : HireId} : k ∈ u.toEnd h ↔ ((u.unheld h).state = .active ∧ 0 < (u.unheld h).owed + (u.unheld h).adds (u.chargeOf h))
    ∧ (u.hire k).state = .reserving ∧ (u.hire k).account = (u.hire h).account := by
  unfold State.toEnd
  split
  · rename_i held
    rw [mem_tblAll, Bool.and_eq_true, beq_iff_eq, beq_iff_eq]
    exact ⟨fun m => ⟨held, m⟩, fun m => m.2⟩
  · rename_i spared
    exact iff_of_false List.not_mem_nil fun m => spared m.1

theorem State.toEnd_of_spared (spared : ¬ ((u.unheld h).state = .active ∧ 0 < (u.unheld h).owed + (u.unheld h).adds (u.chargeOf h))) :
    u.toEnd h = [] := if_neg spared

theorem State.toEnd_nodup : (u.toEnd h).Nodup := by
  unfold State.toEnd
  split
  · exact tblAll_nodup _ _
  · exact List.nodup_nil

theorem State.reservationsEnded_dropped
    (apart : ∀ j k : HireId, (u.hire j).state = .reserving → (u.hire k).state = .reserving → (u.hire j).receiver = (u.hire k).receiver → j = k) :
    (u.divided h).Dropped (u.reservationsEnded h) (u.toEnd h) .refused .accountHeld := by
  unfold State.reservationsEnded State.toEnd
  split
  · refine State.each_dropped (fun s k => s.dropReservation_dropped k .refused .accountHeld) (tblAll_nodup _ _) _ fun j hj k hk same => ?_
    have reserving {i : HireId} (hi : i ∈ tblAll u.hires (fun r => r.state == .reserving && r.account == (u.hire h).account)) :
        (u.hire i).state = .reserving := by
      rw [mem_tblAll, Bool.and_eq_true, beq_iff_eq] at hi
      exact hi.1
    exact apart j k (reserving hj) (reserving hk) same
  · exact State.dropped_nil _ _ _

theorem State.dropReservation_changes (s : State) (h : HireId) (code : ResultCode) (reason : Reason) (a : AcctId) :
    ((s.dropReservation h code reason).account a).changes = (s.account a).changes := by
  have same : (s.dropReservation h code reason).account a = (s.released h).account a := by rw [State.dropReservation_same]
  rw [same, State.released_account]
  split
  · rename_i own
    rw [own]
    rfl
  · rfl

theorem State.reservationsEnded_changes (u : State) (h : HireId) (a : AcctId) :
    ((u.reservationsEnded h).account a).changes = ((u.divided h).account a).changes := by
  unfold State.reservationsEnded
  split
  · exact State.each_keeps (fun s => (s.account a).changes) (fun _ _ _ => State.dropReservation_changes _ _ _ _ a) _
  · rfl

theorem State.reservationsEnded_only (u : State) (h : HireId) :
    (u.divided h).onlyIn [.mem, .orders, .notices, .positions, .presets, .receivers, .hires, .accounts] (u.reservationsEnded h) := by
  unfold State.reservationsEnded
  split
  · exact (State.dropReservations_only _ _).sub (by decide)
  · exact State.onlyIn_refl _ _

theorem State.reservationsEnded_logBlocked (u : State) (h : HireId) : (u.reservationsEnded h).logBlocked = u.logBlocked := by
  unfold State.reservationsEnded
  split
  · exact State.dropReservations_logBlocked _ _
  · rfl

/-! ## The charge booked -/

theorem State.charged_only (u : State) (h : HireId) : (u.reservationsEnded h).onlyIn [.accounts, .hires, .notices] (u.charged h) := by
  have booked : (u.reservationsEnded h).onlyIn [.accounts, .hires, .notices] (u.booked h) :=
    ((State.updAccount_only _ _ _).sub (by decide)).next (State.writeHire_only _ h _) (by decide)
  unfold State.charged
  split
  · exact booked.next (State.raise_only _ _) (by decide)
  · exact booked

theorem State.charged_same (u : State) (h : HireId) : (u.charged h).hires = (u.booked h).hires ∧ (u.charged h).accounts = (u.booked h).accounts := by
  unfold State.charged
  split
  · exact ⟨State.raise_only _ _ .hires (by decide), State.raise_only _ _ .accounts (by decide)⟩
  · exact ⟨rfl, rfl⟩

theorem State.charged_hire (u : State) (h k : HireId) : (u.charged h).hire k = if k = h
    then (((u.reservationsEnded h).hire h).charged (u.unheld h) (billedMinutes ((u.hire h).endTick - (u.hire h).startTick)) (u.chargeOf h)).bump
    else (u.reservationsEnded h).hire k :=
  (congrArg (fun v : Vector Hire _ => v[k]) (u.charged_same h).1).trans (State.hire_writeHire _ h k _)

theorem State.charged_account (u : State) (h : HireId) (a : AcctId) : (u.charged h).account a = if a = (u.hire h).account
    then ((u.reservationsEnded h).account a).bump else (u.reservationsEnded h).account a := by
  refine (congrArg (fun v : Vector Account _ => v[a]) (u.charged_same h).2).trans ((State.account_updAccount _ _ a Account.bump).trans ?_)
  by_cases own : a = (u.hire h).account
  · subst own
    rfl
  · rw [if_neg own, if_neg own]

theorem State.charged_pending (u : State) (h : HireId) (owes : 0 < (u.unheld h).adds (u.chargeOf h)) : (u.charged h).isPending .account = true := by
  unfold State.charged
  rw [if_pos owes]
  exact State.raise_isPending _ _

/-! ## The record handed -/

/-- A record handed to the log writer is written, or waits (R163, R165). -/
theorem State.handTally_facts (s : State) (o : WaitOwner) (r : TallyRecord) (wf : s.memOk) :
    (s.logBlocked = true → (s.handTally o r).log = { s.log with waiting := s.log.waiting ++ [{ owner := o, record := r }] })
      ∧ (s.logBlocked = false → (s.handTally o r).log.waiting = s.log.waiting ∧ (s.handTally o r).log.writeCount = s.log.writeCount + 1
        ∧ (s.handTally o r).mem.Tally s.log.writeCount s.clock.run r)
      ∧ ∀ (n : SlotId) (a : Nat), resultByte n a → (s.handTally o r).mem.read8 a = s.mem.read8 a := by
  unfold State.handTally
  by_cases blocked : s.logBlocked = true
  · rw [if_pos blocked]
    have mem : (s.waitTally o r).mem = s.mem := by
      unfold State.waitTally
      dsimp only
      split <;> rfl
    exact ⟨fun _ => State.waitTally_log o r, fun free => (nomatch blocked.symm.trans free), fun _ _ _ => by rw [mem]⟩
  · rw [if_neg blocked]
    refine ⟨fun full => absurd full blocked, fun _ => ?_, fun n a result => ?_⟩
    · rw [State.writeTally_log]
      exact ⟨rfl, rfl, State.writeTally_tally r wf⟩
    · have place := tallyBase_bounds s.log.writeCount
      have slot := slotBase_lt n
      unfold resultByte at result
      exact State.writeTally_read8 r wf (by unfold slotBase at result; omega) (by unfold slotBase at result; omega) (by omega)

theorem State.dropReservation_memOk (s : State) (h : HireId) (code : ResultCode) (reason : Reason) (wf : s.memOk) :
    (s.dropReservation h code reason).memOk := by
  have same := State.released_eq s h
  cases standing : s.standingOf (.issue h) with
  | some y => exact ((State.dropReservation_standing standing code reason).2 wf).1
  | none =>
    have missing : (s.released h).standingOf (.issue h) = none := by
      rw [same]
      exact standing
    rw [State.dropReservation_eq, State.endOwner_of_none missing, same]
    exact wf

theorem State.reservationsEnded_memOk (u : State) (h : HireId) (wf : u.memOk) : (u.reservationsEnded h).memOk := by
  unfold State.reservationsEnded
  split
  · exact State.each_induct (P := State.memOk) (f := fun s k => s.dropReservation k .refused .accountHeld)
      (fun s k _ ok => s.dropReservation_memOk k _ _ ok) wf
  · exact wf

/-! ## The settlement of an OPEN hire -/

/-- What is left of the holds and the count of an account when reservations have ended. -/
theorem State.holdsOf_eq {l ends : List HireId} {a : AcctId} (perm : l.Perm ends) (all : ∀ k ∈ l, (s.hire k).account = a) :
    s.holdsOf l a = (ends.map (fun k => (s.hire k).hold)).sum ∧ s.countOf l a = ends.length := by
  unfold State.holdsOf State.countOf
  rw [List.filter_eq_self.mpr fun k hk => beq_iff_eq.mpr (all k hk)]
  exact ⟨(perm.map _).sum_eq, perm.length_eq⟩

theorem State.holdsOf_apart {l : List HireId} {a : AcctId} (none : ∀ k ∈ l, (s.hire k).account ≠ a) : s.holdsOf l a = 0 ∧ s.countOf l a = 0 := by
  unfold State.holdsOf State.countOf
  rw [List.filter_eq_nil_iff.mpr fun k hk e => none k hk (beq_iff_eq.mp e)]
  exact ⟨rfl, rfl⟩

end

/-- The OPEN hire `h` closes now: what stands when its settlement begins (R133 to R135). -/
structure State.Closing (s u : State) (h : HireId) (cause : CloseCause) : Prop where
  law : s.hiresOk
  wf : s.memOk
  opened : (s.hire h).state = .opened
  only : s.onlyIn [.receivers, .positions, .notices, .hires] u
  hire : ∀ k, u.hire k = if k = h then ((s.hire h).ended s.logBlocked s.clock.run (s.clock.stamp s.clock.run) cause).bump else s.hire k
  entries : ∀ e, e ≠ (s.hire h).receiver → u.receiver e = s.receiver e
  serial : (u.receiver (s.hire h).receiver).serial = (s.receiver (s.hire h).receiver).serial

namespace State.Closing

section
variable {s u : State} {h : HireId} {cause : CloseCause} (closing : s.Closing u h cause)
include closing

theorem own : u.hire h = ((s.hire h).ended s.logBlocked s.clock.run (s.clock.stamp s.clock.run) cause).bump := (closing.hire h).trans (if_pos rfl)

theorem other {k : HireId} (apart : k ≠ h) : u.hire k = s.hire k := (closing.hire k).trans (if_neg apart)

theorem unlike {k : HireId} (state : (s.hire k).state = .reserving) : k ≠ h := fun e => by
  rw [e, closing.opened] at state
  exact nomatch state

theorem reserving {k : HireId} : (u.hire k).state = .reserving ↔ (s.hire k).state = .reserving := by
  by_cases same : k = h
  · rw [same, closing.opened, closing.own]
    refine iff_of_false (fun e => ?_) fun e => nomatch e
    have state : (if s.logBlocked then HireState.closedWaiting else .free) = .reserving := e
    split at state <;> exact nomatch state
  · rw [closing.other same]

/-- Reservations are of different receivers. -/
theorem apart (j k : HireId) (hj : (u.hire j).state = .reserving) (hk : (u.hire k).state = .reserving)
    (same : (u.hire j).receiver = (u.hire k).receiver) : j = k := by
  have hj := closing.reserving.mp hj
  have hk := closing.reserving.mp hk
  rw [closing.other (closing.unlike hj), closing.other (closing.unlike hk)] at same
  have named := (closing.law.2.1 j hj).2
  rw [same, (closing.law.2.1 k hk).2] at named
  exact (Option.some.inj named).symm

theorem dropped : (u.divided h).Dropped (u.reservationsEnded h) (u.toEnd h) .refused .accountHeld := State.reservationsEnded_dropped closing.apart

theorem account (a : AcctId) : u.account a = s.account a := congrArg (fun v : Vector Account _ => v[a]) (closing.only .accounts (by decide))

theorem onAccount : (u.hire h).account = (s.hire h).account := by
  rw [closing.own]
  rfl

theorem unheld : u.unheld h = (s.account (s.hire h).account).release (s.hire h).hold := by
  unfold State.unheld
  rw [closing.own, closing.account]
  rfl

theorem chargeOf : u.chargeOf h = (s.tariffs.get (s.hire h).tariff).charge (min 65535 (((s.clock.run - (s.hire h).startTick) / 1024 + 59) / 60)) cause := by
  unfold State.chargeOf
  rw [closing.own, show u.tariffs = s.tariffs from closing.only .tariffs (by decide)]
  rfl

theorem ending {k : HireId} : k ∈ u.toEnd h ↔ ((u.unheld h).state = .active ∧ 0 < (u.unheld h).owed + (u.unheld h).adds (u.chargeOf h))
    ∧ (s.hire k).state = .reserving ∧ (s.hire k).account = (s.hire h).account := by
  rw [State.mem_toEnd, closing.reserving, closing.onAccount]
  exact and_congr_right fun _ => and_congr_right fun state => by rw [closing.other (closing.unlike state)]

theorem ending_hire {k : HireId} (ends : k ∈ u.toEnd h) : u.hire k = s.hire k := closing.other (closing.unlike (closing.ending.mp ends).2.1)

theorem ended_hire (k : HireId) : (u.reservationsEnded h).hire k
    = if k ∈ u.toEnd h then ({ s.hire k with state := .free } : Hire).bump else u.hire k := by
  refine (closing.dropped.hires k).trans ?_
  by_cases ends : k ∈ u.toEnd h
  · rw [if_pos ends, if_pos ends, show (u.divided h).hire k = s.hire k from closing.ending_hire ends]
  · rw [if_neg ends, if_neg ends]
    rfl

theorem ended_account (a : AcctId) : (u.reservationsEnded h).account a = { (u.divided h).account a with
    holds := ((u.divided h).account a).holds - s.holdsOf (u.toEnd h) a, count := ((u.divided h).account a).count - s.countOf (u.toEnd h) a } := by
  obtain ⟨k, account⟩ := closing.dropped.accounts a
  have kept := u.reservationsEnded_changes h a
  rw [account] at kept ⊢
  obtain rfl : k = ((u.divided h).account a).changes := kept
  have same (l : List HireId) (hl : ∀ j ∈ l, j ∈ u.toEnd h) :
      l.map (fun j => ((u.divided h).hire j).hold) = l.map (fun j => (s.hire j).hold) :=
    List.map_congr_left fun j hj => congrArg Hire.hold (closing.ending_hire (hl j hj))
  have filtered : (u.toEnd h).filter (fun j => ((u.divided h).hire j).account == a) = (u.toEnd h).filter (fun j => (s.hire j).account == a) :=
    List.filter_congr fun j hj => by rw [show (u.divided h).hire j = s.hire j from closing.ending_hire hj]
  have holds : (u.divided h).holdsOf (u.toEnd h) a = s.holdsOf (u.toEnd h) a := by
    unfold State.holdsOf
    rw [filtered, same _ fun j hj => List.mem_of_mem_filter hj]
  have count : (u.divided h).countOf (u.toEnd h) a = s.countOf (u.toEnd h) a := congrArg List.length filtered
  rw [holds, count]

theorem away {k : HireId} (ends : k ∈ u.toEnd h) : (s.hire k).receiver ≠ (s.hire h).receiver := fun same => by
  have state := (closing.ending.mp ends).2.1
  have named := (closing.law.2.1 k state).2
  rw [same, (closing.law.2.2.1 h closing.opened).2] at named
  exact closing.unlike state (Option.some.inj named).symm

theorem ended_receiver (e : RecvId) (none : ∀ k ∈ u.toEnd h, (s.hire k).receiver ≠ e) : (u.charged h).receiver e = u.receiver e := by
  have charged : (u.charged h).receiver e = (u.reservationsEnded h).receiver e :=
    congrArg (fun v : Vector Receiver _ => v[e]) (u.charged_only h .receivers (by decide))
  rw [charged]
  exact closing.dropped.away e fun k ends => by
    rw [show (u.divided h).hire k = s.hire k from closing.ending_hire ends]
    exact none k ends

/-! The state after the settlement. -/

theorem settled_hire (k : HireId) : (u.settleHire h).hire k = if k = h
    then ((((s.hire h).ended s.logBlocked s.clock.run (s.clock.stamp s.clock.run) cause).bump).charged (u.unheld h)
      (min 65535 (((s.clock.run - (s.hire h).startTick) / 1024 + 59) / 60)) (u.chargeOf h)).bump
    else if k ∈ u.toEnd h then ({ s.hire k with state := .free } : Hire).bump else s.hire k := by
  have handed : (u.settleHire h).hire k = (u.charged h).hire k := by
    rw [State.settleHire_eq]
    exact congrArg (fun v : Vector Hire _ => v[k]) (State.handTally_only _ _ _ .hires (by decide))
  rw [handed, State.charged_hire, closing.ended_hire, closing.ended_hire]
  by_cases same : k = h
  · rw [if_pos same, if_pos same, if_neg fun ends => closing.unlike (closing.ending.mp ends).2.1 rfl, closing.own]
    rfl
  · rw [if_neg same, if_neg same]
    split
    · rfl
    · exact closing.other same

theorem settled_account (a : AcctId) : (u.settleHire h).account a = if a = (s.hire h).account
    then ({ (u.unheld h).settle (u.chargeOf h) with
      holds := (u.unheld h).holds - s.holdsOf (u.toEnd h) a, count := (u.unheld h).count - s.countOf (u.toEnd h) a } : Account).bump
    else s.account a := by
  have handed : (u.settleHire h).account a = (u.charged h).account a := by
    rw [State.settleHire_eq]
    exact congrArg (fun v : Vector Account _ => v[a]) (State.handTally_only _ _ _ .accounts (by decide))
  rw [handed, State.charged_account, closing.ended_account, State.divided_account, closing.onAccount]
  by_cases own : a = (s.hire h).account
  · rw [if_pos own, if_pos own, if_pos own]
    rfl
  · obtain ⟨holds, count⟩ := s.holdsOf_apart (l := u.toEnd h) (a := a) fun k ends same =>
      own (same.symm.trans (closing.ending.mp ends).2.2)
    rw [if_neg own, if_neg own, if_neg own, holds, count, closing.account]
    rfl

theorem charged_log : (u.charged h).log = s.log ∧ (u.charged h).logBlocked = s.logBlocked ∧ (u.charged h).memOk ∧ (u.charged h).clock = s.clock := by
  have only := u.charged_only h
  have same := (u.divided_only h).sub (k := [.mem, .orders, .notices, .positions, .presets, .receivers, .hires, .accounts]) (by decide)
  have ended := same.seq (u.reservationsEnded_only h)
  have mem : (u.charged h).mem = (u.reservationsEnded h).mem := only .mem (by decide)
  refine ⟨?_, ?_, ?_, ?_⟩
  · exact (only .log (by decide)).trans ((ended .log (by decide)).trans (closing.only .log (by decide)))
  · refine (only.logBlocked (by decide) (by decide)).trans ((u.reservationsEnded_logBlocked h).trans ?_)
    exact closing.only.logBlocked (by decide) (by decide)
  · exact (congrArg Memory.wf mem).trans (u.reservationsEnded_memOk h ((congrArg Memory.wf (closing.only .mem (by decide))).trans closing.wf))
  · exact (only .clock (by decide)).trans ((ended .clock (by decide)).trans (closing.only .clock (by decide)))

theorem record : (u.charged h).hireRecord h =
    { number := (s.hire h).number, account := (s.hire h).account, adopted := (s.hire h).adopted, clockSet := (s.hire h).clockSet
      presetFailed := (s.hire h).presetFailed, clockUnset := (s.hire h).clockUnset || (s.clock.stamp s.clock.run).2
      holder := (s.account (s.hire h).account).holder, serial := (s.receiver (s.hire h).receiver).serial, cause := cause
      start := (s.hire h).start, finish := (s.clock.stamp s.clock.run).1
      billed := min 65535 (((s.clock.run - (s.hire h).startTick) / 1024 + 59) / 60), charge := u.chargeOf h
      taken := (u.unheld h).takes (u.chargeOf h), added := (u.unheld h).adds (u.chargeOf h) } := by
  have receiver : ((u.charged h).receiver (s.hire h).receiver).serial = (s.receiver (s.hire h).receiver).serial := by
    rw [closing.ended_receiver _ fun k ends => closing.away ends]
    exact closing.serial
  have account : ((u.charged h).account (s.hire h).account).holder = (s.account (s.hire h).account).holder := by
    rw [State.charged_account, closing.ended_account, State.divided_account, closing.onAccount, if_pos rfl, if_pos rfl, closing.unheld]
    rfl
  have hire := (u.charged_hire h h).trans (if_pos rfl)
  rw [closing.ended_hire, if_neg fun ends => closing.unlike (closing.ending.mp ends).2.1 rfl, closing.own] at hire
  have unfolded (v : State) : v.hireRecord h =
      { number := (v.hire h).number, account := (v.hire h).account, adopted := (v.hire h).adopted, clockSet := (v.hire h).clockSet
        presetFailed := (v.hire h).presetFailed, clockUnset := (v.hire h).clockUnset, holder := (v.account (v.hire h).account).holder
        serial := (v.receiver (v.hire h).receiver).serial, cause := (v.hire h).cause, start := (v.hire h).start, finish := (v.hire h).finish
        billed := (v.hire h).billed, charge := (v.hire h).charge, taken := (v.hire h).taken, added := (v.hire h).added } := rfl
  rw [unfolded, hire, ← account, ← receiver]
  rfl

/-- The bytes of slots when the record has been handed. -/
theorem settled_shows {n : SlotId} {r : Result} (shown : (u.reservationsEnded h).mem.shows n r) : (u.settleHire h).mem.shows n r := by
  rw [State.settleHire_eq]
  refine Memory.shows_of_same shown fun a result => ?_
  refine (((u.charged h).handTally_facts _ _ closing.charged_log.2.2.1).2.2 n a result).trans ?_
  exact congrArg (fun m : Memory => m.read8 a) (u.charged_only h .mem (by decide))

/-- A reservation that a settlement ends (R130). -/
theorem settled_ends {k : HireId} (ends : k ∈ u.toEnd h) : ((u.settleHire h).receiver (s.hire k).receiver).state = .docked
    ∧ ((u.settleHire h).receiver (s.hire k).receiver).hire = none
    ∧ (s.slotsOk → ∀ y : Standing, s.standingOf (.issue k) = some y → y ∉ (u.settleHire h).orders.standing
      ∧ (u.settleHire h).mem.shows y.slot { code := .refused, reason := .accountHeld, clamped := y.clamped, already := false
                                            values := s.issueValues k }) := by
  have receiver : (u.settleHire h).receiver (s.hire k).receiver = (u.reservationsEnded h).receiver (s.hire k).receiver := by
    rw [State.settleHire_eq]
    exact congrArg (fun v : Vector Receiver _ => v[(s.hire k).receiver])
      ((State.handTally_only _ _ _ .receivers (by decide)).trans (u.charged_only h .receivers (by decide)))
  have orders : (u.settleHire h).orders = (u.reservationsEnded h).orders := by
    rw [State.settleHire_eq]
    exact (State.handTally_only _ _ _ .orders (by decide)).trans (u.charged_only h .orders (by decide))
  have only : s.onlyIn [.receivers, .positions, .notices, .hires, .accounts] (u.divided h) :=
    (closing.only.sub (by decide)).next (u.divided_only h) (by decide)
  have hire : (u.divided h).hire k = s.hire k := closing.ending_hire ends
  have docked := closing.dropped.docked k ends
  rw [hire] at docked
  refine ⟨?_, ?_, fun slots y standing => ?_⟩
  · rw [receiver, docked]
    rfl
  · rw [receiver, docked]
    rfl
  · have slots : (u.divided h).slotsOk :=
      State.slotsHold_none.mp ((slotsHold_reads none).frame only (by decide) (State.slotsHold_none.mpr slots))
    have standing : (u.divided h).standingOf (.issue k) = some y := by
      rw [State.standingOf, show (u.divided h).orders = s.orders from closing.only .orders (by decide)]
      exact standing
    obtain ⟨gone, shown⟩ := (closing.dropped.orders slots).results k ends y standing
    have values : (u.divided h).issueValues k = s.issueValues k := State.issueValues_congr hire (closing.entries _ (closing.away ends))
    rw [values] at shown
    rw [orders]
    exact ⟨gone, closing.settled_shows shown⟩

/-- The reservations of the account, as the settlement of a hire finds them. -/
theorem toEnd_of_held (held : (u.unheld h).state = .active ∧ 0 < (u.unheld h).owed + (u.unheld h).adds (u.chargeOf h)) :
    (u.toEnd h).Perm ((List.finRange 1024).filter (fun k => (s.hire k).state == .reserving && (s.hire k).account == (s.hire h).account)) := by
  refine (List.perm_ext_iff_of_nodup State.toEnd_nodup ((List.nodup_finRange 1024).filter _)).mpr fun k => ?_
  rw [closing.ending, List.mem_filter, Bool.and_eq_true, beq_iff_eq, beq_iff_eq]
  exact ⟨fun m => ⟨List.mem_finRange k, m.2⟩, fun m => ⟨held, m.2⟩⟩

/-- The settlement of a hire that closes now (R157 to R159). -/
theorem settled : s.settled (u.settleHire h) h cause := by
  obtain ⟨log, blocked, wf, clock⟩ := closing.charged_log
  obtain ⟨waits, written, -⟩ := (u.charged h).handTally_facts (.hire h) (.hireClosed ((u.charged h).hireRecord h)) wf
  rw [← State.settleHire_eq, blocked, log, closing.record, closing.chargeOf, closing.unheld] at waits written
  have own := (closing.settled_hire h).trans (if_pos rfl)
  have account := (closing.settled_account (s.hire h).account).trans (if_pos rfl)
  have ended := closing.toEnd_of_held
  have spared := State.toEnd_of_spared (u := u) (h := h)
  have pending (owes : 0 < (u.unheld h).adds (u.chargeOf h)) : (u.settleHire h).isPending .account = true := by
    rw [State.settleHire_eq]
    exact State.handTally_pending _ _ (u.charged_pending h owes)
  have ends {k : HireId} : k ∈ u.toEnd h ↔ _ := closing.ending
  have drops {k : HireId} (m : k ∈ u.toEnd h) := closing.settled_ends m
  have hires := closing.settled_hire
  rw [closing.chargeOf, closing.unheld] at own account ended spared pending
  simp only [closing.chargeOf, closing.unheld] at ends
  unfold State.settled
  extract_lets old acct minutes charge taken added held listed stamp record
  refine ⟨?_, ?_, fun still => ⟨?_, ?_, fun k other => ?_⟩, fun now => ⟨?_, ?_, fun k other => ?_, fun k m => ?_⟩,
    fun b other => (closing.settled_account b).trans (if_neg other), pending, waits, fun free => ?_⟩
  · rw [own]
    rfl
  · rw [account]
    rfl
  · rw [account, spared still]
    rfl
  · rw [account, spared still]
    rfl
  · rw [hires, if_neg other, if_neg fun m => still (ends.mp m).1]
  · rw [account, (State.holdsOf_eq (ended now) fun k m => (ends.mp m).2.2).1]
    rfl
  · rw [account, (State.holdsOf_eq (ended now) fun k m => (ends.mp m).2.2).2]
    rfl
  · rw [hires, if_neg other]
    by_cases m : (s.hire k).state = .reserving ∧ (s.hire k).account = old.account
    · rw [if_pos (ends.mpr ⟨now, m⟩), if_pos m]
      rfl
    · rw [if_neg fun e => m (ends.mp e).2, if_neg m]
  · exact drops ((ended now).mem_iff.mpr m)
  · obtain ⟨waiting, count, tally⟩ := written free
    exact ⟨waiting, count, tally.kind, tally.body⟩

end

end State.Closing

section
variable {s t : State} {h : HireId}

/-- What stands when an OPEN hire closes now, together with its entry's change to a state in no hire (R133 to R135, R157 to R159). -/
theorem State.closedBy_closing (law : s.hiresOk) (wf : s.memOk) (opened : (s.hire h).state = .opened)
    (only : s.onlyIn [.receivers, .positions, .notices] t) (entries : ∀ e, e ≠ (s.hire h).receiver → t.receiver e = s.receiver e)
    (serial : (t.receiver (s.hire h).receiver).serial = (s.receiver (s.hire h).receiver).serial) (cause : CloseCause) :
    s.Closing (t.closedBy h s.clock.run cause) h cause := by
  have hire (k : HireId) : t.hire k = s.hire k := congrArg (fun v : Vector Hire _ => v[k]) (only .hires (by decide))
  have clock : t.clock = s.clock := only .clock (by decide)
  refine ⟨law, wf, opened, (only.sub (by decide)).next (State.writeHire_only t h _) (by decide), fun k => ?_, entries, serial⟩
  rw [State.closedBy_hire, hire, hire, only.logBlocked (by decide) (by decide), clock]

end

end Sys2Proof.Machine
end

section
/-!
SUPPORT. DECLARE_LOST (R130, R134, R135, R155 to R159, O47).
-/
namespace Sys2Proof.Machine

section
variable {s t u : State} {h : HireId} {n : SlotId} {rest : List SlotId}

/-! ## The work beside an order -/

theorem State.withdrawPreset_taken (s : State) (e : RecvId) (m : Memory) (rest : List SlotId) :
    (s.taken m rest).withdrawPreset e = (s.withdrawPreset e).taken m rest := by
  unfold State.withdrawPreset
  rw [show (s.taken m rest).posHolding e = s.posHolding e from rfl]
  cases s.posHolding e with
  | none => rfl
  | some p => rfl

theorem State.relampHolder_taken (s : State) (e : RecvId) (m : Memory) (rest : List SlotId) :
    (s.taken m rest).relampHolder e = (s.relampHolder e).taken m rest := by
  unfold State.relampHolder
  rw [show (s.taken m rest).posHolding e = s.posHolding e from rfl]
  cases s.posHolding e with
  | none => rfl
  | some p => rfl

theorem State.Beside.released (beside : s.Beside n rest t) (h : HireId) : (s.released h).Beside n rest (t.released h) := by
  unfold State.released
  dsimp only
  rw [show t.hire h = s.hire h from beside.same (fun u => u.hire h) (fun _ => rfl)]
  have account := beside.map (f := fun u => u.updAccount (s.hire h).account (fun a => a.release (s.hire h).hold)) (fun _ => rfl) rfl
  have preset := account.map (f := fun u => u.withdrawPreset (s.hire h).receiver) (fun m => State.withdrawPreset_taken _ _ m rest)
    ((congrArg State.mem (State.withdrawPreset_eq _ _)).trans rfl)
  have receiver := preset.map (f := fun u => u.writeReceiver (s.hire h).receiver (fun e => { e with state := .docked, hire := none }))
    (fun _ => rfl) rfl
  have lamp := receiver.map (f := fun u => u.relampHolder (s.hire h).receiver) (fun m => State.relampHolder_taken _ _ m rest)
    ((congrArg State.mem (State.relampHolder_eq _ _)).trans rfl)
  exact lamp.map (f := fun u => u.writeHire h (fun x => { x with state := .free })) (fun _ => rfl) rfl

theorem State.Beside.dropReservation (beside : s.Beside n rest t) (h : HireId) (code : ResultCode) (reason : Reason) :
    (s.dropReservation h code reason).Beside n rest (t.dropReservation h code reason) := by
  have released := beside.released h
  rw [State.dropReservation_eq, State.dropReservation_eq, show (t.released h).issueResult h code reason = (s.released h).issueResult h code reason from
    released.same (fun u => u.issueResult h code reason) (fun _ => rfl)]
  exact released.endOwner _ _

theorem State.Beside.reservationsEnded (beside : s.Beside n rest t) (h : HireId) : (s.reservationsEnded h).Beside n rest (t.reservationsEnded h) := by
  have divided : (s.divided h).Beside n rest (t.divided h) := beside.map (f := fun u => u.divided h) (fun _ => rfl) rfl
  unfold State.reservationsEnded
  rw [show t.unheld h = s.unheld h from beside.same (fun u => u.unheld h) (fun _ => rfl),
    show t.chargeOf h = s.chargeOf h from beside.same (fun u => u.chargeOf h) (fun _ => rfl),
    show t.hire h = s.hire h from beside.same (fun u => u.hire h) (fun _ => rfl)]
  split
  · unfold State.dropReservations
    rw [show (t.divided h).hires = (s.divided h).hires from divided.same (fun u => u.hires) (fun _ => rfl)]
    exact State.Beside.each (f := fun u k => u.dropReservation k .refused .accountHeld) (fun _ _ k g => g.dropReservation k _ _) _ divided
  · exact divided

theorem State.Beside.charged (beside : s.Beside n rest t) (h : HireId) : (s.charged h).Beside n rest (t.charged h) := by
  have ended := beside.reservationsEnded h
  have unheld : t.unheld h = s.unheld h := beside.same (fun u => u.unheld h) (fun _ => rfl)
  have charge : t.chargeOf h = s.chargeOf h := beside.same (fun u => u.chargeOf h) (fun _ => rfl)
  have booked : (s.booked h).Beside n rest (t.booked h) := by
    unfold State.booked
    rw [unheld, charge, show t.hire h = s.hire h from beside.same (fun u => u.hire h) (fun _ => rfl)]
    have closed := ended.map (f := fun u => u.updAccount (s.hire h).account Account.bump) (fun _ => rfl) rfl
    exact closed.map (f := fun u => u.writeHire h _) (fun _ => rfl) rfl
  unfold State.charged
  rw [unheld, charge]
  split
  · exact booked.raise .account
  · exact booked

theorem State.Beside.handRecord (beside : s.Beside n rest t) (h : HireId) :
    (s.handTally (.hire h) (.hireClosed (s.hireRecord h))).Beside n rest (t.handTally (.hire h) (.hireClosed (t.hireRecord h))) := by
  rw [show t.hireRecord h = s.hireRecord h from beside.same (fun u => u.hireRecord h) (fun _ => rfl)]
  exact beside.handTally _ _

theorem State.Beside.settleHire (beside : s.Beside n rest t) (h : HireId) : (s.settleHire h).Beside n rest (t.settleHire h) := by
  rw [State.settleHire_eq, State.settleHire_eq]
  exact (beside.charged h).handRecord h

/-- The record of a receiver declared lost (R134). -/
def Receiver.declaredLost (r : Receiver) (number : BitVec 32) : Receiver :=
  { r with state := .lost, hire := none, lostHire := number, foundBy := .nobody, counted := none }

/-- The state in which the hire of a receiver declared lost closes (R134). -/
def State.declared (s : State) (h : HireId) : State := s.writeReceiver (s.hire h).receiver (fun e => e.declaredLost (s.hire h).number)

theorem State.declareLost_eq (s : State) (h : HireId) :
    s.declareLost h = ((s.declared h).closedBy h s.clock.run .lost).settleHire h := rfl

theorem State.declared_receiver (s : State) (h : HireId) : ((s.declared h).closedBy h s.clock.run .lost).receiver (s.hire h).receiver
    = ((s.receiver (s.hire h).receiver).declaredLost (s.hire h).number).bump := by
  refine (congrArg (fun v : Vector Receiver _ => v[(s.hire h).receiver]) (State.writeHire_only (s.declared h) h _ .receivers (by decide))).trans ?_
  exact (State.receiver_writeReceiver s _ _ (fun e => e.declaredLost (s.hire h).number)).trans (if_pos rfl)

theorem State.Beside.declareLost (beside : s.Beside n rest t) (h : HireId) : (s.declareLost h).Beside n rest (t.declareLost h) := by
  rw [State.declareLost_eq, State.declareLost_eq]
  refine State.Beside.settleHire ?_ h
  have declared : (s.declared h).Beside n rest (t.declared h) := beside.map (f := fun u => u.declared h) (fun _ => rfl) rfl
  unfold State.closedBy
  rw [declared.logBlocked, show t.clock = s.clock from beside.same (fun u => u.clock) (fun _ => rfl),
    show (t.declared h).clock = (s.declared h).clock from declared.same (fun u => u.clock) (fun _ => rfl)]
  exact declared.map (f := fun u => u.writeHire h _) (fun _ => rfl) rfl

/-! ## DECLARE_LOST -/

theorem State.declared_closing (law : s.hiresOk) (wf : s.memOk) (opened : (s.hire h).state = .opened) :
    s.Closing ((s.declared h).closedBy h s.clock.run .lost) h .lost := by
  have receiver (e : RecvId) := State.receiver_writeReceiver s (s.hire h).receiver e (fun e => e.declaredLost (s.hire h).number)
  refine State.closedBy_closing law wf opened ((State.writeReceiver_only s _ _).sub (by decide)) (fun e other => ?_) ?_ .lost
  · exact (receiver e).trans (if_neg other)
  · exact (congrArg Receiver.serial ((receiver _).trans (if_pos rfl))).trans rfl

theorem State.hireOf_some (taken : (s.hire h).state ≠ .free) (first : ∀ k : HireId, k < h → (s.hire k).state = .free ∨ (s.hire k).number ≠ (s.hire h).number) :
    s.hireOf (s.hire h).number = some h := by
  refine (tblFind_eq_some _ _ _).mpr ⟨?_, fun k before => ?_⟩
  · rw [Bool.and_eq_true, bne_iff_ne, beq_iff_eq]
    exact ⟨taken, rfl⟩
  · rw [Bool.and_eq_false_iff]
    rcases first k before with free | other
    · exact .inl (bne_eq_false_iff_eq.mpr free)
    · exact .inr (beq_eq_false_iff_ne.mpr other)

theorem State.hireOf_none {number : BitVec 32} (absent : ∀ k : HireId, (s.hire k).state ≠ .free → (s.hire k).number ≠ number) :
    s.hireOf number = none := by
  refine (tblFind_eq_none _ _).mpr fun k => ?_
  rw [Bool.and_eq_false_iff]
  by_cases free : (s.hire k).state = .free
  · exact .inl (bne_eq_false_iff_eq.mpr free)
  · exact .inr (beq_eq_false_iff_ne.mpr (absent k free))

/-- The entry of a hire that has been settled is in no reservation that the settlement ended. -/
theorem State.Closing.settled_receiver {cause : CloseCause} (closing : s.Closing u h cause) :
    (u.settleHire h).receiver (s.hire h).receiver = u.receiver (s.hire h).receiver := by
  rw [State.settleHire_eq]
  exact (congrArg (fun v : Vector Receiver _ => v[(s.hire h).receiver]) (State.handTally_only _ _ _ .receivers (by decide))).trans
    (closing.ended_receiver _ fun k ends => closing.away ends)

theorem workDeclareLost_eq (s : State) (n : SlotId) : workDeclareLost s n =
    if BitVec.ofNat 32 (s.paramLE n 0 4) = 0 then refuse s .badArgument
    else (s.hireOf (BitVec.ofNat 32 (s.paramLE n 0 4))).elim (refuse s .notFound) (fun h =>
      if (s.hire h).state ≠ .opened then refuse s .state
      else (s.declareLost h, some (Result.done (leBytes 4 ((s.declareLost h).hire h).charge ++ leBytes 4 ((s.declareLost h).hire h).taken
        ++ leBytes 4 ((s.declareLost h).hire h).added)))) := by
  unfold workDeclareLost
  dsimp only
  split
  · rfl
  · cases s.hireOf (BitVec.ofNat 32 (s.paramLE n 0 4)) <;> rfl

theorem workDeclareLost_found (present : BitVec.ofNat 32 (s.paramLE n 0 4) ≠ 0) (found : s.hireOf (BitVec.ofNat 32 (s.paramLE n 0 4)) = some h)
    (opened : (s.hire h).state = .opened) : workDeclareLost s n = (s.declareLost h, some (Result.done (leBytes 4 ((s.declareLost h).hire h).charge
      ++ leBytes 4 ((s.declareLost h).hire h).taken ++ leBytes 4 ((s.declareLost h).hire h).added))) := by
  rw [workDeclareLost_eq, if_neg present, found]
  exact if_neg (not_not.mpr opened)

/-- Settles O47. -/
theorem declareLostSettles : Obligations.DeclareLostSettles := by
  intro s n rest takes
  have param {m : Memory} (taken : SlotTaken s n m) : (s.taken m rest).paramLE n 0 4 = s.paramLE n 0 4 := taken.paramLE rest (by omega)
  have small : s.paramLE n 0 4 < 2 ^ 32 := s.paramLE_lt n 0 4
  have number (k : Nat) (hk : k < 2 ^ 32) : (BitVec.ofNat 32 k).toNat = k := by
    rw [BitVec.toNat_ofNat, Nat.mod_eq_of_lt hk]
  have zero : BitVec.ofNat 32 (s.paramLE n 0 4) = 0 ↔ s.paramLE n 0 4 = 0 := by
    rw [← BitVec.toNat_inj, number _ small]
    rfl
  refine ⟨fun absent => ?_, fun present none => ?_, fun h present used named first => ⟨fun closed => ?_, fun opened law => ?_⟩⟩
  · refine State.completes_work takes (State.takes_kind takes) rfl rfl fun m taken => ?_
    rw [workDeclareLost_eq, param taken, if_pos (zero.mpr absent)]
    rfl
  · refine State.completes_work takes (State.takes_kind takes) rfl rfl fun m taken => ?_
    have missing : (s.taken m rest).hireOf (BitVec.ofNat 32 (s.paramLE n 0 4)) = .none := State.hireOf_none fun k used same => by
      refine none k used (Eq.trans ?_ (number _ small))
      exact congrArg BitVec.toNat same
    rw [workDeclareLost_eq, param taken, if_neg (fun e => present (zero.mp e)), missing]
    rfl
  · have found : s.hireOf (BitVec.ofNat 32 (s.paramLE n 0 4)) = some h := by
      rw [← named, BitVec.ofNat_toNat, BitVec.setWidth_eq]
      exact State.hireOf_some used first
    refine State.completes_work takes (State.takes_kind takes) rfl rfl fun m taken => ?_
    rw [workDeclareLost_eq, param taken, if_neg (fun e => present (zero.mp e)), show (s.taken m rest).hireOf _ = _ from found]
    exact if_pos closed
  · have found : s.hireOf (BitVec.ofNat 32 (s.paramLE n 0 4)) = some h := by
      rw [← named, BitVec.ofNat_toNat, BitVec.setWidth_eq]
      exact State.hireOf_some used first
    have wf := takes.2.2.2
    have closing := State.declared_closing law wf opened
    have settled := closing.settled
    have receiver := closing.settled_receiver
    have beside := (State.takes.beside takes).declareLost h
    have only := s.declareLost_only h
    rw [← State.declareLost_eq] at settled receiver
    extract_lets old acct charge taken added
    refine ⟨s.declareLost h, State.completes_beside takes (State.takes_kind takes) rfl ?_ beside, settled, receiver.trans ?_,
      only .booths (by decide), only .channels (by decide), only .clock (by decide), only .timers (by decide), only .framer (by decide)⟩
    · have hire : ((s.takeSlot n rest).declareLost h).hire h = (s.declareLost h).hire h := beside.same (fun u => u.hire h) (fun _ => rfl)
      have values := settled.1
      obtain ⟨-, m, taken, e⟩ := State.takes.beside takes
      rw [workDeclareLost_found (h := h), hire, values]
      · rw [e, param taken]
        exact fun e => present (zero.mp e)
      · rw [e, param taken]
        exact found
      · rw [e]
        exact opened
    · exact s.declared_receiver h

end

end Sys2Proof.Machine
end

section
/-!
SUPPORT. Insertions, said case by case and field by field (R105, R109 to R111, R113).
-/
namespace Sys2Proof.Machine

section
variable {s t : State} {p q : PosId} {e : RecvId} {x : Serial} {y : BitVec 4}

/-! ## Lamps and battery levels -/

theorem rewritten_cases {α : Type} [DecidableEq α] (bump : α → α) (f : α → α) (r : α) :
    (f r = r ∧ rewritten bump f r = r) ∨ rewritten bump f r = bump (f r) := by
  by_cases same : f r = r
  · exact .inl ⟨same, if_pos same⟩
  · exact .inr (if_neg same)

theorem State.heldEntry_some (held : (s.position p).entry = some e) : s.heldEntry p = some (s.receiver e) := by
  unfold State.heldEntry
  rw [show s.positions[p].entry = some e from held]
  rfl

/-- A lamp recomputed (R113). -/
theorem State.relampPos_facts (s : State) (p : PosId) : s.relampPos p = { s with positions := (s.relampPos p).positions }
    ∧ ((s.relampPos p).position p).litAs (s.position p)
    ∧ ((s.relampPos p).position p).lamp = dockLamp s.timers.battery (s.position p).state (s.heldEntry p)
    ∧ ∀ q, q ≠ p → (s.relampPos p).position q = s.position q := by
  have position (q : PosId) := State.position_rewritePosition s p q
    (fun r => { r with lamp := dockLamp s.timers.battery r.state (s.heldEntry p) })
  refine ⟨rfl, ?_, ?_, fun q other => (position q).trans (if_neg other)⟩
  · rw [State.relampPos, position, if_pos rfl]
    exact Position.rewritten_litAs _ _
  · rw [State.relampPos, position, if_pos rfl]
    rcases rewritten_cases Position.bump (fun q => { q with lamp := dockLamp s.timers.battery q.state (s.heldEntry p) }) (s.position p)
      with ⟨same, kept⟩ | changed
    · rw [kept]
      exact (congrArg Position.lamp same).symm
    · rw [changed]
      rfl

/-- A battery level written (R105, R109, R111). -/
theorem State.writeBattery_facts (held : (s.position p).entry = some e) (y : BitVec 4) {t : State} (ht : t = s.writeBattery p e y) :
    t = { s with positions := t.positions, receivers := t.receivers }
      ∧ t.receiver e = { s.receiver e with battery := y, changes := (t.receiver e).changes }
      ∧ (∀ d, d ≠ e → t.receiver d = s.receiver d)
      ∧ (t.position p).litAs (s.position p)
      ∧ (t.position p).lamp = dockLamp s.timers.battery (s.position p).state (some (t.receiver e))
      ∧ ∀ q, q ≠ p → t.position q = s.position q := by
  obtain ⟨u, hu⟩ : ∃ u, u = s.rewriteReceiver e (fun r => { r with battery := y }) := ⟨_, rfl⟩
  have receiver (d : RecvId) : u.receiver d = if d = e then rewritten Receiver.bump (fun r => { r with battery := y }) (s.receiver e) else s.receiver d := by
    rw [hu]
    exact State.receiver_rewriteReceiver s e d _
  have same : u = { s with receivers := u.receivers } := by
    rw [hu]
    rfl
  have place (q : PosId) : u.position q = s.position q := by rw [same]
  obtain ⟨only, lit, lamp, others⟩ := u.relampPos_facts p
  have relit : t = u.relampPos p := by
    rw [ht, hu]
    rfl
  have still (d : RecvId) : t.receiver d = u.receiver d := by rw [relit, only]
  rw [← relit] at only lit lamp others
  rw [State.heldEntry_some (s := u) (e := e) (by rw [place]; exact held), ← still, place, show u.timers = s.timers by rw [same]] at lamp
  refine ⟨?_, ?_, fun d other => ?_, place p ▸ lit, lamp, fun q other => (others q other).trans (place q)⟩
  · rw [only, same]
  · rw [still, receiver, if_pos rfl]
    rcases rewritten_cases Receiver.bump (fun r => { r with battery := y }) (s.receiver e) with ⟨same, kept⟩ | changed
    · rw [kept]
      exact same.symm
    · rw [changed]
      rfl
  · rw [still, receiver, if_neg other]

/-! ## The branches of an INSERT -/

theorem State.takeInsert_reseat (state : (s.position p).state = .settlingOut) (held : (s.position p).entry = some e)
    (serial : (s.receiver e).serial = x) : s.takeInsert p x y = s.reseat p e y := by
  unfold State.takeInsert
  dsimp only
  rw [show s.positions[p].state = _ from state, show s.positions[p].entry = _ from held]
  exact if_pos serial

theorem State.takeInsert_repeated (state : (s.position p).state = .occupied) (held : (s.position p).entry = some e)
    (serial : (s.receiver e).serial = x) : s.takeInsert p x y = s.writeBattery p e y := by
  unfold State.takeInsert
  dsimp only
  rw [show s.positions[p].state = _ from state, show s.positions[p].entry = _ from held]
  exact if_pos serial

theorem State.takeInsert_replaced (state : (s.position p).state = .occupied ∨ (s.position p).state = .settlingOut)
    (held : (s.position p).entry = some e) (serial : (s.receiver e).serial ≠ x) : s.takeInsert p x y
      = (s.removal p (if (s.position p).state = .settlingOut then (s.position p).rawRemoval else s.clock.run) false).insertAt p x y := by
  unfold State.takeInsert
  dsimp only
  rw [show s.positions[p].entry = _ from held]
  rcases state with state | state
  · rw [show s.positions[p].state = _ from state, if_neg (fun e => nomatch e)]
    exact if_neg serial
  · rw [show s.positions[p].state = _ from state, if_pos rfl]
    exact if_neg serial

theorem State.takeInsert_unheld (state : (s.position p).state = .occupied) (none : (s.position p).entry = none) :
    s.takeInsert p x y = (s.writePosition p (fun r => { r with removals := satAdd 16 r.removals 1 })).insertAt p x y := by
  unfold State.takeInsert
  dsimp only
  rw [show s.positions[p].state = _ from state, show s.positions[p].entry = _ from none]

theorem State.takeInsert_inserted (state : (s.position p).state = .empty ∨ (s.position p).state = .fault) :
    s.takeInsert p x y = s.insertAt p x y := by
  unfold State.takeInsert
  dsimp only
  rcases state with state | state
  · rw [show s.positions[p].state = _ from state]
  · rw [show s.positions[p].state = _ from state]

/-! ## The parts of an insertion -/

theorem State.clearElsewhere_unknown (unknown : s.entryOf x = none) : s.clearElsewhere x = s := by
  unfold State.clearElsewhere
  rw [unknown]
  rfl

theorem State.clearElsewhere_unheld (found : s.entryOf x = some e) (unheld : s.posHolding e = none) : s.clearElsewhere x = s := by
  unfold State.clearElsewhere
  rw [found, Option.bind_some, unheld]

theorem State.clearElsewhere_held (found : s.entryOf x = some e) (held : s.posHolding e = some q) : s.clearElsewhere x
    = s.removal q (if (s.position q).state = .settlingOut then (s.position q).rawRemoval else s.clock.run) true := by
  unfold State.clearElsewhere
  rw [found, Option.bind_some, held]

theorem State.takeInsertion_known (found : s.entryOf x = some e) : s.takeInsertion p x y
    = (((s.occupy p (some e)).writeReceiver e (fun r => r.inserted p y s.logBlocked)).afterInsertion e (s.receiver e)).relampPos p := by
  unfold State.takeInsertion
  rw [found]

theorem State.takeInsertion_enrolled (unknown : s.entryOf x = none) (lowest : (s.receiver e).serial = 0)
    (first : ∀ d : RecvId, d < e → (s.receiver d).serial ≠ 0) : s.takeInsertion p x y
    = ((s.occupy p (some e)).writeReceiver e (fun r => r.enrolled x p y)).relampPos p := by
  have found : tblFind s.receivers (fun r => r.serial == 0) = some e :=
    (tblFind_eq_some _ _ _).mpr ⟨beq_iff_eq.mpr lowest, fun d before => beq_eq_false_iff_ne.mpr (first d before)⟩
  unfold State.takeInsertion
  rw [unknown]
  dsimp only
  rw [found]

theorem State.takeInsertion_full (unknown : s.entryOf x = none) (full : ∀ d : RecvId, (s.receiver d).serial ≠ 0) :
    s.takeInsertion p x y = (s.occupy p none).raise .dock := by
  have found : tblFind s.receivers (fun r => r.serial == 0) = none :=
    (tblFind_eq_none _ _).mpr fun d => beq_eq_false_iff_ne.mpr (full d)
  unfold State.takeInsertion
  rw [unknown]
  dsimp only
  rw [found]

/-! ## A receiver taken in -/

theorem State.occupy_own (s : State) (p : PosId) (o : Option RecvId) : (s.occupy p o).position p = ({ s.position p with
    state := .occupied, entry := o, insertions := min 65535 ((s.position p).insertions + 1)
    lamp := if o.isNone then .error else (s.position p).lamp } : Position).bump :=
  (State.position_writePosition s p p _).trans (if_pos rfl)

/-- The position at which an entry stands once it is taken in, its lamp recomputed (R111 step 3, R113). -/
theorem State.placed_facts {u : State} (place : ∀ q, u.position q = (s.occupy p (some e)).position q) (ht : t = u.relampPos p) :
    t = { u with positions := t.positions } ∧ (t.position p).state = .occupied ∧ (t.position p).entry = some e
      ∧ (t.position p).insertions = min 65535 ((s.position p).insertions + 1)
      ∧ (t.position p).lamp = dockLamp u.timers.battery .occupied (some (u.receiver e)) := by
  have own : u.position p = _ := (place p).trans (s.occupy_own p (some e))
  obtain ⟨only, lit, lamp, -⟩ := u.relampPos_facts p
  rw [← ht] at only lit lamp
  rw [State.heldEntry_some (s := u) (p := p) (e := e) (by rw [own]; rfl), own] at lamp
  obtain ⟨l, c, lit⟩ := lit
  refine ⟨only, ?_, ?_, ?_, lamp⟩
  all_goals
    rw [lit, own]
    rfl

/-- An entry written as its receiver is taken in, with nothing to follow (R110, R111 step 3). -/
theorem State.placed_only (f : Receiver → Receiver) (ht : t = ((s.occupy p (some e)).writeReceiver e f).relampPos p) :
    t = { s with positions := t.positions, receivers := t.receivers } ∧ (t.position p).state = .occupied ∧ (t.position p).entry = some e
      ∧ (t.position p).insertions = min 65535 ((s.position p).insertions + 1)
      ∧ t.receiver e = (f (s.receiver e)).bump
      ∧ (t.position p).lamp = dockLamp s.timers.battery .occupied (some (t.receiver e)) := by
  obtain ⟨u, hu⟩ : ∃ u, u = (s.occupy p (some e)).writeReceiver e f := ⟨_, rfl⟩
  have same : u = { s.occupy p (some e) with receivers := u.receivers } := by
    rw [hu]
    rfl
  have receiver : u.receiver e = (f (s.receiver e)).bump := by
    rw [hu]
    exact (State.receiver_writeReceiver (s.occupy p (some e)) e e f).trans (if_pos rfl)
  obtain ⟨only, state, entry, insertions, lamp⟩ := State.placed_facts (u := u) (s := s) (e := e) (fun q => by rw [same]) (hu ▸ ht)
  have still : t.receiver e = u.receiver e := by rw [only]
  refine ⟨?_, state, entry, insertions, still.trans receiver, ?_⟩
  · rw [only, same]
    rfl
  · rw [still, lamp, same]
    rfl

/-! ## A position set to another record -/

/-- The part with another table of positions. -/
def State.repositioned (s : State) (v : Vector Position 320) : State := { s with positions := v }

theorem State.repositioned_position (s : State) (v : Vector Position 320) (q : PosId) : (s.repositioned v).position q = v[q] := rfl

theorem State.repositioned_endOwner (s : State) (v : Vector Position 320) (o : StandingOwner) (r : Result) :
    (s.repositioned v).endOwner o r = (s.endOwner o r).repositioned v := by
  unfold State.endOwner
  rw [show (s.repositioned v).standingOf o = s.standingOf o from rfl]
  cases s.standingOf o with
  | none => rfl
  | some u => rfl

theorem State.repositioned_openHire (s : State) (v : Vector Position 320) (e : RecvId) (k : Nat) :
    (s.repositioned v).openHire e k = (s.openHire e k).repositioned v := by
  cases named : (s.receiver e).hire with
  | none =>
    unfold State.openHire
    rw [show (s.repositioned v).receivers[e].hire = none from named, show s.receivers[e].hire = none from named]
  | some h =>
    rw [State.openHire_of named, State.openHire_of (s := s.repositioned v) named]
    exact State.repositioned_endOwner (s.opened h e k) v _ _

theorem State.repositioned_removal {v : Vector Position 320} (own : v[q] = s.position q) (k : Nat) (keep : Bool) :
    (s.repositioned v).removal q k keep = (s.removal q k keep).repositioned (v.set q ((s.position q).vacated keep).bump) := by
  have vacated : (s.repositioned v).vacated q keep = (s.vacated q keep).repositioned (v.set q ((s.position q).vacated keep).bump) := by
    rw [← own]
    rfl
  unfold State.removal
  extract_lets pos s1 pos' s1'
  have e1 : s1 = s1'.repositioned (v.set q ((s.position q).vacated keep).bump) := vacated
  have e0 : pos = pos' := own
  rw [e0, e1]
  generalize s1' = u
  cases pos'.entry with
  | none => rfl
  | some e =>
    dsimp only
    rw [show (s.repositioned v).receivers[e].state = s.receivers[e].state from rfl]
    cases s.receivers[e].state with
    | reserved => exact State.repositioned_openHire u _ e k
    | docked => rfl
    | retired => rfl
    | unenrolled => rfl
    | onHire => rfl
    | silent => rfl
    | adrift => rfl
    | lost => rfl

/-- The same table but for the state of one position, which holds nothing. -/
structure Relabelled (p : PosId) (v w : Vector Position 320) : Prop where
  other : ∀ q, q ≠ p → v[q] = w[q]
  own : { v[p] with state := .occupied } = { w[p] with state := .occupied }
  free : v[p].entry = none

section
variable {v w : Vector Position 320}

theorem Relabelled.entry (like : Relabelled p v w) (q : PosId) : v[q].entry = w[q].entry := by
  by_cases own : q = p
  · subst own
    exact (congrArg Position.entry like.own :)
  · rw [like.other q own]

theorem Relabelled.set (like : Relabelled p v w) {q : PosId} (apart : q ≠ p) (r : Position) : Relabelled p (v.set q r) (w.set q r) := by
  refine ⟨fun z other => ?_, ?_, ?_⟩
  · rw [get_set, get_set, like.other z other]
  · rw [get_set, get_set, if_neg apart.symm, if_neg apart.symm]
    exact like.own
  · rw [get_set, if_neg apart.symm]
    exact like.free

theorem Relabelled.occupy (like : Relabelled p v w) (s : State) (o : Option RecvId) :
    (s.repositioned v).occupy p o = (s.repositioned w).occupy p o := by
  refine congrArg s.repositioned (Vector.ext fun i hi => ?_)
  have split (z : Vector Position 320) := get_set z p ⟨i, hi⟩ (({ { z[p] with state := .occupied } with
    entry := o, insertions := satAdd 16 z[p].insertions 1, lamp := if o.isNone then .error else z[p].lamp } : Position).bump)
  by_cases own : (⟨i, hi⟩ : PosId) = p
  · refine (split v).trans ((if_pos own).trans (Eq.trans ?_ ((split w).trans (if_pos own)).symm))
    exact congrArg (fun r : Position => ({ r with
      entry := o, insertions := satAdd 16 r.insertions 1, lamp := if o.isNone then .error else r.lamp } : Position).bump) like.own
  · exact (split v).trans ((if_neg own).trans ((like.other _ own).trans ((split w).trans (if_neg own)).symm))

theorem Relabelled.takeInsertion (like : Relabelled p v w) (s : State) (x : Serial) (y : BitVec 4) :
    (s.repositioned v).takeInsertion p x y = (s.repositioned w).takeInsertion p x y := by
  unfold State.takeInsertion
  rw [show (s.repositioned v).entryOf x = s.entryOf x from rfl, show (s.repositioned w).entryOf x = s.entryOf x from rfl]
  cases s.entryOf x with
  | some e =>
    dsimp only
    rw [like.occupy]
    rfl
  | none =>
    dsimp only
    rw [show (s.repositioned v).receivers = s.receivers from rfl, show (s.repositioned w).receivers = s.receivers from rfl]
    cases tblFind s.receivers (fun r => r.serial == 0) with
    | some e =>
      dsimp only
      rw [like.occupy]
    | none =>
      dsimp only
      rw [like.occupy]

theorem Relabelled.insertAt (like : Relabelled p v w) (s : State) (x : Serial) (y : BitVec 4) :
    (s.repositioned v).insertAt p x y = (s.repositioned w).insertAt p x y := by
  have holding (e : RecvId) : (s.repositioned v).posHolding e = (s.repositioned w).posHolding e := by
    refine Option.ext fun q => ?_
    unfold State.posHolding
    have entry (z : PosId) : (s.repositioned v).positions[z].entry = (s.repositioned w).positions[z].entry := like.entry z
    rw [tblFind_eq_some, tblFind_eq_some, entry]
    exact and_congr_right fun _ => forall_congr' fun z => by rw [entry]
  unfold State.insertAt State.clearElsewhere
  rw [show (s.repositioned v).entryOf x = s.entryOf x from rfl, show (s.repositioned w).entryOf x = s.entryOf x from rfl]
  cases s.entryOf x with
  | none => exact like.takeInsertion s x y
  | some e =>
    rw [Option.bind_some, Option.bind_some, ← holding]
    cases held : (s.repositioned v).posHolding e with
    | none => exact like.takeInsertion s x y
    | some q =>
      have entry : v[q].entry = some e := State.posHolding_some held
      have apart : q ≠ p := fun own => by
        rw [own, like.free] at entry
        exact nomatch entry
      have same : w[q] = v[q] := (like.other q apart).symm
      dsimp only
      rw [show (s.repositioned w).positions[q] = (s.repositioned v).positions[q] from same]
      obtain ⟨k, hk⟩ : ∃ k, k = if v[q].state = .settlingOut then v[q].rawRemoval else s.clock.run := ⟨_, rfl⟩
      have removedV : (s.repositioned v).removal q k true = ((s.repositioned v).removal q k true).repositioned (v.set q (v[q].vacated true).bump) :=
        State.repositioned_removal (s := s.repositioned v) (v := v) rfl k true
      have removedW : (s.repositioned w).removal q k true = ((s.repositioned v).removal q k true).repositioned (w.set q (v[q].vacated true).bump) :=
        State.repositioned_removal (s := s.repositioned v) (v := w) same k true
      have inserted := (like.set apart (v[q].vacated true).bump).takeInsertion ((s.repositioned v).removal q k true) x y
      rw [← removedV, ← removedW, hk] at inserted
      exact inserted

end

end

end Sys2Proof.Machine
end

section
/-!
SUPPORT. A reseat (R109, R127), and the receivers that come back to a rack: returned (R133) or found (R111).
-/
namespace Sys2Proof.Machine

section
variable {s t : State} {p q : PosId} {e : RecvId} {h : HireId} {x : Serial} {y : BitVec 4}

/-! ## Reseats -/

theorem State.posHolding_congr (same : ∀ q, (t.position q).entry = (s.position q).entry) (e : RecvId) : t.posHolding e = s.posHolding e := by
  refine Option.ext fun q => ?_
  unfold State.posHolding
  have entry (z : PosId) : t.positions[z].entry = s.positions[z].entry := same z
  rw [tblFind_eq_some, tblFind_eq_some, entry]
  exact and_congr_right fun _ => forall_congr' fun z => by rw [entry]

/-- A position OCCUPIED again, its battery level written (R109). -/
def State.reseated (s : State) (p : PosId) (e : RecvId) (y : BitVec 4) : State :=
  (s.writePosition p (fun r => { r with state := .occupied })).writeBattery p e y

/-- The entry's reservation, its deadline past, ends when the entry is reseated (R127). -/
def State.overdue (s : State) (e : RecvId) (h : HireId) : Prop :=
  (s.receiver e).hire = some h ∧ (s.receiver e).state = .reserved ∧ (s.hire h).state = .reserving ∧ (s.hire h).passed = true

theorem State.reseated_facts (held : (s.position p).entry = some e) (y : BitVec 4) (ht : t = s.reseated p e y) :
    t = { s with positions := t.positions, receivers := t.receivers }
      ∧ t.receiver e = { s.receiver e with battery := y, changes := (t.receiver e).changes }
      ∧ (t.position p).state = .occupied ∧ (t.position p).insertions = (s.position p).insertions
      ∧ (t.position p).removals = (s.position p).removals
      ∧ (∀ q, (t.position q).entry = (s.position q).entry)
      ∧ (∀ q, q ≠ p → t.position q = s.position q) ∧ (∀ d, d ≠ e → t.receiver d = s.receiver d)
      ∧ (t.position p).lamp = dockLamp s.timers.battery .occupied (some (t.receiver e)) := by
  obtain ⟨u, hu⟩ : ∃ u, u = s.writePosition p (fun r => { r with state := .occupied }) := ⟨_, rfl⟩
  have place (q : PosId) : u.position q = if q = p then ({ s.position p with state := .occupied } : Position).bump else s.position q := by
    rw [hu]
    exact State.position_writePosition s p q _
  have own := (place p).trans (if_pos rfl)
  have same : u = { s with positions := u.positions } := by
    rw [hu]
    rfl
  obtain ⟨only, receiver, others, ⟨l, c, lit⟩, lamp, rest⟩ := State.writeBattery_facts (s := u) (e := e)
    (by rw [own]; exact held) y (t := t) (by rw [ht, hu]; rfl)
  rw [own] at lit lamp
  refine ⟨?_, ?_, ?_, ?_, ?_, fun q => ?_, fun q other => ?_, fun d other => ?_, ?_⟩
  · rw [only, same]
  · rw [receiver, same]
  · rw [lit]
    rfl
  · rw [lit]
    rfl
  · rw [lit]
    rfl
  · by_cases at' : q = p
    · rw [at', lit]
      rfl
    · rw [rest q at', place, if_neg at']
  · rw [rest q other, place, if_neg other]
  · rw [others d other, same]
  · rw [lamp, same]
    rfl

theorem State.reseat_kept (none : ¬ ∃ h, (s.reseated p e y).overdue e h) : s.reseat p e y = s.reseated p e y := by
  unfold State.reseat
  extract_lets s1
  have e1 : s1 = s.reseated p e y := rfl
  rw [e1]
  cases named : (s.reseated p e y).receivers[e].hire with
  | none => rfl
  | some h => exact if_neg fun due => none ⟨h, named, due⟩

theorem State.reseat_overdue (due : (s.reseated p e y).overdue e h) : s.reseat p e y = (s.reseated p e y).endReservation h .expired .noReason := by
  obtain ⟨named, due⟩ := due
  unfold State.reseat
  extract_lets s1
  have e1 : s1 = s.reseated p e y := rfl
  rw [e1, show (s.reseated p e y).receivers[e].hire = some h from named]
  exact if_pos due

/-- The position of a reservation that ends (R113, R114, R125). -/
theorem State.endReservation_place (own : (s.hire h).receiver = e) (held : s.posHolding e = some p) (code : ResultCode) (reason : Reason)
    (ht : t = s.endReservation h code reason) : (t.position p).litAs (s.position p)
      ∧ (t.position p).lamp = dockLamp s.timers.battery (s.position p).state (some (t.receiver e))
      ∧ t.presets.get p = (s.presets.get p).filter (fun z => z.sent) := by
  subst own
  obtain ⟨w, hw⟩ : ∃ w, w = ((s.updAccount (s.hire h).account (fun a => a.release (s.hire h).hold)).withdrawPreset (s.hire h).receiver).writeReceiver
    (s.hire h).receiver (fun e => { e with state := .docked, hire := none }) := ⟨_, rfl⟩
  have released : s.released h = (w.relampHolder (s.hire h).receiver).writeHire h (fun x => { x with state := .free }) := by
    rw [hw]
    rfl
  have withdrawn : (s.updAccount (s.hire h).account (fun a => a.release (s.hire h).hold)).withdrawPreset (s.hire h).receiver
      = (s.updAccount (s.hire h).account (fun a => a.release (s.hire h).hold)).dropWaiting p := by
    unfold State.withdrawPreset
    rw [show (s.updAccount (s.hire h).account (fun a => a.release (s.hire h).hold)).posHolding (s.hire h).receiver = some p from held]
  rw [withdrawn] at hw
  have positions : w.positions = s.positions := by
    rw [hw]
    rfl
  have relit : w.relampHolder (s.hire h).receiver = w.relampPos p := by
    unfold State.relampHolder
    rw [show w.posHolding (s.hire h).receiver = some p by rw [hw]; exact held]
  rw [relit] at released
  obtain ⟨only, lit, lamp, -⟩ := w.relampPos_facts p
  have same := s.endReservation_same h code reason
  have place : t.position p = (w.relampPos p).position p := by
    rw [ht, same, released]
    rfl
  have receiver : t.receiver (s.hire h).receiver = w.receiver (s.hire h).receiver := by
    rw [ht, same, released, only]
    rfl
  have before : w.position p = s.position p := congrArg (fun v : Vector Position _ => v[p]) positions
  refine ⟨?_, ?_, ?_⟩
  · rw [place, ← before]
    exact lit
  · rw [place, lamp, receiver, State.heldEntry_some (e := (s.hire h).receiver) (by rw [before]; exact State.posHolding_some held), before, hw]
    rfl
  · have presets : t.presets = w.presets := by
      rw [ht, same, released, only]
      rfl
    rw [presets, hw]
    exact (State.preset_setPreset _ p p _).trans (if_pos rfl)

/-- A reseat that finds the reserve deadline past (R127). -/
theorem State.reseat_overdue_facts (held : s.posHolding e = some p) (own : (s.hire h).receiver = e) (due : s.overdue e h) (y : BitVec 4)
    (ht : t = s.reseat p e y) : (t.position p).state = .occupied ∧ (t.position p).insertions = (s.position p).insertions
      ∧ (t.position p).lamp = dockLamp s.timers.battery .occupied (some (t.receiver e))
      ∧ t.receiver e = { s.receiver e with battery := y, state := .docked, hire := none, changes := (t.receiver e).changes }
      ∧ t.hire h = ({ s.hire h with state := .free } : Hire).bump
      ∧ (t.account (s.hire h).account).holds = (s.account (s.hire h).account).holds - (s.hire h).hold
      ∧ (t.account (s.hire h).account).count = (s.account (s.hire h).account).count - 1
      ∧ t.presets.get p = (s.presets.get p).filter (fun z => z.sent)
      ∧ ∀ z : Standing, s.standingOf (.issue h) = some z → s.memOk → t.orders.standing = s.orders.standing.filter (fun w => w.slot ≠ z.slot)
        ∧ t.mem.shows z.slot { code := .expired, reason := .noReason, clamped := z.clamped, already := false, values := s.issueValues h } := by
  obtain ⟨named, reserved, reserving, passed⟩ := due
  obtain ⟨u, hu⟩ : ∃ u, u = s.reseated p e y := ⟨_, rfl⟩
  obtain ⟨only, receiver, state, insertions, -, entries, -, others, -⟩ := State.reseated_facts (State.posHolding_some held) y hu
  have hire : u.hire h = s.hire h := by rw [only]
  have dueU : u.overdue e h := by
    unfold State.overdue
    rw [receiver, hire]
    exact ⟨named, reserved, reserving, passed⟩
  have ended : t = u.endReservation h .expired .noReason := by
    rw [ht, hu]
    exact State.reseat_overdue (hu ▸ dueU)
  obtain ⟨freed, docked, holds, count, standing⟩ := u.endReservation_facts h .expired .noReason ended
  obtain ⟨⟨l, c, lit⟩, lamp, preset⟩ := State.endReservation_place (s := u) (h := h) (p := p) (e := e) ((congrArg Hire.receiver hire).trans own)
    ((State.posHolding_congr entries e).trans held) .expired .noReason ended
  have account (a : AcctId) : u.account a = s.account a := by rw [only]
  have values : u.issueValues h = s.issueValues h := by
    refine State.issueValues_of (congrArg Hire.number hire) (congrArg Hire.receiver hire) (fun d => ?_) (fun d => ?_)
    all_goals
      by_cases same : d = e
      · rw [same, receiver]
      · rw [others d same]
  rw [hire] at freed docked holds count
  rw [own] at docked
  rw [account] at holds count
  rw [values] at standing
  refine ⟨?_, ?_, ?_, ?_, freed, holds, count, ?_, fun z found wf => ?_⟩
  · rw [lit]
    exact state
  · rw [lit]
    exact insertions
  · rw [lamp, state, only]
  · rw [docked, receiver]
    rfl
  · rw [preset, only]
  · obtain ⟨left, answers⟩ := standing z (by rw [State.standingOf, only]; exact found) (by rw [State.memOk, only]; exact wf)
    rw [only] at left
    exact ⟨left, answers.1⟩

/-! ## Returns -/

/-- A receiver taken in at a position, its position's lamp and what follows still to come (R111 step 3). -/
def State.takenIn (s : State) (p : PosId) (e : RecvId) (y : BitVec 4) : State :=
  (s.occupy p (some e)).writeReceiver e (fun r => r.inserted p y s.logBlocked)

theorem State.takenIn_only (s : State) (p : PosId) (e : RecvId) (y : BitVec 4) : s.onlyIn [.receivers, .positions] (s.takenIn p e y) :=
  (show s.onlyIn [.receivers, .positions] (s.occupy p (some e)) from (State.writePosition_only s p _).sub (by decide)).next
    (State.writeReceiver_only _ e _) (by decide)

theorem State.takenIn_receiver (s : State) (p : PosId) (e : RecvId) (y : BitVec 4) (d : RecvId) :
    (s.takenIn p e y).receiver d = if d = e then ((s.receiver e).inserted p y s.logBlocked).bump else s.receiver d :=
  State.receiver_writeReceiver (s.occupy p (some e)) e d _

/-- An insertion at an EMPTY position of a receiver that no position holds (R111 step 3). -/
theorem State.takeInsert_known (empty : (s.position p).state = .empty) (found : s.entryOf x = some e) (unheld : s.posHolding e = none) :
    s.takeInsert p x y = ((s.takenIn p e y).afterInsertion e (s.receiver e)).relampPos p := by
  rw [State.takeInsert_inserted (.inl empty), State.insertAt, State.clearElsewhere_unheld found unheld, State.takeInsertion_known found]
  rfl

theorem State.afterInsertion_returned (out : (s.receiver e).state = .onHire ∨ (s.receiver e).state = .silent) (named : (s.receiver e).hire = some h)
    (opened : (s.hire h).state = .opened) : (s.takenIn p e y).afterInsertion e (s.receiver e) = (s.takenIn p e y).closeHire h s.clock.run .returned := by
  have returned : (s.takenIn p e y).returnHire (s.receiver e).hire s.clock.run = (s.takenIn p e y).closeHire h s.clock.run .returned := by
    unfold State.returnHire
    rw [named]
    exact if_pos opened
  unfold State.afterInsertion
  rcases out with state | state
  · rw [state]
    exact returned
  · rw [state]
    exact returned

/-- What the ends of other receivers' reservations leave of a hire and of an entry. -/
structure State.Spared (s t : State) (h : HireId) (e : RecvId) : Prop where
  hire : t.hire h = s.hire h
  receiver : t.receiver e = s.receiver e
  named : ∀ k, (t.hire k).receiver = (s.hire k).receiver

theorem State.Spared.drop {k : HireId} (spared : s.Spared t h e) (other : k ≠ h) (away : (s.hire k).receiver ≠ e) (code : ResultCode)
    (reason : Reason) : s.Spared (t.dropReservation k code reason) h e := by
  have dropped := t.dropReservation_dropped k code reason
  refine ⟨?_, ?_, fun j => ?_⟩
  · rw [dropped.hires, if_neg fun m => other (List.mem_singleton.mp m).symm]
    exact spared.hire
  · rw [dropped.away e fun j m => by rw [List.mem_singleton.mp m, spared.named]; exact away]
    exact spared.receiver
  · rw [dropped.hires, ← spared.named]
    split <;> rfl

theorem State.reservationsEnded_spared {u : State} (closed : (u.hire h).state ≠ .reserving)
    (free : ∀ k, (u.hire k).state = .reserving → (u.hire k).receiver ≠ e) : u.Spared (u.reservationsEnded h) h e := by
  unfold State.reservationsEnded
  split
  · refine State.each_induct (P := fun v => u.Spared v h e) (f := fun s k => s.dropReservation k .refused .accountHeld)
      (fun v k m spared => ?_) (⟨rfl, rfl, fun _ => rfl⟩ : u.Spared (u.divided h) h e)
    have m : (u.hire k).state = .reserving := by
      have both := (mem_tblAll _ _ k).mp m
      rw [Bool.and_eq_true, beq_iff_eq] at both
      exact both.1
    exact spared.drop (fun own => closed (own ▸ m)) (free k m) _ _
  · exact ⟨rfl, rfl, fun _ => rfl⟩

/-- What the settlement of a hire leaves of an entry with no reservation, and of the hire's own end (R133, R135). -/
theorem State.closeHire_spares (free : ∀ k, (s.hire k).state = .reserving → (s.hire k).receiver ≠ e) (k : Nat) (cause : CloseCause)
    (ht : t = s.closeHire h k cause) : t.receiver e = s.receiver e ∧ ((t.hire h).state = .free ∨ (t.hire h).state = .closedWaiting)
      ∧ (t.hire h).endTick = k ∧ (t.hire h).cause = cause := by
  obtain ⟨u, hu⟩ : ∃ u, u = s.closedBy h k cause := ⟨_, rfl⟩
  have hire (j : HireId) : u.hire j = if j = h then ((s.hire h).ended s.logBlocked k (s.clock.stamp k) cause).bump else s.hire j := by
    rw [hu]
    exact State.closedBy_hire k cause j
  have own := (hire h).trans (if_pos rfl)
  have state : (u.hire h).state = if s.logBlocked then .closedWaiting else .free := by
    rw [own]
    rfl
  have spared : u.Spared (u.reservationsEnded h) h e := by
    refine State.reservationsEnded_spared ?_ fun j reserving => ?_
    · rw [state]
      split <;> exact fun e => nomatch e
    · by_cases same : j = h
      · rw [same, state] at reserving
        split at reserving <;> exact nomatch reserving
      · rw [hire, if_neg same] at reserving ⊢
        exact free j reserving
  have settled : t = (u.charged h).handTally (.hire h) (.hireClosed ((u.charged h).hireRecord h)) := by
    rw [ht, State.closeHire_eq, ← hu, State.settleHire_eq]
  have receiver : t.receiver e = u.receiver e := by
    rw [settled]
    exact (congrArg (fun v : Vector Receiver _ => v[e]) ((State.handTally_only _ _ _ .receivers (by decide)).trans
      (u.charged_only h .receivers (by decide)))).trans spared.receiver
  have closed : t.hire h = (u.charged h).hire h := by
    rw [settled]
    exact congrArg (fun v : Vector Hire _ => v[h]) (State.handTally_only _ _ _ .hires (by decide))
  rw [State.charged_hire, if_pos rfl, spared.hire] at closed
  refine ⟨?_, ?_, ?_, ?_⟩
  · rw [receiver, hu]
    exact congrArg (fun v : Vector Receiver _ => v[e]) (State.writeHire_only s h _ .receivers (by decide))
  · have now : (t.hire h).state = (u.hire h).state := by rw [closed]; rfl
    rw [now, state]
    split
    · exact .inr rfl
    · exact .inl rfl
  · rw [closed, own]
    rfl
  · rw [closed, own]
    rfl

theorem State.settled_repositioned {cause : CloseCause} (v : Vector Position 320) (settled : s.settled t h cause) :
    s.settled (t.repositioned v) h cause := settled

/-- A receiver on hire put back into a rack (R133, R135, R157 to R159). -/
theorem State.takeInsert_returned (empty : (s.position p).state = .empty) (found : s.entryOf x = some e) (unheld : s.posHolding e = none)
    (out : (s.receiver e).state = .onHire ∨ (s.receiver e).state = .silent) (named : (s.receiver e).hire = some h)
    (opened : (s.hire h).state = .opened) (free : ∀ k, (s.hire k).state = .reserving → (s.hire k).receiver ≠ e)
    (ht : t = s.takeInsert p x y) : (t.receiver e).state = .docked ∧ (t.receiver e).hire = none ∧ (t.receiver e).dock = some p
      ∧ ((t.hire h).state = .free ∨ (t.hire h).state = .closedWaiting) ∧ (t.hire h).endTick = s.clock.run ∧ (t.hire h).cause = .returned
      ∧ (s.hiresOk → s.slotsOk → s.settled t h .returned) := by
  obtain ⟨w, hw⟩ : ∃ w, w = (s.takenIn p e y).closeHire h s.clock.run .returned := ⟨_, rfl⟩
  have only := s.takenIn_only p e y
  have hires : (s.takenIn p e y).hires = s.hires := only .hires (by decide)
  have hire (k : HireId) : (s.takenIn p e y).hire k = s.hire k := congrArg (fun v : Vector Hire _ => v[k]) hires
  have relit : t = w.repositioned (w.relampPos p).positions := by
    rw [ht, State.takeInsert_known empty found unheld, State.afterInsertion_returned out named opened, hw]
    rfl
  obtain ⟨receiver, state, tick, cause⟩ := State.closeHire_spares (s := s.takenIn p e y) (e := e) (h := h)
    (fun k reserving => by rw [hire] at reserving ⊢; exact free k reserving) s.clock.run .returned hw
  rw [State.takenIn_receiver, if_pos rfl] at receiver
  have inserted : ((s.receiver e).inserted p y s.logBlocked).state = .docked ∧ ((s.receiver e).inserted p y s.logBlocked).hire = none
      ∧ ((s.receiver e).inserted p y s.logBlocked).dock = some p := by
    unfold Receiver.inserted
    rcases out with state | state
    · rw [state]
      exact ⟨rfl, rfl, rfl⟩
    · rw [state]
      exact ⟨rfl, rfl, rfl⟩
  have entry : t.receiver e = ((s.receiver e).inserted p y s.logBlocked).bump := by
    rw [relit]
    exact receiver
  obtain ⟨docked, left, dock⟩ := inserted
  refine ⟨?_, ?_, ?_, ?_, ?_, ?_, fun law slots => ?_⟩
  · rw [entry]
    exact docked
  · rw [entry]
    exact left
  · rw [entry]
    exact dock
  · rw [relit]
    exact state
  · rw [relit]
    exact tick
  · rw [relit]
    exact cause
  · have own : (s.hire h).receiver = e := by
      obtain ⟨k, named', -, own⟩ := law.2.2.2.2.1 e out
      obtain rfl := Option.some.inj (named.symm.trans named')
      exact own
    have closing : s.Closing ((s.takenIn p e y).closedBy h s.clock.run .returned) h .returned := by
      refine State.closedBy_closing law slots.1 opened (only.sub (by decide)) (fun d other => ?_) ?_ .returned
      · rw [State.takenIn_receiver, if_neg (own ▸ other)]
      · rw [own, State.takenIn_receiver, if_pos rfl]
        exact (s.receiver e).inserted_serial p y s.logBlocked
    rw [relit, hw, State.closeHire_eq]
    exact State.settled_repositioned _ closing.settled

end

end Sys2Proof.Machine
end

section
/-!
SUPPORT. What an answer's changes, reports and results do (R105, R108 to R112, R127, R132, O43).
-/
namespace Sys2Proof.Machine

section
variable {s t : State} {p q : PosId} {e : RecvId} {h : HireId} {x : Serial} {y : BitVec 4}

/-! ## Findings -/

/-- A finding handed to the log writer (R111, R141). -/
theorem State.handFound_log (s : State) (e : RecvId) (place : FoundWhere) (waiting : Bool) {t : State} (ht : t = s.handFound e place waiting) :
    (waiting = true → t.log = s.log)
      ∧ (waiting = false → s.logBlocked = true → t.log = { s.log with
          waiting := s.log.waiting ++ [{ owner := .receiver e, record := .receiverFound (s.foundRecord e place) }] })
      ∧ (waiting = false → s.logBlocked = false → t.log.writeCount = s.log.writeCount + 1) := by
  subst ht
  refine ⟨fun still => ?_, fun fresh blocked => ?_, fun fresh room => ?_⟩
  · rw [State.handFound, if_pos still]
  · rw [State.handFound, if_neg (Bool.not_eq_true _ ▸ fresh), State.handTally, if_pos blocked, State.waitTally_log]
  · rw [State.handFound, if_neg (Bool.not_eq_true _ ▸ fresh), State.handTally, if_neg (Bool.not_eq_true _ ▸ room), State.writeTally_log]

/-- A LOST receiver put into a rack (R111 step 3). -/
theorem State.takeInsert_lost (empty : (s.position p).state = .empty) (found : s.entryOf x = some e) (unheld : s.posHolding e = none)
    (lost : (s.receiver e).state = .lost) (ht : t = s.takeInsert p x y) : t.isPending .dock = true ∧ (t.position p).entry = some e
      ∧ t.receiver e = ((s.receiver e).inserted p y s.logBlocked).bump
      ∧ ((s.receiver e).foundWaiting = true → t.log = s.log)
      ∧ ((s.receiver e).foundWaiting = false → s.logBlocked = true → t.log = { s.log with
          waiting := s.log.waiting ++ [{ owner := .receiver e, record := .receiverFound (s.foundRecord e .dock) }] })
      ∧ ((s.receiver e).foundWaiting = false → s.logBlocked = false → t.log.writeCount = s.log.writeCount + 1) := by
  obtain ⟨u, hu⟩ : ∃ u, u = (s.takenIn p e y).raise .dock := ⟨_, rfl⟩
  obtain ⟨w, hw⟩ : ∃ w, w = u.handFound e .dock (s.receiver e).foundWaiting := ⟨_, rfl⟩
  have relit : t = w.relampPos p := by
    rw [ht, State.takeInsert_known empty found unheld, hw, hu]
    unfold State.afterInsertion
    rw [lost]
  have only : s.onlyIn [.receivers, .positions, .notices] u := by
    rw [hu]
    exact ((s.takenIn_only p e y).sub (by decide)).next (State.raise_only _ .dock) (by decide)
  have entry (d : RecvId) : u.receiver d = if d = e then ((s.receiver e).inserted p y s.logBlocked).bump else s.receiver d := by
    rw [hu]
    exact s.takenIn_receiver p e y d
  have handed : u.onlyIn [.header, .notices, .mem, .log] w := hw ▸ State.handFound_only u e .dock _
  have place (q : PosId) : w.position q = (s.occupy p (some e)).position q := by
    refine (congrArg (fun v : Vector Position _ => v[q]) (handed .positions (by decide))).trans ?_
    rw [hu]
    rfl
  obtain ⟨only', state, held, -⟩ := State.placed_facts place relit
  obtain ⟨still, waits, written⟩ := u.handFound_log e .dock (s.receiver e).foundWaiting hw
  have log : u.log = s.log := only .log (by decide)
  have record : u.foundRecord e .dock = s.foundRecord e .dock := by
    have own : u.receivers[e] = ((s.receiver e).inserted p y s.logBlocked).bump := (entry e).trans (if_pos rfl)
    unfold State.foundRecord
    rw [own, show u.clock = s.clock from only .clock (by decide)]
    unfold Receiver.inserted
    rw [lost]
    rfl
  rw [only.logBlocked (by decide) (by decide), log, record] at waits
  rw [only.logBlocked (by decide) (by decide), log] at written
  have logs : t.log = w.log := by rw [only']
  refine ⟨?_, held, ?_, fun waiting => ?_, fun fresh blocked => ?_, fun fresh room => ?_⟩
  · have pending : u.isPending .dock = true := by
      rw [hu]
      exact State.raise_isPending _ _
    have kept : w.isPending .dock = true := by
      rw [hw, State.handFound]
      split
      · exact pending
      · exact State.handTally_pending _ _ pending
    rw [only']
    exact kept
  · have same : t.receiver e = w.receiver e := by rw [only']
    rw [same, show w.receiver e = u.receiver e from congrArg (fun v : Vector Receiver _ => v[e]) (handed .receivers (by decide)), entry, if_pos rfl]
  · rw [logs, still waiting, log]
  · rw [logs, waits fresh blocked]
  · rw [logs, written fresh room]

/-! ## Answers -/

theorem State.takeChange_discarded {r : RackId} {k : Byte} (above : 40 ≤ k.toNat) (x : Serial) (y : BitVec 4) :
    s.takeChange r (.insert k x y) = s ∧ s.takeChange r (.remove k) = s ∧ s.takeReport r { position := k, level := y } = s := by
  refine ⟨?_, ?_, ?_⟩
  · rw [State.takeChange, index?_of_le above]
  · rw [State.takeChange, index?_of_le above]
  · rw [State.takeReport, index?_of_le above]

theorem State.takeChange_placed {r : RackId} {k : Byte} {j : PlaceId} (at' : k.toNat = j.val) (x : Serial) (y : BitVec 4) :
    s.takeChange r (.remove k) = s.takeRemove (posIndex r j) ∧ (x ≠ 0 → s.takeChange r (.insert k x y) = s.takeInsert (posIndex r j) x y) := by
  refine ⟨?_, fun present => ?_⟩
  · rw [State.takeChange, at', index?_val]
  · rw [State.takeChange, at', index?_val]
    exact if_neg present

theorem State.takeChange_zero {r : RackId} {k : Byte} (y : BitVec 4) : s.takeChange r (.insert k 0 y) = s := by
  rw [State.takeChange]
  cases index? 40 k.toNat with
  | none => rfl
  | some j => rfl

theorem State.takeReport_placed {r : RackId} {k : Byte} {j : PlaceId} (at' : k.toNat = j.val) (y : BitVec 4) :
    (((s.position (posIndex r j)).state ≠ .occupied ∨ (s.position (posIndex r j)).entry = none) → s.takeReport r { position := k, level := y } = s)
      ∧ ∀ e, (s.position (posIndex r j)).state = .occupied → (s.position (posIndex r j)).entry = some e →
        s.takeReport r { position := k, level := y } = s.writeBattery (posIndex r j) e y := by
  refine ⟨fun other => ?_, fun e state held => ?_⟩
  · rw [State.takeReport, at', index?_val]
    dsimp only
    split
    · rename_i e state held
      exact other.elim (fun away => absurd state away) fun none => nomatch held.symm.trans none
    · rfl
  · rw [State.takeReport, at', index?_val]
    dsimp only
    rw [show s.positions[posIndex r j].state = _ from state, show s.positions[posIndex r j].entry = _ from held]

theorem State.takeResult_discarded {poll : Poll} {k : PresetResult} (none : (∀ (p : PosId) (e : RecvId) (c : ChannelId), (p, e, c) ∈ poll.presets →
    p.val ≠ poll.rack.val * 40 + k.position.toNat) ∨ 40 ≤ k.position.toNat) : State.takeResult poll s k = s := by
  unfold State.takeResult
  by_cases above : 40 ≤ k.position.toNat
  · rw [index?_of_le above]
  · rcases none with none | above'
    · rw [index?_of_lt (Nat.lt_of_not_le above)]
      dsimp only
      split
      · rename_i z found
        have at' := List.find?_some found
        rw [decide_eq_true_eq] at at'
        have listed := List.mem_of_find?_eq_some found
        exact absurd (congrArg Fin.val at') (none z.1 z.2.1 z.2.2 listed)
      · rfl
    · exact absurd above' above

theorem State.takeResult_found {poll : Poll} {k : PresetResult} {j : PlaceId} {c : ChannelId} (at' : k.position.toNat = j.val)
    (found : poll.presets.find? (fun z => z.1 = posIndex poll.rack j) = some (posIndex poll.rack j, e, c)) :
    State.takeResult poll s k = s.presetResult e k.delivered := by
  rw [State.takeResult, at', index?_val]
  dsimp only
  rw [found]

theorem State.presetResult_failed {delivered : Bool} (named : (s.receiver e).hire = some h) (failed : delivered = false)
    (runs : (s.hire h).state = .reserving ∨ (s.hire h).state = .opened) :
    s.presetResult e delivered = s.writeHire h (fun r => { r with presetFailed := true }) := by
  unfold State.presetResult
  rw [show s.receivers[e].hire = some h from named]
  exact if_pos ⟨failed, runs⟩

theorem State.presetResult_kept {delivered : Bool} (kept : delivered = true ∨ ∀ h : HireId, (s.receiver e).hire = some h →
    (s.hire h).state ≠ .reserving ∧ (s.hire h).state ≠ .opened) : s.presetResult e delivered = s := by
  unfold State.presetResult
  cases named : s.receivers[e].hire with
  | none => rfl
  | some h =>
    refine if_neg fun ⟨failed, runs⟩ => ?_
    rcases kept with delivered | idle
    · exact nomatch failed.symm.trans delivered
    · exact runs.elim (idle h named).1 (idle h named).2

/-! ## REMOVE -/

theorem State.takeRemove_held (state : (s.position p).state = .occupied) (held : (s.position p).entry = some e) (ht : t = s.writePosition p (fun r =>
    { r with state := .settlingOut, rawRemoval := s.clock.run, settleDeadline := s.clock.run + msTicks s.timers.settle, lamp := .dark })) :
    s.takeRemove p = if s.timers.settle = 0 then t.removal p s.clock.run false else t := by
  subst ht
  unfold State.takeRemove
  dsimp only
  rw [show s.positions[p].state = _ from state, show s.positions[p].entry = _ from held]

theorem State.takeRemove_unheld (state : (s.position p).state = .occupied) (none : (s.position p).entry = none) : s.takeRemove p
    = s.writePosition p (fun r => { r with state := .empty, lamp := .dark, removals := satAdd 16 r.removals 1 }) := by
  unfold State.takeRemove
  dsimp only
  rw [show s.positions[p].state = _ from state, show s.positions[p].entry = _ from none]

theorem State.takeRemove_gone (state : (s.position p).state = .empty ∨ (s.position p).state = .settlingOut) : s.takeRemove p = s := by
  unfold State.takeRemove
  dsimp only
  rcases state with state | state
  · rw [show s.positions[p].state = _ from state]
  · rw [show s.positions[p].state = _ from state]

/-! ## INSERT -/

/-- What a removal leaves at the position it empties. -/
theorem State.removal_empties (s : State) (p : PosId) (k : Nat) (keep : Bool) : ((s.removal p k keep).position p).state = .empty
    ∨ ((s.removal p k keep).position p).state = .fault := by
  rw [State.removal_position, if_pos rfl]
  show (if keep && (s.position p).state == .fault then PosState.fault else .empty) = _ ∨ (if keep && (s.position p).state == .fault then PosState.fault else .empty) = _
  split
  · exact .inr rfl
  · exact .inl rfl

/-- An INSERT of another serial lets what stands at the position go first (R109, R111 step 1). -/
theorem State.takeInsert_after (held : (s.position p).entry = some e) (serial : (s.receiver e).serial ≠ x)
    (state : (s.position p).state = .occupied ∨ (s.position p).state = .settlingOut) (y : BitVec 4) : ∃ u : State,
      s.removed u p (if (s.position p).state = .settlingOut then (s.position p).rawRemoval else s.clock.run) false
        ∧ s.takeInsert p x y = u.takeInsert p x y := by
  refine ⟨_, s.removal_removed p _ false, ?_⟩
  rw [State.takeInsert_replaced state held serial, State.takeInsert_inserted (s.removal_empties p _ false)]

/-- An INSERT where no entry stands, at a position that is OCCUPIED (R111 step 1). -/
theorem State.takeInsert_emptied (state : (s.position p).state = .occupied) (none : (s.position p).entry = none) (x : Serial) (y : BitVec 4) :
    s.takeInsert p x y = ({ s with positions := s.positions.set p { s.position p with
      state := .empty, removals := min 65535 ((s.position p).removals + 1), changes := (s.position p).changes + 2 } } : State).takeInsert p x y := by
  obtain ⟨a, ha⟩ : ∃ a, a = ({ s.position p with removals := min 65535 ((s.position p).removals + 1) } : Position).bump := ⟨_, rfl⟩
  obtain ⟨b, hb⟩ : ∃ b, b = { s.position p with
    state := .empty, removals := min 65535 ((s.position p).removals + 1), changes := (s.position p).changes + 2 } := ⟨_, rfl⟩
  obtain ⟨v, hv⟩ : ∃ v, v = s.positions.set p a := ⟨_, rfl⟩
  obtain ⟨w, hw⟩ : ∃ w, w = s.positions.set p b := ⟨_, rfl⟩
  have atV (q : PosId) : v[q] = if q = p then a else s.positions[q] := by
    rw [hv]
    exact get_set _ _ _ _
  have atW (q : PosId) : w[q] = if q = p then b else s.positions[q] := by
    rw [hw]
    exact get_set _ _ _ _
  have like : Relabelled p v w := by
    refine ⟨fun q other => ?_, ?_, ?_⟩
    · rw [atV, atW, if_neg other, if_neg other]
    · rw [atV, atW, if_pos rfl, if_pos rfl, ha, hb]
      rfl
    · rw [atV, if_pos rfl, ha]
      exact none
  have cleared : ((s.repositioned w).position p).state = .empty := by
    rw [State.repositioned_position, atW, if_pos rfl, hb]
  rw [State.takeInsert_unheld state none, ← hb, ← hw]
  refine Eq.trans ?_ ((like.insertAt s x y).trans (State.takeInsert_inserted (.inl cleared)).symm)
  rw [hv, ha]
  rfl

theorem State.openHire_serials (s : State) (e : RecvId) (k : Nat) (d : RecvId) : ((s.openHire e k).receiver d).serial = (s.receiver d).serial := by
  cases named : (s.receiver e).hire with
  | none =>
    unfold State.openHire
    rw [show s.receivers[e].hire = none from named]
  | some h =>
    have receivers : (s.openHire e k).receivers = (s.opened h e k).receivers := by
      rw [State.openHire_of named]
      exact State.endOwner_only _ _ _ .receivers (by decide)
    rw [show (s.openHire e k).receiver d = (s.opened h e k).receiver d from congrArg (fun v : Vector Receiver _ => v[d]) receivers,
      State.opened_receiver]
    split
    · rename_i own
      rw [own]
      rfl
    · rfl

/-- A removal that takes effect leaves every entry its serial. -/
theorem State.removal_serials (s : State) (p : PosId) (k : Nat) (keep : Bool) (d : RecvId) :
    ((s.removal p k keep).receiver d).serial = (s.receiver d).serial := by
  have same (d : RecvId) : ((s.vacated p keep).receiver d).serial = (s.receiver d).serial := congrArg Receiver.serial (s.vacated_receiver p keep d)
  have written (e : RecvId) (f : Receiver → Receiver) (kept : ∀ r, (f r).serial = r.serial) :
      (((s.vacated p keep).writeReceiver e f).receiver d).serial = (s.receiver d).serial := by
    rw [State.receiver_writeReceiver, ← same d]
    split
    · rename_i own
      rw [own]
      exact kept _
    · rfl
  unfold State.removal
  extract_lets pos s1
  have own : s1 = s.vacated p keep := rfl
  rw [own]
  split
  · exact same d
  · rename_i e _
    split
    · have raised (u : State) : (u.raise .dock).receiver d = u.receiver d :=
        congrArg (fun v : Vector Receiver _ => v[d]) (u.raise_only .dock .receivers (by decide))
      rw [raised]
      exact written e (fun r => { r with state := .adrift }) fun _ => rfl
    · exact (State.openHire_serials _ e k d).trans (same d)
    · exact written e (fun r => { r with dock := none }) fun _ => rfl
    all_goals exact same d

theorem State.entryOf_congr (same : ∀ d, (t.receiver d).serial = (s.receiver d).serial) : t.entryOf x = s.entryOf x := by
  unfold State.entryOf
  have serial (d : RecvId) : t.receivers[d].serial = s.receivers[d].serial := same d
  split
  · rfl
  · refine Option.ext fun e => ?_
    rw [tblFind_eq_some, tblFind_eq_some, serial]
    exact and_congr_right fun _ => forall_congr' fun d => by rw [serial]

/-- The receiver taken out where another position still holds it (R111 step 2). -/
theorem State.takeInsert_moved (docks : s.docksOk) (empty : (s.position p).state = .empty) (found : s.entryOf x = some e)
    (held : (s.position q).entry = some e) (y : BitVec 4) : ∃ u : State,
      s.removed u q (if (s.position q).state = .settlingOut then (s.position q).rawRemoval else s.clock.run) true
        ∧ s.takeInsert p x y = u.takeInsert p x y := by
  obtain ⟨-, once, -, -, places⟩ := docks
  obtain ⟨k, hk⟩ : ∃ k, k = if (s.position q).state = .settlingOut then (s.position q).rawRemoval else s.clock.run := ⟨_, rfl⟩
  have apart : p ≠ q := fun same => nomatch (same ▸ held).symm.trans ((places p).1 empty)
  have holding : s.posHolding e = some q :=
    (tblFind_eq_some _ _ _).mpr ⟨beq_iff_eq.mpr held, fun r before => beq_eq_false_iff_ne.mpr fun also => Nat.ne_of_lt before
      (congrArg Fin.val (once r q e also held))⟩
  obtain ⟨u, hu⟩ : ∃ u, u = s.removal q k true := ⟨_, rfl⟩
  have place (r : PosId) : u.position r = if r = q then ((s.position q).vacated true).bump else s.position r := by
    rw [hu]
    exact s.removal_position q k true r
  have foundU : u.entryOf x = some e := by
    rw [hu, State.entryOf_congr fun d => s.removal_serials q k true d]
    exact found
  have gone : u.posHolding e = none := by
    refine State.posHolding_none.mpr fun r => ?_
    rw [place]
    split
    · exact fun e => nomatch e
    · rename_i other
      exact fun also => other (once r q e also held)
  have emptyU : (u.position p).state = .empty := by
    rw [place, if_neg apart]
    exact empty
  refine ⟨u, hu ▸ hk ▸ s.removal_removed q k true, ?_⟩
  rw [State.takeInsert_inserted (.inl empty), State.insertAt, State.clearElsewhere_held found holding, ← hk, ← hu,
    State.takeInsert_inserted (.inl emptyU), State.insertAt, State.clearElsewhere_unheld foundU gone]

theorem Receiver.inserted_retired {r : Receiver} {w : Bool} (retired : r.state = .retired) :
    r.inserted p y w = { r with dock := some p, battery := y } := by
  cases r
  cases retired
  rfl

theorem dockLamp_retired {r : Receiver} (threshold : Nat) (retired : r.state = .retired) : dockLamp threshold .occupied (some r) = .error := by
  unfold dockLamp
  dsimp only
  rw [retired]

/-- Settles O43. -/
theorem dockChanges : Obligations.DockChanges := by
  refine ⟨fun s r k x y => ⟨fun above => State.takeChange_discarded above x y, State.takeChange_zero y, fun j at' => ?_⟩,
    fun s poll k none => State.takeResult_discarded none, fun s poll k j e c at' found => ⟨fun h named failed runs => ?_, fun kept => ?_⟩,
    fun s p e state held => ⟨fun waits => ?_, fun none => ?_⟩, fun s p state none => ?_, fun s p state => State.takeRemove_gone state,
    fun s p e x y state held serial none => ?_, fun s p e h x y state held serial named reserved reserving passed own holds => ?_,
    fun s p e x y held serial state => State.takeInsert_after held serial state y,
    fun s p x y state none => State.takeInsert_emptied state none x y,
    fun s p q e x y docks empty found held => State.takeInsert_moved docks empty found held y,
    fun s p e x y empty found unheld adrift => ?_, fun s p e x y state held serial => ?_, fun s p e x y empty found unheld retired => ?_,
    fun s p e x y empty found unheld lost => ?_,
    fun s p e h x y empty found unheld out named opened free => State.takeInsert_returned empty found unheld out named opened free rfl,
    fun s p e x y empty unknown lowest first => ?_, fun s p x y empty unknown full => ?_⟩
  · obtain ⟨removed, inserted⟩ := State.takeChange_placed (s := s) (r := r) at' x y
    obtain ⟨kept, report⟩ := State.takeReport_placed (s := s) (r := r) at' y
    exact ⟨removed, inserted, kept, fun e state held => (report e state held).trans (State.takeInsert_repeated state held rfl).symm⟩
  · exact (State.takeResult_found at' found).trans (State.presetResult_failed named failed runs)
  · exact (State.takeResult_found at' found).trans (State.presetResult_kept kept)
  · exact (State.takeRemove_held state held rfl).trans (if_neg (Nat.ne_of_gt waits))
  · rw [(State.takeRemove_held state held rfl).trans (if_pos none)]
    exact State.removal_removed _ p _ false
  · exact State.takeRemove_unheld state none
  · rw [State.takeInsert_reseat state held serial]
    obtain ⟨u, hu⟩ : ∃ u, u = s.reseated p e y := ⟨_, rfl⟩
    obtain ⟨only, receiver, occupied, insertions, removals, -, -, -, lamp⟩ := State.reseated_facts held y hu
    have kept : s.reseat p e y = u := hu ▸ State.reseat_kept (hu ▸ fun ⟨h, named, reserved, reserving, passed⟩ => by
      rw [receiver] at named reserved
      rw [show u.hire h = s.hire h by rw [only]] at reserving passed
      exact none ⟨h, named, reserved, reserving, passed⟩)
    rw [kept]
    exact ⟨only, occupied, insertions, removals, receiver, lamp⟩
  · rw [State.takeInsert_reseat state held serial]
    exact State.reseat_overdue_facts holds own ⟨named, reserved, reserving, passed⟩ y rfl
  · have placed := State.takeInsert_known (y := y) empty found unheld
    have none : (s.takenIn p e y).afterInsertion e (s.receiver e) = s.takenIn p e y := by
      unfold State.afterInsertion
      rw [adrift]
    rw [none] at placed
    obtain ⟨only, occupied, entry, insertions, receiver, -⟩ := State.placed_only _ placed
    refine ⟨only, occupied, entry, insertions, receiver.trans ?_⟩
    unfold Receiver.inserted
    rw [adrift]
    rfl
  · rw [State.takeInsert_repeated state held serial]
    obtain ⟨only, receiver, -, ⟨l, c, lit⟩, lamp, -⟩ := State.writeBattery_facts held y rfl
    rw [state] at lamp
    refine ⟨only, ?_, receiver, lamp⟩
    rw [lit]
  · have placed := State.takeInsert_known (y := y) empty found unheld
    have none : (s.takenIn p e y).afterInsertion e (s.receiver e) = s.takenIn p e y := by
      unfold State.afterInsertion
      rw [retired]
    rw [none] at placed
    obtain ⟨only, -, entry, -, receiver, lamp⟩ := State.placed_only _ placed
    rw [Receiver.inserted_retired retired] at receiver
    refine ⟨only, entry, lamp.trans (dockLamp_retired _ ?_), receiver⟩
    rw [receiver]
    exact retired
  · obtain ⟨pending, entry, receiver, log⟩ := State.takeInsert_lost (y := y) empty found unheld lost rfl
    refine ⟨pending, entry, receiver.trans ?_, log⟩
    unfold Receiver.inserted
    rw [lost]
    rfl
  · have placed : s.takeInsert p x y = _ := (State.takeInsert_inserted (.inl empty)).trans
      ((congrArg (fun u : State => u.takeInsertion p x y) (State.clearElsewhere_unknown unknown)).trans
        (State.takeInsertion_enrolled unknown lowest first))
    obtain ⟨only, occupied, entry, -, receiver, -⟩ := State.placed_only _ placed
    exact ⟨only, occupied, entry, receiver⟩
  · have placed : s.takeInsert p x y = _ := (State.takeInsert_inserted (.inl empty)).trans
      ((congrArg (fun u : State => u.takeInsertion p x y) (State.clearElsewhere_unknown unknown)).trans
        (State.takeInsertion_full unknown full))
    have own := s.occupy_own p none
    extract_lets t
    have place : t.position p = (s.occupy p none).position p := by
      rw [show t = _ from placed]
      exact congrArg (fun v : Vector Position _ => v[p]) (State.raise_only _ .dock .positions (by decide))
    rw [own] at place
    refine ⟨?_, ?_, ?_, ?_, ?_⟩
    · rw [show t = _ from placed]
      exact (State.raise_only _ .dock .receivers (by decide)).trans rfl
    · rw [place]
      rfl
    · rw [place]
      rfl
    · rw [place]
      rfl
    · rw [show t = _ from placed]
      exact State.raise_isPending _ _

end

end Sys2Proof.Machine
end

section
/-!
SUPPORT. A rack that fails: its positions, its presets and the reservations of the entries it holds (R106, R114, R129).
-/
namespace Sys2Proof.Machine

section
variable {s t u : State} {p q : PosId} {e : RecvId} {h : HireId} {r : RackId} {code : ResultCode} {reason : Reason}

/-! ## The places of a reservation that ends -/

/-- What the end of a reservation does to a position and its preset (R113, R114, R125). -/
theorem State.released_place (s : State) (h : HireId) (q : PosId) :
    ((s.released h).position q = s.position q ∨ ∃ k : Half, (s.released h).position q = { s.position q with
        lamp := dockLamp s.timers.battery (s.position q).state ((s.position q).entry.map (fun e => (s.released h).receiver e)), changes := k })
      ∧ (s.posHolding (s.hire h).receiver ≠ some q → (s.released h).position q = s.position q)
      ∧ (s.released h).presets.get q = if s.posHolding (s.hire h).receiver = some q then (s.presets.get q).filter (fun z => z.sent)
        else s.presets.get q := by
  obtain ⟨v, hv⟩ : ∃ v, v = (s.updAccount (s.hire h).account (fun a => a.release (s.hire h).hold)).withdrawPreset (s.hire h).receiver := ⟨_, rfl⟩
  obtain ⟨w, hw⟩ : ∃ w, w = v.writeReceiver (s.hire h).receiver (fun e => { e with state := .docked, hire := none }) := ⟨_, rfl⟩
  have released : s.released h = (w.relampHolder (s.hire h).receiver).writeHire h (fun x => { x with state := .free }) := by
    rw [hw, hv]
    rfl
  have positions : w.positions = s.positions := by
    rw [hw, hv, State.withdrawPreset_eq]
    rfl
  have before : w.position q = s.position q := congrArg (fun v : Vector Position _ => v[q]) positions
  have holding : w.posHolding (s.hire h).receiver = s.posHolding (s.hire h).receiver := by
    unfold State.posHolding
    rw [positions]
  have timers : w.timers = s.timers := by
    rw [hw, hv, State.withdrawPreset_eq]
    rfl
  have receivers : (s.released h).receivers = w.receivers := by
    rw [released, State.relampHolder_eq]
    rfl
  have place : (s.released h).position q = (w.relampHolder (s.hire h).receiver).position q := by
    rw [released]
    rfl
  have presets : (s.released h).presets = v.presets := by
    rw [released, State.relampHolder_eq, hw]
    rfl
  have held : w.heldEntry q = (s.position q).entry.map (fun e => (s.released h).receiver e) := by
    unfold State.heldEntry State.receiver
    rw [receivers, show w.positions[q] = s.position q from before]
  rw [place, State.relampHolder_position, holding, before]
  refine ⟨?_, fun other => if_neg other, ?_⟩
  · split
    · rcases rewritten_cases Position.bump (fun r => { r with lamp := dockLamp w.timers.battery r.state (w.heldEntry q) }) (s.position q)
        with ⟨-, kept⟩ | changed
      · exact .inl kept
      · refine .inr ⟨(s.position q).changes + 2, ?_⟩
        rw [changed, held, timers]
        rfl
    · exact .inl rfl
  · rw [presets, hv]
    unfold State.withdrawPreset
    rw [show (s.updAccount (s.hire h).account (fun a => a.release (s.hire h).hold)).posHolding (s.hire h).receiver
      = s.posHolding (s.hire h).receiver from rfl]
    cases holder : s.posHolding (s.hire h).receiver with
    | none => exact (if_neg (fun e => nomatch e)).symm
    | some p =>
      refine (State.preset_setPreset _ p q _).trans ?_
      by_cases own : q = p
      · rw [if_pos own, if_pos (congrArg some own.symm), own]
        rfl
      · rw [if_neg own, if_neg fun e => own (Option.some.inj e).symm]
        rfl

theorem State.endReservation_places (s : State) (h : HireId) (code : ResultCode) (reason : Reason) (q : PosId) :
    (s.endReservation h code reason).position q = (s.released h).position q
      ∧ (s.endReservation h code reason).presets = (s.released h).presets ∧ (s.endReservation h code reason).timers = s.timers := by
  have same := s.endReservation_same h code reason
  refine ⟨?_, ?_, s.endReservation_only h code reason .timers (by decide)⟩
  · rw [same]
  · rw [same]

theorem dockLamp_fault (threshold : Nat) (o : Option Receiver) : dockLamp threshold .fault o = .dark := by
  cases o <;> rfl

/-- A position of a rack that has failed: FAULT and dark, and without a preset (R106). -/
structure State.Failed (s : State) (p : PosId) : Prop where
  state : (s.position p).state = .fault
  lamp : (s.position p).lamp = .dark
  preset : s.presets.get p = none

theorem State.Failed.endReservation (failed : s.Failed p) (h : HireId) (code : ResultCode) (reason : Reason) :
    (s.endReservation h code reason).Failed p := by
  obtain ⟨place, presets, -⟩ := s.endReservation_places h code reason p
  obtain ⟨lit, -, preset⟩ := s.released_place h p
  rw [← place, ← presets] at *
  refine ⟨?_, ?_, ?_⟩
  · rcases lit with kept | ⟨k, lit⟩
    · rw [kept]
      exact failed.state
    · rw [lit]
      exact failed.state
  · rcases lit with kept | ⟨k, lit⟩
    · rw [kept]
      exact failed.lamp
    · rw [lit, failed.state]
      exact dockLamp_fault s.timers.battery ((s.position p).entry.map (fun e => (s.released h).receiver e))
  · rw [preset, failed.preset]
    split <;> rfl

/-! ## The reservations of a failed rack -/

/-- The reservation that ends where position `p` of a failed rack holds its entry (R129). -/
def State.failing (s : State) (p : PosId) : Option HireId :=
  (s.position p).entry.bind (fun e => if (s.receiver e).state = .reserved then (s.receiver e).hire else none)

theorem State.failReservation_eq (s : State) (p : PosId) :
    s.failReservation p = (s.failing p).elim s (fun h => s.endReservation h .failed .dockFault) := by
  unfold State.failReservation State.failing
  cases held : (s.position p).entry with
  | none => rfl
  | some e =>
    rw [Option.bind_some]
    dsimp only
    by_cases reserved : (s.receiver e).state = .reserved
    · rw [reserved, if_pos rfl]
      cases (s.receiver e).hire with
      | none => rfl
      | some h => rfl
    · rw [if_neg reserved]
      split
      · rename_i state _
        exact absurd state reserved
      · rfl

/-- A list of positions of which each holds an entry of its own, whose reservation, if it is in one, is of that entry. -/
structure State.Booked (s : State) (l : List PosId) : Prop where
  once : ∀ p ∈ l, ∀ q ∈ l, ∀ e, (s.position p).entry = some e → (s.position q).entry = some e → p = q
  named : ∀ p ∈ l, ∀ h, s.failing p = some h → ∃ e, (s.position p).entry = some e ∧ (s.hire h).receiver = e

theorem State.failing_some : s.failing p = some h ↔ ∃ e, (s.position p).entry = some e ∧ (s.receiver e).state = .reserved ∧ (s.receiver e).hire = some h := by
  unfold State.failing
  rw [Option.bind_eq_some_iff]
  refine exists_congr fun e => and_congr_right fun _ => ?_
  split
  · rename_i reserved
    exact ⟨fun named => ⟨reserved, named⟩, fun both => both.2⟩
  · rename_i other
    exact iff_of_false (fun e => nomatch e) fun both => other both.1

/-- One reservation's end leaves the others of the list as they were. -/
theorem State.Booked.next {l : List PosId} (booked : s.Booked (p :: l)) (fresh : p ∉ l) (failing : s.failing p = some h) {u : State}
    (hu : u = s.endReservation h code reason) : u.Booked l ∧ ∀ q ∈ l, u.failing q = s.failing q := by
  obtain ⟨e, held, own⟩ := booked.named p (List.mem_cons_self ..) h failing
  have dropped := s.endReservation_dropped h code reason
  rw [← hu] at dropped
  have entry (q : PosId) : (u.position q).entry = (s.position q).entry := by
    rw [hu]
    exact ((s.endReservation_samePlaces h code reason) q).2
  have receiver (q : PosId) (m : q ∈ l) (d : RecvId) (at' : (s.position q).entry = some d) : u.receiver d = s.receiver d := by
    refine dropped.away d fun k hk same => ?_
    rw [List.mem_singleton.mp hk, own] at same
    subst same
    exact fresh (booked.once p (List.mem_cons_self ..) q (List.mem_cons_of_mem p m) e held at' ▸ m)
  have same (q : PosId) (m : q ∈ l) : u.failing q = s.failing q := by
    unfold State.failing
    rw [entry]
    cases at' : (s.position q).entry with
    | none => rfl
    | some d => rw [Option.bind_some, Option.bind_some, receiver q m d at']
  refine ⟨⟨fun q hq r hr d => ?_, fun q hq k failing => ?_⟩, same⟩
  · rw [entry, entry]
    exact booked.once q (List.mem_cons_of_mem p hq) r (List.mem_cons_of_mem p hr) d
  · rw [same q hq] at failing
    obtain ⟨d, at', named⟩ := booked.named q (List.mem_cons_of_mem p hq) k failing
    refine ⟨d, (entry q).trans at', ?_⟩
    rw [dropped.hires]
    split
    · exact named
    · exact named

/-- A rack's reservations end position by position (R106, R129). -/
theorem State.failEach_eq : ∀ (l : List PosId) (s : State), l.Nodup → s.Booked l →
    s.each l State.failReservation = s.each (l.filterMap s.failing) (fun s h => s.endReservation h .failed .dockFault)
  | [], _, _, _ => rfl
  | p :: l, s, nodup, booked => by
    obtain ⟨fresh, nodup⟩ := List.nodup_cons.mp nodup
    show (s.failReservation p).each l State.failReservation = _
    rw [State.failReservation_eq]
    cases failing : s.failing p with
    | none =>
      rw [List.filterMap_cons_none failing]
      exact State.failEach_eq l s nodup ⟨fun q hq r hr => booked.once q (List.mem_cons_of_mem p hq) r (List.mem_cons_of_mem p hr),
        fun q hq => booked.named q (List.mem_cons_of_mem p hq)⟩
    | some h =>
      obtain ⟨rest, same⟩ := booked.next (code := .failed) (reason := .dockFault) fresh failing rfl
      rw [List.filterMap_cons_some failing]
      show (s.endReservation h .failed .dockFault).each l State.failReservation = (s.endReservation h .failed .dockFault).each _ _
      rw [State.failEach_eq l _ nodup rest, List.filterMap_congr same]

/-- A position that holds none of the receivers of the reservations that end. -/
theorem State.endEach_place (q : PosId) : ∀ (l : List HireId) (s : State), l.Nodup → (∀ h ∈ l, s.posHolding (s.hire h).receiver ≠ some q) →
    (s.each l (fun s h => s.endReservation h code reason)).position q = s.position q
      ∧ (s.each l (fun s h => s.endReservation h code reason)).presets.get q = s.presets.get q
  | [], _, _, _ => ⟨rfl, rfl⟩
  | h :: l, s, nodup, away => by
    obtain ⟨fresh, nodup⟩ := List.nodup_cons.mp nodup
    have other := away h (List.mem_cons_self ..)
    have dropped := s.endReservation_dropped h code reason
    obtain ⟨place, presets, -⟩ := s.endReservation_places h code reason q
    obtain ⟨-, kept, preset⟩ := s.released_place h q
    obtain ⟨position, waiting⟩ := State.endEach_place q l (s.endReservation h code reason) nodup fun k hk => by
      rw [dropped.hires, if_neg fun m => fresh (by rw [← List.mem_singleton.mp m]; exact hk),
        State.posHolding_congr (s := s) fun r => ((s.endReservation_samePlaces h code reason) r).2]
      exact away k (List.mem_cons_of_mem h hk)
    refine ⟨position.trans (place.trans (kept other)), waiting.trans ?_⟩
    rw [presets, preset, if_neg other]

theorem State.endReservation_pending {c : Notice} (pending : s.isPending c = true) : (s.endReservation h code reason).isPending c = true := by
  have released : (s.released h).isPending c = true := by
    rw [State.released_eq]
    exact pending
  have dropped : (s.dropReservation h code reason).isPending c = true := by
    rw [State.dropReservation_eq]
    cases standing : (s.released h).standingOf (.issue h) with
    | none =>
      rw [State.endOwner_of_none standing]
      exact released
    | some z =>
      rw [State.endOwner_of_some standing, (State.endStanding_facts _ z _).1]
      exact ((s.released h).isPending_raise .order c).trans (by rw [released, Bool.true_or])
  have same : (s.endReservation h code reason).notices = (s.dropReservation h code reason).notices := by rw [State.endReservation_same]
  exact (congrArg (fun n : Notices => n.waiting.getLsbD c.index) same).trans dropped

/-! ## The failure of a rack -/

/-- A rack that fails, before its reservations end (R106). -/
def State.rackDown (s : State) (r : RackId) : State :=
  ((s.setRack r { state := .fault, unanswered := 3 }).each (rackPositions r) (fun s p =>
    (s.writePosition p (fun x => { x with state := .fault, lamp := .dark })).setPreset p none)).raise .dock

theorem State.rackFault_eq (s : State) (r : RackId) : s.rackFault r = (s.rackDown r).each (rackPositions r) State.failReservation := rfl

theorem State.rackDown_only (s : State) (r : RackId) : (s.setRack r { state := .fault, unanswered := 3 }).onlyIn [.positions, .presets, .notices] (s.rackDown r) :=
  (State.each_only (fun t p _ => ((State.writePosition_only t p _).sub (by decide)).next (State.setPreset_only _ p none) (by decide)) _ :
    (s.setRack r { state := .fault, unanswered := 3 }).onlyIn [.positions, .presets, .notices] _).next (State.raise_only _ .dock) (by decide)

theorem State.rackDown_position (s : State) (r : RackId) (q : PosId) : (s.rackDown r).position q
    = if q ∈ rackPositions r then ({ s.position q with state := .fault, lamp := .dark } : Position).bump else s.position q :=
  State.failEach_position r (s.setRack r { state := .fault, unanswered := 3 }) q

theorem State.rackDown_preset (s : State) (r : RackId) (q : PosId) :
    (s.rackDown r).presets.get q = if q ∈ rackPositions r then none else s.presets.get q := by
  have own (t : State) (i j : PosId) :
      ((t.writePosition j (fun x => { x with state := .fault, lamp := .dark })).setPreset j none).presets.get i
        = if i = j then none else t.presets.get i := State.preset_setPreset _ j i none
  exact State.each_get (I := fun _ => True) (fun t q => t.presets.get q) (fun q => s.presets.get q) (fun _ => none)
    (fun _ _ _ => trivial) (fun t i j _ other => (own t i j).trans (if_neg other)) (fun t i _ _ => (own t i i).trans (if_pos rfl))
    (s := s.setRack r { state := .fault, unanswered := 3 }) (rackPositions_nodup r) trivial (fun _ => rfl) q

theorem State.rackDown_failed (m : p ∈ rackPositions r) : (s.rackDown r).Failed p := by
  refine ⟨?_, ?_, ?_⟩
  · rw [State.rackDown_position, if_pos m]
    rfl
  · rw [State.rackDown_position, if_pos m]
    rfl
  · rw [State.rackDown_preset, if_pos m]

/-- A rack's positions and the DOCK notice, once it has failed (R106). -/
theorem State.rackFault_failed (s : State) (r : RackId) : (s.rackFault r).isPending .dock = true
    ∧ ∀ p ∈ rackPositions r, (s.rackFault r).Failed p := by
  have kept (t : State) (q : PosId) : (t.isPending .dock = true → (t.failReservation q).isPending .dock = true)
      ∧ ∀ p, t.Failed p → (t.failReservation q).Failed p := by
    rw [State.failReservation_eq]
    cases t.failing q with
    | none => exact ⟨id, fun _ => id⟩
    | some h => exact ⟨State.endReservation_pending, fun p failed => failed.endReservation h _ _⟩
  rw [State.rackFault_eq]
  refine ⟨?_, fun p m => ?_⟩
  · exact State.each_induct (P := fun t => t.isPending .dock = true) (fun t q _ => (kept t q).1) (State.raise_isPending _ _)
  · exact State.each_induct (P := fun t => t.Failed p) (fun t q _ => (kept t q).2 p) (State.rackDown_failed m)

/-- What the failure of a rack does under the laws of hires and docks (R106, R125, R129). -/
theorem State.rackFault_dropped (hires : s.hiresOk) (docks : s.docksOk) (r : RackId) : ∃ l : List HireId, l.Nodup
    ∧ (∀ h, h ∈ l ↔ (s.hire h).state = .reserving ∧ ∃ p, s.posHolding (s.hire h).receiver = some p ∧ p ∈ rackPositions r)
    ∧ (s.rackDown r).Dropped (s.rackFault r) l .failed .dockFault
    ∧ ∀ q, q ∉ rackPositions r → (s.rackFault r).position q = s.position q ∧ (s.rackFault r).presets.get q = s.presets.get q := by
  obtain ⟨-, reservingLaw, -, reservedLaw, -⟩ := hires
  have only := s.rackDown_only r
  have hire (h : HireId) : (s.rackDown r).hire h = s.hire h := congrArg (fun v : Vector Hire _ => v[h]) (only .hires (by decide))
  have receiver (e : RecvId) : (s.rackDown r).receiver e = s.receiver e :=
    congrArg (fun v : Vector Receiver _ => v[e]) (only .receivers (by decide))
  have entry (q : PosId) : ((s.rackDown r).position q).entry = (s.position q).entry := by
    rw [State.rackDown_position]
    split <;> rfl
  have failing {p : PosId} {h : HireId} : (s.rackDown r).failing p = some h ↔ (s.hire h).state = .reserving ∧ (s.position p).entry = some (s.hire h).receiver := by
    rw [State.failing_some]
    constructor
    · rintro ⟨e, held, reserved, named⟩
      rw [entry] at held
      rw [receiver] at reserved named
      obtain ⟨k, named', reserving, own⟩ := reservedLaw e reserved
      obtain rfl := Option.some.inj (named.symm.trans named')
      exact ⟨reserving, own ▸ held⟩
    · rintro ⟨reserving, held⟩
      obtain ⟨reserved, named⟩ := reservingLaw h reserving
      exact ⟨_, (entry p).trans held, (congrArg Receiver.state (receiver _)).trans reserved, (congrArg Receiver.hire (receiver _)).trans named⟩
  have booked : (s.rackDown r).Booked (rackPositions r) := by
    refine ⟨fun p _ q _ e hp hq => docks.2.1 p q e ((entry p).symm.trans hp) ((entry q).symm.trans hq), fun p _ h fails => ?_⟩
    exact ⟨(s.hire h).receiver, (entry p).trans (failing.mp fails).2, congrArg Hire.receiver (hire h)⟩
  have holding (e : RecvId) (p : PosId) : s.posHolding e = some p ↔ (s.position p).entry = some e := by
    refine ⟨State.posHolding_some, fun held => (tblFind_eq_some _ _ _).mpr ⟨beq_iff_eq.mpr held, fun q before => ?_⟩⟩
    exact beq_eq_false_iff_ne.mpr fun also => Nat.ne_of_lt before (congrArg Fin.val (docks.2.1 q p e also held))
  obtain ⟨l, hl⟩ : ∃ l, l = (rackPositions r).filterMap (s.rackDown r).failing := ⟨_, rfl⟩
  have mem (h : HireId) : h ∈ l ↔ (s.hire h).state = .reserving ∧ ∃ p, s.posHolding (s.hire h).receiver = some p ∧ p ∈ rackPositions r := by
    rw [hl, List.mem_filterMap]
    constructor
    · rintro ⟨p, m, fails⟩
      exact ⟨(failing.mp fails).1, p, (holding _ p).mpr (failing.mp fails).2, m⟩
    · rintro ⟨reserving, p, held, m⟩
      exact ⟨p, m, failing.mpr ⟨reserving, (holding _ p).mp held⟩⟩
  have nodup : l.Nodup := by
    rw [hl]
    refine List.Nodup.filterMap (fun p q h hp hq => ?_) (rackPositions_nodup r)
    exact docks.2.1 p q _ (failing.mp hp).2 (failing.mp hq).2
  have ended : s.rackFault r = (s.rackDown r).each l (fun s h => s.endReservation h .failed .dockFault) := by
    rw [State.rackFault_eq, hl]
    exact State.failEach_eq _ _ (rackPositions_nodup r) booked
  refine ⟨l, nodup, mem, ?_, fun q out => ?_⟩
  · rw [ended]
    refine State.each_dropped (fun s h => s.endReservation_dropped h _ _) nodup _ fun h hh k hk same => ?_
    rw [hire, hire] at same
    have named := (reservingLaw h ((mem h).mp hh).1).2
    rw [same, (reservingLaw k ((mem k).mp hk).1).2] at named
    exact (Option.some.inj named).symm
  · obtain ⟨place, preset⟩ := State.endEach_place (code := .failed) (reason := .dockFault) q l (s.rackDown r) nodup fun h hh held => by
      obtain ⟨-, p, at', m⟩ := (mem h).mp hh
      rw [hire, State.posHolding_congr entry] at held
      exact out (Option.some.inj (held.symm.trans at') ▸ m)
    rw [ended, place, preset, State.rackDown_position, if_neg out, State.rackDown_preset, if_neg out]
    exact ⟨rfl, rfl⟩

end

end Sys2Proof.Machine
end

section
/-!
SUPPORT. The poll cycle (R104 to R107, R111, R114, R129, O42).
-/
namespace Sys2Proof.Machine

section
variable {s t u : State} {p q : PosId} {e : RecvId} {h : HireId} {r : RackId}

/-! ## Presets -/

theorem State.onlyIn.presets_eq (h : s.onlyIn [.presets] t) : { s with presets := t.presets } = t :=
  (h.eq (s.presets_only _) (List.forall_mem_singleton.mpr rfl)).symm

theorem State.updPresets_preset (s : State) (r : RackId) (f : Preset → Option Preset) (q : PosId) :
    (s.updPresets r f).presets.get q = if q.val / 40 = r.val then (s.presets.get q).bind f else s.presets.get q := by
  have own (t : State) (i j : PosId) : (t.setPreset j (t.presets[j].bind f)).presets.get i = if i = j then (t.presets.get j).bind f else t.presets.get i :=
    State.preset_setPreset _ j i _
  have get := State.each_get (I := fun _ => True) (fun t q => t.presets.get q) (fun q => s.presets.get q) (fun q => (s.presets.get q).bind f)
    (fun _ _ _ => trivial) (fun t i j _ other => (own t i j).trans (if_neg other))
    (fun t i _ was => (own t i i).trans ((if_pos rfl).trans (congrArg (fun x : Option Preset => x.bind f) was)))
    (s := s) (rackPositions_nodup r) trivial (fun _ => rfl) q
  exact get.trans (if_congr (mem_rackPositions r q) rfl rfl)

theorem State.updPresets_eq (s : State) (r : RackId) (f : Preset → Option Preset) :
    s.updPresets r f = { s with presets := (s.updPresets r f).presets } := (State.updPresets_only s r f).presets_eq.symm

theorem State.mem_presetsOf (s : State) (r : RackId) (p : PosId) (e : RecvId) (c : ChannelId) :
    (p, e, c) ∈ s.presetsOf r ↔ p.val / 40 = r.val ∧ ∃ y : Preset, s.presets.get p = some y ∧ y.entry = e ∧ y.channel = c := by
  unfold State.presetsOf
  rw [List.mem_filterMap, ← mem_rackPositions]
  constructor
  · rintro ⟨q, m, mapped⟩
    obtain ⟨y, found, same⟩ := Option.map_eq_some_iff.mp mapped
    obtain ⟨rfl, rfl, rfl⟩ : q = p ∧ y.entry = e ∧ y.channel = c := by simpa using same
    exact ⟨m, y, found, rfl, rfl⟩
  · rintro ⟨m, y, found, rfl, rfl⟩
    exact ⟨p, m, Option.map_eq_some_iff.mpr ⟨y, found, rfl⟩⟩

theorem bind_unsent (o : Option Preset) : o.bind (fun x => if x.sent then none else some x) = o.filter (fun x => !x.sent) := by
  cases o with
  | none => rfl
  | some x =>
    cases sent : x.sent with
    | true => simp [Option.filter, sent]
    | false => simp [Option.filter, sent]

/-! ## Inventories -/

theorem readItem_none {i : Option InventoryItem} (none : ∀ y : InventoryItem, i = some y → y.serial = 0) : readItem i = .none := by
  cases i with
  | none => rfl
  | some y => exact if_pos (none y rfl)

theorem readItem_some {y : InventoryItem} (present : y.serial ≠ 0) : readItem (some y) = some y := if_neg present

theorem State.reconcile_none {i : Option InventoryItem} (item : readItem i = none) :
    ((s.position p).state ≠ .fault → s.reconcile p i = s)
      ∧ (∀ e, (s.position p).state = .fault → (s.position p).entry = some e → s.reconcile p i = s.removal p s.clock.run false)
      ∧ ((s.position p).state = .fault → (s.position p).entry = none →
        s.reconcile p i = s.writePosition p (fun r => { r with state := .empty })) := by
  unfold State.reconcile
  dsimp only
  rw [item]
  refine ⟨fun healthy => ?_, fun e fault held => ?_, fun fault none => ?_⟩
  · cases state : (s.position p).state with
    | fault => exact absurd state healthy
    | empty => rfl
    | occupied => rfl
    | settlingOut => rfl
  · rw [fault, held]
  · rw [fault, none]

theorem State.reconcile_some {y : InventoryItem} (present : y.serial ≠ 0) :
    (((s.position p).state ≠ .fault ∨ (s.position p).entry = none) → s.reconcile p (some y) = s.takeInsert p y.serial y.battery)
      ∧ ∀ e, (s.position p).state = .fault → (s.position p).entry = some e →
        ((s.receiver e).serial ≠ y.serial → s.reconcile p (some y) = (s.removal p s.clock.run false).insertAt p y.serial y.battery)
        ∧ ((s.receiver e).serial = y.serial → s.reconcile p (some y) = s.reseated p e y.battery) := by
  unfold State.reconcile
  dsimp only
  rw [readItem_some present]
  refine ⟨fun inserts => ?_, fun e fault held => ⟨fun other => ?_, fun same => ?_⟩⟩
  · cases state : (s.position p).state with
    | fault => rw [inserts.resolve_left fun healthy => healthy state]
    | empty => rfl
    | occupied => rfl
    | settlingOut => rfl
  · rw [fault, held]
    exact if_neg other
  · rw [fault, held]
    exact if_pos same

/-- The position and the entry of a FAULT position that an inventory finds with its receiver (R107). -/
theorem State.reseated_position (held : (s.position p).entry = some e) (y : BitVec 4) (ht : t = s.reseated p e y) :
    t.position p = { s.position p with state := .occupied, lamp := (t.position p).lamp, changes := (t.position p).changes } := by
  obtain ⟨u, hu⟩ : ∃ u, u = s.writePosition p (fun r => { r with state := .occupied }) := ⟨_, rfl⟩
  have own : u.position p = ({ s.position p with state := .occupied } : Position).bump := by
    rw [hu]
    exact (State.position_writePosition s p p _).trans (if_pos rfl)
  obtain ⟨-, -, -, ⟨l, c, lit⟩, -⟩ := State.writeBattery_facts (s := u) (e := e) (by rw [own]; exact held) y (t := t) (by rw [ht, hu]; rfl)
  rw [lit, own]
  rfl

/-- A FAULT position without an entry takes an insertion as an EMPTY one does (R107). -/
theorem State.takeInsert_freed (fault : (s.position p).state = .fault) (none : (s.position p).entry = none) (x : Serial) (y : BitVec 4) :
    s.takeInsert p x y = ({ s with positions := s.positions.set p { s.position p with state := .empty } } : State).takeInsert p x y := by
  obtain ⟨b, hb⟩ : ∃ b, b = ({ s.position p with state := .empty } : Position) := ⟨_, rfl⟩
  obtain ⟨w, hw⟩ : ∃ w, w = s.positions.set p b := ⟨_, rfl⟩
  have atW (q : PosId) : w[q] = if q = p then b else s.positions[q] := by
    rw [hw]
    exact get_set _ _ _ _
  have like : Relabelled p s.positions w := by
    refine ⟨fun q other => ?_, ?_, none⟩
    · rw [atW, if_neg other]
    · rw [atW, if_pos rfl, hb]
  have cleared : ((s.repositioned w).position p).state = .empty := by
    rw [State.repositioned_position, atW, if_pos rfl, hb]
  rw [State.takeInsert_inserted (.inr fault), ← hb, ← hw]
  exact (like.insertAt s x y).trans (State.takeInsert_inserted (.inl cleared)).symm

/-! ## Polls -/

/-- A poll that is sent (R104). -/
def State.nextPoll (s : State) : Poll :=
  { rack := s.bus.next, inventory := (s.racks.get s.bus.next).state != .online
    lamps := Vector.ofFn (fun k : PlaceId => (s.position (posIndex s.bus.next k)).lamp), presets := s.presetsOf s.bus.next }

theorem State.sendPoll_sent (ready : s.part = .ready) (free : s.bus.poll = none) : s.sendPoll
    = ({ s with bus := { next := s.bus.next + 1, poll := some s.nextPoll } } : State).updPresets s.bus.next (fun x => some { x with sent := true }) :=
  if_pos ⟨ready, free⟩

theorem State.answerExpiry_taken {x : Poll} (ready : s.part = .ready) (asked : s.bus.poll = some x) :
    s.answerExpiry = (s.endPoll.updPresets x.rack (fun x => some { x with sent := false })).unanswered x.rack := by
  unfold State.answerExpiry
  rw [asked]
  exact if_pos ready

theorem State.unanswered_other (other : (s.racks.get r).state ≠ .online) : s.unanswered r = s := if_pos other

theorem State.unanswered_online (online : (s.racks.get r).state = .online) : s.unanswered r = if 2 ≤ (s.racks.get r).unanswered then s.rackFault r
    else s.setRack r { state := .online, unanswered := (s.racks.get r).unanswered + 1 } :=
  (if_neg (not_not.mpr online)).trans (if_congr Nat.succ_le_succ_iff rfl rfl)

theorem State.rackAnswer_early {a : RackAnswer} (early : s.part ≠ .ready ∨ s.bus.poll = none ∨ ∃ x, s.bus.poll = some x ∧ x.inventory = true) :
    s.rackAnswer a = s := by
  unfold State.rackAnswer
  cases asked : s.bus.poll with
  | none => rfl
  | some x =>
    refine if_neg fun ⟨ready, plain⟩ => ?_
    rcases early with part | none | ⟨z, found, inventory⟩
    · exact part ready
    · exact nomatch asked.symm.trans none
    · obtain rfl := Option.some.inj (asked.symm.trans found)
      exact nomatch plain.symm.trans inventory

theorem State.inventoryAnswer_early {a : Inventory} (early : s.part ≠ .ready ∨ s.bus.poll = none ∨ ∃ x, s.bus.poll = some x ∧ x.inventory = false) :
    s.inventoryAnswer a = s := by
  unfold State.inventoryAnswer
  cases asked : s.bus.poll with
  | none => rfl
  | some x =>
    refine if_neg fun ⟨ready, inventory⟩ => ?_
    rcases early with part | none | ⟨z, found, plain⟩
    · exact part ready
    · exact nomatch asked.symm.trans none
    · obtain rfl := Option.some.inj (asked.symm.trans found)
      exact nomatch plain.symm.trans inventory

theorem State.rackAnswer_taken {x : Poll} (a : RackAnswer) (ready : s.part = .ready) (asked : s.bus.poll = some x) (plain : x.inventory = false) :
    s.rackAnswer a = s.workAnswer x a := by
  unfold State.rackAnswer
  rw [asked]
  exact if_pos ⟨ready, plain⟩

theorem State.inventoryAnswer_taken {x : Poll} (a : Inventory) (ready : s.part = .ready) (asked : s.bus.poll = some x) (inventory : x.inventory = true) :
    s.inventoryAnswer a = s.workInventory x a := by
  unfold State.inventoryAnswer
  rw [asked]
  exact if_pos ⟨ready, inventory⟩

/-- A rack ONLINE once its positions have been reconciled, with DOCK for one that was FAULT (R107). -/
theorem State.rackOnline_facts (u : State) (r : RackId) (was : RackState)
    (ht : t = if was = .fault then (u.setRack r { state := .online, unanswered := 0 }).raise .dock
      else u.setRack r { state := .online, unanswered := 0 }) :
    t = { u with racks := u.racks.set r { state := .online, unanswered := 0 }, notices := t.notices }
      ∧ (was ≠ .fault → t.notices = u.notices) ∧ (was = .fault → t.notices = (u.raise .dock).notices) := by
  subst ht
  by_cases fault : was = .fault
  · rw [if_pos fault]
    exact ⟨rfl, fun healthy => absurd fault healthy, fun _ => rfl⟩
  · rw [if_neg fault]
    exact ⟨rfl, fun _ => rfl, fun fails => absurd fails fault⟩

theorem State.workInventory_eq (s : State) (x : Poll) (inv : Inventory) : s.workInventory x inv = (fun u : State =>
    if (s.racks.get x.rack).state = .fault then (u.setRack x.rack { state := .online, unanswered := 0 }).raise .dock
      else u.setRack x.rack { state := .online, unanswered := 0 })
    ((List.finRange 40).foldl (fun u k => u.reconcile (posIndex x.rack k) (inv.get k))
      { s with bus := { s.bus with poll := none }
               presets := (s.endPoll.updPresets x.rack (fun x => if x.sent then none else some x)).presets }) := by
  have start : s.endPoll.updPresets x.rack (fun x => if x.sent then none else some x) = { s with
      bus := { s.bus with poll := none }
      presets := (s.endPoll.updPresets x.rack (fun x => if x.sent then none else some x)).presets } := State.updPresets_eq _ _ _
  rw [← start]
  rfl

theorem State.workAnswer_eq (s : State) (x : Poll) (a : RackAnswer) : s.workAnswer x a =
    a.results.foldl (State.takeResult x) (a.reports.foldl (State.takeReport x.rack) (a.changes.foldl (State.takeChange x.rack) { s with
      bus := { s.bus with poll := none }, racks := s.racks.set x.rack { state := .online, unanswered := 0 }
      presets := ((s.endPoll.setRack x.rack { state := .online, unanswered := 0 }).updPresets x.rack (fun x => if x.sent then none else some x)).presets })) := by
  have start : (s.endPoll.setRack x.rack { state := .online, unanswered := 0 }).updPresets x.rack (fun x => if x.sent then none else some x) = { s with
      bus := { s.bus with poll := none }, racks := s.racks.set x.rack { state := .online, unanswered := 0 }
      presets := ((s.endPoll.setRack x.rack { state := .online, unanswered := 0 }).updPresets x.rack (fun x => if x.sent then none else some x)).presets } :=
    State.updPresets_eq _ _ _
  rw [← start]
  rfl

/-- What an unanswered poll leaves of the presets: they wait again (R114). -/
def State.pollEnded (s : State) (r : RackId) : State := s.endPoll.updPresets r (fun x => some { x with sent := false })

theorem State.pollEnded_eq (s : State) (r : RackId) : s.pollEnded r
    = { s with bus := { next := s.bus.next, poll := none }, presets := (s.pollEnded r).presets } := State.updPresets_eq _ _ _

theorem State.pollEnded_preset (s : State) (r : RackId) (q : PosId) : (s.pollEnded r).presets.get q
    = if q.val / 40 = r.val then (s.presets.get q).map (fun y => { y with sent := false }) else s.presets.get q := by
  refine (State.updPresets_preset _ _ _ q).trans (if_congr Iff.rfl ?_ rfl)
  exact (Option.map_eq_bind ..).symm

/-- A rack that fails, whose poll has just gone unanswered a third time (R106, R114, R125, R129). -/
theorem State.rackFault_facts (s : State) (r : RackId) (t : State) (ht : t = (s.pollEnded r).rackFault r) :
    (t.racks.get r).state = .fault ∧ t.isPending .dock = true
      ∧ (∀ p : PosId, p.val / 40 = r.val → (t.position p).state = .fault ∧ (t.position p).lamp = .dark
          ∧ (t.position p).entry = (s.position p).entry ∧ t.presets.get p = none)
      ∧ (∀ p : PosId, p.val / 40 ≠ r.val → (t.position p).state = (s.position p).state ∧ (t.position p).entry = (s.position p).entry)
      ∧ t = { s with bus := t.bus, presets := t.presets, racks := s.racks.set r { state := .fault, unanswered := 3 }
                     positions := t.positions, receivers := t.receivers, hires := t.hires, accounts := t.accounts
                     orders := t.orders, mem := t.mem, notices := t.notices } := by
  obtain ⟨v, hv⟩ : ∃ v, v = s.pollEnded r := ⟨_, rfl⟩
  have same : v = { s with bus := { next := s.bus.next, poll := none }, presets := v.presets } := hv ▸ s.pollEnded_eq r
  rw [← hv] at ht
  have place (q : PosId) : v.position q = s.position q := by rw [same]
  obtain ⟨pending, failed⟩ := v.rackFault_failed r
  have racks := v.rackFault_racks r
  have state := v.rackFault_state r
  have entries (q : PosId) : ((v.rackFault r).position q).entry = (v.position q).entry := by
    rw [State.rackFault_eq, ((State.samePlaces_refl _).each (f := State.failReservation) State.failReservation_samePlaces q).2,
      State.rackDown_position]
    split <;> rfl
  rw [← ht] at pending failed racks state entries
  refine ⟨?_, pending, fun p own => ?_, fun p other => ?_, ?_⟩
  · rw [racks, State.rack_setRack, if_pos rfl]
  · obtain ⟨fault, lamp, preset⟩ := failed p ((mem_rackPositions r p).mpr own)
    exact ⟨fault, lamp, (entries p).trans (congrArg Position.entry (place p)), preset⟩
  · have away : rackOf p ≠ r := fun e => other (congrArg Fin.val e)
    rw [state, entries, if_neg away, place]
    exact ⟨rfl, rfl⟩
  · have only : s.onlyIn [.bus, .racks, .mem, .orders, .notices, .positions, .presets, .receivers, .hires, .accounts] t := by
      have ended : s.onlyIn [.bus, .racks, .mem, .orders, .notices, .positions, .presets, .receivers, .hires, .accounts] v := by
        rw [hv]
        exact ((State.endPoll_only s).sub (by decide)).next (State.updPresets_only _ r _) (by decide)
      exact ht ▸ ended.next (v.rackFault_only r) (by decide)
    have fields : t = { s with
        bus := t.bus, presets := t.presets, racks := t.racks, positions := t.positions, receivers := t.receivers, hires := t.hires
        accounts := t.accounts, orders := t.orders, mem := t.mem, notices := t.notices } := by
      refine only.eq (fun f hf => ?_) fun f hf => ?_
      · cases f <;> first | rfl | exact absurd (by decide) hf
      · cases f <;> first | rfl | exact absurd hf (by decide)
    have rack : t.racks = s.racks.set r { state := .fault, unanswered := 3 } := by
      rw [racks, same]
      rfl
    rw [rack] at fields
    exact fields

/-- And under the laws of hires, docks and slots. -/
theorem State.rackFault_ends (s : State) (r : RackId) (t : State) (ht : t = (s.pollEnded r).rackFault r) (hires : s.hiresOk) (docks : s.docksOk)
    (slots : s.slotsOk) :
    let ends := fun h : HireId => (s.hire h).state == .reserving
      && (s.posHolding (s.hire h).receiver).any (fun p => p.val / 40 == r.val)
    let of := fun a : AcctId => (List.finRange 1024).filter (fun h => ends h && (s.hire h).account == a)
    (∀ p : PosId, p.val / 40 ≠ r.val → t.presets.get p = s.presets.get p ∧ t.position p = s.position p)
    ∧ (∀ h : HireId, t.hire h =
        if ends h = true then { s.hire h with state := .free, changes := (s.hire h).changes + 2 } else s.hire h)
    ∧ (∀ e : RecvId, (∀ h : HireId, ends h = true → (s.hire h).receiver ≠ e) → t.receiver e = s.receiver e)
    ∧ (∀ h : HireId, ends h = true →
        t.receiver (s.hire h).receiver = { s.receiver (s.hire h).receiver with
          state := .docked, hire := none, changes := (s.receiver (s.hire h).receiver).changes + 2 }
        ∧ ∀ y : Standing, s.standingOf (.issue h) = some y → y ∉ t.orders.standing
          ∧ t.mem.shows y.slot { code := .failed, reason := .dockFault, clamped := y.clamped, already := false
                                 values := s.issueValues h })
    ∧ ∀ a : AcctId, t.account a = { s.account a with
        changes := (t.account a).changes, holds := (s.account a).holds - ((of a).map (fun h => (s.hire h).hold)).sum
        count := (s.account a).count - (of a).length } := by
  intro ends of
  obtain ⟨v, hv⟩ : ∃ v, v = s.pollEnded r := ⟨_, rfl⟩
  have same : v = { s with bus := { next := s.bus.next, poll := none }, presets := v.presets } := hv ▸ s.pollEnded_eq r
  rw [← hv] at ht
  obtain ⟨l, nodup, mem, dropped, others⟩ := State.rackFault_dropped (s := v) (by rw [same]; exact hires) (by rw [same]; exact docks) r
  rw [← ht] at dropped others
  have only := v.rackDown_only r
  have hire (h : HireId) : (v.rackDown r).hire h = s.hire h :=
    (congrArg (fun v : Vector Hire _ => v[h]) (only .hires (by decide))).trans (by rw [same]; rfl)
  have receiver (e : RecvId) : (v.rackDown r).receiver e = s.receiver e :=
    (congrArg (fun v : Vector Receiver _ => v[e]) (only .receivers (by decide))).trans (by rw [same]; rfl)
  have account (a : AcctId) : (v.rackDown r).account a = s.account a :=
    (congrArg (fun v : Vector Account _ => v[a]) (only .accounts (by decide))).trans (by rw [same]; rfl)
  have orders : (v.rackDown r).orders = s.orders := (only .orders (by decide)).trans (by rw [same]; rfl)
  have down : s.onlyIn [.bus, .racks, .positions, .presets, .notices] (v.rackDown r) := by
    have ended : s.onlyIn [.bus, .racks, .positions, .presets, .notices] v := by
      rw [hv]
      exact ((State.endPoll_only s).sub (by decide)).next (State.updPresets_only _ r _) (by decide)
    exact (ended.next (State.setRack_only v r _) (by decide)).next only (by decide)
  have slotsDown : (v.rackDown r).slotsOk := State.slotsHold_none.mp ((slotsHold_reads none).frame down (by decide) (State.slotsHold_none.mpr slots))
  have mem (h : HireId) : h ∈ l ↔ ends h = true := by
    rw [mem, show v.hire h = s.hire h by rw [same], show v.posHolding (s.hire h).receiver = s.posHolding (s.hire h).receiver by rw [same]; rfl,
      Bool.and_eq_true, beq_iff_eq, Option.any_eq_true]
    refine and_congr_right fun _ => exists_congr fun p => and_congr_right fun _ => ?_
    rw [mem_rackPositions, beq_iff_eq]
  have onAccount (a : AcctId) : (l.filter (fun h => ((v.rackDown r).hire h).account == a)).Perm (of a) := by
    refine (List.perm_ext_iff_of_nodup (nodup.filter _) ((List.nodup_finRange 1024).filter _)).mpr fun h => ?_
    rw [List.mem_filter, List.mem_filter, mem, hire]
    exact ⟨fun both => ⟨List.mem_finRange h, Bool.and_eq_true_iff.mpr both⟩, fun both => Bool.and_eq_true_iff.mp both.2⟩
  refine ⟨fun p other => ?_, fun h => ?_, fun e away => ?_, fun h m => ⟨?_, fun y standing => ?_⟩, fun a => ?_⟩
  · obtain ⟨position, preset⟩ := others p (mt (mem_rackPositions r p).mp other)
    refine ⟨?_, position.trans (by rw [same])⟩
    rw [preset, hv, State.pollEnded_preset, if_neg other]
  · rw [dropped.hires, hire, if_congr (mem h) rfl rfl]
    rfl
  · rw [dropped.away e fun h m => by rw [hire]; exact away h ((mem h).mp m)]
    exact receiver e
  · have docked := dropped.docked h ((mem h).mpr m)
    rw [hire, receiver] at docked
    exact docked
  · have ended := (dropped.orders slotsDown).results h ((mem h).mpr m) y (by rw [State.standingOf, orders]; exact standing)
    rw [State.issueValues_congr (hire h) (receiver _)] at ended
    exact ended
  · obtain ⟨k, changed⟩ := dropped.accounts a
    have holds : (v.rackDown r).holdsOf l a = ((of a).map (fun h => (s.hire h).hold)).sum := by
      unfold State.holdsOf
      rw [((onAccount a).map _).sum_eq]
      exact congrArg List.sum (List.map_congr_left fun h _ => congrArg Hire.hold (hire h))
    rw [holds, show (v.rackDown r).countOf l a = (of a).length from (onAccount a).length_eq, account] at changed
    rw [changed]

/-- Settles O42. -/
theorem pollCycleAndAnswers : Obligations.PollCycleAndAnswers := by
  refine ⟨fun s early => ?_, fun s ready free => ?_, fun s early => ?_, fun s x ready asked => ?_, fun s a inv early => ⟨?_, ?_⟩,
    fun s x a inv asked => ⟨fun inventory => ?_, fun plain => ?_⟩, fun s x a ready asked plain => ?_, fun s x inv ready asked inventory => ?_,
    fun s p i => ⟨fun none => ?_, fun y item present => ?_⟩⟩
  · exact congrArg Host.Outcome.next (if_neg fun ⟨ready, free⟩ => early.elim (fun part => part ready) fun asked => asked free)
  · refine ⟨s.nextPoll, _, congrArg Host.Outcome.next ((State.sendPoll_sent ready free).trans (State.updPresets_eq _ _ _)), rfl, ?_, fun k => ?_,
      s.mem_presetsOf s.bus.next, fun p => ?_⟩
    · exact Bool.eq_iff_iff.mpr (bne_iff_ne.trans decide_eq_true_iff.symm)
    · exact Vector.getElem_ofFn ..
    · refine (State.updPresets_preset _ _ _ p).trans (if_congr Iff.rfl ?_ rfl)
      exact (Option.map_eq_bind ..).symm
  · refine congrArg Host.Outcome.next ?_
    unfold State.answerExpiry
    cases asked : s.bus.poll with
    | none => rfl
    | some x => exact if_neg fun ready => early.elim (fun part => part ready) fun none => nomatch asked.symm.trans none
  · have ended := s.pollEnded_eq x.rack
    have presets := s.pollEnded_preset x.rack
    have racks : (s.pollEnded x.rack).racks = s.racks := by rw [ended]
    refine ⟨(s.pollEnded x.rack).unanswered x.rack, congrArg Host.Outcome.next (State.answerExpiry_taken ready asked), ?_, fun stays => ?_,
      fun other => ?_, fun online few => ?_, fun online many => ?_⟩
    · refine (State.unanswered_only _ x.rack .bus (by decide)).trans ?_
      rw [ended]
    · have kept : ((s.pollEnded x.rack).unanswered x.rack).presets = (s.pollEnded x.rack).presets := by
        by_cases online : (s.racks.get x.rack).state = .online
        · rw [State.unanswered_online (by rw [racks]; exact online), racks,
            if_neg (Nat.not_le.mpr (stays.resolve_left fun other => other online))]
          rfl
        · rw [State.unanswered_other (by rw [racks]; exact online)]
      rw [kept]
      exact presets
    · rw [State.unanswered_other (by rw [racks]; exact other)]
      exact ended.trans (by rw [ended])
    · rw [State.unanswered_online (by rw [racks]; exact online), racks, if_neg (Nat.not_le.mpr few)]
      generalize s.pollEnded x.rack = v at ended
      rw [ended]
      rfl
    · have fails : (s.pollEnded x.rack).unanswered x.rack = (s.pollEnded x.rack).rackFault x.rack := by
        rw [State.unanswered_online (by rw [racks]; exact online), racks, if_pos many]
      obtain ⟨fault, pending, failed, others, fields⟩ := s.rackFault_facts x.rack _ fails
      exact ⟨fault, pending, failed, others, fields, fun hires docks slots => s.rackFault_ends x.rack _ fails hires docks slots⟩
  · exact congrArg Host.Outcome.next (State.rackAnswer_early (early.imp_right .inl))
  · exact congrArg Host.Outcome.next (State.inventoryAnswer_early (early.imp_right .inl))
  · exact congrArg Host.Outcome.next (State.rackAnswer_early (.inr (.inr ⟨x, asked, inventory⟩)))
  · exact congrArg Host.Outcome.next (State.inventoryAnswer_early (.inr (.inr ⟨x, asked, plain⟩)))
  · refine ⟨((s.endPoll.setRack x.rack { state := .online, unanswered := 0 }).updPresets x.rack (fun x => if x.sent then none else some x)).presets,
      fun p => ?_, congrArg Host.Outcome.next ((State.rackAnswer_taken a ready asked plain).trans ?_)⟩
    · rw [State.updPresets_preset, bind_unsent]
      rfl
    · exact s.workAnswer_eq x a
  · refine ⟨(s.endPoll.updPresets x.rack (fun x => if x.sent then none else some x)).presets, s.workInventory x inv, fun p => ?_, ?_,
      congrArg Host.Outcome.next (State.inventoryAnswer_taken inv ready asked inventory)⟩
    · rw [State.updPresets_preset, bind_unsent]
      rfl
    · exact State.rackOnline_facts _ x.rack (s.racks.get x.rack).state (s.workInventory_eq x inv)
  · obtain ⟨healthy, gone, freed⟩ := State.reconcile_none (s := s) (p := p) (readItem_none none)
    exact ⟨healthy, fun e fault held => (gone e fault held).symm ▸ s.removal_removed p _ false, fun fault none => freed fault none⟩
  · subst item
    obtain ⟨inserts, held⟩ := State.reconcile_some (s := s) (p := p) present
    refine ⟨fun healthy => inserts (.inl healthy), fun fault none => (inserts (.inr none)).trans (State.takeInsert_freed fault none _ _),
      fun e fault at' => ⟨fun other => ⟨_, s.removal_removed p _ false, ?_⟩, fun same => ?_⟩⟩
    · rw [(held e fault at').1 other, State.takeInsert_inserted (s.removal_empties p _ false)]
    · rw [(held e fault at').2 same]
      have place := State.reseated_position at' y.battery rfl
      obtain ⟨only, receiver, -, -, -, -, others, away, lamp⟩ := State.reseated_facts at' y.battery rfl
      exact ⟨only, place, receiver, lamp, others, away⟩

end

end Sys2Proof.Machine
end

section
/-!
SUPPORT. ISSUE (R115, R121 to R124, O46).
-/
namespace Sys2Proof.Machine

/-! ## The choice of a receiver -/

/-- The first of the greatest is chosen. -/
theorem bestOf_split {x : Nat × RecvId} {after : List (Nat × RecvId)} (most : ∀ y ∈ after, y.1 ≤ x.1) :
    ∀ before : List (Nat × RecvId), (∀ y ∈ before, y.1 < x.1) → bestOf (before ++ x :: after) = some x
  | [], _ => by
    show bestOf (x :: after) = some x
    unfold bestOf
    cases best : bestOf after with
    | none => rfl
    | some y => exact if_neg (Nat.not_lt.mpr (most y (bestOf_mem best)))
  | y :: before, less => by
    show bestOf (y :: (before ++ x :: after)) = some x
    unfold bestOf
    rw [bestOf_split most before fun z hz => less z (List.mem_cons_of_mem y hz)]
    exact if_pos (less y (List.mem_cons_self ..))

section
variable {s t : State} {p q : PosId} {e d : RecvId} {h : HireId} {a : AcctId} {c : ChannelId}

/-- A receiver that an ISSUE may be given from its charge (R115, R121). -/
def State.chargedUp (s : State) (e : RecvId) : Prop := (s.receiver e).state = .docked ∧ s.timers.battery ≤ (s.receiver e).battery.toNat

/-- A receiver that stands ready at a position (R115). -/
def State.standsAt (s : State) (p : PosId) (e : RecvId) : Prop :=
  (s.position p).state = .occupied ∧ (s.position p).entry = some e ∧ s.chargedUp e

/-- The receiver of highest battery, and of several the one at the lowest position (R115). -/
def State.bestAt (s : State) (p : PosId) (e : RecvId) : Prop := s.standsAt p e ∧ ∀ (q : PosId) (d : RecvId), s.standsAt q d →
  (s.receiver d).battery < (s.receiver e).battery ∨ ((s.receiver d).battery = (s.receiver e).battery ∧ p ≤ q)

theorem State.qualifies_of (stands : s.standsAt p e) : s.qualifies p = some ((s.receiver e).battery.toNat, e) := by
  obtain ⟨state, held, charged⟩ := stands
  unfold State.qualifies
  rw [state, held]
  exact if_pos charged

theorem State.qualifies_stands {x : Nat × RecvId} (found : s.qualifies p = some x) : s.standsAt p x.2 ∧ x.1 = (s.receiver x.2).battery.toNat := by
  obtain ⟨state, held, docked, battery, same⟩ := State.qualifies_some found
  exact ⟨⟨state, held, docked, battery⟩, same⟩

theorem State.chooseReceiver_best (best : s.bestAt p e) : s.chooseReceiver = some e := by
  obtain ⟨stands, most⟩ := best
  obtain ⟨before, after, split⟩ := List.append_of_mem (List.mem_finRange p)
  have sorted : (before ++ p :: after).Pairwise (· < ·) := split ▸ List.pairwise_lt_finRange 320
  obtain ⟨-, later, cross⟩ := List.pairwise_append.mp sorted
  unfold State.chooseReceiver
  rw [split, List.filterMap_append, List.filterMap_cons_some (State.qualifies_of stands), bestOf_split]
  · rfl
  · intro x hx
    obtain ⟨q, m, found⟩ := List.mem_filterMap.mp hx
    obtain ⟨standing, level⟩ := State.qualifies_stands found
    rw [level]
    rcases most q x.2 standing with less | same
    · exact Nat.le_of_lt less
    · exact Nat.le_of_eq (congrArg BitVec.toNat same.1)
  · intro x hx
    obtain ⟨q, m, found⟩ := List.mem_filterMap.mp hx
    obtain ⟨standing, level⟩ := State.qualifies_stands found
    rw [level]
    rcases most q x.2 standing with less | same
    · exact less
    · exact absurd (cross q m p (List.mem_cons_self ..)) (not_lt.mpr same.2)

/-- Where a receiver stands ready, one of them is the best. -/
theorem State.bestAt_exists (stands : s.standsAt p e) : ∃ q d, s.bestAt q d := by
  obtain ⟨⟨q, d⟩, standing, most⟩ := Set.exists_max_image {x : PosId × RecvId | s.standsAt x.1 x.2}
    (fun x => (s.receiver x.2).battery.toNat * 320 + (319 - x.1.val)) (Set.toFinite _) ⟨(p, e), stands⟩
  refine ⟨q, d, standing, fun r f also => ?_⟩
  have least : (s.receiver f).battery.toNat * 320 + (319 - r.val) ≤ (s.receiver d).battery.toNat * 320 + (319 - q.val) := most (r, f) also
  rcases Nat.lt_trichotomy (s.receiver f).battery.toNat (s.receiver d).battery.toNat with less | same | more
  · exact .inl less
  · exact .inr ⟨BitVec.eq_of_toNat_eq same, Fin.le_def.mpr (by omega)⟩
  · omega

theorem State.chooseReceiver_none (none : ∀ p e, ¬ s.standsAt p e) : s.chooseReceiver = Option.none := by
  have empty : (List.finRange 320).filterMap s.qualifies = [] := by
    rw [List.filterMap_eq_nil_iff]
    intro p _
    cases found : s.qualifies p with
    | none => rfl
    | some x => exact absurd (State.qualifies_stands found).1 (none p x.2)
  unfold State.chooseReceiver
  rw [empty]
  rfl

/-- The receiver an ISSUE may be given (R115, R121). -/
def State.fitsIssue (s : State) (asked : Nat) (e : RecvId) : Prop :=
  (asked ≠ 0 ∧ s.entryOf (BitVec.ofNat 24 asked) = some e
    ∧ ((s.receiver e).state = .adrift ∨ (s.chargedUp e ∧ ∀ p : PosId, s.posHolding e = some p → (s.position p).state ≠ .fault)))
  ∨ (asked = 0 ∧ ∃ p : PosId, s.bestAt p e)

theorem State.issuable_iff : s.issuable e = true ↔ (s.receiver e).state = .adrift
    ∨ (s.chargedUp e ∧ ∀ p : PosId, s.posHolding e = some p → (s.position p).state ≠ .fault) := by
  unfold State.issuable State.chargedUp
  rw [Bool.or_eq_true, Bool.and_eq_true, Bool.and_eq_true, beq_iff_eq, beq_iff_eq, decide_eq_true_iff]
  refine or_congr_right (and_congr_right fun _ => ?_)
  cases s.posHolding e with
  | none => exact iff_of_true rfl fun p e => nomatch e
  | some p =>
    refine bne_iff_ne.trans ⟨fun other q same => ?_, fun all => all p rfl⟩
    obtain rfl := Option.some.inj same
    exact other

theorem State.issueReceiver_fits {asked : Nat} (small : asked < 2 ^ 24) (fits : s.fitsIssue asked e) :
    s.issueReceiver (BitVec.ofNat 24 asked) = some e := by
  unfold State.issueReceiver
  rcases fits with ⟨named, found, ready⟩ | ⟨any, p, best⟩
  · have present : BitVec.ofNat 24 asked ≠ 0 := fun zero => named (by
      have := congrArg BitVec.toNat zero
      rwa [BitVec.toNat_ofNat, Nat.mod_eq_of_lt small] at this)
    rw [if_neg present, found]
    exact if_pos (State.issuable_iff.mpr ready)
  · rw [any]
    exact State.chooseReceiver_best best

theorem State.issueReceiver_unfit {asked : Nat} (small : asked < 2 ^ 24) (unfit : ∀ e, ¬ s.fitsIssue asked e) :
    s.issueReceiver (BitVec.ofNat 24 asked) = none := by
  unfold State.issueReceiver
  by_cases any : asked = 0
  · rw [any]
    refine State.chooseReceiver_none fun p e stands => ?_
    obtain ⟨q, d, best⟩ := State.bestAt_exists stands
    exact unfit d (.inr ⟨any, q, best⟩)
  · have present : BitVec.ofNat 24 asked ≠ 0 := fun zero => any (by
      have := congrArg BitVec.toNat zero
      rwa [BitVec.toNat_ofNat, Nat.mod_eq_of_lt small] at this)
    rw [if_neg present]
    cases found : s.entryOf (BitVec.ofNat 24 asked) with
    | none => rfl
    | some e => exact if_neg fun ready => unfit e (.inl ⟨any, found, State.issuable_iff.mp ready⟩)

/-! ## The branches of an ISSUE -/

theorem workIssue_of {n : SlotId} {p : IssueParams} (params : s.issueParams n = some p) : workIssue s n =
    if s.clock.valid = false then refuse s .clockUnset
    else if (s.account p.account).state = .free then refuse s .notFound
    else if (s.account p.account).state = .held then refuse s .accountHeld
    else if (s.account p.account).count = (s.account p.account).limit then refuse s .limit
    else if (s.account p.account).free < (s.tariffs.get (s.account p.account).tariff).hold then refuse s .limit
    else (tblFind s.hires (fun r => r.state == .free)).elim (refuse s .tableFull)
      (fun h => (s.issueReceiver p.serial).elim (refuse s .noReceiver) (fun e => s.issue n p h e)) := by
  unfold workIssue
  rw [params]
  dsimp only
  cases tblFind s.hires (fun r => r.state == .free) with
  | none => rfl
  | some h =>
    cases s.issueReceiver p.serial with
    | none => rfl
    | some e => rfl

theorem State.issueParams_some {n : SlotId} (account : s.paramLE n 0 2 = a.val) (channel : s.param8 n 5 = c.val) :
    s.issueParams n = some { account := a, serial := BitVec.ofNat 24 (s.paramLE n 2 3), preset := c } := by
  unfold State.issueParams
  rw [State.paramAccount_some account, channel, index?_val]

theorem State.issueParams_none {n : SlotId} (bad : 511 < s.paramLE n 0 2 ∨ 31 < s.param8 n 5) : s.issueParams n = none := by
  unfold State.issueParams State.paramAccount
  rcases bad with account | channel
  · rw [index?_of_le account]
  · rw [index?_of_le (k := 32) channel]
    cases index? 512 (s.paramLE n 0 2) with
    | none => rfl
    | some a => rfl

/-- The preset channel is kept where it is 0, or defined and on air (R122). -/
theorem State.settlePreset_eq (s : State) (c : ChannelId) : s.settlePreset c
    = (if c = 0 ∨ ((s.channel c).defined = true ∧ (s.channel c).onAir = true) then c else 0,
      decide (¬ (c = 0 ∨ ((s.channel c).defined = true ∧ (s.channel c).onAir = true)))) := by
  unfold State.settlePreset
  by_cases zero : c = 0
  · rw [if_pos zero, if_pos (.inl zero), zero]
    rfl
  · rw [if_neg zero]
    by_cases air : (s.channel c).defined = true ∧ (s.channel c).onAir = true
    · have keeps : c = 0 ∨ ((s.channel c).defined = true ∧ (s.channel c).onAir = true) := Or.inr air
      exact (if_pos (Bool.and_eq_true_iff.mpr air)).trans (Prod.ext (if_pos keeps).symm (decide_eq_false (not_not.mpr keeps)).symm)
    · have replaced : ¬ (c = 0 ∨ ((s.channel c).defined = true ∧ (s.channel c).onAir = true)) := not_or.mpr ⟨zero, air⟩
      exact (if_neg fun both => air (Bool.and_eq_true_iff.mp both)).trans
        (Prod.ext (if_neg replaced).symm (decide_eq_true replaced).symm)

/-! ## Adoption and reservation -/

variable {n : SlotId} {rest : List SlotId} {x : Hire}

/-- The position that holds a receiver reserved, its lamp and its preset (R113, R114, R123). -/
theorem State.reserve_facts (s : State) (n : SlotId) (h : HireId) (x : Hire) (preset : ChannelId) (clamped : Bool) {t : State}
    (ht : t = s.reserve n h x preset clamped) :
    t = { s with
      nextHire := nextHireNumber s.nextHire
      accounts := s.accounts.set x.account ((s.account x.account).reserve x.hold).bump
      orders := { s.orders with standing := s.orders.standing ++ [{ slot := n, owner := .issue h, clamped := clamped }] }
      mem := t.mem, positions := t.positions, presets := t.presets
      hires := s.hires.set h ({ x with
        changes := (s.hire h).changes, state := .reserving, slot := n, deadline := s.clock.run + secTicks s.timers.reservation } : Hire).bump
      receivers := s.receivers.set x.receiver ({ s.receiver x.receiver with state := .reserved, hire := some h, preset := preset } : Receiver).bump }
    ∧ (s.memOk → t.holder n = Holder.standing ∧ ∀ a : Nat, ¬ resultByte n a → t.mem.read8 a = s.mem.read8 a)
    ∧ ∀ p : PosId,
      (s.posHolding x.receiver = some p → t.position p = { s.position p with lamp := (t.position p).lamp, changes := (t.position p).changes }
        ∧ (t.position p).lamp = (if (s.position p).state = .occupied then .issue else .dark)
        ∧ t.presets.get p = some { entry := x.receiver, channel := preset, sent := false })
      ∧ (s.posHolding x.receiver ≠ some p → t.position p = s.position p ∧ t.presets.get p = s.presets.get p) := by
  obtain ⟨u, hu⟩ : ∃ u, u = (s.createHire h { x with
      state := .reserving, slot := n, deadline := s.clock.run + secTicks s.timers.reservation }).writeReceiver x.receiver
    (fun r => { r with state := .reserved, hire := some h, preset := preset }) := ⟨_, rfl⟩
  obtain ⟨v, hv⟩ : ∃ v, v = u.relampHolder x.receiver := ⟨_, rfl⟩
  obtain ⟨w, hw⟩ : ∃ w, w = v.requestPreset x.receiver preset := ⟨_, rfl⟩
  have stood : t = w.makeStanding n (.issue h) clamped := by
    rw [ht, hw, hv, hu]
    rfl
  have positions : u.positions = s.positions := by
    rw [hu]
    rfl
  have before (p : PosId) : u.position p = s.position p := congrArg (fun v : Vector Position _ => v[p]) positions
  have holding : u.posHolding x.receiver = s.posHolding x.receiver := by
    unfold State.posHolding
    rw [positions]
  have reserved : (u.receiver x.receiver).state = .reserved := by
    rw [hu]
    exact congrArg Receiver.state ((State.receiver_writeReceiver _ _ _ _).trans (if_pos rfl))
  have timers : u.timers = s.timers := by rw [hu]; rfl
  have lit := State.relampHolder_eq u x.receiver
  rw [← hv] at lit
  have requested : w = { v with presets := w.presets } := by
    rw [hw]
    unfold State.requestPreset
    split <;> rfl
  have asked (p : PosId) : w.presets.get p = if s.posHolding x.receiver = some p
      then some { entry := x.receiver, channel := preset, sent := false } else s.presets.get p := by
    have holdingV : v.posHolding x.receiver = s.posHolding x.receiver := by
      rw [hv, State.posHolding_congr (s := u) fun q => (State.relampHolder_litAs x.receiver q).entry]
      exact holding
    have presets : v.presets = s.presets := by
      rw [lit, hu]
      rfl
    rw [hw]
    unfold State.requestPreset
    rw [holdingV]
    cases s.posHolding x.receiver with
    | none => exact congrArg (fun z : Vector (Option Preset) _ => z.get p) presets
    | some q =>
      refine (State.preset_setPreset v q p _).trans ?_
      by_cases own : p = q
      · rw [if_pos own, if_pos (congrArg some own.symm)]
      · rw [if_neg own, if_neg fun e => own (Option.some.inj e).symm, presets]
  obtain ⟨standing, shown⟩ := w.makeStanding_facts (n := n) (.issue h) clamped
  rw [← stood] at standing shown
  have place (p : PosId) : t.position p = v.position p := by
    rw [standing, requested]
  have waits (p : PosId) : t.presets.get p = w.presets.get p := by rw [standing]
  have mem : w.mem = s.mem := by
    rw [requested, lit, hu]
    rfl
  refine ⟨?_, fun wf => ?_, fun p => ⟨fun held => ?_, fun other => ?_⟩⟩
  · rw [standing, requested, lit, hu]
    rfl
  · obtain ⟨-, holder, bytes⟩ := shown (by rw [State.memOk, mem]; exact wf)
    exact ⟨holder, fun a out => (bytes a out).trans (congrArg (fun m : Memory => m.read8 a) mem)⟩
  · have relit := State.relampHolder_position u x.receiver p
    rw [← hv, holding, if_pos held, before, timers, State.heldEntry_some (e := x.receiver) (by rw [before]; exact State.posHolding_some held)]
      at relit
    have issue : dockLamp s.timers.battery (s.position p).state (some (u.receiver x.receiver))
        = if (s.position p).state = .occupied then .issue else .dark := by
      unfold dockLamp
      cases (s.position p).state with
      | occupied =>
        dsimp only
        rw [reserved]
        rfl
      | empty => rfl
      | settlingOut => rfl
      | fault => rfl
    rw [place, waits, asked, if_pos held, ← issue]
    rcases rewritten_cases Position.bump (fun r => { r with lamp := dockLamp s.timers.battery r.state (some (u.receiver x.receiver)) })
      (s.position p) with ⟨same, kept⟩ | changed
    · rw [relit, kept]
      exact ⟨rfl, (congrArg Position.lamp same).symm, rfl⟩
    · rw [relit, changed]
      exact ⟨rfl, rfl, rfl⟩
  · have relit := State.relampHolder_position u x.receiver p
    rw [← hv, holding, if_neg other, before] at relit
    rw [place, waits, asked, if_neg other]
    exact ⟨relit, rfl⟩

/-! ## ISSUE -/

/-- An ISSUE of a slot taken reads the parameters of the slot and works on the tables as they were. -/
theorem workIssue_taken {m : Memory} (taken : SlotTaken s n m) (account : s.paramLE n 0 2 = a.val) (channel : s.param8 n 5 = c.val) :
    workIssue (s.taken m rest) n =
      if s.clock.valid = false then refuse (s.taken m rest) .clockUnset
      else if (s.account a).state = .free then refuse (s.taken m rest) .notFound
      else if (s.account a).state = .held then refuse (s.taken m rest) .accountHeld
      else if (s.account a).count = (s.account a).limit then refuse (s.taken m rest) .limit
      else if (s.account a).free < (s.tariffs.get (s.account a).tariff).hold then refuse (s.taken m rest) .limit
      else (tblFind s.hires (fun r => r.state == .free)).elim (refuse (s.taken m rest) .tableFull)
        (fun h => (s.issueReceiver (BitVec.ofNat 24 (s.paramLE n 2 3))).elim (refuse (s.taken m rest) .noReceiver)
          (fun e => (s.taken m rest).issue n { account := a, serial := BitVec.ofNat 24 (s.paramLE n 2 3), preset := c } h e)) := by
  have params : (s.taken m rest).issueParams n = some { account := a, serial := BitVec.ofNat 24 (s.paramLE n 2 3), preset := c } := by
    rw [State.issueParams_some ((taken.paramLE rest (by omega)).trans account) ((taken.param8 rest (by omega)).trans channel),
      taken.paramLE rest (by omega)]
  exact workIssue_of params

theorem tblFind_free (first : (s.hire h).state = .free) (others : ∀ k : HireId, k < h → (s.hire k).state ≠ .free) :
    tblFind s.hires (fun r => r.state == .free) = some h :=
  (tblFind_eq_some _ _ _).mpr ⟨beq_iff_eq.mpr first, fun k before => beq_eq_false_iff_ne.mpr (others k before)⟩

/-- The new hire record of an ISSUE (R123, R124). -/
def State.newHire (s : State) (a : AcctId) (e : RecvId) : Hire :=
  Hire.created s.nextHire a e (s.account a).tariff (s.tariffs.get (s.account a).tariff).hold

theorem State.issue_reserves {p : IssueParams} (docked : (s.receiver e).state = .docked) : s.issue n p h e
    = (s.reserve n h (s.newHire p.account e) (s.settlePreset p.preset).1 (s.settlePreset p.preset).2, none) := by
  have desk : (s.receiver e).state ≠ .adrift := by
    rw [docked]
    exact fun e => nomatch e
  exact if_neg desk

/-- What an adoption leaves (R124). -/
theorem State.adopt_eq (s : State) (h : HireId) (x : Hire) (preset : ChannelId) : s.adopt h x preset = { s with
    nextHire := nextHireNumber s.nextHire
    accounts := s.accounts.set x.account ((s.account x.account).reserve x.hold).bump
    hires := s.hires.set h ({ x with
      changes := (s.hire h).changes, state := .opened, startTick := s.clock.run, start := (s.clock.stamp s.clock.run).1, adopted := true
      clockUnset := (s.clock.stamp s.clock.run).2 } : Hire).bump
    receivers := s.receivers.set x.receiver ({ s.receiver x.receiver with
      state := .onHire, hire := some h, preset := preset, lastHeard := s.clock.run
      hires := satAdd 16 (s.receiver x.receiver).hires 1 } : Receiver).bump } := rfl

theorem State.issue_adopts {p : IssueParams} (adrift : (s.receiver e).state = .adrift) : s.issue n p h e
    = (s.adopt h (s.newHire p.account e) (s.settlePreset p.preset).1, some
      { code := .done, reason := .noReason, clamped := (s.settlePreset p.preset).2, already := false
        values := leBytes 4 s.nextHire.toNat ++ leBytes 2 h.val ++ leBytes 3 (s.receiver e).serial.toNat
          ++ leBytes 1 (s.settlePreset p.preset).1.val ++ leBytes 2 e.val }) := by
  obtain ⟨u, hu⟩ : ∃ u, u = s.adopt h (s.newHire p.account e) (s.settlePreset p.preset).1 := ⟨_, rfl⟩
  have hire : u.hire h = ({ s.newHire p.account e with
      changes := (s.hire h).changes, state := .opened, startTick := s.clock.run, start := (s.clock.stamp s.clock.run).1, adopted := true
      clockUnset := (s.clock.stamp s.clock.run).2 } : Hire).bump := by
    rw [hu, State.adopt_eq]
    exact (get_set _ _ _ _).trans (if_pos rfl)
  have receiver : u.receiver e = ({ s.receiver e with
      state := .onHire, hire := some h, preset := (s.settlePreset p.preset).1, lastHeard := s.clock.run
      hires := satAdd 16 (s.receiver e).hires 1 } : Receiver).bump := by
    rw [hu, State.adopt_eq]
    exact (get_set _ _ _ _).trans (if_pos rfl)
  have issued : s.issue n p h e = (u, some { u.issueResult h .done .noReason with clamped := (s.settlePreset p.preset).2 }) := by
    rw [hu]
    exact if_pos adrift
  have values : u.issueValues h = leBytes 4 (u.hire h).number.toNat ++ leBytes 2 h.val
    ++ leBytes 3 (u.receiver (u.hire h).receiver).serial.toNat ++ leBytes 1 (u.receiver (u.hire h).receiver).preset.val
    ++ leBytes 2 (u.hire h).receiver.val := rfl
  have own : (u.hire h).receiver = e := by
    rw [hire]
    rfl
  rw [own, receiver, hire] at values
  rw [issued, ← hu]
  unfold State.issueResult
  rw [values]
  rfl

/-- Settles O46. -/
theorem issueReservesOrAdopts : Obligations.IssueReservesOrAdopts := by
  intro s n rest takes
  refine ⟨fun bad => ?_, fun a c account channel => ?_⟩
  · refine State.completes_work takes (State.takes_kind takes) rfl rfl fun m taken => ?_
    have params : (s.taken m rest).issueParams n = none := State.issueParams_none (by
      rw [taken.paramLE rest (by omega), taken.param8 rest (by omega)]
      exact bad)
    unfold workIssue
    rw [params]
    rfl
  · intro acct hold asked charged stands fits full
    have small : asked < 2 ^ 24 := s.paramLE_lt n 2 3
    have refused : ∀ r : Reason, (∀ m : Memory, SlotTaken s n m → workIssue (s.taken m rest) n = refuse (s.taken m rest) r) → s.refuses .issue n rest r :=
      fun r works => State.completes_work takes (State.takes_kind takes) rfl rfl works
    have set (valid : s.clock.valid = true) : ¬ s.clock.valid = false := by
      rw [valid]
      exact fun e => nomatch e
    have open' (active : (s.account a).state = .active) : (s.account a).state ≠ .free ∧ (s.account a).state ≠ .held := by
      rw [active]
      exact ⟨fun e => (nomatch e), fun e => (nomatch e)⟩
    have passes (valid : s.clock.valid = true) (active : (s.account a).state = .active) (room : ¬ full) {m : Memory} (taken : SlotTaken s n m) :
        workIssue (s.taken m rest) n = _ := (workIssue_taken taken account channel).trans ((if_neg (set valid)).trans
          ((if_neg (open' active).1).trans ((if_neg (open' active).2).trans ((if_neg (not_or.mp room).1).trans (if_neg (not_or.mp room).2)))))
    refine ⟨fun unset => ?_, fun valid free => ?_, fun valid held => ?_, fun valid active isFull => ?_, fun valid active room none => ?_,
      fun valid active room found unfit => ?_, fun h e valid active room first lowest fit => ?_⟩
    · exact refused _ fun m taken => (workIssue_taken taken account channel).trans (if_pos unset)
    · exact refused _ fun m taken => (workIssue_taken taken account channel).trans ((if_neg (set valid)).trans (if_pos free))
    · have used : (s.account a).state ≠ .free := by
        rw [held]
        exact fun e => nomatch e
      exact refused _ fun m taken => (workIssue_taken taken account channel).trans
        ((if_neg (set valid)).trans ((if_neg used).trans (if_pos held)))
    · obtain ⟨used, paid⟩ := open' active
      refine refused _ fun m taken => (workIssue_taken taken account channel).trans
        ((if_neg (set valid)).trans ((if_neg used).trans ((if_neg paid).trans ?_)))
      by_cases count : (s.account a).count = (s.account a).limit
      · exact if_pos count
      · exact (if_neg count).trans (if_pos (isFull.resolve_left count))
    · have missing : tblFind s.hires (fun r => r.state == .free) = Option.none :=
        (tblFind_eq_none _ _).mpr fun k => beq_eq_false_iff_ne.mpr (none k)
      exact refused _ fun m taken => (passes valid active room taken).trans (by rw [missing]; rfl)
    · have unfit' : s.issueReceiver (BitVec.ofNat 24 (s.paramLE n 2 3)) = Option.none := State.issueReceiver_unfit small unfit
      have free : (tblFind s.hires (fun r => r.state == .free)).isSome = true := by
        obtain ⟨k, free⟩ := found
        by_contra missing
        have all := (tblFind_eq_none _ _).mp (Option.not_isSome_iff_eq_none.mp missing) k
        exact beq_eq_false_iff_ne.mp all free
      obtain ⟨k, found⟩ := Option.isSome_iff_exists.mp free
      exact refused _ fun m taken => (passes valid active room taken).trans (by rw [found, unfit']; rfl)
    · have chosen : s.issueReceiver (BitVec.ofNat 24 (s.paramLE n 2 3)) = some e := State.issueReceiver_fits small fit
      have worked : ∀ m : Memory, SlotTaken s n m → workIssue (s.taken m rest) n
          = (s.taken m rest).issue n { account := a, serial := BitVec.ofNat 24 (s.paramLE n 2 3), preset := c } h e := fun m taken =>
        (passes valid active room taken).trans (by rw [tblFind_free first lowest, chosen]; rfl)
      intro keeps preset after made
      refine ⟨fun docked => ?_, fun adrift => ?_⟩
      · obtain ⟨m, taken, next⟩ := takes.works (i := .issue) (kindIs 16) (State.takes_kind takes) workIssue rfl
        have settled := (s.taken m rest).settlePreset_eq c
        rw [worked m taken, State.issue_reserves (s := s.taken m rest) docked, settled] at next
        obtain ⟨only, shown, places⟩ := (s.taken m rest).reserve_facts n h ((s.taken m rest).newHire a e) preset (decide (¬ keeps)) rfl
        obtain ⟨holder, bytes⟩ := shown taken.wf
        exact ⟨_, next, only, holder, fun x out => (bytes x out).trans (taken.outside x out), places⟩
      · refine State.completes_work takes (State.takes_kind takes) rfl rfl fun m taken => (worked m taken).trans ?_
        have settled := (s.taken m rest).settlePreset_eq c
        rw [State.issue_adopts (s := s.taken m rest) adrift, settled]
        rfl

end

end Sys2Proof.Machine
end

section
/-!
SUPPORT. The parts of a frame boundary (R56, R65 to R68, R78, R79, R82): what each leaves of the booth and channel records.
-/
namespace Sys2Proof.Machine

/-! ## Works in turn, and the notices they raise -/

/-- Works done in turn for different indices reach what the work of one of them reaches, if the works before leave its start and the works
after keep its outcome. -/
theorem State.each_reaches {ι : Type} {A R : State → Prop} {f : State → ι → State} {l : List ι} {i : ι} (mem : i ∈ l) (distinct : l.Nodup)
    (wait : ∀ t j, j ≠ i → A t → A (f t j)) (reach : ∀ t, A t → R (f t i)) (stay : ∀ t j, R t → R (f t j)) {s : State} (start : A s) :
    R (s.each l f) := by
  obtain ⟨before, after, rfl⟩ := List.append_of_mem mem
  have fresh := (List.nodup_cons.mp (List.nodup_middle.mp distinct)).1
  have waits : A (s.each before f) :=
    State.each_induct (P := A) (fun t j hj h => wait t j (fun e => fresh (e ▸ List.mem_append_left _ hj)) h) start
  rw [State.each, List.foldl_append, List.foldl_cons]
  exact State.each_induct (P := R) (l := after) (fun t j _ h => stay t j h) (reach _ waits)

/-- The notices of `s` stay pending in `t`, and only those of the list are new there. -/
def State.raises (l : List Notice) (s t : State) : Prop :=
  ∀ x : Notice, (s.isPending x = true → t.isPending x = true) ∧ (x ∉ l → t.isPending x = s.isPending x)

section
variable {s t u : State} {l : List Notice}

theorem State.raises_of_notices (h : t.notices = s.notices) : s.raises l t := fun x => by
  have same : t.isPending x = s.isPending x := congrArg (fun n : Notices => n.waiting.getLsbD x.index) h
  exact ⟨fun on => same.trans on, fun _ => same⟩

theorem State.raises.trans (h : s.raises l t) (g : t.raises l u) : s.raises l u := fun x =>
  ⟨fun on => (g x).1 ((h x).1 on), fun other => ((g x).2 other).trans ((h x).2 other)⟩

theorem State.raises.sub (h : s.raises l t) {k : List Notice} (part : l ⊆ k) : s.raises k t := fun x =>
  ⟨(h x).1, fun other => (h x).2 (fun listed => other (part listed))⟩

theorem State.raise_other {c x : Notice} (other : x ≠ c) : (s.raise c).isPending x = s.isPending x := by
  rw [State.isPending_raise, beq_false_of_ne (Ne.symm other), Bool.or_false]

theorem State.raises_raise (s : State) (c : Notice) : s.raises [c] (s.raise c) := fun x =>
  ⟨fun on => by rw [State.isPending_raise, on, Bool.true_or], fun other => State.raise_other (fun e => other (List.mem_singleton.mpr e))⟩

theorem State.raises_ite {p : Prop} [Decidable p] (h : s.raises l t) (g : s.raises l u) : s.raises l (if p then t else u) := by
  split <;> assumption

theorem State.raises_each {ι : Type} {f : State → ι → State} (h : ∀ (t : State) (i : ι), t.raises l (f t i)) (k : List ι) (s : State) :
    s.raises l (s.each k f) :=
  State.each_induct (P := fun t => s.raises l t) (fun t i _ g => g.trans (h t i)) (State.raises_of_notices rfl)

theorem State.raises_logOrNone (h : t.notices = s.notices ∨ t.notices = (s.raise .log).notices) : s.raises [.log] t := by
  rcases h with h | h
  · exact State.raises_of_notices h
  · exact (State.raises_raise s .log).trans (State.raises_of_notices h)

theorem State.handTurn_raises (s : State) (r : TurnRecord) : s.raises [.log] (s.handTurn r) := by
  unfold State.handTurn
  dsimp only
  split
  · exact State.raises_of_notices rfl
  · unfold State.handTally
    split
    · exact State.raises_logOrNone (State.waitTally_notices _ _)
    · exact State.raises_logOrNone (State.writeTally_notices _)

theorem State.endTurn_raises (s : State) (b : BoothId) (n : ConsoleId) (cause : TurnEnd) : s.raises [.log] (s.endTurn b n cause) := by
  rw [State.endTurn_eq, State.turnHanded]
  unfold State.handFinal
  split
  · exact State.raises_of_notices rfl
  · exact (State.handTurn_raises s _).trans (State.raises_of_notices rfl)

end

/-! ## The claimed console becomes live -/

/-- A console of a booth once the claimed console is live (R56, R63, R65, R66); `passed` says that the claim came by an acceptance. -/
def Booth.cameOver (r : Booth) (passed : Bool) (now gap : Nat) (k : ConsoleId) : ConsoleRec :=
  if r.cons.live = r.cons.claimed then r.cons.console k
  else if r.cons.live = some k then
    if passed then (r.cons.console k).ended now else (r.cons.console k).wentQuiet now gap
  else if r.cons.claimed = some k then (r.cons.console k).resume now
  else r.cons.console k

/-- A booth that goes quiet at the boundary (R60). -/
def Booth.quiets (r : Booth) : Prop := r.cons.live ≠ none ∧ r.cons.claimed = none

/-- A booth record once its claimed console is live (R56, R60). -/
def Booth.claimedLive (r : Booth) (passed : Bool) (now gap : Nat) : Booth :=
  { r with cons := { r.cons with
    live := r.cons.claimed
    quietSince := if r.cons.live ≠ r.cons.claimed ∧ r.cons.claimed = none then now else r.cons.quietSince
    each := Vector.ofFn (r.cameOver passed now gap) } }

/-- A booth record with other console records. -/
def Booth.withEach (r : Booth) (v : Vector ConsoleRec 3) : Booth := { r with cons := { r.cons with each := v } }

/-- A booth record with another live console. -/
def Booth.withLive (r : Booth) (m : Option ConsoleId) : Booth := { r with cons := { r.cons with live := m } }

theorem Booth.each_ext {r : Booth} {v w : Vector ConsoleRec 3} (h : ∀ k : ConsoleId, v[k] = w[k]) : r.withEach v = r.withEach w := by
  have same : v = w := Vector.ext (fun i hi => h ⟨i, hi⟩)
  rw [same]

theorem get_ofFn {α : Type} {k : Nat} (f : Fin k → α) (i : Fin k) : (Vector.ofFn f)[i] = f i := by
  rw [Fin.getElem_fin, Vector.getElem_ofFn]

section
variable {t : State} {b : BoothId}

theorem State.quitLive_own {m : ConsoleId} (live : (t.booth b).cons.live = some m) (d : BoothId) : (t.quitLive b).booth d =
    if d = b then (t.booth b).withEach ((t.booth b).cons.each.set m (if (t.inside b).accepted then
        ((t.booth b).cons.console m).ended t.clock.run else ((t.booth b).cons.console m).wentQuiet t.clock.run t.timers.mergeGap))
      else t.booth d := by
  rw [State.quitLive_of_some live]
  cases (t.inside b).accepted with
  | true => exact t.booth_endTurn b m .handover d
  | false =>
    rw [if_neg Bool.false_ne_true, if_neg Bool.false_ne_true]
    exact t.booth_updBooth b d _

theorem State.claimLive_booth (h : (t.booth b).cons.live ≠ (t.booth b).cons.claimed) (d : BoothId) : (t.claimLive b).booth d =
    if d = b then
      ((t.booth b).withLive (t.booth b).cons.claimed).withEach (Vector.ofFn (fun k => if (t.booth b).cons.live = some k then
        (t.booth b).cameOver (t.inside b).accepted t.clock.run t.timers.mergeGap k else (t.booth b).cons.console k))
    else t.booth d := by
  rw [State.claimLive, State.updCons, State.booth_updBooth]
  by_cases own : d = b
  · rw [if_pos own, if_pos own]
    have quit (k : ConsoleId) (live : (t.booth b).cons.live = some k) : (t.booth b).cameOver (t.inside b).accepted t.clock.run
        t.timers.mergeGap k = if (t.inside b).accepted then ((t.booth b).cons.console k).ended t.clock.run
          else ((t.booth b).cons.console k).wentQuiet t.clock.run t.timers.mergeGap := by
      rw [Booth.cameOver, if_neg h, if_pos live]
    cases live : (t.booth b).cons.live with
    | none =>
      rw [State.quitLive_of_none live]
      refine Booth.each_ext (r := (t.booth b).withLive (t.booth b).cons.claimed) (fun k => ?_)
      rw [get_ofFn, if_neg (fun e => nomatch e)]
    | some m =>
      rw [State.quitLive_own live, if_pos rfl]
      refine Booth.each_ext (r := (t.booth b).withLive (t.booth b).cons.claimed) (fun k => ?_)
      rw [get_ofFn]
      refine (get_set _ _ _ _).trans ?_
      by_cases same : k = m
      · rw [if_pos same, if_pos (congrArg some same.symm), ← quit m live, same]
      · rw [if_neg same, if_neg (fun e => same (Option.some.inj e).symm)]
  · rw [if_neg own, if_neg own]
    cases live : (t.booth b).cons.live with
    | none => rw [State.quitLive_of_none live]
    | some m => rw [State.quitLive_own live, if_neg own]

/-- What a booth's records are once its claimed console is live (R56). -/
theorem State.changeLive_claimed (d : BoothId) : (t.changeLive b).booth d =
    if d = b then (t.booth b).claimedLive (t.inside b).accepted t.clock.run t.timers.mergeGap else t.booth d := by
  have clock : (t.claimLive b).clock = t.clock := ((t.quitLive_only b).next (State.updBooth_only _ b _) (by decide)) .clock (by decide)
  by_cases same : (t.booth b).cons.live = (t.booth b).cons.claimed
  · rw [State.changeLive_of_same same]
    refine (ite_eq_right_iff.mpr (fun own => ?_)).symm
    subst own
    show Booth.claimedLive (t.booth d) _ _ _ = t.booth d
    have cons : ((t.booth d).claimedLive (t.inside d).accepted t.clock.run t.timers.mergeGap)
        = (t.booth d).withEach (Vector.ofFn ((t.booth d).cameOver (t.inside d).accepted t.clock.run t.timers.mergeGap)) := by
      unfold Booth.claimedLive Booth.withEach
      rw [if_neg (fun e => e.1 same), ← same]
    rw [cons]
    refine (Booth.each_ext (w := (t.booth d).cons.each) (fun k => ?_)).trans rfl
    rw [get_ofFn, Booth.cameOver, if_pos same]
  · cases claimed : (t.booth b).cons.claimed with
    | none =>
      rw [State.changeLive_of_none same claimed]
      show ((t.claimLive b).goQuiet b).booths[d] = _
      rw [State.goQuiet_booths]
      refine (State.booth_updBooth _ b d _).trans ?_
      rw [State.claimLive_booth same d]
      by_cases own : d = b
      · rw [if_pos own, if_pos own, State.claimLive_booth same b, if_pos rfl, clock]
        unfold Booth.claimedLive
        rw [if_pos ⟨same, claimed⟩]
        refine Booth.each_ext (r := { t.booth b with
          cons := { (t.booth b).cons with live := (t.booth b).cons.claimed, quietSince := t.clock.run } }) (fun k => ?_)
        rw [get_ofFn]
        refine (get_ofFn _ _).trans ?_
        split
        · rfl
        · rename_i other
          rw [Booth.cameOver, if_neg same, if_neg other, if_neg (by rw [claimed]; exact fun e => nomatch e)]
      · rw [if_neg own, if_neg own, if_neg own]
    | some n =>
      have came : (t.changeLive b).booth d = ((t.claimLive b).updConsole b n (fun c => c.resume t.clock.run)).booth d := by
        rw [State.changeLive_of_some same claimed]
        split <;> rfl
      rw [came]
      refine (State.booth_updBooth _ b d _).trans ?_
      rw [State.claimLive_booth same d]
      by_cases own : d = b
      · rw [if_pos own, if_pos own, State.claimLive_booth same b, if_pos rfl]
        have speaks : ¬ ((t.booth b).cons.live ≠ (t.booth b).cons.claimed ∧ (t.booth b).cons.claimed = none) :=
          fun e => (nomatch claimed.symm.trans e.2)
        unfold Booth.claimedLive
        rw [if_neg speaks]
        refine Booth.each_ext (r := (t.booth b).withLive (t.booth b).cons.claimed) (fun k => ?_)
        have off : (t.booth b).cons.live ≠ some n := fun e => same (e.trans claimed.symm)
        have left (m : ConsoleId) : (((t.booth b).withLive (t.booth b).cons.claimed).withEach (Vector.ofFn (fun k =>
            if (t.booth b).cons.live = some k then (t.booth b).cameOver (t.inside b).accepted t.clock.run t.timers.mergeGap k
            else (t.booth b).cons.console k))).cons.each[m] = _ := get_ofFn _ m
        rw [get_ofFn, get_set, left, left, if_neg off]
        by_cases this : k = n
        · rw [if_pos this, this, Booth.cameOver, if_neg same, if_neg off, if_pos claimed]
        · rw [if_neg this]
          split
          · rfl
          · rename_i other
            rw [Booth.cameOver, if_neg same, if_neg other,
              if_neg (by rw [claimed]; exact fun e => this (Option.some.inj e).symm)]
      · rw [if_neg own, if_neg own, if_neg own]

theorem State.changeLive_inside (d : BoothId) : (t.changeLive b).inside d =
    if d = b then { t.inside b with accepted := false } else t.inside d := by
  have quit : (t.claimLive b).inner = t.inner := ((t.quitLive_only b).next (State.updBooth_only _ b _) (by decide)) .inner (by decide)
  have from' {u : State} (h : u.inner = t.inner) : (u.updInner b (fun i => { i with accepted := false })).inside d =
      if d = b then { t.inside b with accepted := false } else t.inside d := by
    rw [State.inside_updInner, show u.inside b = t.inside b from congrArg (fun v : Vector BoothInner 24 => v[b]) h,
      show u.inside d = t.inside d from congrArg (fun v : Vector BoothInner 24 => v[d]) h]
  by_cases same : (t.booth b).cons.live = (t.booth b).cons.claimed
  · rw [State.changeLive_of_same same]
    exact from' rfl
  · cases claimed : (t.booth b).cons.claimed with
    | none =>
      rw [State.changeLive_of_none same claimed]
      exact from' (((t.claimLive b).goQuiet_only b .inner (by decide)).trans quit)
    | some n =>
      rw [State.changeLive_of_some same claimed]
      refine from' ?_
      split
      · exact quit
      · exact quit

end

/-! ## The outgoing offer of an owner booth that goes quiet -/

/-- A channel record without its outgoing offer. -/
def Channel.unoffered (c : Channel) : Channel := { c with offer := none }

section
variable {s t : State} {b : BoothId} {c : ChannelId}

theorem State.offeredBy_some (h : t.offeredBy b = some c) : (t.channel c).offer ≠ none ∧ (t.channel c).ownerBooth = some b := by
  have found := (tblFind_eq_some _ _ _).mp h |>.1
  rw [Bool.and_eq_true, beq_iff_eq] at found
  exact ⟨fun e => by rw [e] at found; exact (nomatch found.1), found.2⟩

theorem State.offeredBy_isSome (offer : (t.channel c).offer ≠ none) (owner : (t.channel c).ownerBooth = some b) : ∃ d, t.offeredBy b = some d := by
  cases h : t.offeredBy b with
  | some d => exact ⟨d, rfl⟩
  | none =>
    refine absurd ((tblFind_eq_none _ _).mp h c) ?_
    rw [Bool.and_eq_false_iff, not_or]
    exact ⟨by simpa [Option.isSome_iff_ne_none] using offer, by simpa using owner⟩

theorem State.changeLive_speaking (h : ¬ (t.booth b).quiets) : (t.changeLive b).channels = t.channels := by
  have quit : (t.claimLive b).channels = t.channels := ((t.quitLive_only b).next (State.updBooth_only _ b _) (by decide)) .channels (by decide)
  by_cases same : (t.booth b).cons.live = (t.booth b).cons.claimed
  · rw [State.changeLive_of_same same]
    rfl
  · cases claimed : (t.booth b).cons.claimed with
    | none => exact absurd ⟨fun e => same (e.trans claimed.symm), claimed⟩ h
    | some n =>
      rw [State.changeLive_of_some same claimed]
      split
      · exact quit
      · exact quit

theorem State.goQuiet_channels (t : State) (b : BoothId) : (t.goQuiet b).channels = t.channels ∧ t.offeredBy b = none
    ∨ ∃ d, t.offeredBy b = some d ∧ (t.goQuiet b).channels = t.channels.set d (t.channel d).unoffered := by
  unfold State.goQuiet
  dsimp only
  split
  · rename_i d found
    exact .inr ⟨d, found, rfl⟩
  · rename_i none
    exact .inl ⟨rfl, none⟩

theorem State.changeLive_quiet (h : (t.booth b).quiets) : (t.changeLive b).channels = t.channels ∧ t.offeredBy b = none
    ∨ ∃ d, t.offeredBy b = some d ∧ (t.changeLive b).channels = t.channels.set d (t.channel d).unoffered := by
  obtain ⟨live, claimed⟩ := h
  have quit : (t.claimLive b).channels = t.channels := ((t.quitLive_only b).next (State.updBooth_only _ b _) (by decide)) .channels (by decide)
  have offers : (t.claimLive b).offeredBy b = t.offeredBy b := congrArg (fun v : Vector Channel 32 => tblFind v _) quit
  have channels : (t.changeLive b).channels = ((t.claimLive b).goQuiet b).channels := by
    rw [State.changeLive_of_none (fun e => live (e.trans claimed)) claimed]
    rfl
  rw [channels, ← offers]
  rcases (t.claimLive b).goQuiet_channels b with ⟨kept, none⟩ | ⟨d, found, ended⟩
  · exact .inl ⟨kept.trans quit, none⟩
  · refine .inr ⟨d, found, ?_⟩
    rw [ended, State.channel, quit]

/-- A channel record through the boundary's start: as it was, or without the outgoing offer of an owner booth that goes quiet (R85). -/
structure State.OffersEnd (s t : State) : Prop where
  channel (c : ChannelId) : t.channel c = s.channel c
    ∨ t.channel c = (s.channel c).unoffered ∧ ∃ b, (s.channel c).ownerBooth = some b ∧ (s.booth b).quiets
  quiets (b : BoothId) : (t.booth b).quiets → (s.booth b).quiets

theorem Booth.claimedLive_settled (r : Booth) (passed : Bool) (k g : Nat) : ¬ (r.claimedLive passed k g).quiets :=
  fun ⟨live, claimed⟩ => live claimed

theorem State.OffersEnd.owner (h : s.OffersEnd t) (c : ChannelId) : (t.channel c).ownerBooth = (s.channel c).ownerBooth := by
  rcases h.channel c with e | ⟨e, -⟩
  · rw [e]
  · rw [e]
    rfl

theorem State.OffersEnd.changeLive (h : s.OffersEnd t) (b : BoothId) : s.OffersEnd (t.changeLive b) where
  channel c := by
    by_cases quiet : (t.booth b).quiets
    · rcases State.changeLive_quiet quiet with ⟨kept, -⟩ | ⟨d, found, ended⟩
      · rw [State.channel, kept]
        exact h.channel c
      · have channel : (t.changeLive b).channel c = if c = d then (t.channel d).unoffered else t.channel c :=
          (congrArg (fun v : Vector Channel 32 => v[c]) ended).trans (get_set _ _ _ _)
        by_cases own : c = d
        · subst own
          refine .inr ⟨?_, b, (h.owner c).symm.trans (State.offeredBy_some found).2, h.quiets b quiet⟩
          rw [channel, if_pos rfl]
          rcases h.channel c with e | ⟨e, -⟩
          · rw [e]
          · rw [e]
            rfl
        · rw [channel, if_neg own]
          exact h.channel c
    · rw [State.channel, State.changeLive_speaking quiet]
      exact h.channel c
  quiets d := by
    rw [State.changeLive_claimed]
    split
    · exact fun e => absurd e (Booth.claimedLive_settled _ _ _ _)
    · exact h.quiets d

theorem State.offersEnd_refl (s : State) : s.OffersEnd s := ⟨fun _ => .inl rfl, fun _ => id⟩

/-- Every booth's claimed console live (R56). -/
def State.livened (s : State) : State := s.each boothList State.changeLive

theorem State.livened_offers (s : State) : s.OffersEnd s.livened :=
  State.each_induct (P := fun t => s.OffersEnd t) (fun _ b _ h => h.changeLive b) s.offersEnd_refl

/-- A state through the boundary's start, with the outgoing offer of a channel gone. -/
theorem State.changeLive_unoffered (h : (t.channel c).offer = none) (b : BoothId) : ((t.changeLive b).channel c).offer = none := by
  rcases (t.offersEnd_refl.changeLive b).channel c with e | ⟨e, -⟩
  · rw [e, h]
  · rw [e]
    rfl

/-- The outgoing offer of an owner booth that goes quiet ends (R85). -/
theorem State.livened_unoffered (law : s.namingOk) (owner : (s.channel c).ownerBooth = some b) (quiet : (s.booth b).quiets) :
    (s.livened.channel c).offer = none := by
  have alone (t : State) (h : s.OffersEnd t) {d : ChannelId} (found : t.offeredBy b = some d) : d = c := by
    have named := (State.names_iff law).mp (Channel.names_of_boothOf ((h.owner d).symm.trans (State.offeredBy_some found).2))
    exact Option.some.inj (named.symm.trans ((State.names_iff law).mp (Channel.names_of_boothOf owner)))
  refine State.each_reaches (A := fun t => s.OffersEnd t ∧ t.booth b = s.booth b) (R := fun t => (t.channel c).offer = none)
    (List.mem_finRange b) (List.nodup_finRange 24) (fun t j other ⟨h, same⟩ => ⟨h.changeLive j, ?_⟩) (fun t ⟨h, same⟩ => ?_)
    (fun t j h => State.changeLive_unoffered h j) ⟨s.offersEnd_refl, rfl⟩
  · rw [State.changeLive_claimed, if_neg (Ne.symm other), same]
  · by_cases offer : (t.channel c).offer = none
    · exact State.changeLive_unoffered offer b
    · obtain ⟨d, found⟩ := State.offeredBy_isSome offer ((h.owner c).trans owner)
      rcases State.changeLive_quiet (same ▸ quiet) with ⟨-, none⟩ | ⟨e, found', ended⟩
      · exact nomatch found.symm.trans none
      · have own := alone t h found'
        subst own
        exact congrArg Channel.offer ((congrArg (fun v : Vector Channel 32 => v[e]) ended).trans ((get_set _ _ _ _).trans (if_pos rfl)))

/-- The booth records once every claimed console is live (R56). -/
theorem State.livened_records (s : State) (b : BoothId) : s.livened.booth b =
      (s.booth b).claimedLive (s.inside b).accepted s.clock.run s.timers.mergeGap
    ∧ s.livened.inside b = { s.inside b with accepted := false } := by
  have each := State.each_get_all (I := fun t => t.clock = s.clock ∧ t.timers = s.timers) (fun t d => (t.booth d, t.inside d))
    (fun d => (s.booth d, s.inside d)) (fun d => ((s.booth d).claimedLive (s.inside d).accepted s.clock.run s.timers.mergeGap,
      ({ s.inside d with accepted := false } : BoothInner))) (f := State.changeLive) (l := boothList)
    (fun t d ⟨clock, timers⟩ => ⟨(t.changeLive_only d .clock (by decide)).trans clock, (t.changeLive_only d .timers (by decide)).trans timers⟩)
    (fun t i j _ other => by rw [State.changeLive_claimed, State.changeLive_inside, if_neg other, if_neg other])
    (fun t i ⟨clock, timers⟩ same => by
      obtain ⟨booth, inside⟩ := Prod.mk.inj same
      rw [State.changeLive_claimed, State.changeLive_inside, if_pos rfl, if_pos rfl, booth, inside, clock, timers])
    (List.nodup_finRange 24) List.mem_finRange (s := s) ⟨rfl, rfl⟩ (fun _ => rfl) b
  exact Prod.mk.inj each

theorem State.livened_only (s : State) : s.onlyIn [.header, .notices, .mem, .log, .booths, .inner, .channels] s.livened :=
  State.each_only (fun t b _ => State.changeLive_only t b) s

end

end Sys2Proof.Machine
end

section
/-!
SUPPORT. The channels at a frame boundary (R78, R79, R82): the move of ownership and the source of each.
-/
namespace Sys2Proof.Machine

/-! ## One channel's record -/

/-- The role to which ownership of a channel record moves (R84, R87). -/
def State.movesTo (u : State) (ch : Channel) : Option Role :=
  match ch.move, ch.schedule with
  | some r, _ => some r
  | none, some h =>
    if h.phase = .waiting ∧ ch.pairing = .valid ∧ (u.liveOf (ch.boothOf h.target)).isSome then some h.target else none
  | none, none => none

/-- A channel record after the move to a role, its scheduled handover ended where it was what moved it (R82, R87). -/
def Channel.handed (ch : Channel) (r : Role) : Channel :=
  { ch.movedTo r with schedule := if ch.move = none then none else ch.schedule }

/-- A channel record after the move that is due, if one is (R82, R87). -/
def State.movedRecord (u : State) (ch : Channel) : Channel := ((u.movesTo ch).map ch.handed).getD ch

/-- A channel record enters a fallback episode (R79). -/
def State.entersFallback (u : State) (ch : Channel) : Bool := (u.sourceOf ch).fellBack && u.sourceOf ch != ch.source

/-- A channel record with the source that R78's table gives (R78, R79). -/
def State.sourcedRecord (u : State) (ch : Channel) : Channel :=
  { ch with source := u.sourceOf ch, episodes := if u.entersFallback ch then satAdd 16 ch.episodes 1 else ch.episodes }

/-- A channel record worked at the boundary (R78, R82). -/
def State.routedRecord (u : State) (ch : Channel) : Channel := if ch.defined then u.sourcedRecord (u.movedRecord ch) else ch

section
variable {s t u : State} {b : BoothId} {c d : ChannelId} {ch : Channel} {r : Role}

theorem State.liveOf_eq_some {o : Option BoothId} {n : ConsoleId} : u.liveOf o = some (b, n) ↔
    o = some b ∧ (u.booth b).link.state = .live ∧ (u.booth b).cons.live = some n := by
  cases o with
  | none => exact ⟨fun e => (nomatch e), fun e => (nomatch e.1)⟩
  | some x =>
    show (if u.isLive x then (u.booth x).cons.live.map (fun n => (x, n)) else none) = some (b, n) ↔ _
    by_cases live : (u.booth x).link.state = .live
    · rw [if_pos (State.isLive_iff.mpr live), Option.map_eq_some_iff]
      constructor
      · rintro ⟨m, hm, same⟩
        obtain ⟨rfl, rfl⟩ := Prod.mk.inj same
        exact ⟨rfl, live, hm⟩
      · rintro ⟨same, -, hm⟩
        cases same
        exact ⟨n, hm, rfl⟩
    · rw [if_neg (fun e => live (State.isLive_iff.mp e))]
      constructor
      · exact fun e => nomatch e
      · rintro ⟨same, on, -⟩
        cases same
        exact absurd on live

theorem State.liveOf_isSome {o : Option BoothId} : (u.liveOf o).isSome ↔
    ∃ x : BoothId, o = some x ∧ (u.booth x).link.state = .live ∧ (u.booth x).cons.live ≠ none := by
  rw [Option.isSome_iff_exists]
  constructor
  · rintro ⟨⟨x, n⟩, found⟩
    obtain ⟨own, link, live⟩ := State.liveOf_eq_some.mp found
    exact ⟨x, own, link, fun e => nomatch live.symm.trans e⟩
  · rintro ⟨x, own, link, live⟩
    obtain ⟨n, live⟩ := Option.ne_none_iff_exists'.mp live
    exact ⟨(x, n), State.liveOf_eq_some.mpr ⟨own, link, live⟩⟩

theorem State.movesTo_of_pending (h : ch.move = some r) : u.movesTo ch = some r := by
  unfold State.movesTo
  rw [h]

theorem State.movesTo_of_waiting {h : Schedule} (still : ch.move = none) (plan : ch.schedule = some h) : u.movesTo ch =
    if h.phase = .waiting ∧ ch.pairing = .valid ∧ (u.liveOf (ch.boothOf h.target)).isSome then some h.target else none := by
  unfold State.movesTo
  rw [still, plan]

theorem State.movesTo_of_none (still : ch.move = none) (plan : ch.schedule = none) : u.movesTo ch = none := by
  unfold State.movesTo
  rw [still, plan]

/-- Ownership moves where a move is pending or a waiting handover's conditions hold (R84, R87). -/
theorem State.movesTo_eq_some : u.movesTo ch = some r ↔ ch.move = some r ∨ (ch.move = none ∧ ∃ h : Schedule, ch.schedule = some h
    ∧ h.phase = .waiting ∧ ch.pairing = .valid ∧ (u.liveOf (ch.boothOf h.target)).isSome ∧ h.target = r) := by
  cases move : ch.move with
  | some x =>
    rw [State.movesTo_of_pending move]
    exact ⟨.inl, fun e => e.resolve_right (fun e => (nomatch e.1))⟩
  | none =>
    cases plan : ch.schedule with
    | none =>
      rw [State.movesTo_of_none move plan]
      refine ⟨fun e => (nomatch e), ?_⟩
      rintro (e | ⟨-, h, found, -⟩)
      · exact nomatch e
      · exact nomatch found
    | some h =>
      rw [State.movesTo_of_waiting move plan]
      constructor
      · intro e
        split at e
        · rename_i ready
          exact .inr ⟨rfl, h, rfl, ready.1, ready.2.1, ready.2.2, Option.some.inj e⟩
        · exact nomatch e
      · rintro (e | ⟨-, g, found, waiting, valid, up, target⟩)
        · exact nomatch e
        · cases found
          rw [if_pos ⟨waiting, valid, up⟩, target]

theorem State.movedRecord_of_some (h : u.movesTo ch = some r) : u.movedRecord ch = ch.handed r := by
  rw [State.movedRecord, h]
  rfl

theorem State.movedRecord_of_none (h : u.movesTo ch = none) : u.movedRecord ch = ch := by
  rw [State.movedRecord, h]
  rfl

/-- A record's work at the boundary asks nothing but the booths, the clock and the timers. -/
theorem State.routedRecord_congr (booths : t.booths = u.booths) (clock : t.clock = u.clock) (timers : t.timers = u.timers) (ch : Channel) :
    t.routedRecord ch = u.routedRecord ch :=
  calc t.routedRecord ch = ({ u with booths := t.booths, clock := t.clock, timers := t.timers } : State).routedRecord ch := rfl
    _ = u.routedRecord ch := by rw [booths, clock, timers]

theorem State.movesTo_congr (booths : t.booths = u.booths) (ch : Channel) : t.movesTo ch = u.movesTo ch :=
  calc t.movesTo ch = ({ u with booths := t.booths } : State).movesTo ch := rfl
    _ = u.movesTo ch := by rw [booths]

/-! ## One channel at the boundary -/

theorem State.moveOwner_of_none (h : t.movesTo (t.channel c) = none) : t.moveOwner c = t := by
  unfold State.moveOwner
  rw [show t.moveOf c = none from h]

theorem State.moveOwner_of_some (h : t.movesTo (t.channel c) = some r) : t.moveOwner c =
    if (t.channel c).move = none then
      ((t.updChannel c (fun ch => ch.movedTo r)).raise .handover).endSchedule c .done .noReason false t.clock.run
    else (t.updChannel c (fun ch => ch.movedTo r)).raise .handover := by
  unfold State.moveOwner
  rw [show t.moveOf c = some r from h]

theorem State.moveOwner_channel (d : ChannelId) : (t.moveOwner c).channel d =
    if d = c then t.movedRecord (t.channel c) else t.channel d := by
  cases h : t.movesTo (t.channel c) with
  | none =>
    rw [State.moveOwner_of_none h, State.movedRecord_of_none h]
    exact (ite_eq_right_iff.mpr (fun e => e ▸ rfl)).symm
  | some r =>
    rw [State.moveOwner_of_some h, State.movedRecord_of_some h]
    have moved (e : ChannelId) : ((t.updChannel c (fun ch => ch.movedTo r)).raise .handover).channel e =
        if e = c then (t.channel c).movedTo r else t.channel e := t.channel_updChannel c e (fun ch => ch.movedTo r)
    by_cases still : (t.channel c).move = none
    · rw [if_pos still, State.channel, State.endSchedule_channels]
      refine (State.rescheduled_channel d).trans ?_
      rw [moved, moved, if_pos rfl, Channel.handed, if_pos still]
      split <;> rfl
    · rw [if_neg still, moved, Channel.handed, if_neg still]
      rfl

theorem State.chooseSource_channel (d : ChannelId) : (t.chooseSource c).channel d =
    if d = c then t.sourcedRecord (t.channel c) else t.channel d := by
  have chosen : (t.chooseSource c).channels = (t.updChannel c (fun r => { r with
      source := t.sourceOf (t.channel c)
      episodes := if t.entersFallback (t.channel c) then satAdd 16 r.episodes 1 else r.episodes })).channels := by
    unfold State.chooseSource
    dsimp only
    split <;> rfl
  rw [State.channel, chosen]
  exact t.channel_updChannel c d _

theorem State.routeChannel_channel (d : ChannelId) : (t.routeChannel c).channel d =
    if d = c then t.routedRecord (t.channel c) else t.channel d := by
  unfold State.routeChannel State.routedRecord
  by_cases real : (t.channel c).defined = true
  · rw [if_pos (show t.channels[c].defined = true from real), if_pos real, State.chooseSource_channel, State.moveOwner_channel c,
      State.moveOwner_channel d, if_pos rfl]
    have only := t.moveOwner_only c
    have same : (t.moveOwner c).sourcedRecord (t.movedRecord (t.channel c)) = t.sourcedRecord (t.movedRecord (t.channel c)) :=
      calc (t.moveOwner c).sourcedRecord (t.movedRecord (t.channel c)) = ({ t with booths := (t.moveOwner c).booths, clock := (t.moveOwner c).clock
                                                                                   timers := (t.moveOwner c).timers } : State).sourcedRecord _ := rfl
        _ = t.sourcedRecord (t.movedRecord (t.channel c)) := by
          rw [only .booths (by decide), only .clock (by decide), only .timers (by decide)]
    rw [same]
    split <;> rfl
  · rw [if_neg (show ¬ t.channels[c].defined = true from real), if_neg real]
    exact (ite_eq_right_iff.mpr (fun e => e ▸ rfl)).symm

/-! ## The notices -/

theorem State.endOwner_raises (t : State) (o : StandingOwner) (x : Result) : t.raises [.order] (t.endOwner o x) := by
  cases h : t.standingOf o with
  | none =>
    rw [State.endOwner_of_none h]
    exact State.raises_of_notices rfl
  | some y =>
    rw [State.endOwner_of_some h]
    obtain ⟨ended, -⟩ := t.endStanding_facts y x
    rw [ended]
    exact (t.raises_raise .order).trans (State.raises_of_notices rfl)

theorem State.moveOwner_raises (t : State) (c : ChannelId) : t.raises [.order, .handover] (t.moveOwner c) := by
  cases h : t.movesTo (t.channel c) with
  | none =>
    rw [State.moveOwner_of_none h]
    exact State.raises_of_notices rfl
  | some r =>
    rw [State.moveOwner_of_some h]
    have moved : t.raises [.order, .handover] ((t.updChannel c (fun ch => ch.movedTo r)).raise .handover) :=
      (State.raises_of_notices (t := t.updChannel c (fun ch => ch.movedTo r)) rfl).trans ((State.raises_raise _ .handover).sub (by simp))
    generalize (t.updChannel c (fun ch => ch.movedTo r)).raise .handover = u at moved
    have ended : u.raises [.order] (u.endSchedule c .done .noReason false t.clock.run) := by
      rw [State.endSchedule_eq]
      exact (State.raises_of_notices (t := u.rescheduled c none) rfl).trans (State.endOwner_raises _ _ _)
    exact State.raises_ite (moved.trans (ended.sub (by simp))) moved

theorem State.chooseSource_raises (t : State) (c : ChannelId) : t.raises [.fallback] (t.chooseSource c) := by
  unfold State.chooseSource
  dsimp only
  split
  · exact (State.raises_of_notices (t := t.updChannel c _) rfl).trans (State.raises_raise _ .fallback)
  · exact State.raises_of_notices rfl

theorem State.routeChannel_raises (t : State) (c : ChannelId) : t.raises [.order, .handover, .fallback] (t.routeChannel c) := by
  unfold State.routeChannel
  exact State.raises_ite (((t.moveOwner_raises c).sub (by simp)).trans (((t.moveOwner c).chooseSource_raises c).sub (by simp)))
    (State.raises_of_notices rfl)

theorem State.moveOwner_pending (h : t.movesTo (t.channel c) = some r) : (t.moveOwner c).isPending .handover = true := by
  rw [State.moveOwner_of_some h]
  have raised := State.raise_isPending (t.updChannel c (fun ch => ch.movedTo r)) .handover
  generalize (t.updChannel c (fun ch => ch.movedTo r)).raise .handover = u at raised
  split
  · rw [State.endSchedule_eq]
    exact ((State.endOwner_raises (u.rescheduled c none) _ _) .handover).1 raised
  · exact raised

theorem State.chooseSource_pending (h : t.entersFallback (t.channel c) = true
    ∨ (t.channel c).source.fellBack = true ∧ (t.sourceOf (t.channel c)).fellBack = false) : (t.chooseSource c).isPending .fallback = true := by
  unfold State.chooseSource
  dsimp only
  rw [if_pos]
  · exact State.raise_isPending _ _
  · rw [Bool.or_eq_true]
    exact h.imp id (fun ⟨was, now⟩ => by rw [Bool.and_eq_true, Bool.not_eq_true']; exact ⟨was, now⟩)

end

end Sys2Proof.Machine
end

section
/-!
SUPPORT. A frame boundary worked in READY, part by part (R56, R61, R65 to R68, R78, R79, R82): the records after each part, and after all.
-/
namespace Sys2Proof.Machine

/-! ## The parts -/

/-- Every channel of 1 to 31 worked (R78, R82). -/
def State.routedAll (s : State) : State := s.each spokenChannels State.routeChannel

/-- The brackets of the channel records closed (R3). -/
def State.bracketAll (s old : State) : State := s.each spokenChannels (fun x c => x.closeChannel old c)

/-- The fed channel of every booth written (R79). -/
def State.fedAll (s : State) : State := s.each boothList State.writeFed

/-- The console controller's part after the router's report (R65, R68). -/
def State.meterAll (s old : State) : State := s.each boothList (State.meterBooth old)

/-- The turns of former owner booths ended (R67, R82). -/
def State.endFormers (s before : State) : State := s.each spokenChannels (State.endFormer before)

/-- The lamps and the brackets of the booth records (R3, R61). -/
def State.lightAll (s old : State) : State := s.each boothList (fun x b => (x.relight b).closeCons old b)

/-- The router's part of a boundary. -/
def State.routerPart (s : State) : State := (s.livened.routedAll.bracketAll s).fedAll

/-- The boundary's work before the frames go out. -/
def State.boundaryWorked (s : State) : State := ((s.routerPart.meterAll s).endFormers s.livened).lightAll s

theorem State.workBoundary_eq (s : State) : s.workBoundary = s.boundaryWorked.sendFrames.sendOrDue := rfl

/-- A booth record with the channel it feeds (R79). -/
def Booth.fedAs (r : Booth) (f : Option ChannelId) : Booth := { r with role := { r.role with fed := f } }

/-- A console of a booth at the boundary once the turn of one that became live with its meter IDLE is open (R65); `was` is the console that
was live before. -/
def Booth.openedAt (r : Booth) (was : Option ConsoleId) (now : Nat) (stamp : Stamp × Bool) (k : ConsoleId) : ConsoleRec :=
  if r.cons.live = some k ∧ was ≠ some k ∧ (r.cons.console k).turn = .idle then (r.cons.console k).opened now stamp r.role.fed
  else r.cons.console k

/-- A console record with its open turn marked relief-reached where the mark is due (R68). -/
def ConsoleRec.relieved (c : ConsoleRec) (now limit : Nat) : ConsoleRec :=
  if c.reliefDue now limit = true then { c with reliefReached := true } else c

/-- A console of a booth after the duty meter's part of the boundary (R65, R68). -/
def Booth.meteredAt (r : Booth) (was : Option ConsoleId) (now : Nat) (stamp : Stamp × Bool) (limit : Nat) (k : ConsoleId) : ConsoleRec :=
  if r.link.state = .live then ((r.openedAt was now stamp k).takeFed r.role.fed).relieved now limit
  else (r.openedAt was now stamp k).takeFed r.role.fed

/-- A booth record after the duty meter's part of the boundary. -/
def Booth.metered (r : Booth) (was : Option ConsoleId) (now : Nat) (stamp : Stamp × Bool) (limit : Nat) : Booth :=
  r.withEach (Vector.ofFn (r.meteredAt was now stamp limit))

/-- A booth record whose live console's turn has ended (R67, R82). -/
def Booth.formerEnded (r : Booth) (now : Nat) : Booth := (r.cons.live.map (fun n => r.turnEnded n now)).getD r

/-- The owner booth and its live console that lose a channel at the boundary (R82); `before` decides the move. -/
def State.lossAt (before u : State) (c : ChannelId) : Option (BoothId × ConsoleId) :=
  if (before.channel c).defined = true ∧ (before.movesTo (before.channel c)).isSome then u.liveOf (before.channel c).ownerBooth else none

/-- A booth loses a channel it owns at the boundary. -/
def State.loser (before u : State) (l : List ChannelId) (b : BoothId) : Prop := ∃ c ∈ l, ∃ n, before.lossAt u c = some (b, n)

/-! ## The router's part -/

section
variable {s t u old : State} {b d : BoothId} {c : ChannelId}

theorem State.routedAll_only (s : State) : s.onlyIn [.mem, .orders, .notices, .channels] s.routedAll :=
  State.each_only (fun t c _ => t.routeChannel_only c) s

theorem State.routedAll_channel (s : State) (c : ChannelId) :
    s.routedAll.channel c = if c ∈ spokenChannels then s.routedRecord (s.channel c) else s.channel c :=
  State.each_get (I := fun t => t.booths = s.booths ∧ t.clock = s.clock ∧ t.timers = s.timers) State.channel s.channel
    (fun c => s.routedRecord (s.channel c)) (f := State.routeChannel)
    (fun t c ⟨booths, clock, timers⟩ => ⟨(t.routeChannel_only c .booths (by decide)).trans booths,
      (t.routeChannel_only c .clock (by decide)).trans clock, (t.routeChannel_only c .timers (by decide)).trans timers⟩)
    (fun t i j _ other => by rw [State.routeChannel_channel, if_neg other])
    (fun t i ⟨booths, clock, timers⟩ same => by
      rw [State.routeChannel_channel, if_pos rfl, State.routedRecord_congr booths clock timers, same])
    spokenChannels_nodup ⟨rfl, rfl, rfl⟩ (fun _ => rfl) c

theorem State.bracketAll_only (s old : State) : s.onlyIn [.channels] (s.bracketAll old) :=
  State.each_only (fun t c _ => t.closeChannel_only old c) s

theorem State.bracketAll_channel (s old : State) (c : ChannelId) :
    ∃ x : Half, (s.bracketAll old).channel c = { s.channel c with changes := x } := by
  have each := State.each_get (I := fun _ => True) State.channel s.channel (fun c => (s.channel c).closed (old.channel c))
    (f := fun x c => x.closeChannel old c) (fun _ _ _ => trivial)
    (fun t i j _ other => by rw [State.channel_closeChannel, if_neg other])
    (fun t i _ same => by rw [State.channel_closeChannel, if_pos rfl, same]) spokenChannels_nodup trivial (fun _ => rfl) c
  change (s.bracketAll old).channel c = _ at each
  rw [each]
  split
  · exact (s.channel c).closed_eq (old.channel c)
  · exact ⟨_, rfl⟩

theorem State.fedOf_congr (channels : t.channels = u.channels) (booth : t.booth b = u.booth b) : t.fedOf b = u.fedOf b := by
  unfold State.fedOf State.isLive
  rw [show t.booths[b] = u.booths[b] from booth, channels]

theorem State.fedAll_only (s : State) : s.onlyIn [.booths] s.fedAll :=
  State.each_only (fun t b _ => t.rewriteBooth_only b _) s

theorem State.fedAll_booth (s : State) (b : BoothId) : ∃ x : Half, s.fedAll.booth b = { (s.booth b).fedAs (s.fedOf b) with changes := x } := by
  have each := State.each_get_all (I := fun t => t.channels = s.channels) State.booth s.booth
    (fun b => rewritten Booth.bump (fun r => r.fedAs (s.fedOf b)) (s.booth b)) (f := State.writeFed) (l := boothList)
    (fun t b channels => (t.rewriteBooth_only b _ .channels (by decide)).trans channels)
    (fun t i j _ other => (t.booth_rewriteBooth j i _).trans (if_neg other))
    (fun t i channels same => by
      refine (t.booth_rewriteBooth i i _).trans ((if_pos rfl).trans ?_)
      rw [State.fedOf_congr channels same, same]
      rfl)
    (List.nodup_finRange 24) List.mem_finRange (s := s) rfl (fun _ => rfl) b
  change s.fedAll.booth b = _ at each
  rw [each]
  rcases rewritten_cases Booth.bump (fun r => r.fedAs (s.fedOf b)) (s.booth b) with ⟨same, kept⟩ | written
  · exact ⟨(s.booth b).changes, kept.trans same.symm⟩
  · exact ⟨_, written⟩

/-! ## The duty meter's part -/

theorem State.openTurn_booth (d : BoothId) : (t.openTurn old b).booth d =
    if d = b then (t.booth b).withEach (Vector.ofFn ((t.booth b).openedAt (old.booth b).cons.live t.clock.run (t.clock.stamp t.clock.run)))
    else t.booth d := by
  have kept (h : ∀ k, (t.booth b).openedAt (old.booth b).cons.live t.clock.run (t.clock.stamp t.clock.run) k = (t.booth b).cons.console k) :
      t.booth d = if d = b then (t.booth b).withEach (Vector.ofFn ((t.booth b).openedAt (old.booth b).cons.live t.clock.run
        (t.clock.stamp t.clock.run))) else t.booth d := by
    refine (ite_eq_right_iff.mpr (fun own => ?_)).symm
    subst own
    exact (Booth.each_ext (w := (t.booth d).cons.each) (fun k => (get_ofFn _ _).trans (h k))).trans rfl
  unfold State.openTurn
  split
  · rename_i n live
    replace live : (t.booth b).cons.live = some n := live
    by_cases opens : (old.booth b).cons.live ≠ some n ∧ ((t.booth b).cons.console n).turn = .idle
    · rw [if_pos opens]
      refine (t.booth_updBooth b d _).trans ?_
      by_cases own : d = b
      · rw [if_pos own, if_pos own]
        refine Booth.each_ext (fun k => ?_)
        rw [get_ofFn]
        refine (get_set _ _ _ _).trans ?_
        by_cases same : k = n
        · rw [if_pos same, same, Booth.openedAt, if_pos ⟨live, opens⟩]
        · rw [if_neg same, Booth.openedAt, if_neg (fun e => same (Option.some.inj (live.symm.trans e.1)).symm)]
      · rw [if_neg own, if_neg own]
    · rw [if_neg opens]
      refine kept (fun k => if_neg (fun ⟨own, off, idle⟩ => ?_))
      have same := Option.some.inj (live.symm.trans own)
      subst same
      exact opens ⟨off, idle⟩
  · rename_i none
    exact kept (fun k => if_neg (fun e => (nomatch e.1.symm.trans none)))

theorem State.checkRelief_booth (d : BoothId) : (t.checkRelief b).booth d =
    if d = b then
      (if (t.booth b).link.state = .live then
        (t.booth b).withEach ((t.booth b).cons.each.map (fun c => c.relieved t.clock.run t.timers.relief)) else t.booth b)
    else t.booth d := by
  unfold State.checkRelief
  dsimp only
  by_cases live : (t.booth b).link.state = .live
  · rw [if_pos live]
    split
    · exact t.booth_updBooth b d (fun r => r.withEach (r.cons.each.map (fun c => c.relieved t.clock.run t.timers.relief)))
    · rename_i quiet
      refine (ite_eq_right_iff.mpr (fun own => ?_)).symm
      subst own
      refine (Booth.each_ext (w := (t.booth d).cons.each) (fun k => ?_)).trans rfl
      rw [Fin.getElem_fin, Vector.getElem_map]
      refine if_neg (fun due => quiet ⟨State.isLive_iff.mpr live, ?_⟩)
      rw [toList_eq_map, List.any_map, List.any_eq_true]
      exact ⟨k, List.mem_finRange k, due⟩
  · rw [if_neg live, if_neg (fun e => live (State.isLive_iff.mp e.1))]
    exact (ite_eq_right_iff.mpr (fun own => own ▸ rfl)).symm

theorem State.meterBooth_booth (d : BoothId) : (State.meterBooth old t b).booth d =
    if d = b then (t.booth b).metered (old.booth b).cons.live t.clock.run (t.clock.stamp t.clock.run) t.timers.relief else t.booth d := by
  unfold State.meterBooth
  extract_lets fed s1
  have only : t.onlyIn [.booths] s1 := (t.openTurn_only old b).next (State.updBooth_only _ b _) (by decide)
  have fedTaken (d : BoothId) : s1.booth d = if d = b then (t.booth b).withEach (Vector.ofFn (fun k => ((t.booth b).openedAt
      (old.booth b).cons.live t.clock.run (t.clock.stamp t.clock.run) k).takeFed (t.booth b).role.fed)) else t.booth d := by
    refine ((t.openTurn old b).booth_updBooth b d _).trans ?_
    rw [State.openTurn_booth, State.openTurn_booth, if_pos rfl]
    by_cases own : d = b
    · rw [if_pos own, if_pos own]
      refine Booth.each_ext (r := t.booth b) (fun k => ?_)
      rw [get_ofFn, Fin.getElem_fin, Vector.getElem_map]
      exact congrArg (fun c : ConsoleRec => c.takeFed (t.booth b).role.fed) (Vector.getElem_ofFn _)
    · rw [if_neg own, if_neg own, if_neg own]
  rw [State.checkRelief_booth, fedTaken, fedTaken, if_pos rfl, only .clock (by decide), only .timers (by decide)]
  by_cases own : d = b
  · rw [if_pos own, if_pos own, Booth.metered]
    by_cases live : (t.booth b).link.state = .live
    · refine (if_pos live).trans ?_
      refine Booth.each_ext (r := t.booth b) (fun k => ?_)
      rw [get_ofFn, Booth.meteredAt, if_pos live, Fin.getElem_fin, Vector.getElem_map]
      exact congrArg (fun c : ConsoleRec => c.relieved t.clock.run t.timers.relief) (Vector.getElem_ofFn _)
    · refine (if_neg live).trans ?_
      refine Booth.each_ext (r := t.booth b) (fun k => ?_)
      rw [get_ofFn, get_ofFn, Booth.meteredAt, if_neg live]
  · rw [if_neg own, if_neg own, if_neg own]

theorem State.meterAll_booth (s old : State) (b : BoothId) : (s.meterAll old).booth b =
    (s.booth b).metered (old.booth b).cons.live s.clock.run (s.clock.stamp s.clock.run) s.timers.relief :=
  State.each_get_all (I := fun t => t.clock = s.clock ∧ t.timers = s.timers) State.booth s.booth (fun b => (s.booth b).metered
      (old.booth b).cons.live s.clock.run (s.clock.stamp s.clock.run) s.timers.relief) (f := State.meterBooth old) (l := boothList)
    (fun t b ⟨clock, timers⟩ => ⟨(State.meterBooth_only old t b .clock (by decide)).trans clock,
      (State.meterBooth_only old t b .timers (by decide)).trans timers⟩)
    (fun t i j _ other => by rw [State.meterBooth_booth, if_neg other])
    (fun t i ⟨clock, timers⟩ same => by rw [State.meterBooth_booth, if_pos rfl, same, clock, timers])
    (List.nodup_finRange 24) List.mem_finRange ⟨rfl, rfl⟩ (fun _ => rfl) b

theorem State.meterAll_only (s old : State) : s.onlyIn [.booths, .notices] (s.meterAll old) :=
  State.each_only (fun t b _ => State.meterBooth_only old t b) s

end

end Sys2Proof.Machine
end

section
/-!
SUPPORT. A frame boundary worked in READY, as a whole (R56, R61, R65 to R68, R78, R79, R82): what it leaves of every record.
-/
namespace Sys2Proof.Machine

/-! ## Former owner booths -/

section
variable {before s t u old : State} {b d : BoothId} {c : ChannelId} {n : ConsoleId}

theorem State.endFormer_of_none (h : before.lossAt t c = none) : State.endFormer before t c = t := by
  unfold State.endFormer
  unfold State.lossAt at h
  by_cases moves : (before.channel c).defined = true ∧ (before.movesTo (before.channel c)).isSome
  · rw [if_pos moves] at h
    rw [if_pos (show before.channels[c].defined = true ∧ (before.moveOf c).isSome from moves),
      show t.liveOf before.channels[c].ownerBooth = none from h]
  · exact if_neg moves

theorem State.endFormer_of_some (h : before.lossAt t c = some (b, n)) : State.endFormer before t c = t.endTurn b n .handover := by
  unfold State.endFormer
  unfold State.lossAt at h
  by_cases moves : (before.channel c).defined = true ∧ (before.movesTo (before.channel c)).isSome
  · rw [if_pos moves] at h
    rw [if_pos (show before.channels[c].defined = true ∧ (before.moveOf c).isSome from moves),
      show t.liveOf before.channels[c].ownerBooth = some (b, n) from h]
  · rw [if_neg moves] at h
    exact nomatch h

theorem State.lossAt_eq_some : before.lossAt u c = some (b, n) ↔ (before.channel c).defined = true
    ∧ (before.movesTo (before.channel c)).isSome ∧ (before.channel c).ownerBooth = some b ∧ (u.booth b).link.state = .live
    ∧ (u.booth b).cons.live = some n := by
  unfold State.lossAt
  by_cases moves : (before.channel c).defined = true ∧ (before.movesTo (before.channel c)).isSome
  · rw [if_pos moves, State.liveOf_eq_some]
    exact ⟨fun h => ⟨moves.1, moves.2, h⟩, fun h => h.2.2⟩
  · rw [if_neg moves]
    exact ⟨fun h => (nomatch h), fun h => absurd ⟨h.1, h.2.1⟩ moves⟩

/-- The booth records of `t` are those of `u`, but for the ended turns of the booths of `p`. -/
structure State.FormersOf (u t : State) (p : BoothId → Prop) : Prop where
  clock : t.clock = u.clock
  ended (b : BoothId) : p b → t.booth b = (u.booth b).formerEnded u.clock.run
  kept (b : BoothId) : ¬ p b → t.booth b = u.booth b

theorem Booth.formerEnded_of_some {r : Booth} (live : r.cons.live = some n) (k : Nat) : r.formerEnded k = r.turnEnded n k := by
  rw [Booth.formerEnded, live]
  rfl

theorem Booth.formerEnded_of_none {r : Booth} (live : r.cons.live = none) (k : Nat) : r.formerEnded k = r := by
  rw [Booth.formerEnded, live]
  rfl

theorem Booth.formerEnded_eq (r : Booth) (k : Nat) : ∃ v : Vector ConsoleRec 3, r.formerEnded k = r.withEach v := by
  cases live : r.cons.live with
  | none => exact ⟨r.cons.each, Booth.formerEnded_of_none live k⟩
  | some n => exact ⟨_, Booth.formerEnded_of_some live k⟩

/-- A console of a booth whose live console's turn has ended (R67). -/
theorem Booth.formerEnded_console (r : Booth) (k : Nat) (m : ConsoleId) : (r.formerEnded k).cons.console m =
    if r.cons.live = some m then (r.cons.console m).ended k else r.cons.console m := by
  cases live : r.cons.live with
  | none => rw [Booth.formerEnded_of_none live, if_neg (fun e => (nomatch e))]
  | some n =>
    rw [Booth.formerEnded_of_some live, Booth.turnEnded_console]
    by_cases same : m = n
    · rw [if_pos same, if_pos (congrArg some same.symm), same]
    · rw [if_neg same, if_neg (fun e => same (Option.some.inj e).symm)]

/-- A turn that has ended does not end again. -/
theorem Booth.formerEnded_again {r : Booth} (live : r.cons.live = some n) (k : Nat) : (r.formerEnded k).turnEnded n k = r.formerEnded k := by
  refine Booth.turnEnded_of_idle ?_ k
  rw [Booth.formerEnded_console, if_pos live]
  exact ConsoleRec.ended_turn _ _

theorem State.FormersOf.seat {p : BoothId → Prop} (h : u.FormersOf t p) (b : BoothId) : (t.booth b).link = (u.booth b).link
    ∧ (t.booth b).cons.live = (u.booth b).cons.live := by
  by_cases own : p b
  · obtain ⟨v, eq⟩ := (u.booth b).formerEnded_eq u.clock.run
    rw [h.ended b own, eq]
    exact ⟨rfl, rfl⟩
  · rw [h.kept b own]
    exact ⟨rfl, rfl⟩

theorem State.FormersOf.lossAt {p : BoothId → Prop} (h : u.FormersOf t p) (before : State) (c : ChannelId) :
    before.lossAt t c = before.lossAt u c := by
  refine Option.ext fun ⟨b, n⟩ => ?_
  rw [State.lossAt_eq_some, State.lossAt_eq_some, (h.seat b).1, (h.seat b).2]

theorem State.FormersOf.endFormer {p : BoothId → Prop} (h : u.FormersOf t p) (before : State) (c : ChannelId) :
    u.FormersOf (State.endFormer before t c) (fun b => p b ∨ ∃ n, before.lossAt u c = some (b, n)) := by
  cases loss : before.lossAt u c with
  | none =>
    rw [State.endFormer_of_none ((h.lossAt before c).trans loss)]
    refine ⟨h.clock, fun b own => h.ended b (own.resolve_right (fun ⟨_, e⟩ => nomatch e)), fun b other => h.kept b (fun e => other (.inl e))⟩
  | some x =>
    obtain ⟨d, n⟩ := x
    rw [State.endFormer_of_some ((h.lossAt before c).trans loss)]
    obtain ⟨-, -, -, -, live⟩ := State.lossAt_eq_some.mp loss
    refine ⟨(t.endTurn_only d n .handover .clock (by decide)).trans h.clock, fun b own => ?_, fun b other => ?_⟩
    · rw [State.booth_endTurn, h.clock]
      by_cases same : b = d
      · subst same
        rw [if_pos rfl]
        by_cases was : p b
        · rw [h.ended b was, Booth.formerEnded_again live]
        · rw [h.kept b was, Booth.formerEnded_of_some live]
      · rw [if_neg same]
        exact h.ended b (own.resolve_right (fun ⟨_, e⟩ => same (congrArg Prod.fst (Option.some.inj e)).symm))
    · rw [State.booth_endTurn, if_neg (fun e => other (.inr ⟨n, by rw [e]⟩))]
      exact h.kept b (fun e => other (.inl e))

theorem State.FormersOf.each (before : State) : ∀ (l : List ChannelId) {t : State} {p : BoothId → Prop}, u.FormersOf t p →
    u.FormersOf (t.each l (State.endFormer before)) (fun b => p b ∨ before.loser u l b)
  | [], _, _, h => ⟨h.clock, fun b own => h.ended b (own.resolve_right (fun ⟨_, e, _⟩ => nomatch e)), fun b other => h.kept b (fun e => other (.inl e))⟩
  | c :: l, t, p, h => by
    have next := State.FormersOf.each before l (h.endFormer before c)
    have same (b : BoothId) : ((p b ∨ ∃ n, before.lossAt u c = some (b, n)) ∨ before.loser u l b) ↔ (p b ∨ before.loser u (c :: l) b) := by
      rw [or_assoc]
      refine or_congr_right ⟨?_, ?_⟩
      · rintro (own | ⟨d, hd, own⟩)
        · exact ⟨c, List.mem_cons_self .., own⟩
        · exact ⟨d, List.mem_cons_of_mem _ hd, own⟩
      · rintro ⟨d, hd, own⟩
        rcases List.mem_cons.mp hd with e | listed
        · exact .inl (e ▸ own)
        · exact .inr ⟨d, listed, own⟩
    exact ⟨next.clock, fun b own => next.ended b ((same b).mpr own), fun b other => next.kept b (fun e => other ((same b).mp e))⟩

theorem State.formersOf_refl (u : State) : u.FormersOf u (fun _ => False) := ⟨rfl, fun _ e => e.elim, fun _ _ => rfl⟩

/-- The booth records once the turns of former owner booths have ended (R67, R82). -/
theorem State.endFormers_booth (u before : State) (b : BoothId) :
    (before.loser u spokenChannels b → (u.endFormers before).booth b = (u.booth b).formerEnded u.clock.run)
    ∧ (¬ before.loser u spokenChannels b → (u.endFormers before).booth b = u.booth b) := by
  have all := State.FormersOf.each before spokenChannels u.formersOf_refl
  exact ⟨fun own => all.ended b (.inr own), fun other => all.kept b (fun e => other (e.resolve_left id))⟩

theorem State.endFormers_only (u before : State) : u.onlyIn [.header, .notices, .mem, .log, .booths] (u.endFormers before) :=
  State.each_only (fun t c _ => State.endFormer_only before t c) u

/-! ## Lamps and brackets -/

/-- A booth record once the console controller has closed its bracket. -/
def Booth.consClosed (r old : Booth) : Booth := if r = { old with role := r.role, changes := r.changes } then r else r.bump

theorem Booth.consClosed_eq (r old : Booth) : ∃ x : Half, r.consClosed old = { r with changes := x } := by
  unfold Booth.consClosed
  split
  · exact ⟨r.changes, rfl⟩
  · exact ⟨_, rfl⟩

theorem State.closeCons_booth (d : BoothId) : (t.closeCons old b).booth d =
    if d = b then (t.booth b).consClosed (old.booth b) else t.booth d := t.booth_updBooth b d _

theorem State.relight_booth (d : BoothId) : (t.relight b).booth d =
    if d = b then (t.booth b).relit (t.warned b) (t.cuedOut b) else t.booth d := t.booth_updBooth b d _

theorem State.warned_congr (h : t.channels = u.channels) (b : BoothId) : t.warned b = u.warned b := by
  unfold State.warned
  rw [h]

theorem State.cuedOut_congr (h : t.channels = u.channels) (b : BoothId) : t.cuedOut b = u.cuedOut b := by
  unfold State.cuedOut
  rw [h]

theorem State.lightAll_booth (s old : State) (b : BoothId) : ∃ x : Half,
    (s.lightAll old).booth b = { (s.booth b).relit (s.warned b) (s.cuedOut b) with changes := x } := by
  have each := State.each_get_all (I := fun t => t.channels = s.channels) State.booth s.booth
    (fun b => ((s.booth b).relit (s.warned b) (s.cuedOut b)).consClosed (old.booth b)) (f := fun x b => (x.relight b).closeCons old b)
    (l := boothList) (fun _ _ channels => channels)
    (fun t i j _ other => by rw [State.closeCons_booth, if_neg other, State.relight_booth, if_neg other])
    (fun t i channels same => by
      rw [State.closeCons_booth, if_pos rfl, State.relight_booth, if_pos rfl, same, State.warned_congr channels, State.cuedOut_congr channels])
    (List.nodup_finRange 24) List.mem_finRange (s := s) rfl (fun _ => rfl) b
  obtain ⟨x, closed⟩ := ((s.booth b).relit (s.warned b) (s.cuedOut b)).consClosed_eq (old.booth b)
  exact ⟨x, each.trans closed⟩

theorem State.lightAll_only (s old : State) : s.onlyIn [.booths] (s.lightAll old) :=
  State.each_only (fun t b _ => ((t.relight_only b).sub (by decide)).seq ((State.closeCons_only _ old b).sub (by decide))) s

end

end Sys2Proof.Machine
end

section
/-!
SUPPORT. What a frame boundary worked in READY leaves of every record (R56, R61, R65 to R68, R78, R79, R82), told of the state before it.
-/
namespace Sys2Proof.Machine

section
variable {s : State} {b : BoothId} {c : ChannelId} {n : ConsoleId}

/-! ## Which channels move, which booths lose one -/

theorem State.livened_claim (s : State) (b : BoothId) : (s.livened.booth b).cons.live = (s.booth b).cons.claimed
    ∧ (s.livened.booth b).link = (s.booth b).link := by
  rw [(s.livened_records b).1]
  exact ⟨rfl, rfl⟩

theorem State.livened_liveOf (o : Option BoothId) : (s.livened.liveOf o).isSome ↔
    ∃ x : BoothId, o = some x ∧ (s.booth x).link.state = .live ∧ (s.booth x).cons.claimed ≠ none := by
  rw [State.liveOf_isSome]
  refine exists_congr fun x => ?_
  rw [(s.livened_claim x).1, (s.livened_claim x).2]

/-- What a channel record at the boundary's start keeps of the record before (R85). -/
theorem State.livened_channel (s : State) (c : ChannelId) : ∃ o : Option OutgoingOffer, s.livened.channel c = { s.channel c with offer := o } := by
  rcases s.livened_offers.channel c with e | ⟨e, -⟩
  · exact ⟨(s.channel c).offer, e⟩
  · exact ⟨none, e⟩

/-- A channel moves at the boundary as R84 and R87 say of the state before it. -/
theorem State.livened_moves (s : State) (c : ChannelId) (r : Role) : s.livened.movesTo (s.livened.channel c) = some r ↔
    (s.channel c).move = some r ∨ ((s.channel c).move = none ∧ ∃ h : Schedule, (s.channel c).schedule = some h ∧ h.phase = .waiting
      ∧ (s.channel c).pairing = .valid ∧ (∃ x : BoothId, (s.channel c).boothOf h.target = some x ∧ (s.booth x).link.state = .live
        ∧ (s.booth x).cons.claimed ≠ none) ∧ h.target = r) := by
  obtain ⟨o, same⟩ := s.livened_channel c
  rw [same, State.movesTo_eq_some]
  refine or_congr_right (and_congr_right fun _ => exists_congr fun h => and_congr_right fun _ => and_congr_right fun _ =>
    and_congr_right fun _ => and_congr_left fun _ => ?_)
  exact State.livened_liveOf _

theorem State.moveDue_iff : s.moveDue c = true ↔ (s.channel c).move ≠ none ∨ ∃ h : Schedule, (s.channel c).schedule = some h
    ∧ h.phase = .waiting ∧ (s.channel c).pairing = .valid
    ∧ ∃ x : BoothId, (s.channel c).boothOf h.target = some x ∧ (s.booth x).link.state = .live ∧ (s.booth x).cons.claimed ≠ none := by
  unfold State.moveDue
  dsimp only
  rw [Bool.or_eq_true, Option.isSome_iff_ne_none, Option.any_eq_true]
  refine or_congr_right (exists_congr fun h => and_congr_right fun _ => ?_)
  rw [Bool.and_eq_true, Bool.and_eq_true, beq_iff_eq, beq_iff_eq, Option.any_eq_true, and_assoc]
  refine and_congr_right fun _ => and_congr_right fun _ => exists_congr fun x => and_congr_right fun _ => ?_
  rw [Bool.and_eq_true, beq_iff_eq, Option.isSome_iff_ne_none]

theorem State.livened_moveDue (s : State) (c : ChannelId) : (s.livened.movesTo (s.livened.channel c)).isSome ↔ s.moveDue c = true := by
  rw [State.moveDue_iff, Option.isSome_iff_exists]
  constructor
  · rintro ⟨r, moves⟩
    rcases (s.livened_moves c r).mp moves with pending | ⟨-, h, plan, waiting, valid, up, -⟩
    · exact .inl (fun e => nomatch pending.symm.trans e)
    · exact .inr ⟨h, plan, waiting, valid, up⟩
  · intro due
    cases move : (s.channel c).move with
    | some r => exact ⟨r, (s.livened_moves c r).mpr (.inl move)⟩
    | none =>
      obtain ⟨h, plan, waiting, valid, up⟩ := due.resolve_left (fun e => e move)
      exact ⟨h.target, (s.livened_moves c _).mpr (.inr ⟨move, h, plan, waiting, valid, up, rfl⟩)⟩

/-- Channel `c` is taken at this boundary from booth `b`, whose claimed console is `n` (R67, R82). -/
def State.losing (s : State) (c : ChannelId) (b : BoothId) (n : ConsoleId) : Prop :=
  c ≠ 0 ∧ (s.channel c).defined = true ∧ s.moveDue c = true ∧ (s.channel c).ownerBooth = some b ∧ (s.booth b).link.state = .live
    ∧ (s.booth b).cons.claimed = some n

/-- The booths and consoles whose state before the former owners' turns end is that of the boundary's start. -/
structure State.SeatsOf (s u : State) : Prop where
  live (b : BoothId) : (u.booth b).cons.live = (s.booth b).cons.claimed
  link (b : BoothId) : (u.booth b).link = (s.booth b).link

theorem mem_spoken_iff : c ∈ spokenChannels ↔ c ≠ 0 := by
  refine ⟨?_, mem_spokenChannels⟩
  rintro listed rfl
  have nodup : (List.finRange 32).Nodup := List.nodup_finRange 32
  rw [show List.finRange 32 = 0 :: spokenChannels from rfl] at nodup
  exact (List.nodup_cons.mp nodup).1 listed

theorem State.SeatsOf.lossAt {u : State} (h : s.SeatsOf u) (real : c ≠ 0) : s.livened.lossAt u c = some (b, n) ↔ s.losing c b n := by
  obtain ⟨o, same⟩ := s.livened_channel c
  rw [State.lossAt_eq_some, s.livened_moveDue, h.link, h.live, same]
  exact ⟨fun e => ⟨real, e⟩, fun e => e.2⟩

theorem State.SeatsOf.loser {u : State} (h : s.SeatsOf u) : s.livened.loser u spokenChannels b ↔ ∃ c n, s.losing c b n := by
  refine exists_congr fun c => ⟨?_, ?_⟩
  · rintro ⟨listed, n, loss⟩
    exact ⟨n, (h.lossAt (mem_spoken_iff.mp listed)).mp loss⟩
  · rintro ⟨n, loss⟩
    exact ⟨mem_spoken_iff.mpr loss.1, n, (h.lossAt loss.1).mpr loss⟩

/-! ## The records -/

/-- A booth record before the turns of former owners end: its claimed console live, what it feeds written, its meter worked (R56, R65, R68,
R79). -/
def State.meteredRecord (s : State) (b : BoothId) (fed : Option ChannelId) : Booth :=
  (((s.booth b).claimedLive (s.inside b).accepted s.clock.run s.timers.mergeGap).fedAs fed).metered (s.booth b).cons.live s.clock.run
    (s.clock.stamp s.clock.run) s.timers.relief

theorem State.fedOf_same {t u : State} (channels : t.channels = u.channels) (named : (t.booth b).role.named = (u.booth b).role.named)
    (link : (t.booth b).link = (u.booth b).link) : t.fedOf b = u.fedOf b := by
  unfold State.fedOf State.isLive
  rw [show t.booths[b].role.named = u.booths[b].role.named from named, show t.booths[b].link = u.booths[b].link from link, channels]

/-- A booth's record once the fed channels are written feeds what they then say (R79). -/
theorem State.fedAll_feeds (u : State) (b : BoothId) : ∃ x : Half, u.fedAll.booth b = { (u.booth b).fedAs (u.fedAll.fedOf b) with changes := x } := by
  obtain ⟨x, written⟩ := u.fedAll_booth b
  have fed : u.fedAll.fedOf b = u.fedOf b :=
    State.fedOf_same (u.fedAll_only .channels (by decide)) (by rw [written]; rfl) (by rw [written]; rfl)
  exact ⟨x, by rw [written, fed]⟩

theorem State.routerPart_only (s : State) : s.onlyIn [.header, .notices, .mem, .orders, .log, .booths, .inner, .channels] s.routerPart :=
  (((s.livened_only.sub (by decide)).next s.livened.routedAll_only (by decide)).next (State.bracketAll_only _ s) (by decide)).next
    (State.fedAll_only _) (by decide)

theorem State.routerPart_channels (s : State) : s.routerPart.channels = (s.livened.routedAll.bracketAll s).channels :=
  (State.fedAll_only _) .channels (by decide)

theorem State.routerPart_booth (s : State) (b : BoothId) : ∃ x : Half, s.routerPart.booth b =
    { ((s.booth b).claimedLive (s.inside b).accepted s.clock.run s.timers.mergeGap).fedAs (s.routerPart.fedOf b) with changes := x } := by
  have kept : (s.livened.routedAll.bracketAll s).booth b = s.livened.booth b := by
    have only := (s.livened.routedAll_only.next (State.bracketAll_only _ s) (by decide)) .booths (by decide)
    exact congrArg (fun v : Vector Booth 24 => v[b]) only
  obtain ⟨x, written⟩ := (s.livened.routedAll.bracketAll s).fedAll_feeds b
  refine ⟨x, written.trans ?_⟩
  rw [kept, (s.livened_records b).1]
  rfl

/-- The state before the turns of former owners end. -/
def State.meteredPart (s : State) : State := s.routerPart.meterAll s

theorem State.meteredPart_only (s : State) : s.onlyIn [.header, .notices, .mem, .orders, .log, .booths, .inner, .channels] s.meteredPart :=
  s.routerPart_only.next (State.meterAll_only _ s) (by decide)

theorem State.meteredPart_booth (s : State) (b : BoothId) :
    ∃ x : Half, s.meteredPart.booth b = { s.meteredRecord b (s.routerPart.fedOf b) with changes := x } := by
  obtain ⟨x, router⟩ := s.routerPart_booth b
  refine ⟨x, (s.routerPart.meterAll_booth s b).trans ?_⟩
  rw [router, s.routerPart_only .clock (by decide), s.routerPart_only .timers (by decide)]
  rfl

theorem State.meteredPart_seats (s : State) : s.SeatsOf s.meteredPart where
  live b := by
    obtain ⟨x, record⟩ := s.meteredPart_booth b
    rw [record]
    rfl
  link b := by
    obtain ⟨x, record⟩ := s.meteredPart_booth b
    rw [record]
    rfl

theorem State.boundaryWorked_only (s : State) :
    s.onlyIn [.header, .notices, .mem, .orders, .log, .booths, .inner, .channels] s.boundaryWorked :=
  (s.meteredPart_only.next (State.endFormers_only _ s.livened) (by decide)).next (State.lightAll_only _ s) (by decide)

theorem State.boundaryWorked_channels (s : State) : s.boundaryWorked.channels = (s.livened.routedAll.bracketAll s).channels :=
  ((((State.meterAll_only s.routerPart s).sub (by decide) : s.routerPart.onlyIn [.header, .notices, .mem, .log, .booths] _).next
    (State.endFormers_only _ s.livened) (by decide)).next (State.lightAll_only _ s) (by decide) .channels (by decide)).trans s.routerPart_channels

/-- A channel record after the boundary's work (R78, R82). -/
theorem State.boundaryWorked_channel (s : State) (c : ChannelId) : ∃ x : Half, s.boundaryWorked.channel c =
    { (if c = 0 then s.livened.channel c else s.livened.routedRecord (s.livened.channel c)) with changes := x } := by
  obtain ⟨x, closed⟩ := s.livened.routedAll.bracketAll_channel s c
  refine ⟨x, (congrArg (fun v : Vector Channel 32 => v[c]) s.boundaryWorked_channels).trans (closed.trans ?_)⟩
  rw [State.routedAll_channel]
  by_cases zero : c = 0
  · rw [if_pos zero, if_neg (fun e => mem_spoken_iff.mp e zero)]
  · rw [if_neg zero, if_pos (mem_spoken_iff.mpr zero)]

theorem State.boundaryWorked_inside (s : State) (b : BoothId) : s.boundaryWorked.inside b = { s.inside b with accepted := false } := by
  have only := (((((s.livened.routedAll_only.sub (by decide) : s.livened.onlyIn
    [.header, .notices, .mem, .orders, .log, .booths, .channels] _).next (State.bracketAll_only _ s) (by decide)).next (State.fedAll_only _) (by decide)).next
    (State.meterAll_only _ s) (by decide)).next (State.endFormers_only _ s.livened) (by decide)).next (State.lightAll_only _ s) (by decide)
  exact (congrArg (fun v : Vector BoothInner 24 => v[b]) (only .inner (by decide))).trans (s.livened_records b).2

/-- A console record with another lamp. -/
def ConsoleRec.withLamp (r : ConsoleRec) (l : ConsoleLamp) : ConsoleRec := { r with lamp := l }

/-- What the boundary's work leaves of a booth record (R56, R60, R61, R79). -/
structure State.BoothCrossed (s t : State) (b : BoothId) : Prop where
  link : (t.booth b).link = (s.booth b).link
  role : (t.booth b).role = { (s.booth b).role with fed := t.fedOf b }
  cons : (t.booth b).cons = { (s.booth b).cons with
    live := (s.booth b).cons.claimed
    quietSince := if (s.booth b).cons.live ≠ (s.booth b).cons.claimed ∧ (s.booth b).cons.claimed = none then s.clock.run
      else (s.booth b).cons.quietSince
    each := (t.booth b).cons.each }
  kept (k : ConsoleId) : (∀ c, ¬ s.losing c b k) → (t.booth b).cons.console k =
    ((s.meteredRecord b (t.fedOf b)).cons.console k).withLamp ((t.booth b).lampOf (t.warned b) (t.cuedOut b) k)
  lost (k : ConsoleId) (c : ChannelId) : s.losing c b k → (t.booth b).cons.console k =
    (((s.meteredRecord b (t.fedOf b)).cons.console k).ended s.clock.run).withLamp ((t.booth b).lampOf (t.warned b) (t.cuedOut b) k)

/-- A booth record once its lamps are lit and its bracket is closed (R61). -/
theorem Booth.lit_console {r q : Booth} {w c : Bool} {x : Half} (h : q = { r.relit w c with changes := x }) (k : ConsoleId) :
    q.cons.console k = (r.cons.console k).withLamp (q.lampOf w c k) := by
  have lamps : q.lampOf w c k = r.lampOf w c k := by
    rw [h]
    exact (r.litAs_relit w c).lampOf w c k
  rw [lamps, h]
  exact r.relit_console w c k

/-- The turns of former owners, then the lamps and brackets: what they keep of a booth record. -/
theorem Booth.lit_keeps {r p q : Booth} {w c : Bool} {x : Half} {k : Nat} (ended : p = r ∨ p = r.formerEnded k)
    (lit : q = { p.relit w c with changes := x }) : q.link = r.link ∧ q.role = r.role ∧ q.cons = { r.cons with each := q.cons.each } := by
  obtain ⟨v, shape⟩ : ∃ v, p = r.withEach v := by
    rcases ended with same | gone
    · exact ⟨r.cons.each, same⟩
    · obtain ⟨v, eq⟩ := r.formerEnded_eq k
      exact ⟨v, gone.trans eq⟩
  rw [lit, shape]
  exact ⟨rfl, rfl, rfl⟩

theorem State.crossed_of {u w t : State} (record : ∃ x : Half, u.booth b = { s.meteredRecord b (t.fedOf b) with changes := x })
    (lost : (∃ c n, s.losing c b n) → w.booth b = (u.booth b).formerEnded s.clock.run)
    (kept : ¬ (∃ c n, s.losing c b n) → w.booth b = u.booth b)
    (lit : ∃ x : Half, t.booth b = { (w.booth b).relit (t.warned b) (t.cuedOut b) with changes := x }) : s.BoothCrossed t b := by
  obtain ⟨x, record⟩ := record
  obtain ⟨y, lit⟩ := lit
  have ended : w.booth b = u.booth b ∨ w.booth b = (u.booth b).formerEnded s.clock.run := by
    by_cases loses : ∃ c n, s.losing c b n
    · exact .inr (lost loses)
    · exact .inl (kept loses)
  obtain ⟨link, role, cons⟩ := Booth.lit_keeps ended lit
  have consoles (k : ConsoleId) := Booth.lit_console lit k
  refine ⟨by rw [link, record]; rfl, by rw [role, record]; rfl, by rw [cons, record]; rfl, fun k none => ?_, fun k c loss => ?_⟩
  · rw [consoles k]
    refine congrArg (fun r : ConsoleRec => r.withLamp _) ?_
    by_cases loses : ∃ c n, s.losing c b n
    · obtain ⟨c, n, loss⟩ := loses
      rw [lost ⟨c, n, loss⟩, Booth.formerEnded_console, record]
      refine if_neg fun live => ?_
      obtain ⟨real, defined, due, owner, link, claimed⟩ := loss
      exact none c ⟨real, defined, due, owner, link, live⟩
    · rw [kept loses, record]
  · rw [consoles k, lost ⟨c, k, loss⟩, Booth.formerEnded_console, record]
    obtain ⟨-, -, -, -, -, claimed⟩ := loss
    exact congrArg (fun r : ConsoleRec => r.withLamp _) (if_pos claimed)

theorem State.boundaryWorked_crossed (s : State) (b : BoothId) : s.BoothCrossed s.boundaryWorked b := by
  obtain ⟨y, metered⟩ := s.meteredPart_booth b
  obtain ⟨lost, kept⟩ := s.meteredPart.endFormers_booth s.livened b
  rw [s.meteredPart_seats.loser] at lost kept
  rw [s.meteredPart_only .clock (by decide)] at lost
  obtain ⟨x, lit⟩ := (s.meteredPart.endFormers s.livened).lightAll_booth s b
  have channels : (s.meteredPart.endFormers s.livened).channels = s.boundaryWorked.channels :=
    ((State.lightAll_only _ s) .channels (by decide)).symm
  change s.boundaryWorked.booth b = _ at lit
  rw [State.warned_congr channels, State.cuedOut_congr channels] at lit
  have fed : s.boundaryWorked.fedOf b = s.routerPart.fedOf b := by
    obtain ⟨w, router⟩ := s.routerPart_booth b
    have ended : (s.meteredPart.endFormers s.livened).booth b = s.meteredPart.booth b
        ∨ (s.meteredPart.endFormers s.livened).booth b = (s.meteredPart.booth b).formerEnded s.clock.run := by
      by_cases loses : ∃ c n, s.losing c b n
      · exact .inr (lost loses)
      · exact .inl (kept loses)
    obtain ⟨link, role, -⟩ := Booth.lit_keeps ended lit
    refine State.fedOf_same (s.boundaryWorked_channels.trans s.routerPart_channels.symm)
      ((congrArg RoleFields.named role).trans ?_) (link.trans ?_)
    · rw [metered, router]
      rfl
    · rw [metered, router]
      rfl
  rw [← fed] at metered
  exact State.crossed_of ⟨y, metered⟩ lost kept ⟨x, lit⟩

end

end Sys2Proof.Machine
end

section
/-!
SUPPORT. What a frame boundary sends (R30, R78, R80, R91, R93, R98, O37).
-/
namespace Sys2Proof.Machine

/-! ## Audio -/

/-- The audio that a source gives a channel (R78). -/
def State.sourceAudio (u : State) (ch : Channel) : Source → Audio
  | .booth => u.voiceOf ch.ownerBooth
  | .rescue => u.voiceOf ch.standbyBooth
  | .quietFloor | .fallback | .floor => u.floorAudio
  | .noSource => .silence

section
variable {u t : State} {b : BoothId} {c : ChannelId} {n : ConsoleId}

theorem State.voice_handed {a : AudioTriple} (handed : (u.inside b).handed = some a) :
    u.voice b n = if n = 0 then a.c1 else if n = 1 then a.c2 else a.c3 := by
  unfold State.voice
  rw [show u.inner[b].handed = some a from handed]

theorem State.voiceOf_of_some {o : Option BoothId} (live : u.liveOf o = some (b, n)) : u.voiceOf o = u.voice b n := by
  unfold State.voiceOf
  rw [live]

theorem State.voiceOf_of_none {o : Option BoothId} (live : u.liveOf o = none) : u.voiceOf o = .silence := by
  unfold State.voiceOf
  rw [live]

theorem State.floorAudio_facts (u : State) : (u.floor.locked = false → u.floorAudio = .silence)
    ∧ ∀ a : Audio, u.floor.locked = true → u.floor.handed = some a → u.floorAudio = a := by
  unfold State.floorAudio
  refine ⟨fun lost => ?_, fun a locked handed => ?_⟩
  · rw [lost, if_neg Bool.false_ne_true]
  · rw [locked, if_pos rfl, handed, Option.getD_some]

theorem State.channelAudio_undefined (real : c ≠ 0) (undefined : (u.channel c).defined = false) : u.channelAudio c = .silence := by
  unfold State.channelAudio
  exact (if_neg real).trans (if_pos undefined)

theorem State.channelAudio_of {x : Source} (real : c ≠ 0) (defined : (u.channel c).defined = true) (source : (u.channel c).source = x) :
    u.channelAudio c = u.sourceAudio (u.channel c) x := by
  have there : ¬ (u.channel c).defined = false := by
    rw [defined]
    decide
  subst source
  exact (if_neg real).trans (if_neg there)

theorem State.channelAudio_floor (h : c = 0 ∨ ((u.channel c).defined = true
    ∧ ((u.channel c).source = .quietFloor ∨ (u.channel c).source = .fallback))) : u.channelAudio c = u.floorAudio := by
  by_cases zero : c = 0
  · exact if_pos zero
  · obtain ⟨defined, quiet | fell⟩ := h.resolve_left zero
    · exact State.channelAudio_of zero defined quiet
    · exact State.channelAudio_of zero defined fell

end

/-! ## The frames -/

/-- The downstream frame of a LIVE booth link (R30, R91). -/
def Booth.liveFrame (r : Booth) (audio : Vector Audio 32) : DownFrame :=
  { intake := audio[r.role.intake], lamp1 := (r.cons.console 0).lamp
    lamp2 := (r.cons.console 1).lamp, lamp3 := (r.cons.console 2).lamp
    control := .ack }

/-- The state whose frames go out at a boundary that began in `s`: links, audio handed and floor are those of `s`. -/
structure State.Sends (s u : State) : Prop where
  link (b : BoothId) : (u.booth b).link = (s.booth b).link
  handed (b : BoothId) : (u.inside b).handed = (s.inside b).handed
  floor : u.floor = s.floor

/-- What goes out for the channels and the booth links (R30, R78, R80, R91). -/
structure State.Sent (s t : State) : Prop where
  undefined (c : ChannelId) : c ≠ 0 → (t.channel c).defined = false → t.audio[c] = .silence
  spoken (c : ChannelId) (b : BoothId) (n : ConsoleId) (a : AudioTriple) : c ≠ 0 → (t.channel c).defined = true →
    (((t.channel c).source = .booth ∧ (t.channel c).ownerBooth = some b)
      ∨ ((t.channel c).source = .rescue ∧ (t.channel c).standbyBooth = some b)) →
    (s.booth b).link.state = .live → (t.booth b).cons.live = some n → (s.inside b).handed = some a →
    t.audio[c] = if n = 0 then a.c1 else if n = 1 then a.c2 else a.c3
  silent (c : ChannelId) (b : BoothId) : c ≠ 0 → (t.channel c).defined = true → (t.channel c).source = .booth →
    (t.channel c).ownerBooth = some b → ((s.booth b).link.state ≠ .live ∨ (t.booth b).cons.live = none) → t.audio[c] = .silence
  floor (c : ChannelId) : (c = 0 ∨ ((t.channel c).defined = true
      ∧ ((t.channel c).source = .quietFloor ∨ (t.channel c).source = .fallback))) →
    (s.floor.locked = false → t.audio[c] = .silence)
    ∧ ∀ a : Audio, s.floor.locked = true → s.floor.handed = some a → t.audio[c] = a
  down (b : BoothId) :
    ((s.booth b).link.state = .held → t.down[b] = none)
    ∧ ((s.booth b).link.state = .live → t.down[b] = some
        { intake := t.audio[(t.booth b).role.intake], lamp1 := ((t.booth b).cons.console 0).lamp
          lamp2 := ((t.booth b).cons.console 1).lamp, lamp3 := ((t.booth b).cons.console 2).lamp
          control := .ack })
    ∧ ((s.booth b).link.state ≠ .held → (s.booth b).link.state ≠ .live → t.down[b] = some
        { intake := .silence, lamp1 := .dark, lamp2 := .dark, lamp3 := .dark
          control := if (s.booth b).link.resync then .resync else .plain })

section
variable {s u t : State} {b : BoothId} {c : ChannelId} {n : ConsoleId}

theorem State.Sends.liveOf (h : s.Sends u) {o : Option BoothId} : u.liveOf o = some (b, n) ↔
    o = some b ∧ (s.booth b).link.state = .live ∧ (u.booth b).cons.live = some n := by
  rw [State.liveOf_eq_some, h.link]

theorem State.Sends.sounds (h : s.Sends u) {o : Option BoothId} {a : AudioTriple} (own : o = some b) (link : (s.booth b).link.state = .live)
    (live : (u.booth b).cons.live = some n) (handed : (s.inside b).handed = some a) :
    u.voiceOf o = if n = 0 then a.c1 else if n = 1 then a.c2 else a.c3 :=
  (State.voiceOf_of_some (h.liveOf.mpr ⟨own, link, live⟩)).trans (State.voice_handed ((h.handed b).trans handed))

theorem State.Sends.silent (h : s.Sends u) {o : Option BoothId} (own : o = some b)
    (off : (s.booth b).link.state ≠ .live ∨ (u.booth b).cons.live = none) : u.voiceOf o = .silence := by
  refine State.voiceOf_of_none (Option.eq_none_iff_forall_ne_some.mpr fun ⟨d, m⟩ found => ?_)
  obtain ⟨named, link, live⟩ := h.liveOf.mp found
  have same := Option.some.inj (own.symm.trans named)
  subst same
  exact off.elim (fun e => e link) (fun e => nomatch live.symm.trans e)

theorem State.downFrame_held (h : (u.booth b).link.state = .held) : u.downFrame b = none := by
  unfold State.downFrame
  dsimp only
  rw [show u.booths[b].link.state = .held from h]

theorem State.downFrame_live (h : (u.booth b).link.state = .live) : u.downFrame b = some ((u.booth b).liveFrame u.audio) := by
  unfold State.downFrame
  dsimp only
  rw [show u.booths[b].link.state = .live from h]
  rfl

theorem State.downFrame_other (held : (u.booth b).link.state ≠ .held) (live : (u.booth b).link.state ≠ .live) : u.downFrame b = some
    { intake := .silence, lamp1 := .dark, lamp2 := .dark, lamp3 := .dark
      control := if (u.booth b).link.resync then .resync else .plain } := by
  unfold State.downFrame
  dsimp only
  split
  · rename_i e
    exact absurd e held
  · rename_i e
    exact absurd e live
  · rfl
  · rfl
  · rfl

/-- The frames of a boundary (R30, R78, R80, R91). -/
theorem State.Sends.sent (h : s.Sends u) {w : State} (same : w.booths = u.booths) (routed : w.audio = Vector.ofFn u.channelAudio)
    (audio : t.audio = w.audio) (down : t.down = Vector.ofFn w.downFrame) (booths : t.booths = w.booths) (channels : t.channels = u.channels) : s.Sent t := by
  have sound (c : ChannelId) : t.audio[c] = u.channelAudio c := by
    rw [audio, routed]
    exact get_ofFn _ c
  have channel (c : ChannelId) : t.channel c = u.channel c := congrArg (fun v : Vector Channel 32 => v[c]) channels
  have booth' (b : BoothId) : t.booth b = w.booth b := congrArg (fun v : Vector Booth 24 => v[b]) booths
  have booth (b : BoothId) : t.booth b = u.booth b := congrArg (fun v : Vector Booth 24 => v[b]) (booths.trans same)
  have link (b : BoothId) : (w.booth b).link = (s.booth b).link := by
    rw [← booth', booth, h.link]
  have frame (b : BoothId) : t.down[b] = w.downFrame b := by
    rw [down]
    exact get_ofFn _ b
  refine ⟨fun c real undefined => ?_, fun c b n a real defined source link live handed => ?_, fun c b real defined source owner off => ?_,
    fun c kind => ?_, fun b => ⟨fun held => ?_, fun live => ?_, fun held live => ?_⟩⟩
  · rw [sound]
    exact State.channelAudio_undefined real (channel c ▸ undefined)
  · rw [channel] at defined source
    rw [booth] at live
    rw [sound]
    rcases source with ⟨source, owner⟩ | ⟨source, standby⟩
    · exact (State.channelAudio_of real defined source).trans (h.sounds owner link live handed)
    · exact (State.channelAudio_of real defined source).trans (h.sounds standby link live handed)
  · rw [channel] at defined source owner
    rw [booth] at off
    rw [sound]
    exact (State.channelAudio_of real defined source).trans (h.silent owner off)
  · rw [channel] at kind
    rw [sound, State.channelAudio_floor kind, ← h.floor]
    exact u.floorAudio_facts
  · rw [frame]
    exact State.downFrame_held (by rw [link, held])
  · rw [frame, State.downFrame_live (by rw [link, live]), ← audio, ← booth']
    rfl
  · rw [frame, ← link b]
    rw [← link b] at held live
    exact State.downFrame_other held live

end

/-! ## The distribution frame -/

/-- The distribution frame of a boundary in the state that follows it (R93, R98). -/
def State.distributed (s t : State) : Prop := (t.framer.active.mode = .stopped → t.framer.line = none)
  ∧ (t.framer.active.mode ≠ .stopped → ∃ f : DistFrame, t.framer.line = some f ∧ f.position.val = t.framer.frames % 64
    ∧ f.directory = s.framer.directory ∧ t.filled f)

theorem State.sendDist_distributed (u s : State) (directory : u.framer.directory = s.framer.directory) : s.distributed u.sendDist := by
  refine ⟨fun off => if_pos off, fun on => ?_⟩
  obtain ⟨f, line, position, dir, filled⟩ := State.distFrame_filled u on
  exact ⟨f, line, congrArg Fin.val position, dir.trans directory, filled⟩

section
variable {s u t : State}

theorem State.routeAudio_booths (u : State) : u.routeAudio.booths = u.booths := by
  unfold State.routeAudio
  rfl

theorem State.sendFrames_audio (u : State) : u.sendFrames.audio = u.routeAudio.audio := by
  unfold State.sendFrames
  rfl

theorem State.sendFrames_down (u : State) : u.sendFrames.down = Vector.ofFn u.routeAudio.downFrame := by
  unfold State.sendFrames
  rfl

theorem State.sendFrames_draws (u : State) : u.sendFrames.draws = u.draws + 1 := by
  unfold State.sendFrames State.routeAudio
  rfl

/-- A boundary's frames gone out, and the framer's own part besides (R30, R93). -/
theorem State.Sends.frames (h : s.Sends u) (only : u.sendFrames.onlyIn [.framer] t) : s.Sent t := by
  have audio : t.audio = u.sendFrames.audio := only .audio (by decide)
  have down : t.down = u.sendFrames.down := only .down (by decide)
  have booths : t.booths = u.booths := (only .booths (by decide)).trans (u.sendFrames_only .booths (by decide))
  have channels : t.channels = u.channels := (only .channels (by decide)).trans (u.sendFrames_only .channels (by decide))
  have routed : u.routeAudio.audio = Vector.ofFn u.channelAudio := rfl
  exact h.sent u.routeAudio_booths routed (audio.trans u.sendFrames_audio) (down.trans u.sendFrames_down)
    (booths.trans u.routeAudio_booths.symm) channels

/-- The framer at the end of a boundary: the frame sent, or left to the boundary of the superframe (R93). -/
theorem State.sendOrDue_framer (u : State) :
    (u.framer.frames % 64 = 0 → u.sendOrDue.framer = { u.framer with due := true })
    ∧ (u.framer.frames % 64 ≠ 0 → u.sendOrDue = u.sendDist) := by
  have start : u.framer.position = 0 ↔ u.framer.frames % 64 = 0 := Fin.ext_iff
  unfold State.sendOrDue
  refine ⟨fun first => ?_, fun other => if_neg (fun e => other (start.mp e))⟩
  rw [if_pos (start.mpr first)]

theorem State.frameBoundary_ready (ready : s.part = .ready) : s.frameBoundary = s.countFrame.boundaryWorked.sendFrames.sendOrDue := by
  unfold State.frameBoundary
  rw [ready]
  rfl

theorem State.frameBoundary_restarting (restarting : s.part = .restarting) : s.frameBoundary = s.countFrame.sendFrames.sendDist := by
  unfold State.frameBoundary
  rw [restarting]

theorem State.frameBoundary_starting (starting : s.part = .starting) : s.frameBoundary = if s.resetLow then s else s.countFrame := by
  unfold State.frameBoundary
  rw [starting]

/-- The frames of a boundary worked in READY are those of the links, audio and floor before it. -/
theorem State.boundaryWorked_sends (s : State) : s.Sends s.countFrame.boundaryWorked where
  link b := (s.countFrame.boundaryWorked_crossed b).link
  handed b := by
    rw [State.boundaryWorked_inside]
    rfl
  floor := s.countFrame.boundaryWorked_only .floor (by decide)

theorem State.sendFrames_framer (u : State) : u.sendFrames.framer = u.framer := u.sendFrames_only .framer (by decide)

/-- What the framer sends or leaves due at a boundary of the part in READY or RESTARTING, whose frames go out from `u` (R93). -/
structure State.Distributing (s t : State) : Prop where
  draws : t.draws = s.draws + 1
  active : t.framer.active = s.framer.active
  cleared : t.framer.cleared = s.framer.cleared
  due : s.part = .ready → t.framer.frames % 64 = 0 → t.framer.due = true ∧ t.framer.line = s.framer.line
  sent : (s.part = .restarting ∨ t.framer.frames % 64 ≠ 0) → t.framer.due = s.framer.due ∧ s.distributed t

theorem State.framed_sendDist (framer : u.framer = s.countFrame.framer) (draws : u.draws = s.draws)
    (apart : s.part = .ready → u.framer.frames % 64 ≠ 0) : s.Distributing u.sendFrames.sendDist := by
  have sent : u.sendFrames.sendDist.framer = { s.countFrame.framer with line := u.sendFrames.distFrame } := by
    rw [← framer, ← u.sendFrames_framer]
    rfl
  refine ⟨?_, by rw [sent]; rfl, by rw [sent]; rfl, fun ready first => ?_, fun _ => ⟨by rw [sent]; rfl, ?_⟩⟩
  · exact (u.sendFrames.sendDist_only .draws (by decide)).trans (u.sendFrames_draws.trans (congrArg (· + 1) draws))
  · rw [sent] at first
    exact absurd (by rw [framer]; exact first) (apart ready)
  · exact State.sendDist_distributed _ s (by rw [u.sendFrames_framer, framer]; rfl)

theorem State.framed_due (framer : u.framer = s.countFrame.framer) (draws : u.draws = s.draws) (ready : s.part = .ready)
    (first : u.framer.frames % 64 = 0) : s.Distributing u.sendFrames.sendOrDue := by
  have marked : u.sendFrames.sendOrDue.framer = { s.countFrame.framer with due := true } := by
    rw [u.sendFrames.sendOrDue_framer.1 (by rw [u.sendFrames_framer]; exact first), u.sendFrames_framer, framer]
  refine ⟨?_, by rw [marked]; rfl, by rw [marked]; rfl, fun _ _ => ⟨by rw [marked], by rw [marked]; rfl⟩, ?_⟩
  · exact (u.sendFrames.sendOrDue_only .draws (by decide)).trans (u.sendFrames_draws.trans (congrArg (· + 1) draws))
  · rintro (restarting | other)
    · exact nomatch ready.symm.trans restarting
    · rw [marked] at other
      exact absurd (by rw [← framer]; exact first) other

/-- A boundary of the part in READY or RESTARTING (R30, R93). -/
theorem State.frameBoundary_sends (running : s.part = .ready ∨ s.part = .restarting) : s.Sent s.frameBoundary ∧ s.Distributing s.frameBoundary := by
  rcases running with ready | restarting
  · have only := s.countFrame.boundaryWorked_only
    have framer : s.countFrame.boundaryWorked.framer = s.countFrame.framer := only .framer (by decide)
    have draws : s.countFrame.boundaryWorked.draws = s.draws := only .draws (by decide)
    have sends := s.boundaryWorked_sends
    rw [State.frameBoundary_ready ready]
    generalize s.countFrame.boundaryWorked = u at framer draws sends
    refine ⟨sends.frames u.sendFrames.sendOrDue_only, ?_⟩
    by_cases first : u.framer.frames % 64 = 0
    · exact State.framed_due framer draws ready first
    · rw [u.sendFrames.sendOrDue_framer.2 (by rw [u.sendFrames_framer]; exact first)]
      exact State.framed_sendDist framer draws (fun _ => first)
  · rw [State.frameBoundary_restarting restarting]
    have sends : s.Sends s.countFrame := ⟨fun _ => rfl, fun _ => rfl, rfl⟩
    exact ⟨sends.frames s.countFrame.sendFrames.sendDist_only,
      State.framed_sendDist rfl rfl (fun ready => (nomatch ready.symm.trans restarting))⟩

end

/-- Settles O37. -/
theorem boundarySendsFrames : Obligations.BoundarySendsFrames := by
  refine ⟨fun s running => ?_, fun s starting => congrArg Host.Outcome.next (State.frameBoundary_starting starting)⟩
  obtain ⟨⟨undefined, spoken, silent, floor, down⟩, ⟨draws, active, cleared, due, sent⟩⟩ := State.frameBoundary_sends running
  refine ⟨s.frameBoundary, rfl, draws, active, cleared, undefined, spoken, silent, floor, down, due, ?_, fun restarting => ?_⟩
  · intro h
    obtain ⟨kept, line⟩ := sent h
    exact ⟨kept, line⟩
  · have counted : s.onlyIn [.inner, .down, .audio, .floor, .draws, .framer] s.countFrame := s.countFrame_only.sub (by decide)
    have only := (counted.next s.countFrame.sendFrames_only (by decide)).next (State.sendDist_only _) (by decide)
    rw [State.frameBoundary_restarting restarting]
    exact ⟨only .booths (by decide), only .channels (by decide), only .mem (by decide), only .notices (by decide)⟩

end Sys2Proof.Machine
end

section
/-!
SUPPORT. The orders at a frame boundary (R87, R88): the standing order of a handover whose move is made completes DONE, no other order moves.
-/
namespace Sys2Proof.Machine

/-! ## Records handed leave the order slots -/

/-- The bytes of the order slots in `t` are those in `s`. -/
def State.sameSlots (s t : State) : Prop := ∀ a : Nat, 0x200 ≤ a → a < 0xA00 → t.mem.read8 a = s.mem.read8 a

section
variable {s t : State} {x : Standing} {r : Result}

theorem State.handTurn_slots (law : s.memOk) (r : TurnRecord) : s.sameSlots (s.handTurn r) := fun a low high => by
  have place := tallyBase_bounds s.log.writeCount
  unfold State.handTurn
  dsimp only
  split
  · rfl
  · unfold State.handTally
    split
    · rw [(s.waitTally_only _ _) .mem (by decide)]
    · exact State.writeTally_read8 _ law (by omega) (by omega) (by omega)

theorem State.endTurn_slots (law : s.memOk) (b : BoothId) (n : ConsoleId) (cause : TurnEnd) : s.sameSlots (s.endTurn b n cause) := by
  rw [State.endTurn_eq, State.turnHanded]
  unfold State.handFinal
  split
  · exact fun _ _ _ => rfl
  · exact State.handTurn_slots law _

theorem State.endFormer_slots (law : s.memOk) (before : State) (c : ChannelId) : s.sameSlots (State.endFormer before s c) := by
  unfold State.endFormer
  split
  · split
    · exact State.endTurn_slots law _ _ _
    · exact fun _ _ _ => rfl
  · exact fun _ _ _ => rfl

theorem resultByte_slots {n : SlotId} {a : Nat} (h : resultByte n a) : 0x200 ≤ a ∧ a < 0xA00 := by
  have := slotBase_lt n
  unfold resultByte at h
  omega

/-- A completed order stays so where its slot's bytes and the lists stay. -/
theorem State.Gone.kept (h : s.Gone x r) (law : t.SlotsHold none) (orders : t.orders = s.orders) (slots : s.sameSlots t) : t.Gone x r where
  law := law
  unlisted := by
    rw [orders]
    exact h.unlisted
  shows := Memory.shows_of_same h.shows fun a ha => slots a (resultByte_slots ha).1 (resultByte_slots ha).2

theorem State.Gone.frame (h : s.Gone x r) {l : List StateField} (only : s.onlyIn l t) (apart : ∀ f ∈ [StateField.part, .mem, .orders], f ∉ l) : t.Gone x r :=
  h.kept ((slotsHold_reads none).frame only apart h.law) (only .orders (apart _ (by decide)))
    (fun a _ _ => congrArg (fun m : Memory => m.read8 a) (only .mem (apart _ (by decide))))

end

/-! ## The move of one channel -/

/-- What one channel's work does to the orders: nothing, or the end of its handover's standing order. -/
inductive State.OrderLeft (s t : State) (c : ChannelId) : Prop
  | stays (orders : t.orders = s.orders) (mem : t.mem = s.mem)
  | ended (x : Standing) (standing : s.standingOf (.handover c) = some x)
      (orders : t.orders = { s.orders with standing := s.orders.standing.filter (fun y => y.slot ≠ x.slot) })
      (r : Result) (answers : s.memOk → t.mem.answers s.mem x.slot r)

/-- The result of a handover whose move is made (R87, R88). -/
def Channel.moveResult (ch : Channel) (r : Role) (tick : Nat) (x : Standing) : Result :=
  { code := .done, reason := .noReason, clamped := x.clamped, already := false, values := leBytes 6 tick ++ [r.code, ch.fault.toByte] }

section
variable {s t u : State} {c d : ChannelId} {x : Standing} {r : Role}

theorem State.endOwner_left (s : State) (c : ChannelId) (r : Result) : s.OrderLeft (s.endOwner (.handover c) r) c := by
  cases h : s.standingOf (.handover c) with
  | none =>
    rw [State.endOwner_of_none h]
    exact .stays rfl rfl
  | some x =>
    rw [State.endOwner_of_some h]
    obtain ⟨ended, answers⟩ := s.endStanding_facts x r
    exact .ended x h (by rw [ended]) _ answers

theorem State.OrderLeft.congr {p q : State} (h : s.OrderLeft t c) (orders : p.orders = s.orders) (mem : p.mem = s.mem)
    (orders' : q.orders = t.orders) (mem' : q.mem = t.mem) : p.OrderLeft q c := by
  rcases h with ⟨same, kept⟩ | ⟨x, standing, ended, r, answers⟩
  · exact .stays (orders'.trans (same.trans orders.symm)) (mem'.trans (kept.trans mem.symm))
  · refine .ended x ((congrArg (fun o : Orders => o.standing.find? _) orders).trans standing) ?_ r (fun law => ?_)
    · rw [orders', ended, orders]
    · rw [mem', mem]
      exact answers (by rw [State.memOk, ← mem]; exact law)

theorem State.moveOwner_left (t : State) (c : ChannelId) : t.OrderLeft (t.moveOwner c) c := by
  cases h : t.movesTo (t.channel c) with
  | none =>
    rw [State.moveOwner_of_none h]
    exact .stays rfl rfl
  | some r =>
    rw [State.moveOwner_of_some h]
    split
    · obtain ⟨w, hw⟩ : ∃ w, w = ((t.updChannel c (fun ch => ch.movedTo r)).raise .handover).rescheduled c none := ⟨_, rfl⟩
      have orders : t.orders = w.orders := by
        rw [hw]
        rfl
      have mem : t.mem = w.mem := by
        rw [hw]
        rfl
      rw [State.endSchedule_eq, ← hw]
      exact (State.endOwner_left w c _).congr orders mem rfl rfl
    · exact .stays rfl rfl

theorem State.routeChannel_left (t : State) (c : ChannelId) : t.OrderLeft (t.routeChannel c) c := by
  unfold State.routeChannel
  split
  · have only := (t.moveOwner c).chooseSource_only c
    exact (t.moveOwner_left c).congr rfl rfl (only .orders (by decide)) (only .mem (by decide))
  · exact .stays rfl rfl

/-- A channel that neither is undefined nor moves by a waiting handover leaves the orders. -/
theorem State.routeChannel_idle (h : (t.channel c).defined = true → (t.channel c).move = none → t.movesTo (t.channel c) = none) :
    (t.routeChannel c).orders = t.orders := by
  unfold State.routeChannel
  split
  · rename_i defined
    refine ((t.moveOwner c).chooseSource_only c .orders (by decide)).trans ?_
    cases moves : t.movesTo (t.channel c) with
    | none => rw [State.moveOwner_of_none moves]
    | some r =>
      rw [State.moveOwner_of_some moves, if_neg (fun still => (nomatch moves.symm.trans (h defined still)))]
      rfl
  · rfl

/-- The standing order of a waiting handover whose move is made is done (R87). -/
theorem State.moveOwner_done (moves : t.movesTo (t.channel c) = some r) (still : (t.channel c).move = none)
    (standing : t.standingOf (.handover c) = some x) :
    (t.moveOwner c).orders = { t.orders with standing := t.orders.standing.filter (fun y => y.slot ≠ x.slot) }
    ∧ (t.memOk → (t.moveOwner c).mem.answers t.mem x.slot ((t.channel c).moveResult r t.clock.run x))
    ∧ (t.moveOwner c).isPending .order = true := by
  obtain ⟨m, hm⟩ : ∃ m, m = (t.updChannel c (fun ch => ch.movedTo r)).raise .handover := ⟨_, rfl⟩
  have own : m.channel c = (t.channel c).movedTo r := by
    rw [hm]
    exact (t.channel_updChannel c c (fun ch => ch.movedTo r)).trans (if_pos rfl)
  have values : (m.channel c).handoverValues t.clock.run = leBytes 6 t.clock.run ++ [r.code, (t.channel c).fault.toByte] := by
    rw [own]
    rfl
  have same : (m.rescheduled c none).standingOf (.handover c) = some x := by
    rw [hm]
    exact standing
  have mem : (m.rescheduled c none).mem = t.mem := by
    rw [hm]
    rfl
  have orders : (m.rescheduled c none).orders = t.orders := by
    rw [hm]
    rfl
  rw [State.moveOwner_of_some moves, if_pos still, ← hm, State.endSchedule_eq, State.endOwner_of_some same, values]
  generalize m.rescheduled c none = w at mem orders
  obtain ⟨ended, answers⟩ := w.endStanding_facts x { code := .done, reason := .noReason, clamped := false, already := false
                                                     values := leBytes 6 t.clock.run ++ [r.code, (t.channel c).fault.toByte] }
  refine ⟨?_, fun law => ?_, ?_⟩
  · rw [ended, orders]
  · rw [← mem]
    exact answers (by rw [State.memOk, mem]; exact law)
  · rw [ended]
    exact w.raise_isPending .order

/-- Between the start of the router's work and the turn of channel `c`, whose standing order is `x`. -/
structure State.Unmoved (u t : State) (c : ChannelId) (x : Standing) : Prop where
  law : t.SlotsHold none
  standing : t.standingOf (.handover c) = some x
  channel : t.channel c = u.channel c
  booths : t.booths = u.booths
  clock : t.clock = u.clock

theorem State.routed_slots (law : t.SlotsHold none) (d : ChannelId) : (t.routeChannel d).SlotsHold none := (slotsHold_keeps none).hall.routeChannel law d

theorem State.Unmoved.route (h : u.Unmoved t c x) (other : d ≠ c) : u.Unmoved (t.routeChannel d) c x where
  law := State.routed_slots h.law d
  standing := by
    rcases t.routeChannel_left d with ⟨orders, -⟩ | ⟨y, standing, orders, -⟩
    · exact (congrArg (fun o : Orders => o.standing.find? _) orders).trans h.standing
    · refine State.standingOf_filter h.standing ?_ (congrArg Orders.standing orders)
      exact State.standingOf_slots h.law.standingNodup h.standing standing (fun e => other (StandingOwner.handover.inj e).symm)
  channel := by rw [State.routeChannel_channel, if_neg (Ne.symm other), h.channel]
  booths := (t.routeChannel_only d .booths (by decide)).trans h.booths
  clock := (t.routeChannel_only d .clock (by decide)).trans h.clock

theorem State.Gone.route {r : Result} (h : t.Gone x r) (d : ChannelId) : (t.routeChannel d).Gone x r := by
  have law := State.routed_slots h.law d
  rcases t.routeChannel_left d with ⟨orders, mem⟩ | ⟨y, standing, orders, q, answers⟩
  · exact h.kept law orders (fun a _ _ => by rw [mem])
  · refine ⟨law, ?_, (answers h.law.mem).shows_other ?_ h.shows⟩
    · rw [orders]
      exact fun listed => h.unlisted ((List.filter_sublist.map _).subset listed)
    · exact fun same => h.unlisted (same ▸ List.mem_map_of_mem (State.standingOf_some standing).1)

/-- The standing order of a waiting handover is done once every channel has been worked (R87). -/
theorem State.routedAll_done (law : u.SlotsHold none) (real : c ≠ 0) (defined : (u.channel c).defined = true)
    (moves : u.movesTo (u.channel c) = some r) (still : (u.channel c).move = none) (standing : u.standingOf (.handover c) = some x) :
    u.routedAll.Gone x ((u.channel c).moveResult r u.clock.run x) ∧ u.routedAll.isPending .order = true := by
  refine State.each_reaches (A := fun t => u.Unmoved t c x)
    (R := fun t => t.Gone x ((u.channel c).moveResult r u.clock.run x) ∧ t.isPending .order = true) (mem_spokenChannels real)
    spokenChannels_nodup (fun t d other h => h.route other) (fun t h => ?_)
    (fun t d ⟨gone, pending⟩ => ⟨gone.route d, (t.routeChannel_raises d .order).1 pending⟩) ⟨law, standing, rfl, rfl, rfl⟩
  have same : t.movesTo (t.channel c) = some r := by rw [h.channel, State.movesTo_congr h.booths, moves]
  obtain ⟨orders, answers, pending⟩ := State.moveOwner_done same (by rw [h.channel, still]) h.standing
  rw [h.channel, h.clock] at answers
  have only := (t.moveOwner c).chooseSource_only c
  have worked : t.routeChannel c = (t.moveOwner c).chooseSource c :=
    if_pos (show (t.channel c).defined = true by rw [h.channel, defined])
  have law' := State.routed_slots h.law c
  rw [worked] at law' ⊢
  have unlisted : x.slot ∉ (t.moveOwner c).orders.standing.map (fun y => y.slot) := by
    rw [orders]
    rintro listed
    obtain ⟨y, hy, slot⟩ := List.mem_map.mp listed
    exact absurd slot (by simpa using (List.mem_filter.mp hy).2)
  have moved : (t.moveOwner c).Gone x ((u.channel c).moveResult r u.clock.run x) :=
    ⟨(slotsHold_keeps none).hall.moveOwner h.law c, unlisted, (answers h.law.mem).1⟩
  exact ⟨moved.kept law' (only .orders (by decide)) (fun a _ _ => congrArg (fun m : Memory => m.read8 a) (only .mem (by decide))),
    ((t.moveOwner c).chooseSource_raises c .order).1 pending⟩

end

end Sys2Proof.Machine
end

section
/-!
SUPPORT. The channels and sources of a frame boundary (R78, R79, R82, R84, R85, R87, R88, O36).
-/
namespace Sys2Proof.Machine

/-! ## Notices through the boundary -/

section
variable {s t u : State} {b : BoothId} {c : ChannelId} {r : Role}

theorem State.quitLive_raises (t : State) (b : BoothId) : t.raises [.log] (t.quitLive b) := by
  cases live : (t.booth b).cons.live with
  | none =>
    rw [State.quitLive_of_none live]
    exact State.raises_of_notices rfl
  | some m =>
    rw [State.quitLive_of_some live]
    exact State.raises_ite (t.endTurn_raises b m .handover) (State.raises_of_notices rfl)

theorem State.claimLive_raises (t : State) (b : BoothId) : t.raises [.log] (t.claimLive b) :=
  (t.quitLive_raises b).trans (State.raises_of_notices ((t.quitLive b).updBooth_only b _ .notices (by decide)))

theorem State.changeLive_raises (t : State) (b : BoothId) : t.raises [.log, .handover] (t.changeLive b) := by
  have quit := (t.claimLive_raises b).sub (k := [.log, .handover]) (by simp)
  by_cases same : (t.booth b).cons.live = (t.booth b).cons.claimed
  · rw [State.changeLive_of_same same]
    exact State.raises_of_notices rfl
  · cases claimed : (t.booth b).cons.claimed with
    | none =>
      rw [State.changeLive_of_none same claimed]
      refine quit.trans (State.raises_of_notices ?_)
      exact ((t.claimLive b).goQuiet_only b) .notices (by decide)
    | some n =>
      rw [State.changeLive_of_some same claimed]
      obtain ⟨w, hw⟩ : ∃ w, w = (t.claimLive b).updConsole b n (fun c => c.resume t.clock.run) := ⟨_, rfl⟩
      have kept : t.raises [.log, .handover] w :=
        quit.trans (State.raises_of_notices (by rw [hw]; exact (t.claimLive b).updConsole_only b n _ .notices (by decide)))
      rw [← hw]
      refine State.raises.trans (State.raises_ite (kept.trans ((w.raises_raise .handover).sub (by simp))) kept) (State.raises_of_notices rfl)

theorem State.livened_raises (s : State) : s.raises [.log, .handover] s.livened := State.raises_each State.changeLive_raises _ s

theorem State.routedAll_raises (s : State) : s.raises [.order, .handover, .fallback] s.routedAll := State.raises_each State.routeChannel_raises _ s

theorem State.checkRelief_raises (t : State) (b : BoothId) : t.raises [.relief] (t.checkRelief b) := by
  unfold State.checkRelief
  dsimp only
  split
  · exact (State.raises_of_notices (t := t.updCons b _) rfl).trans (State.raises_raise _ .relief)
  · exact State.raises_of_notices rfl

theorem State.meterBooth_raises (old t : State) (b : BoothId) : t.raises [.relief] (State.meterBooth old t b) := by
  unfold State.meterBooth
  extract_lets fed s1
  have only : t.onlyIn [.booths] s1 := (t.openTurn_only old b).next (State.updBooth_only _ b _) (by decide)
  exact (State.raises_of_notices (only .notices (by decide))).trans (s1.checkRelief_raises b)

theorem State.endFormer_raises (before t : State) (c : ChannelId) : t.raises [.log] (State.endFormer before t c) := by
  unfold State.endFormer
  split
  · split
    · exact t.endTurn_raises _ _ _
    · exact State.raises_of_notices rfl
  · exact State.raises_of_notices rfl

/-- The boundary's work after the router's choice (R65, R68, R82) raises RELIEF and LOG alone. -/
theorem State.routed_raises (s : State) : s.livened.routedAll.raises [.relief, .log] s.boundaryWorked := by
  have fed : s.livened.routedAll.raises [.relief, .log] s.routerPart := State.raises_of_notices
    (((State.fedAll_only _) .notices (by decide)).trans ((State.bracketAll_only s.livened.routedAll s) .notices (by decide)))
  have metered : s.routerPart.raises [.relief, .log] s.meteredPart :=
    (State.raises_each (State.meterBooth_raises s) boothList s.routerPart).sub (by simp)
  have ended : s.meteredPart.raises [.relief, .log] (s.meteredPart.endFormers s.livened) :=
    (State.raises_each (State.endFormer_raises s.livened) spokenChannels s.meteredPart).sub (by simp)
  exact ((fed.trans metered).trans ended).trans (State.raises_of_notices ((State.lightAll_only _ s) .notices (by decide)))

/-- Between the start of the router's work and the turn of channel `c`. -/
structure State.Untouched (u t : State) (c : ChannelId) : Prop where
  channel : t.channel c = u.channel c
  booths : t.booths = u.booths
  clock : t.clock = u.clock
  timers : t.timers = u.timers

theorem State.Untouched.route (h : u.Untouched t c) {d : ChannelId} (other : d ≠ c) : u.Untouched (t.routeChannel d) c where
  channel := by rw [State.routeChannel_channel, if_neg (Ne.symm other), h.channel]
  booths := (t.routeChannel_only d .booths (by decide)).trans h.booths
  clock := (t.routeChannel_only d .clock (by decide)).trans h.clock
  timers := (t.routeChannel_only d .timers (by decide)).trans h.timers

theorem State.Untouched.sourceOf (h : u.Untouched t c) (ch : Channel) : t.sourceOf ch = u.sourceOf ch :=
  calc t.sourceOf ch = ({ u with booths := t.booths, clock := t.clock, timers := t.timers } : State).sourceOf ch := rfl
    _ = u.sourceOf ch := by rw [h.booths, h.clock, h.timers]

/-- A notice that one channel's work raises is pending once every channel has been worked. -/
theorem State.routedAll_pending {x : Notice} (real : c ≠ 0) (reach : ∀ t, u.Untouched t c → (t.routeChannel c).isPending x = true) :
    u.routedAll.isPending x = true :=
  State.each_reaches (A := fun t => u.Untouched t c) (R := fun t => t.isPending x = true) (mem_spokenChannels real) spokenChannels_nodup
    (fun _ _ other h => h.route other) reach (fun t d pending => (t.routeChannel_raises d x).1 pending) ⟨rfl, rfl, rfl, rfl⟩

theorem State.routeChannel_defined (defined : (t.channel c).defined = true) : t.routeChannel c = (t.moveOwner c).chooseSource c := if_pos defined

/-- A move of ownership raises HANDOVER (R82). -/
theorem State.routedAll_handover (real : c ≠ 0) (defined : (u.channel c).defined = true) (moves : u.movesTo (u.channel c) = some r) :
    u.routedAll.isPending .handover = true := by
  refine State.routedAll_pending real fun t h => ?_
  rw [State.routeChannel_defined (by rw [h.channel, defined])]
  refine ((t.moveOwner c).chooseSource_raises c .handover).1 (State.moveOwner_pending (r := r) ?_)
  rw [h.channel, State.movesTo_congr h.booths, moves]

/-- The start of a fallback, and its end, raise FALLBACK (R79). -/
theorem State.routedAll_fallback (real : c ≠ 0) (defined : (u.channel c).defined = true)
    (falls : u.entersFallback (u.movedRecord (u.channel c)) = true ∨ (u.movedRecord (u.channel c)).source.fellBack = true
      ∧ (u.sourceOf (u.movedRecord (u.channel c))).fellBack = false) : u.routedAll.isPending .fallback = true := by
  refine State.routedAll_pending real fun t h => ?_
  rw [State.routeChannel_defined (by rw [h.channel, defined])]
  have only := t.moveOwner_only c
  have moved : u.Untouched { t.moveOwner c with channels := u.channels } c :=
    ⟨rfl, (only .booths (by decide)).trans h.booths, (only .clock (by decide)).trans h.clock, (only .timers (by decide)).trans h.timers⟩
  have record : (t.moveOwner c).channel c = u.movedRecord (u.channel c) := by
    rw [State.moveOwner_channel, if_pos rfl, State.movedRecord, State.movesTo_congr h.booths, h.channel]
    rfl
  have source : (t.moveOwner c).sourceOf (u.movedRecord (u.channel c)) = u.sourceOf (u.movedRecord (u.channel c)) := moved.sourceOf _
  refine State.chooseSource_pending ?_
  rw [State.entersFallback, record, source]
  exact falls

end

end Sys2Proof.Machine
end

section
/-!
SUPPORT. What a frame boundary leaves of a channel record (R78, R79, R82), and the settlement of O36.
-/
namespace Sys2Proof.Machine

/-! ## The source of a record -/

section
variable {s t u : State} {b : BoothId} {c : ChannelId} {ch : Channel} {r : Role}

theorem State.sourceOf_owned (owner : ch.ownerBooth = some b) : u.sourceOf ch =
    if u.isLive b then
      if (u.booth b).cons.live.isSome then .booth
      else if u.timers.quietHold = 0 ∨ u.clock.run - (u.booth b).cons.quietSince < u.timers.quietHold * 1024 then .booth
      else .quietFloor
    else if u.clock.run - ch.downSince < msTicks u.timers.lossHold then .booth
    else if ch.rescue ∧ (u.liveOf ch.standbyBooth).isSome then .rescue
    else .fallback := by
  unfold State.sourceOf
  rw [owner]
  rfl

theorem Source.fellBack_iff {x : Source} : x.fellBack = true ↔ x = .fallback ∨ x = .rescue := by
  unfold Source.fellBack
  rw [Bool.or_eq_true, beq_iff_eq, beq_iff_eq]

/-! ## Records told of the state before -/

/-- Ownership of channel `c` moves to the role `r` at the boundary (R84, R87). -/
def State.movesBy (s : State) (c : ChannelId) (r : Role) : Prop :=
  (s.channel c).move = some r ∨ ((s.channel c).move = none ∧ ∃ h : Schedule, (s.channel c).schedule = some h ∧ h.phase = .waiting
    ∧ (s.channel c).pairing = .valid ∧ (∃ x : BoothId, (s.channel c).boothOf h.target = some x ∧ (s.booth x).link.state = .live
      ∧ (s.booth x).cons.claimed ≠ none) ∧ h.target = r)

/-- A channel record once its move is made, or as the boundary's start left it where none is due. -/
structure State.Moved (s : State) (c : ChannelId) (q : Channel) : Prop where
  moved (r : Role) : s.movesBy c r → q = { s.channel c with
    owner := r, offer := none, move := none, handovers := min 65535 ((s.channel c).handovers + 1)
    schedule := if (s.channel c).move = none then none else (s.channel c).schedule }
  kept : (∀ r, ¬ s.movesBy c r) → (s.channel c).move = none ∧ ∃ o : Option OutgoingOffer, q = { s.channel c with offer := o }
    ∧ ((∀ b, (s.channel c).ownerBooth = some b → ¬ (s.booth b).quiets) → o = (s.channel c).offer)
  unoffered (b : BoothId) : s.namingOk → (s.channel c).ownerBooth = some b → (s.booth b).quiets → q.offer = none

theorem State.movedRecord_moved (s : State) (c : ChannelId) : s.Moved c (s.livened.movedRecord (s.livened.channel c)) := by
  obtain ⟨o, same⟩ := s.livened_channel c
  have moves (r : Role) : s.livened.movesTo (s.livened.channel c) = some r ↔ s.movesBy c r := s.livened_moves c r
  have handed (r : Role) (h : s.movesBy c r) : s.livened.movedRecord (s.livened.channel c) = (s.livened.channel c).handed r :=
    State.movedRecord_of_some ((moves r).mpr h)
  have none' (h : ∀ r, ¬ s.movesBy c r) : s.livened.movesTo (s.livened.channel c) = none :=
    Option.eq_none_iff_forall_ne_some.mpr fun r e => h r ((moves r).mp e)
  refine ⟨fun r h => ?_, fun h => ⟨?_, o, ?_, fun speaks => ?_⟩, fun b law owner quiet => ?_⟩
  · rw [handed r h, same]
    rfl
  · cases move : (s.channel c).move with
    | none => rfl
    | some r => exact absurd (.inl move) (h r)
  · rw [State.movedRecord_of_none (none' h), same]
  · rcases s.livened_offers.channel c with e | ⟨-, b, owner, quiet⟩
    · exact (congrArg Channel.offer same).symm.trans (congrArg Channel.offer e)
    · exact absurd quiet (speaks b owner)
  · have gone := State.livened_unoffered law owner quiet
    by_cases moves : ∃ r, s.movesBy c r
    · obtain ⟨r, h⟩ := moves
      rw [handed r h]
      rfl
    · rw [State.movedRecord_of_none (none' (fun r h => moves ⟨r, h⟩)), gone]

/-- The tick since which a booth is quiet once the claimed consoles are live (R60). -/
def State.quietFrom (s : State) (b : BoothId) : Nat :=
  if (s.booth b).cons.live ≠ (s.booth b).cons.claimed ∧ (s.booth b).cons.claimed = none then s.clock.run else (s.booth b).cons.quietSince

/-- The source and the episodes of a channel record that the boundary's start and its move have made `q` (R78, R79). -/
structure State.Sourced (s : State) (q new : Channel) : Prop where
  record : ∃ x : Half, new = { q with changes := x, source := new.source, episodes := new.episodes }
  live (o : BoothId) : q.ownerBooth = some o → (s.booth o).link.state = .live → (s.booth o).cons.claimed ≠ none → new.source = .booth
  quiet (o : BoothId) : q.ownerBooth = some o → (s.booth o).link.state = .live → (s.booth o).cons.claimed = none →
    new.source = if s.timers.quietHold = 0 ∨ s.clock.run - s.quietFrom o < s.timers.quietHold * 1024 then .booth else .quietFloor
  lately (o : BoothId) : q.ownerBooth = some o → (s.booth o).link.state ≠ .live → s.clock.run - q.downSince < msTicks s.timers.lossHold →
    new.source = .booth
  down (o : BoothId) : q.ownerBooth = some o → (s.booth o).link.state ≠ .live → msTicks s.timers.lossHold ≤ s.clock.run - q.downSince →
    new.source = if q.rescue = true ∧ (∃ x : BoothId, q.standbyBooth = some x ∧ (s.booth x).link.state = .live
      ∧ (s.booth x).cons.claimed ≠ none) then .rescue else .fallback
  episodes : new.episodes = if new.source.fellBack = true ∧ new.source ≠ q.source then min 65535 (q.episodes + 1) else q.episodes

theorem State.sourcedRecord_sourced (s : State) (q : Channel) (x : Half) {new : Channel}
    (h : new = { s.livened.sourcedRecord q with changes := x }) : s.Sourced q new := by
  have source : new.source = s.livened.sourceOf q := by rw [h]; rfl
  have timers : s.livened.timers = s.timers := s.livened_only .timers (by decide)
  have clock : s.livened.clock = s.clock := s.livened_only .clock (by decide)
  have link (o : BoothId) : s.livened.isLive o = true ↔ (s.booth o).link.state = .live := by
    rw [State.isLive_iff, (s.livened_claim o).2]
  have owned (o : BoothId) (owner : q.ownerBooth = some o) := source.trans (State.sourceOf_owned (u := s.livened) owner)
  refine ⟨⟨x, by rw [h]; rfl⟩, fun o owner live speaks => ?_, fun o owner live quiet => ?_, fun o owner off lately => ?_,
    fun o owner off late => ?_, ?_⟩
  · rw [owned o owner, if_pos ((link o).mpr live), (s.livened_claim o).1, if_pos (Option.isSome_iff_ne_none.mpr speaks)]
  · rw [owned o owner, if_pos ((link o).mpr live), (s.livened_claim o).1, quiet, Option.isSome_none, if_neg Bool.false_ne_true, timers, clock,
      (s.livened_records o).1]
    rfl
  · rw [owned o owner, if_neg (fun e => off ((link o).mp e)), timers, clock, if_pos lately]
  · rw [owned o owner, if_neg (fun e => off ((link o).mp e)), timers, clock, if_neg (Nat.not_lt.mpr late)]
    exact if_congr (and_congr_right fun _ => State.livened_liveOf _) rfl rfl
  · rw [source, h]
    refine if_congr ?_ rfl rfl
    rw [State.entersFallback, Bool.and_eq_true, bne_iff_ne]

/-! ## The boundary of the state that steps -/

theorem State.BoothCrossed.congr {v w : State} (h : v.BoothCrossed w b) (start : v = s.countFrame) (booths : t.booths = w.booths)
    (channels : t.channels = w.channels) : s.BoothCrossed t b := by
  have booth : t.booth b = w.booth b := congrArg (fun v : Vector Booth 24 => v[b]) booths
  have fed : t.fedOf b = w.fedOf b := State.fedOf_same channels (congrArg (fun r : Booth => r.role.named) booth) (congrArg Booth.link booth)
  obtain ⟨link, role, cons, kept, lost⟩ := h
  rw [← booth, ← fed, ← State.warned_congr channels, ← State.cuedOut_congr channels] at kept lost
  rw [← booth] at link cons
  rw [← booth, ← fed] at role
  subst start
  exact ⟨link, role, cons, kept, lost⟩

/-- What a boundary worked in READY leaves is what its work leaves before the frames go out. -/
theorem State.frameBoundary_keeps (ready : s.part = .ready) {w : State} (h : w = s.countFrame.boundaryWorked) :
    w.onlyIn [.inner, .down, .audio, .floor, .draws, .framer] s.frameBoundary := by
  rw [State.frameBoundary_ready ready, ← h]
  exact (w.sendFrames_only.sub (by decide)).next w.sendFrames.sendOrDue_only (by decide)

theorem State.frameBoundary_crossed (ready : s.part = .ready) (b : BoothId) : s.BoothCrossed s.frameBoundary b := by
  have only := State.frameBoundary_keeps ready rfl
  exact (s.countFrame.boundaryWorked_crossed b).congr rfl (only .booths (by decide)) (only .channels (by decide))

theorem State.frameBoundary_channel (ready : s.part = .ready) (real : c ≠ 0) (defined : (s.channel c).defined = true) :
    ∃ q, s.Moved c q ∧ s.Sourced q (s.frameBoundary.channel c) := by
  have only := State.frameBoundary_keeps ready rfl
  have channel : s.frameBoundary.channel c = s.countFrame.boundaryWorked.channel c :=
    congrArg (fun v : Vector Channel 32 => v[c]) (only .channels (by decide))
  obtain ⟨x, worked⟩ := s.countFrame.boundaryWorked_channel c
  have there : (s.countFrame.livened.channel c).defined = true := by
    obtain ⟨o, same⟩ := s.countFrame.livened_channel c
    rw [same]
    exact defined
  rw [if_neg real, State.routedRecord, if_pos there] at worked
  obtain ⟨moved, kept, unoffered⟩ := s.countFrame.movedRecord_moved c
  obtain ⟨record, live, quiet, lately, down, episodes⟩ := s.countFrame.sourcedRecord_sourced _ x (channel.trans worked)
  exact ⟨_, ⟨moved, kept, unoffered⟩, ⟨record, live, quiet, lately, down, episodes⟩⟩

theorem State.sourcedRecord_source (u : State) (q : Channel) (x : Half) :
    ({ u.sourcedRecord q with changes := x } : Channel).source = u.sourceOf q := rfl

theorem State.standingOf_congr (h : t.orders = u.orders) (o : StandingOwner) : t.standingOf o = u.standingOf o :=
  congrArg (fun x : Orders => x.standing.find? _) h

/-- The notices that the router's work raises stay pending to the boundary's end. -/
theorem State.frameBoundary_pending (ready : s.part = .ready) {x : Notice} (pending : s.countFrame.livened.routedAll.isPending x = true) :
    s.frameBoundary.isPending x = true := by
  have only := State.frameBoundary_keeps ready rfl
  have worked := (s.countFrame.routed_raises x).1 pending
  exact (congrArg (fun n : Notices => n.waiting.getLsbD x.index) (only .notices (by decide))).trans worked

theorem State.frameBoundary_handover (ready : s.part = .ready) (real : c ≠ 0) (defined : (s.channel c).defined = true) (moves : s.movesBy c r) :
    s.frameBoundary.isPending .handover = true := by
  obtain ⟨o, same⟩ := s.countFrame.livened_channel c
  exact State.frameBoundary_pending ready (State.routedAll_handover real (by rw [same]; exact defined)
    ((s.countFrame.livened_moves c r).mpr moves))

theorem State.frameBoundary_fallback (ready : s.part = .ready) (real : c ≠ 0) (defined : (s.channel c).defined = true)
    (falls : ((s.frameBoundary.channel c).source.fellBack = true ∧ (s.frameBoundary.channel c).source ≠ (s.channel c).source)
      ∨ ((s.channel c).source.fellBack = true ∧ (s.frameBoundary.channel c).source.fellBack = false)) :
    s.frameBoundary.isPending .fallback = true := by
  obtain ⟨o, same⟩ := s.countFrame.livened_channel c
  have there : (s.countFrame.livened.channel c).defined = true := by
    rw [same]
    exact defined
  have only := State.frameBoundary_keeps ready rfl
  obtain ⟨x, worked⟩ := s.countFrame.boundaryWorked_channel c
  rw [if_neg real, State.routedRecord, if_pos there] at worked
  have channel : s.frameBoundary.channel c = _ :=
    (congrArg (fun v : Vector Channel 32 => v[c]) (only .channels (by decide))).trans worked
  have source : (s.frameBoundary.channel c).source = s.countFrame.livened.sourceOf (s.countFrame.livened.movedRecord (s.countFrame.livened.channel c)) := by
    rw [channel, State.sourcedRecord_source]
  have before : (s.countFrame.livened.movedRecord (s.countFrame.livened.channel c)).source = (s.channel c).source := by
    unfold State.movedRecord
    cases s.countFrame.livened.movesTo (s.countFrame.livened.channel c) <;> rw [same] <;> rfl
  refine State.frameBoundary_pending ready (State.routedAll_fallback real there ?_)
  rw [State.entersFallback, Bool.and_eq_true, bne_iff_ne, ← source, before]
  exact falls

/-- The orders where no waiting handover moves its channel. -/
theorem State.frameBoundary_orders (ready : s.part = .ready)
    (still : ∀ c r, c ≠ 0 → (s.channel c).defined = true → (s.channel c).move = none → ¬ s.movesBy c r) : s.frameBoundary.orders = s.orders := by
  have only := State.frameBoundary_keeps ready rfl
  have after : s.countFrame.livened.routedAll.onlyIn [.header, .notices, .mem, .log, .booths, .channels] s.countFrame.boundaryWorked :=
    ((((((State.bracketAll_only _ s.countFrame).sub (by decide)).next (State.fedAll_only _) (by decide)).next
      (State.meterAll_only _ s.countFrame) (by decide)).next (State.endFormers_only _ s.countFrame.livened) (by decide)).next
      (State.lightAll_only _ s.countFrame) (by decide))
  refine (only .orders (by decide)).trans ((after .orders (by decide)).trans ?_)
  have idle : ∀ l : List ChannelId, (∀ c ∈ l, c ≠ 0) → l.Nodup → ∀ t : State, t.booths = s.countFrame.livened.booths →
      (∀ c ∈ l, t.channel c = s.countFrame.livened.channel c) → (t.each l State.routeChannel).orders = t.orders := by
    intro l
    induction l with
    | nil => exact fun _ _ _ _ _ => rfl
    | cons c l ih =>
      intro reals distinct t booths channels
      obtain ⟨fresh, distinct⟩ := List.nodup_cons.mp distinct
      refine (ih (fun d hd => reals d (List.mem_cons_of_mem _ hd)) distinct (t.routeChannel c)
        ((t.routeChannel_only c .booths (by decide)).trans booths) (fun d hd => ?_)).trans (State.routeChannel_idle fun defined free => ?_)
      · rw [State.routeChannel_channel, if_neg (fun e : d = c => fresh (e ▸ hd)), channels d (List.mem_cons_of_mem _ hd)]
      · obtain ⟨o, same⟩ := s.countFrame.livened_channel c
        rw [channels c (List.mem_cons_self ..)] at defined free ⊢
        rw [State.movesTo_congr booths]
        refine Option.eq_none_iff_forall_ne_some.mpr fun r moves => ?_
        rw [same] at defined free
        exact still c r (reals c (List.mem_cons_self ..)) defined free ((s.countFrame.livened_moves c r).mp moves)
  refine (idle spokenChannels (fun c hc => mem_spoken_iff.mp hc) spokenChannels_nodup _ rfl (fun _ _ => rfl)).trans ?_
  exact s.countFrame.livened_only .orders (by decide)

theorem State.Gone.endFormers {x : Standing} {r : Result} (h : t.Gone x r) (before : State) : (t.endFormers before).Gone x r :=
  State.each_induct (P := fun u => u.Gone x r) (f := State.endFormer before)
    (fun u d _ g => g.kept ((slotsHold_keeps none).hall.endFormer g.law before d) (State.endFormer_only before u d .orders (by decide))
      (State.endFormer_slots g.law.mem before d)) h

/-- The standing order of a waiting handover whose move is made is done (R87, R88). -/
theorem State.frameBoundary_done (ready : s.part = .ready) (law : s.slotsOk) (real : c ≠ 0) (defined : (s.channel c).defined = true)
    (moves : s.movesBy c r) (still : (s.channel c).move = none) {y : Standing} (standing : s.standingOf (.handover c) = some y) :
    s.frameBoundary.Gone y ((s.channel c).moveResult r s.clock.run y) ∧ s.frameBoundary.isPending .order = true := by
  have keeps := (slotsHold_keeps none).hall
  have counted : s.countFrame.SlotsHold none := (slotsHold_reads none).frame s.countFrame_only (by decide) (State.slotsHold_none.mpr law)
  have start : s.countFrame.livened.SlotsHold none :=
    State.each_induct (P := State.SlotsHold none) (f := State.changeLive) (fun t b _ h => keeps.changeLive h b) counted
  have orders : s.countFrame.livened.orders = s.orders := s.countFrame.livened_only .orders (by decide)
  have run : s.countFrame.livened.clock = s.clock := s.countFrame.livened_only .clock (by decide)
  obtain ⟨o, same⟩ := s.countFrame.livened_channel c
  have result : (s.countFrame.livened.channel c).moveResult r s.countFrame.livened.clock.run y = (s.channel c).moveResult r s.clock.run y := by
    rw [same, run]
    rfl
  obtain ⟨gone, pending⟩ := State.routedAll_done start real (by rw [same]; exact defined) ((s.countFrame.livened_moves c r).mpr moves)
    (by rw [same]; exact still) ((State.standingOf_congr orders _).trans standing)
  rw [result] at gone
  refine ⟨?_, State.frameBoundary_pending ready pending⟩
  have bracketed := gone.frame (State.bracketAll_only _ s.countFrame) (by decide)
  have metered := (bracketed.frame (State.fedAll_only _) (by decide)).frame (State.meterAll_only _ s.countFrame) (by decide)
  have ended := metered.endFormers s.countFrame.livened
  exact (ended.frame (State.lightAll_only _ s.countFrame) (by decide)).frame (State.frameBoundary_keeps ready rfl) (by decide)

end

end Sys2Proof.Machine
end

section
/-!
SUPPORT. A frame boundary chooses the sources (R58, R78, R79, R82, R84, R85, R87, R88, O36).
-/
namespace Sys2Proof.Machine

section
variable {s t : State} {b : BoothId} {c : ChannelId} {q new : Channel} {r : Role}

/-- What a move keeps of a channel record (R82). -/
theorem State.Moved.keeps (h : s.Moved c q) : q = { s.channel c with
    owner := q.owner, offer := q.offer, move := none, handovers := q.handovers, schedule := q.schedule } := by
  by_cases moves : ∃ r, s.movesBy c r
  · obtain ⟨r, m⟩ := moves
    rw [h.moved r m]
  · obtain ⟨still, o, same, -⟩ := h.kept (fun r m => moves ⟨r, m⟩)
    rw [same, ← still]

/-- What a boundary keeps of a channel record. -/
theorem State.Sourced.keeps (h : s.Sourced q new) (m : s.Moved c q) : new = { s.channel c with
    changes := new.changes, owner := new.owner, offer := new.offer, move := none, schedule := new.schedule
    handovers := new.handovers, source := new.source, episodes := new.episodes } := by
  obtain ⟨x, record⟩ := h.record
  have whole : new = { s.channel c with
      changes := x, owner := q.owner, offer := q.offer, move := none, schedule := q.schedule
      handovers := q.handovers, source := new.source, episodes := new.episodes } := record.trans (by rw [m.keeps])
  rw [whole]

/-- A channel that no pending move and no waiting handover moves (R82, R87). -/
theorem State.movesBy_none (still : (s.channel c).move = none) (none : ∀ h : Schedule, ¬ ((s.channel c).move = none ∧ (s.channel c).schedule = some h
    ∧ h.phase = .waiting ∧ (s.channel c).pairing = .valid ∧ ∃ x : BoothId, (s.channel c).boothOf h.target = some x
      ∧ (s.booth x).link.state = .live ∧ (s.booth x).cons.claimed ≠ none)) (r : Role) : ¬ s.movesBy c r := by
  rintro (pending | ⟨-, h, plan, waiting, valid, up, -⟩)
  · exact nomatch pending.symm.trans still
  · exact none h ⟨still, plan, waiting, valid, up⟩

/-- What one boundary does to a channel (R78, R79, R82, R84, R87). -/
theorem State.Sourced.moved_facts (h : s.Sourced q new) (m : s.Moved c q) :
    (∀ r : Role, (s.channel c).move = some r → new.owner = r ∧ new.move = none ∧ new.offer = none
      ∧ new.handovers = min 65535 ((s.channel c).handovers + 1) ∧ new.schedule = (s.channel c).schedule)
    ∧ (∀ r : Role, s.movesBy c r → (s.channel c).move = none → new.owner = r ∧ new.offer = none
      ∧ new.handovers = min 65535 ((s.channel c).handovers + 1) ∧ new.schedule = none)
    ∧ ((∀ r : Role, ¬ s.movesBy c r) → new.owner = (s.channel c).owner ∧ new.handovers = (s.channel c).handovers
      ∧ new.schedule = (s.channel c).schedule
      ∧ ((∀ b : BoothId, (s.channel c).ownerBooth = some b → ¬ (s.booth b).quiets) → new.offer = (s.channel c).offer)) := by
  obtain ⟨x, record⟩ := h.record
  refine ⟨fun r pending => ?_, fun r moves still => ?_, fun none => ?_⟩
  · have moving : (s.channel c).move ≠ none := fun e => nomatch pending.symm.trans e
    have plan : (if (s.channel c).move = none then none else (s.channel c).schedule) = (s.channel c).schedule := if_neg moving
    rw [record, m.moved r (.inl pending)]
    exact ⟨rfl, rfl, rfl, rfl, plan⟩
  · rw [record, m.moved r moves]
    exact ⟨rfl, rfl, rfl, if_pos still⟩
  · obtain ⟨-, o, same, offer⟩ := m.kept none
    rw [record, same]
    exact ⟨rfl, rfl, rfl, offer⟩

/-- The table of R78 for a channel at one boundary. -/
theorem State.Sourced.table (h : s.Sourced q new) (m : s.Moved c q) (o : BoothId) (owner : new.ownerBooth = some o) :
    ((s.booth o).link.state = .live → (s.booth o).cons.claimed ≠ none → new.source = .booth)
    ∧ ((s.booth o).link.state = .live → (s.booth o).cons.claimed = none →
      new.source = if s.timers.quietHold = 0 ∨ s.clock.run - s.quietFrom o < s.timers.quietHold * 1024 then .booth else .quietFloor)
    ∧ ((s.booth o).link.state ≠ .live → s.clock.run - (s.channel c).downSince < msTicks s.timers.lossHold → new.source = .booth)
    ∧ ((s.booth o).link.state ≠ .live → msTicks s.timers.lossHold ≤ s.clock.run - (s.channel c).downSince →
      new.source = if (s.channel c).rescue = true ∧ (∃ x : BoothId, new.standbyBooth = some x ∧ (s.booth x).link.state = .live
        ∧ (s.booth x).cons.claimed ≠ none) then .rescue else .fallback) := by
  obtain ⟨x, record⟩ := h.record
  have own : q.ownerBooth = some o := by
    rw [record] at owner
    exact owner
  have standby : new.standbyBooth = q.standbyBooth := by
    rw [record]
    rfl
  have since : (s.channel c).downSince = q.downSince := by rw [m.keeps]
  have rescue : (s.channel c).rescue = q.rescue := by rw [m.keeps]
  rw [since, rescue, standby]
  exact ⟨h.live o own, h.quiet o own, h.lately o own, h.down o own⟩

theorem State.fedOf_eq_some : t.fedOf b = some c ↔ (t.booth b).role.named = some c ∧ (t.channel c).defined = true
    ∧ (((t.channel c).ownerBooth = some b ∧ (t.booth b).link.state = .live ∧ (t.channel c).source = .booth)
      ∨ ((t.channel c).standbyBooth = some b ∧ (t.channel c).source = .rescue)) := by
  unfold State.fedOf
  split
  · rename_i d named
    replace named : (t.booth b).role.named = some d := named
    dsimp only
    split
    · rename_i feeds
      rw [State.isLive_iff] at feeds
      constructor
      · rintro ⟨⟩
        exact ⟨named, feeds⟩
      · rintro ⟨other, -⟩
        exact named.symm.trans other
    · rename_i feeds
      rw [State.isLive_iff] at feeds
      refine ⟨fun e => (nomatch e), ?_⟩
      rintro ⟨other, fed⟩
      have same := Option.some.inj (named.symm.trans other)
      subst same
      exact absurd fed feeds
  · rename_i none
    exact ⟨fun e => (nomatch e), fun e => (nomatch e.1.symm.trans none)⟩

end

/-- Settles O36. -/
theorem boundaryChoosesSources : Obligations.BoundaryChoosesSources := by
  intro s ready
  have crossed (b : BoothId) := State.frameBoundary_crossed ready b
  refine ⟨s.frameBoundary, rfl, ?_⟩
  intro up due quiet
  refine ⟨fun c real defined => ?_, fun none => ?_, fun b => ?_⟩
  · intro old new readied
    obtain ⟨q, moved, sourced⟩ := State.frameBoundary_channel ready real defined
    obtain ⟨pending, waiting, kept⟩ := sourced.moved_facts moved
    obtain ⟨x, record⟩ := sourced.record
    have moves (h : Schedule) (due : readied h) : s.movesBy c h.target := by
      obtain ⟨still, plan, waits, valid, upper⟩ := due
      exact .inr ⟨still, h, plan, waits, valid, upper, rfl⟩
    refine ⟨fun r move => ?_, fun h due => ?_, fun still none => kept (State.movesBy_none still none), fun b law owner quiet => ?_, ?_,
      fun o owner => ?_, ?_⟩
    · obtain ⟨owner, gone, offer, count, plan⟩ := pending r move
      exact ⟨owner, gone, offer, count, plan, State.frameBoundary_handover ready real defined (.inl move)⟩
    · obtain ⟨owner, offer, count, plan⟩ := waiting h.target (moves h due) due.1
      refine ⟨owner, offer, count, plan, State.frameBoundary_handover ready real defined (moves h due), fun law y standing => ?_⟩
      obtain ⟨gone, order⟩ := State.frameBoundary_done ready law real defined (moves h due) due.1 standing
      exact ⟨fun listed => gone.unlisted (List.mem_map_of_mem listed), order, gone.shows⟩
    · exact (congrArg Channel.offer record).trans (moved.unoffered b law owner quiet)
    · exact sourced.keeps moved
    · obtain ⟨live, quiet, lately, down⟩ := sourced.table moved o owner
      have cons := (crossed o).cons
      have seat : (s.frameBoundary.booth o).cons.live = (s.booth o).cons.claimed := by rw [cons]
      have since : (s.frameBoundary.booth o).cons.quietSince = s.quietFrom o := by
        rw [cons]
        rfl
      rw [seat, since]
      refine ⟨live, quiet, lately, fun off late => ⟨fun rescue upper => ?_, fun other => ?_⟩⟩
      · exact (down off late).trans (if_pos ⟨rescue, upper⟩)
      · exact (down off late).trans (if_neg other)
    · have episodes := sourced.episodes
      have before : q.source = old.source := by rw [moved.keeps]
      have count : q.episodes = old.episodes := by rw [moved.keeps]
      rw [before, count] at episodes
      refine ⟨fun falls other => ⟨?_, ?_⟩, fun stays => ?_, fun fell back => ?_⟩
      · exact episodes.trans (if_pos ⟨Source.fellBack_iff.mpr falls, other⟩)
      · exact State.frameBoundary_fallback ready real defined (.inl ⟨Source.fellBack_iff.mpr falls, other⟩)
      · exact episodes.trans (if_neg fun e => stays ⟨Source.fellBack_iff.mp e.1, e.2⟩)
      · exact State.frameBoundary_fallback ready real defined
          (.inr ⟨Source.fellBack_iff.mpr fell, Bool.eq_false_iff.mpr fun e => back (Source.fellBack_iff.mp e)⟩)
  · refine State.frameBoundary_orders ready fun c r real defined still moves => ?_
    exact State.movesBy_none still (fun h => none c h real defined) r moves
  · have role := (crossed b).role
    refine ⟨by rw [role], fun c => ?_⟩
    rw [show (s.frameBoundary.booth b).role.fed = s.frameBoundary.fedOf b by rw [role], State.fedOf_eq_some, (crossed b).link, role]

end Sys2Proof.Machine
end

section
/-!
SUPPORT. The consoles at a frame boundary (R56, R60, R63, R65 to R68, R82).
-/
namespace Sys2Proof.Machine

/-! ## The duty meter's operations -/

theorem ConsoleRec.ended_running {c : ConsoleRec} (h : c.turn = .running) (k : Nat) : c.ended k = { c.closeLive k with turn := .idle } := by
  unfold ConsoleRec.ended
  rw [h]

theorem ConsoleRec.ended_gap {c : ConsoleRec} (h : c.turn = .gap) (k : Nat) : c.ended k = { c with turn := .idle } := by
  unfold ConsoleRec.ended
  rw [h]

/-- What the end of a turn keeps (R67). -/
theorem ConsoleRec.ended_keeps (c : ConsoleRec) (k : Nat) :
    c.ended k = { c with turn := .idle, liveEnd := (c.ended k).liveEnd, onMic := (c.ended k).onMic } := by
  cases h : c.turn with
  | running =>
    rw [ConsoleRec.ended_running h]
    rfl
  | gap => rw [ConsoleRec.ended_gap h]
  | idle =>
    rw [ConsoleRec.ended_of_idle h, ← h]

theorem ConsoleRec.wentQuiet_running {c : ConsoleRec} (h : c.turn = .running) (k g : Nat) :
    c.wentQuiet k g = { c.closeLive k with turn := .gap, gapDeadline := k + secTicks g } := by
  unfold ConsoleRec.wentQuiet
  rw [h]

theorem ConsoleRec.wentQuiet_other {c : ConsoleRec} (h : c.turn ≠ .running) (k g : Nat) : c.wentQuiet k g = c := by
  unfold ConsoleRec.wentQuiet
  split
  · rename_i e
    exact absurd e h
  · rfl
  · rfl

/-- A console record with the fed channel taken and the relief mark set where it is due (R65, R68); `live` says that its booth's link is LIVE. -/
def ConsoleRec.measured (c : ConsoleRec) (live : Prop) [Decidable live] (fed : Option ChannelId) (now limit : Nat) : ConsoleRec :=
  if live then (c.takeFed fed).relieved now limit else c.takeFed fed

section
variable (c : ConsoleRec) (live : Prop) [Decidable live] (fed : Option ChannelId) (now limit : Nat)

theorem ConsoleRec.takeFed_eq : c.takeFed fed =
    { c with turnChannel := if c.turn = .running ∧ c.turnChannel = none then fed else c.turnChannel } := by
  unfold ConsoleRec.takeFed
  split <;> rfl

theorem ConsoleRec.relieved_eq : c.relieved now limit = { c with reliefReached := c.reliefReached || c.reliefDue now limit } := by
  unfold ConsoleRec.relieved
  cases c.reliefDue now limit with
  | true => rw [if_pos rfl, Bool.or_true]
  | false => rw [if_neg Bool.false_ne_true, Bool.or_false]

theorem ConsoleRec.reliefDue_takeFed : (c.takeFed fed).reliefDue now limit = c.reliefDue now limit := by
  rw [ConsoleRec.takeFed_eq]
  rfl

/-- What the duty meter's part writes (R65, R68). -/
theorem ConsoleRec.measured_eq : c.measured live fed now limit = { c with
    turnChannel := if c.turn = .running ∧ c.turnChannel = none then fed else c.turnChannel
    reliefReached := c.reliefReached || (decide live && c.reliefDue now limit) } := by
  unfold ConsoleRec.measured
  by_cases up : live
  · rw [if_pos up, ConsoleRec.relieved_eq, ConsoleRec.reliefDue_takeFed, ConsoleRec.takeFed_eq, decide_eq_true up, Bool.true_and]
  · rw [if_neg up, ConsoleRec.takeFed_eq, decide_eq_false up, Bool.false_and, Bool.or_false]

theorem ConsoleRec.reliefDue_iff : c.reliefDue now limit = true ↔
    c.turn ≠ .idle ∧ c.reliefReached = false ∧ limit ≠ 0 ∧ limit * 1024 ≤ now - c.turnStart := by
  unfold ConsoleRec.reliefDue ConsoleRec.turnOpen
  rw [Bool.and_eq_true, Bool.and_eq_true, Bool.and_eq_true, bne_iff_ne, Bool.not_eq_true', decide_eq_true_eq, decide_eq_true_eq, and_assoc, and_assoc]
  rfl

end

/-! ## A console through the boundary -/

section
variable {s t : State} {b : BoothId} {k : ConsoleId} {fed : Option ChannelId}

/-- A console of booth `b` once the claimed console is live and its turn is open (R56, R65, R66). -/
def State.turnOf (s : State) (b : BoothId) (fed : Option ChannelId) (k : ConsoleId) : ConsoleRec :=
  (((s.booth b).claimedLive (s.inside b).accepted s.clock.run s.timers.mergeGap).fedAs fed).openedAt (s.booth b).cons.live s.clock.run
    (s.clock.stamp s.clock.run) k

theorem State.meteredRecord_console (s : State) (b : BoothId) (fed : Option ChannelId) (k : ConsoleId) :
    (s.meteredRecord b fed).cons.console k =
      (s.turnOf b fed k).measured ((s.booth b).link.state = .live) fed s.clock.run s.timers.relief := get_ofFn _ k

theorem State.cameOver_console (s : State) (b : BoothId) (fed : Option ChannelId) (k : ConsoleId) :
    (((s.booth b).claimedLive (s.inside b).accepted s.clock.run s.timers.mergeGap).fedAs fed).cons.console k =
      (s.booth b).cameOver (s.inside b).accepted s.clock.run s.timers.mergeGap k := get_ofFn _ k

/-- A console that neither becomes live nor stops being live keeps its turn (R56). -/
theorem State.turnOf_same (h : (s.booth b).cons.live = some k ↔ (s.booth b).cons.claimed = some k) :
    s.turnOf b fed k = (s.booth b).cons.console k := by
  have kept : ¬ ((s.booth b).cons.claimed = some k ∧ (s.booth b).cons.live ≠ some k ∧ ((((s.booth b).claimedLive (s.inside b).accepted s.clock.run
      s.timers.mergeGap).fedAs fed).cons.console k).turn = .idle) := fun e => e.2.1 (h.mpr e.1)
  refine (if_neg kept).trans ((s.cameOver_console b fed k).trans ?_)
  unfold Booth.cameOver
  by_cases same : (s.booth b).cons.live = (s.booth b).cons.claimed
  · exact if_pos same
  · rw [if_neg same]
    by_cases live : (s.booth b).cons.live = some k
    · exact absurd (live.trans (h.mp live).symm) same
    · rw [if_neg live, if_neg (fun e => live (h.mpr e))]

/-- The console that stops being live goes to GAP, or its turn ends (R56, R63, R66). -/
theorem State.turnOf_left (live : (s.booth b).cons.live = some k) (claimed : (s.booth b).cons.claimed ≠ some k) :
    s.turnOf b fed k = if (s.inside b).accepted then ((s.booth b).cons.console k).ended s.clock.run
      else ((s.booth b).cons.console k).wentQuiet s.clock.run s.timers.mergeGap := by
  refine (if_neg (fun e => claimed e.1)).trans ((s.cameOver_console b fed k).trans ?_)
  rw [Booth.cameOver, if_neg (fun e => claimed (e.symm.trans live)), if_pos live]

/-- The console that becomes live opens its turn, or goes on with it (R56, R65, R66). -/
theorem State.turnOf_came (live : (s.booth b).cons.live ≠ some k) (claimed : (s.booth b).cons.claimed = some k) :
    s.turnOf b fed k = if ((s.booth b).cons.console k).turn = .idle then
        ((s.booth b).cons.console k).opened s.clock.run (s.clock.stamp s.clock.run) fed
      else { (s.booth b).cons.console k with turn := .running, liveSince := s.clock.run } := by
  have came : (((s.booth b).claimedLive (s.inside b).accepted s.clock.run s.timers.mergeGap).fedAs fed).cons.console k =
      ((s.booth b).cons.console k).resume s.clock.run := by
    rw [State.cameOver_console, Booth.cameOver, if_neg (fun e => live (e.trans claimed)), if_neg live, if_pos claimed]
  unfold State.turnOf Booth.openedAt
  rw [came]
  unfold ConsoleRec.resume
  cases turn : ((s.booth b).cons.console k).turn with
  | idle =>
    rw [if_pos rfl]
    refine (if_pos ⟨claimed, live, ?_⟩).trans ?_
    · rfl
    · rfl
  | gap =>
    rw [if_neg (by decide : ¬ TurnState.gap = .idle)]
    refine (if_neg (fun e => ?_)).trans rfl
    exact nomatch e.2.2
  | running =>
    rw [if_neg (by decide : ¬ TurnState.running = .idle)]
    refine (if_neg (fun e => ?_)).trans rfl
    exact nomatch e.2.2

/-- The open turn of console `k` of booth `b` is marked relief-reached at the boundary (R68). -/
def State.reliefMarks (s : State) (b : BoothId) (k : ConsoleId) : Prop :=
  (s.booth b).link.state = .live ∧ ((s.booth b).cons.console k).turn ≠ .idle ∧ ((s.booth b).cons.console k).reliefReached = false
    ∧ s.timers.relief ≠ 0 ∧ s.timers.relief * 1024 ≤ s.clock.run - ((s.booth b).cons.console k).turnStart
    ∧ ¬ ((s.booth b).cons.live = some k ∧ (s.booth b).cons.claimed ≠ some k ∧ (s.inside b).accepted = true)

/-- The relief check of the boundary finds due what R68 says of the state before it. -/
theorem State.reliefDue_turnOf (s : State) (b : BoothId) (fed : Option ChannelId) (k : ConsoleId) :
    ((s.booth b).link.state = .live ∧ (s.turnOf b fed k).reliefDue s.clock.run s.timers.relief = true) ↔ s.reliefMarks b k := by
  refine and_congr_right fun _ => ?_
  rw [ConsoleRec.reliefDue_iff]
  by_cases same : (s.booth b).cons.live = some k ↔ (s.booth b).cons.claimed = some k
  · rw [State.turnOf_same same]
    exact ⟨fun ⟨turn, mark, limit, old⟩ => ⟨turn, mark, limit, old, fun e => e.2.1 (same.mp e.1)⟩,
      fun ⟨turn, mark, limit, old, _⟩ => ⟨turn, mark, limit, old⟩⟩
  · by_cases live : (s.booth b).cons.live = some k
    · have claimed : (s.booth b).cons.claimed ≠ some k := fun e => same ⟨fun _ => e, fun _ => live⟩
      rw [State.turnOf_left live claimed]
      cases passed : (s.inside b).accepted with
      | true =>
        rw [if_pos rfl]
        refine ⟨fun e => absurd (ConsoleRec.ended_turn _ _) e.1, fun e => absurd ⟨live, claimed, rfl⟩ e.2.2.2.2⟩
      | false =>
        rw [if_neg Bool.false_ne_true]
        have free : ¬ ((s.booth b).cons.live = some k ∧ (s.booth b).cons.claimed ≠ some k ∧ false = true) := fun e => nomatch e.2.2
        by_cases running : ((s.booth b).cons.console k).turn = .running
        · rw [ConsoleRec.wentQuiet_running running, running]
          exact ⟨fun ⟨_, mark, limit, old⟩ => ⟨fun e => (nomatch e), mark, limit, old, free⟩,
            fun ⟨_, mark, limit, old, _⟩ => ⟨fun e => (nomatch e), mark, limit, old⟩⟩
        · rw [ConsoleRec.wentQuiet_other running]
          exact ⟨fun ⟨turn, mark, limit, old⟩ => ⟨turn, mark, limit, old, free⟩, fun ⟨turn, mark, limit, old, _⟩ => ⟨turn, mark, limit, old⟩⟩
    · have claimed : (s.booth b).cons.claimed = some k := by
        by_contra off
        exact same ⟨fun e => absurd e live, fun e => absurd e off⟩
      rw [State.turnOf_came live claimed]
      by_cases idle : ((s.booth b).cons.console k).turn = .idle
      · rw [if_pos idle]
        refine ⟨fun ⟨_, _, limit, old⟩ => ?_, fun e => absurd idle e.1⟩
        replace old : s.timers.relief * 1024 ≤ s.clock.run - s.clock.run := old
        omega
      · rw [if_neg idle]
        exact ⟨fun ⟨_, mark, limit, old⟩ => ⟨idle, mark, limit, old, fun e => live e.1⟩,
          fun ⟨_, mark, limit, old, _⟩ => ⟨fun e => (nomatch e), mark, limit, old⟩⟩

end

end Sys2Proof.Machine
end

section
/-!
SUPPORT. What a frame boundary leaves of the consoles of a booth, told of the state before it (R56, R60, R63, R65 to R68, R82).
-/
namespace Sys2Proof.Machine

theorem ConsoleRec.ended_marked (c : ConsoleRec) (x : Option ChannelId) (y : Bool) (k : Nat) :
    ({ c with turnChannel := x, reliefReached := y } : ConsoleRec).ended k = { c.ended k with turnChannel := x, reliefReached := y } := by
  obtain ⟨_, _, _, _, _, turn, _⟩ := c
  cases turn <;> rfl

/-- Booth `b` loses a channel it owns at the boundary (R67, R82). -/
def State.loses (s : State) (b : BoothId) : Prop := (s.booth b).link.state = .live ∧ ∃ c : ChannelId, c ≠ 0 ∧ (s.channel c).defined = true
  ∧ (s.channel c).ownerBooth = some b ∧ ((s.channel c).move ≠ none ∨ ∃ (h : Schedule) (x : BoothId), (s.channel c).schedule = some h
    ∧ h.phase = .waiting ∧ (s.channel c).pairing = .valid ∧ (s.channel c).boothOf h.target = some x
    ∧ (s.booth x).link.state = .live ∧ (s.booth x).cons.claimed ≠ none)

section
variable {s t : State} {b : BoothId} {k : ConsoleId}

theorem State.losing_iff (claimed : (s.booth b).cons.claimed = some k) : (∃ c, s.losing c b k) ↔ s.loses b := by
  constructor
  · rintro ⟨c, real, defined, due, owner, link, -⟩
    refine ⟨link, c, real, defined, owner, (State.moveDue_iff.mp due).imp id ?_⟩
    rintro ⟨h, plan, waiting, valid, x, target, up⟩
    exact ⟨h, x, plan, waiting, valid, target, up⟩
  · rintro ⟨link, c, real, defined, owner, moves⟩
    refine ⟨c, real, defined, State.moveDue_iff.mpr (moves.imp id ?_), owner, link, claimed⟩
    rintro ⟨h, x, plan, waiting, valid, target, up⟩
    exact ⟨h, plan, waiting, valid, x, target, up⟩

/-- Console `k` of booth `b` after the boundary: its turn as the claimed console's coming left it, ended where the booth loses a channel; the
fed channel taken, the relief mark set where due, and the lamp. -/
structure State.ConsoleForm (s t : State) (b : BoothId) (k : ConsoleId) (z : ConsoleRec) : Prop where
  lost : (s.booth b).cons.claimed = some k → s.loses b → z = (s.turnOf b (t.booth b).role.fed k).ended s.clock.run
  kept : ¬ ((s.booth b).cons.claimed = some k ∧ s.loses b) → z = s.turnOf b (t.booth b).role.fed k
  form : (t.booth b).cons.console k = { z with
    turnChannel := if (s.turnOf b (t.booth b).role.fed k).turn = .running ∧ (s.turnOf b (t.booth b).role.fed k).turnChannel = none
      then (t.booth b).role.fed else (s.turnOf b (t.booth b).role.fed k).turnChannel
    reliefReached := ((t.booth b).cons.console k).reliefReached
    lamp := ((t.booth b).cons.console k).lamp }
  relief : ((t.booth b).cons.console k).reliefReached = true ↔
    (s.turnOf b (t.booth b).role.fed k).reliefReached = true ∨ s.reliefMarks b k
  lamp : ((t.booth b).cons.console k).lamp = (t.booth b).lampOf (t.warned b) (t.cuedOut b) k

theorem State.BoothCrossed.console (h : s.BoothCrossed t b) (k : ConsoleId) : ∃ z, s.ConsoleForm t b k z := by
  have fed : t.fedOf b = (t.booth b).role.fed := by rw [h.role]
  have kept := h.kept k
  have lost := h.lost k
  rw [fed, State.meteredRecord_console, ConsoleRec.measured_eq] at kept lost
  have marks (x : ConsoleRec) (hx : x = s.turnOf b (t.booth b).role.fed k) : (x.reliefReached || (decide ((s.booth b).link.state = .live)
      && (s.turnOf b (t.booth b).role.fed k).reliefDue s.clock.run s.timers.relief)) = true ↔
      (s.turnOf b (t.booth b).role.fed k).reliefReached = true ∨ s.reliefMarks b k := by
    rw [hx, Bool.or_eq_true, Bool.and_eq_true, decide_eq_true_eq]
    exact or_congr_right (s.reliefDue_turnOf b _ k)
  by_cases loss : ∃ c, s.losing c b k
  · obtain ⟨c, loss⟩ := loss
    have claimed : (s.booth b).cons.claimed = some k := loss.2.2.2.2.2
    have loses : s.loses b := (State.losing_iff claimed).mp ⟨c, loss⟩
    have form := lost c loss
    rw [ConsoleRec.ended_marked] at form
    refine ⟨(s.turnOf b (t.booth b).role.fed k).ended s.clock.run, fun _ _ => rfl, fun free => absurd ⟨claimed, loses⟩ free, ?_, ?_, ?_⟩
    · rw [form]
      rfl
    · rw [form]
      exact marks _ rfl
    · rw [form]
      rfl
  · have form := kept (fun c e => loss ⟨c, e⟩)
    refine ⟨s.turnOf b (t.booth b).role.fed k, fun claimed loses => absurd ((State.losing_iff claimed).mpr loses) loss, fun _ => rfl, ?_, ?_, ?_⟩
    · rw [form]
      rfl
    · rw [form]
      exact marks _ rfl
    · rw [form]
      rfl

section
variable {z : ConsoleRec} (form : s.ConsoleForm t b k z)
include form

theorem State.ConsoleForm.times : ((t.booth b).cons.console k).turn = z.turn ∧ ((t.booth b).cons.console k).liveEnd = z.liveEnd
    ∧ ((t.booth b).cons.console k).onMic = z.onMic := by
  rw [form.form]
  exact ⟨rfl, rfl, rfl⟩

/-- What a boundary leaves of a console but for its turn's end, its marks and its lamp. -/
theorem State.ConsoleForm.keeps : (t.booth b).cons.console k = { s.turnOf b (t.booth b).role.fed k with
    turn := ((t.booth b).cons.console k).turn, liveEnd := ((t.booth b).cons.console k).liveEnd, onMic := ((t.booth b).cons.console k).onMic
    turnChannel := if (s.turnOf b (t.booth b).role.fed k).turn = .running ∧ (s.turnOf b (t.booth b).role.fed k).turnChannel = none
      then (t.booth b).role.fed else (s.turnOf b (t.booth b).role.fed k).turnChannel
    reliefReached := ((t.booth b).cons.console k).reliefReached, lamp := ((t.booth b).cons.console k).lamp } := by
  have core : z = { s.turnOf b (t.booth b).role.fed k with turn := z.turn, liveEnd := z.liveEnd, onMic := z.onMic } := by
    by_cases lost : (s.booth b).cons.claimed = some k ∧ s.loses b
    · rw [form.lost lost.1 lost.2]
      exact (ConsoleRec.ended_keeps _ _).trans (by rw [ConsoleRec.ended_turn])
    · rw [form.kept lost]
  obtain ⟨turn, liveEnd, onMic⟩ := form.times
  rw [turn, liveEnd, onMic]
  refine form.form.trans ?_
  conv_lhs => rw [core]

/-- A console that becomes live (R56, R65, R66). -/
theorem State.ConsoleForm.came (live : (s.booth b).cons.live ≠ some k) (claimed : (s.booth b).cons.claimed = some k) :
    ((t.booth b).cons.console k).liveSince = s.clock.run
    ∧ (¬ s.loses b → ((t.booth b).cons.console k).turn = .running)
    ∧ (((s.booth b).cons.console k).turn = .idle → ((t.booth b).cons.console k).turnStart = s.clock.run
      ∧ ((t.booth b).cons.console k).turnStamp = (s.clock.stamp s.clock.run).1
      ∧ ((t.booth b).cons.console k).clockUnset = (s.clock.stamp s.clock.run).2 ∧ ((t.booth b).cons.console k).clockSet = false
      ∧ ((t.booth b).cons.console k).reliefReached = false ∧ ((t.booth b).cons.console k).onMic = 0
      ∧ ((t.booth b).cons.console k).turnInterpreter = ((s.booth b).cons.console k).interpreter
      ∧ ((t.booth b).cons.console k).turnChannel = (t.booth b).role.fed)
    ∧ (((s.booth b).cons.console k).turn = .gap → ((t.booth b).cons.console k).turnStart = ((s.booth b).cons.console k).turnStart
      ∧ ((t.booth b).cons.console k).turnStamp = ((s.booth b).cons.console k).turnStamp
      ∧ ((t.booth b).cons.console k).clockUnset = ((s.booth b).cons.console k).clockUnset
      ∧ ((t.booth b).cons.console k).clockSet = ((s.booth b).cons.console k).clockSet
      ∧ ((t.booth b).cons.console k).turnInterpreter = ((s.booth b).cons.console k).turnInterpreter
      ∧ ((t.booth b).cons.console k).turnChannel =
        (if ((s.booth b).cons.console k).turnChannel = none then (t.booth b).role.fed else ((s.booth b).cons.console k).turnChannel)
      ∧ (¬ s.loses b → ((t.booth b).cons.console k).onMic = ((s.booth b).cons.console k).onMic)) := by
  have keeps := form.keeps
  have kept (free : ¬ s.loses b) : z = s.turnOf b (t.booth b).role.fed k := form.kept (fun e => free e.2)
  obtain ⟨turn, -, onMic⟩ := form.times
  have relief := form.relief
  by_cases idle : ((s.booth b).cons.console k).turn = .idle
  · have opened : s.turnOf b (t.booth b).role.fed k = ((s.booth b).cons.console k).opened s.clock.run (s.clock.stamp s.clock.run)
        (t.booth b).role.fed := (State.turnOf_came live claimed).trans (if_pos idle)
    have unmarked : ((t.booth b).cons.console k).reliefReached = false := by
      rw [opened] at relief
      exact Bool.eq_false_iff.mpr fun e => (relief.mp e).elim (fun e => nomatch e) (fun marks => marks.2.1 idle)
    have silent : z.onMic = 0 := by
      by_cases loses : s.loses b
      · rw [form.lost claimed loses, opened, ConsoleRec.ended_running rfl]
        show min (2 ^ 32 - 1) (0 + (s.clock.run - s.clock.run)) = 0
        rw [Nat.sub_self]
        rfl
      · rw [kept loses, opened]
        rfl
    rw [opened] at keeps
    refine ⟨by rw [keeps]; rfl, fun free => ?_, fun _ => ⟨by rw [keeps]; rfl, by rw [keeps]; rfl, by rw [keeps]; rfl, by rw [keeps]; rfl, unmarked,
      onMic.trans silent, by rw [keeps]; rfl, ?_⟩, fun gap => nomatch idle.symm.trans gap⟩
    · rw [turn, kept free, opened]
      rfl
    · rw [keeps]
      exact ite_self _
  · have resumed : s.turnOf b (t.booth b).role.fed k = { (s.booth b).cons.console k with turn := .running, liveSince := s.clock.run } :=
      (State.turnOf_came live claimed).trans (if_neg idle)
    rw [resumed] at keeps
    refine ⟨by rw [keeps], fun free => ?_, fun e => absurd e idle, fun _ => ⟨by rw [keeps], by rw [keeps], by rw [keeps], by rw [keeps],
      by rw [keeps], ?_, fun free => ?_⟩⟩
    · rw [turn, kept free, resumed]
    · rw [keeps]
      exact if_congr (and_iff_right rfl) rfl rfl
    · rw [onMic, kept free, resumed]

/-- The live console of a booth that loses its channel (R67, R82). -/
theorem State.ConsoleForm.loses (claimed : (s.booth b).cons.claimed = some k) (loses : s.loses b) :
    ((t.booth b).cons.console k).turn = .idle
    ∧ ((s.booth b).cons.live = some k → ((s.booth b).cons.console k).turn = .running → ((t.booth b).cons.console k).liveEnd = s.clock.run
      ∧ ((t.booth b).cons.console k).onMic
        = min (2 ^ 32 - 1) (((s.booth b).cons.console k).onMic + (s.clock.run - ((s.booth b).cons.console k).liveSince)))
    ∧ ((s.booth b).cons.live ≠ some k → ((t.booth b).cons.console k).liveEnd = s.clock.run
      ∧ ((t.booth b).cons.console k).onMic
        = if ((s.booth b).cons.console k).turn = .idle then 0 else min (2 ^ 32 - 1) ((s.booth b).cons.console k).onMic) := by
  obtain ⟨turn, liveEnd, onMic⟩ := form.times
  have ended := form.lost claimed loses
  rw [turn, liveEnd, onMic, ended]
  refine ⟨ConsoleRec.ended_turn _ _, fun live running => ?_, fun live => ?_⟩
  · rw [State.turnOf_same ⟨fun _ => claimed, fun _ => live⟩, ConsoleRec.ended_running running]
    exact ⟨rfl, rfl⟩
  · rw [State.turnOf_came live claimed]
    by_cases idle : ((s.booth b).cons.console k).turn = .idle
    · rw [if_pos idle, if_pos idle, ConsoleRec.ended_running rfl]
      refine ⟨rfl, ?_⟩
      show min (2 ^ 32 - 1) (0 + (s.clock.run - s.clock.run)) = 0
      rw [Nat.sub_self]
      rfl
    · rw [if_neg idle, if_neg idle, ConsoleRec.ended_running rfl]
      refine ⟨rfl, ?_⟩
      show min (2 ^ 32 - 1) (((s.booth b).cons.console k).onMic + (s.clock.run - s.clock.run)) = _
      rw [Nat.sub_self, Nat.add_zero]

/-- A console that neither becomes live nor stops being live (R56). -/
theorem State.ConsoleForm.same (same : (s.booth b).cons.live = some k ↔ (s.booth b).cons.claimed = some k) :
    (t.booth b).cons.console k = { (s.booth b).cons.console k with
        turn := ((t.booth b).cons.console k).turn, liveEnd := ((t.booth b).cons.console k).liveEnd, onMic := ((t.booth b).cons.console k).onMic
        lamp := ((t.booth b).cons.console k).lamp, reliefReached := ((t.booth b).cons.console k).reliefReached
        turnChannel := if ((s.booth b).cons.console k).turn = .running ∧ ((s.booth b).cons.console k).turnChannel = none
          then (t.booth b).role.fed else ((s.booth b).cons.console k).turnChannel }
    ∧ (¬ ((s.booth b).cons.claimed = some k ∧ s.loses b) → ((t.booth b).cons.console k).turn = ((s.booth b).cons.console k).turn
      ∧ ((t.booth b).cons.console k).liveEnd = ((s.booth b).cons.console k).liveEnd
      ∧ ((t.booth b).cons.console k).onMic = ((s.booth b).cons.console k).onMic) := by
  have keeps := form.keeps
  obtain ⟨turn, liveEnd, onMic⟩ := form.times
  rw [State.turnOf_same same] at keeps
  refine ⟨keeps, fun free => ?_⟩
  rw [turn, liveEnd, onMic, form.kept free, State.turnOf_same same]
  exact ⟨rfl, rfl, rfl⟩

/-- The console that stops being live (R56, R63, R66). -/
theorem State.ConsoleForm.left (live : (s.booth b).cons.live = some k) (claimed : (s.booth b).cons.claimed ≠ some k) :
    (((s.booth b).cons.console k).turn = .running → (s.inside b).accepted = false →
      ((t.booth b).cons.console k).turn = .gap ∧ ((t.booth b).cons.console k).liveEnd = s.clock.run
      ∧ ((t.booth b).cons.console k).onMic
        = min (2 ^ 32 - 1) (((s.booth b).cons.console k).onMic + (s.clock.run - ((s.booth b).cons.console k).liveSince))
      ∧ ((t.booth b).cons.console k).gapDeadline = s.clock.run + s.timers.mergeGap * 1024)
    ∧ ((s.inside b).accepted = true → ((t.booth b).cons.console k).turn = .idle
      ∧ (((s.booth b).cons.console k).turn = .running → ((t.booth b).cons.console k).liveEnd = s.clock.run
        ∧ ((t.booth b).cons.console k).onMic
          = min (2 ^ 32 - 1) (((s.booth b).cons.console k).onMic + (s.clock.run - ((s.booth b).cons.console k).liveSince)))) := by
  have keeps := form.keeps
  obtain ⟨turn, liveEnd, onMic⟩ := form.times
  have moved := State.turnOf_left (fed := (t.booth b).role.fed) live claimed
  have kept := form.kept (fun e => claimed e.1)
  refine ⟨fun running apart => ?_, fun passed => ?_⟩
  · rw [apart, if_neg Bool.false_ne_true, ConsoleRec.wentQuiet_running running] at moved
    rw [moved] at kept keeps
    refine ⟨turn.trans (by rw [kept]), liveEnd.trans (by rw [kept]; rfl), onMic.trans (by rw [kept]; rfl), ?_⟩
    rw [keeps]
    rfl
  · rw [passed, if_pos rfl] at moved
    rw [moved] at kept
    refine ⟨turn.trans (by rw [kept]; exact ConsoleRec.ended_turn _ _), fun running => ?_⟩
    rw [ConsoleRec.ended_running running] at kept
    exact ⟨liveEnd.trans (by rw [kept]; rfl), onMic.trans (by rw [kept]; rfl)⟩

/-- The relief mark of a console with an open turn (R68). -/
theorem State.ConsoleForm.marks (turn : ((s.booth b).cons.console k).turn ≠ .idle) : ((t.booth b).cons.console k).reliefReached = true ↔
    ((s.booth b).cons.console k).reliefReached = true ∨ s.reliefMarks b k := by
  have before : (s.turnOf b (t.booth b).role.fed k).reliefReached = ((s.booth b).cons.console k).reliefReached := by
    by_cases same : (s.booth b).cons.live = some k ↔ (s.booth b).cons.claimed = some k
    · rw [State.turnOf_same same]
    · by_cases live : (s.booth b).cons.live = some k
      · rw [State.turnOf_left live (fun e => same ⟨fun _ => e, fun _ => live⟩)]
        split
        · rw [ConsoleRec.ended_keeps]
        · by_cases running : ((s.booth b).cons.console k).turn = .running
          · rw [ConsoleRec.wentQuiet_running running]
            rfl
          · rw [ConsoleRec.wentQuiet_other running]
      · have claimed : (s.booth b).cons.claimed = some k := by
          by_contra off
          exact same ⟨fun e => absurd e live, fun e => absurd e off⟩
        rw [State.turnOf_came live claimed, if_neg turn]
  rw [form.relief, before]

end

end

end Sys2Proof.Machine
end

section
/-!
SUPPORT. The tally log, its header and its notice, apart from the order slots: what records handed leave of them depends on nothing else
(R67, R163, R164).
-/
namespace Sys2Proof.Machine

/-- Two states with the same log, header and LOG notice, and the same memory but for the order slots. -/
structure State.LogAs (x y : State) : Prop where
  log : x.log = y.log
  header : x.header = y.header
  pending : x.isPending .log = y.isPending .log
  mem (a : Nat) : a < 0x200 ∨ 0xA00 ≤ a → x.mem.read8 a = y.mem.read8 a
  clock : x.clock = y.clock
  sound : x.memOk ∧ y.memOk

section
variable {x y z : State}

theorem State.logAs_refl (law : x.memOk) : x.LogAs x := ⟨rfl, rfl, rfl, fun _ _ => rfl, rfl, law, law⟩

theorem State.LogAs.readCount (h : x.LogAs y) : x.readCount = y.readCount := by
  unfold State.readCount Memory.read16
  rw [h.mem _ (by omega), h.mem _ (by omega)]

theorem State.LogAs.unread (h : x.LogAs y) : x.unread = y.unread := by
  unfold State.unread
  rw [h.log, h.readCount]

theorem State.LogAs.logBlocked (h : x.LogAs y) : x.logBlocked = y.logBlocked := by
  unfold State.logBlocked State.logRoom
  rw [h.log, h.unread]

/-- Other fields changed on the left. -/
theorem State.LogAs.left (h : x.LogAs y) {l : List StateField} (only : x.onlyIn l z) (apart : ∀ f ∈ [StateField.header, .mem, .log, .clock], f ∉ l)
    {k : List Notice} (raises : x.raises k z) (quiet : Notice.log ∉ k) : z.LogAs y := by
  have mem : z.mem = x.mem := only .mem (apart _ (by decide))
  refine ⟨(only .log (apart _ (by decide))).trans h.log, (only .header (apart _ (by decide))).trans h.header,
    ((raises .log).2 quiet).trans h.pending, fun a ha => ?_, (only .clock (apart _ (by decide))).trans h.clock, ?_, h.sound.2⟩
  · rw [mem]
    exact h.mem a ha
  · rw [State.memOk, mem]
    exact h.sound.1

theorem State.LogAs.bumpHeader (h : x.LogAs y) : x.bumpHeader.LogAs y.bumpHeader :=
  ⟨h.log, congrArg (fun r : Header => { r with changes := r.changes + 2 }) h.header, h.pending, h.mem, h.clock, h.sound⟩

theorem State.LogAs.raise (h : x.LogAs y) : (x.raise .log).LogAs (y.raise .log) :=
  ⟨h.log, h.header, by rw [State.raise_isPending, State.raise_isPending], h.mem, h.clock, h.sound⟩

theorem State.LogAs.setLog (h : x.LogAs y) (f : TallyLog → TallyLog) : State.LogAs { x with log := f x.log } { y with log := f y.log } :=
  ⟨congrArg f h.log, h.header, h.pending, h.mem, h.clock, h.sound⟩

theorem State.LogAs.write16 (h : x.LogAs y) (a : Nat) (v : Half) :
    State.LogAs { x with mem := x.mem.write16 a v } { y with mem := y.mem.write16 a v } := by
  refine ⟨h.log, h.header, h.pending, fun b hb => ?_, h.clock, Memory.wf_write16 _ _ h.sound.1, Memory.wf_write16 _ _ h.sound.2⟩
  rw [Memory.read8_write16 h.sound.1, Memory.read8_write16 h.sound.2, h.mem b hb]

theorem State.LogAs.makeRoom (h : x.LogAs y) : x.makeRoom.LogAs y.makeRoom := by
  have full : x.overwrites ↔ y.overwrites := by
    unfold State.overwrites
    rw [h.log, h.unread]
  by_cases full' : x.overwrites
  · rw [State.makeRoom_of_full full', State.makeRoom_of_full (full.mp full'), h.readCount]
    exact State.LogAs.bumpHeader ((h.write16 0x100 _).setLog (fun l => { l with lost := satAdd 32 l.lost 1 }))
  · rw [State.makeRoom_of_room full', State.makeRoom_of_room (fun e => full' (full.mpr e))]
    exact h

/-- A record put in its place, room having been made (R163). -/
def State.tallied (u : State) (r : TallyRecord) : State :=
  ({ u with
      mem := u.mem.writeBytes (tallyBase u.log.writeCount)
        (tallyBytes (u.mem.read16 (tallyBase u.log.writeCount) + 2) u.log.writeCount u.clock.run r)
      log := { u.log with writeCount := u.log.writeCount + 1 } } : State).bumpHeader

theorem State.writeTally_tallied (x : State) (r : TallyRecord) :
    x.writeTally r = if x.makeRoom.unread = 767 then (x.makeRoom.tallied r).raise .log else x.makeRoom.tallied r := by
  unfold State.writeTally State.tallied
  generalize x.makeRoom = u
  rfl

/-- What a record put in its place leaves of the log, the header, the notices, the memory and the clock. -/
theorem State.tallied_facts (u : State) (r : TallyRecord) :
    (u.tallied r).log = { u.log with writeCount := u.log.writeCount + 1 }
    ∧ (u.tallied r).header = { u.header with changes := u.header.changes + 2 } ∧ (u.tallied r).notices = u.notices
    ∧ (u.tallied r).mem = u.mem.writeBytes (tallyBase u.log.writeCount)
        (tallyBytes (u.mem.read16 (tallyBase u.log.writeCount) + 2) u.log.writeCount u.clock.run r)
    ∧ (u.tallied r).clock = u.clock := by
  unfold State.tallied State.bumpHeader
  exact ⟨rfl, rfl, rfl, rfl, rfl⟩

theorem State.LogAs.tallied (h : x.LogAs y) (r : TallyRecord) : (x.tallied r).LogAs (y.tallied r) := by
  have place := tallyBase_bounds y.log.writeCount
  have word : x.mem.read16 (tallyBase y.log.writeCount) = y.mem.read16 (tallyBase y.log.writeCount) := by
    unfold Memory.read16
    rw [h.mem _ (by omega), h.mem _ (by omega)]
  obtain ⟨logX, headerX, noticesX, memX, clockX⟩ := x.tallied_facts r
  obtain ⟨logY, headerY, noticesY, memY, clockY⟩ := y.tallied_facts r
  refine ⟨by rw [logX, logY, h.log], by rw [headerX, headerY, h.header], ?_, fun a ha => ?_, by rw [clockX, clockY, h.clock], ?_, ?_⟩
  · unfold State.isPending
    rw [noticesX, noticesY]
    exact h.pending
  · rw [memX, memY, h.log, h.clock, word, Memory.read8_writeBytes _ _ _ h.sound.1, Memory.read8_writeBytes _ _ _ h.sound.2, h.mem a ha]
  · rw [State.memOk, memX]
    exact Memory.wf_writeBytes _ _ h.sound.1
  · rw [State.memOk, memY]
    exact Memory.wf_writeBytes _ _ h.sound.2

theorem State.LogAs.writeTally (h : x.LogAs y) (r : TallyRecord) : (x.writeTally r).LogAs (y.writeTally r) := by
  have room := h.makeRoom
  rw [State.writeTally_tallied, State.writeTally_tallied, room.unread]
  split
  · exact (room.tallied r).raise
  · exact room.tallied r

theorem State.LogAs.waitTally (h : x.LogAs y) (o : WaitOwner) (r : TallyRecord) : (x.waitTally o r).LogAs (y.waitTally o r) := by
  unfold State.waitTally
  dsimp only
  have waits := h.setLog (fun l => { l with waiting := l.waiting ++ [{ owner := o, record := r }] })
  rw [h.log]
  rw [h.log] at waits
  split
  · exact waits.raise
  · exact waits

theorem State.LogAs.handTurn (h : x.LogAs y) (r : TurnRecord) : (x.handTurn r).LogAs (y.handTurn r) := by
  unfold State.handTurn
  dsimp only
  rw [h.log]
  split
  · have merged := h.setLog (fun l => { l with waiting := mergeWaiting (WaitOwner.console r.booth r.console) r l.waiting })
    rw [h.log] at merged
    exact merged
  · unfold State.handTally
    rw [h.logBlocked]
    split
    · exact h.waitTally _ _
    · exact h.writeTally _

end

end Sys2Proof.Machine
end

section
/-!
SUPPORT. The TURN records that a frame boundary hands to the tally log writer (R63, R67, R82).
-/
namespace Sys2Proof.Machine

/-! ## Records that may be handed -/

/-- A record handed, if there is one. -/
def State.handAny (x : State) : Option TurnRecord → State
  | some r => x.handTurn r
  | none => x

theorem foldl_handTurn {ι : Type} (f : ι → Option TurnRecord) (l : List ι) (x : State) :
    (l.filterMap f).foldl State.handTurn x = l.foldl (fun y i => y.handAny (f i)) x := by
  induction l generalizing x with
  | nil => rfl
  | cons i l ih =>
    rw [List.foldl_cons, ← ih, List.filterMap_cons]
    cases f i <;> rfl

/-- The record of an open turn that ends. -/
def ConsoleRec.lastRecord (c : ConsoleRec) (b : BoothId) (n : ConsoleId) (cause : TurnEnd) (k : Nat) : Option TurnRecord :=
  if c.turn = .idle then none else some (c.finalRecord b n cause k)

section
variable {x y z : State}

theorem State.LogAs.handAny (h : x.LogAs y) (o : Option TurnRecord) : (x.handAny o).LogAs (y.handAny o) := by
  cases o with
  | none => exact h
  | some r => exact h.handTurn r

theorem State.handFinal_eq (x : State) (c : ConsoleRec) (b : BoothId) (n : ConsoleId) (cause : TurnEnd) (k : Nat) :
    x.handFinal c b n cause k = x.handAny (c.lastRecord b n cause k) := by
  unfold State.handFinal ConsoleRec.lastRecord
  split <;> rfl

theorem State.LogAs.endTurn (h : x.LogAs y) (b : BoothId) (n : ConsoleId) (cause : TurnEnd) :
    (x.endTurn b n cause).LogAs (y.handAny (((x.booth b).cons.console n).lastRecord b n cause x.clock.run)) := by
  have handed := h.handAny (((x.booth b).cons.console n).lastRecord b n cause x.clock.run)
  rw [State.endTurn_eq, State.turnHanded, State.handFinal_eq]
  generalize x.handAny _ = w at handed
  exact ⟨handed.log, handed.header, handed.pending, handed.mem, handed.clock, handed.sound⟩

end

/-! ## The claimed console becomes live -/

/-- The record of the turn that ends as a claim made by an acceptance becomes live (R63, R67). -/
def State.passRecord (s : State) (b : BoothId) : Option TurnRecord :=
  (s.booth b).cons.live.bind (fun m =>
    if (s.booth b).cons.claimed ≠ some m ∧ (s.inside b).accepted = true ∧ ((s.booth b).cons.console m).turn ≠ .idle
    then some (((s.booth b).cons.console m).finalRecord b m .handover s.clock.run) else none)

section
variable {x y s : State} {b : BoothId}

theorem State.passRecord_of {m : ConsoleId} (live : (s.booth b).cons.live = some m) : s.passRecord b =
    if (s.booth b).cons.claimed ≠ some m ∧ (s.inside b).accepted = true then
      ((s.booth b).cons.console m).lastRecord b m .handover s.clock.run else none := by
  unfold State.passRecord ConsoleRec.lastRecord
  rw [live, Option.bind_some]
  by_cases passed : (s.booth b).cons.claimed ≠ some m ∧ (s.inside b).accepted = true
  · rw [if_pos passed]
    by_cases idle : ((s.booth b).cons.console m).turn = .idle
    · rw [if_pos idle, if_neg (fun e => e.2.2 idle)]
    · rw [if_neg idle, if_pos ⟨passed.1, passed.2, idle⟩]
  · rw [if_neg passed, if_neg (fun e => passed ⟨e.1, e.2.1⟩)]

theorem State.LogAs.quitLive (h : x.LogAs y) (b : BoothId) (moves : (x.booth b).cons.live ≠ (x.booth b).cons.claimed) :
    (x.quitLive b).LogAs (y.handAny (x.passRecord b)) := by
  cases live : (x.booth b).cons.live with
  | none =>
    rw [State.quitLive_of_none live, State.passRecord, live]
    exact h
  | some m =>
    have other : (x.booth b).cons.claimed ≠ some m := fun e => moves (live.trans e.symm)
    rw [State.quitLive_of_some live, State.passRecord_of live]
    cases passed : (x.inside b).accepted with
    | true =>
      rw [if_pos rfl, if_pos ⟨other, rfl⟩]
      exact h.endTurn b m .handover
    | false =>
      rw [if_neg Bool.false_ne_true, if_neg (fun e => (nomatch e.2))]
      exact h.left (x.updConsole_only b m _) (by decide) (State.raises_of_notices (l := []) rfl) (by decide)

theorem State.LogAs.changeLive (h : x.LogAs y) (b : BoothId) : (x.changeLive b).LogAs (y.handAny (x.passRecord b)) := by
  have inner {w v : State} (g : w.LogAs v) : (w.updInner b (fun i => { i with accepted := false })).LogAs v :=
    g.left (w.updInner_only b _) (by decide) (State.raises_of_notices (l := []) rfl) (by decide)
  by_cases same : (x.booth b).cons.live = (x.booth b).cons.claimed
  · have silent : x.passRecord b = none := by
      cases live : (x.booth b).cons.live with
      | none => rw [State.passRecord, live, Option.bind_none]
      | some m => rw [State.passRecord_of live, if_neg (fun e => e.1 (same.symm.trans live))]
    rw [State.changeLive_of_same same, silent]
    exact inner h
  · have set : (x.quitLive b).onlyIn [.booths] (x.claimLive b) := (x.quitLive b).updCons_only b _
    have quit : (x.claimLive b).LogAs (y.handAny (x.passRecord b)) :=
      (h.quitLive b same).left set (by decide) (State.raises_of_notices (l := []) (set .notices (by decide))) (by decide)
    generalize y.handAny (x.passRecord b) = v at quit
    cases claimed : (x.booth b).cons.claimed with
    | none =>
      rw [State.changeLive_of_none same claimed]
      exact inner (quit.left ((x.claimLive b).goQuiet_only b) (by decide)
        (State.raises_of_notices (l := []) ((x.claimLive b).goQuiet_only b .notices (by decide))) (by decide))
    | some n =>
      rw [State.changeLive_of_some same claimed]
      have resumed : ((x.claimLive b).updConsole b n (fun c => c.resume x.clock.run)).LogAs v :=
        quit.left ((x.claimLive b).updConsole_only b n _) (by decide)
          (State.raises_of_notices (l := []) ((x.claimLive b).updConsole_only b n _ .notices (by decide))) (by decide)
      generalize (x.claimLive b).updConsole b n (fun c => c.resume x.clock.run) = w at resumed
      refine inner ?_
      split
      · exact resumed.left (w.raise_only .handover) (by decide) (w.raises_raise .handover) (by decide)
      · exact resumed

/-- The records handed as the claimed consoles become live. -/
theorem State.livened_log (law : s.memOk) : s.livened.LogAs (((List.finRange 24).filterMap s.passRecord).foldl State.handTurn s) := by
  rw [foldl_handTurn]
  have fold : ∀ (l : List BoothId) (x y : State), l.Nodup → x.LogAs y → x.clock = s.clock →
      (∀ b ∈ l, x.booth b = s.booth b ∧ x.inside b = s.inside b) →
      (x.each l State.changeLive).LogAs (l.foldl (fun y b => y.handAny (s.passRecord b)) y) := by
    intro l
    induction l with
    | nil => exact fun _ _ _ h _ _ => h
    | cons b l ih =>
      intro x y distinct h clock same
      obtain ⟨fresh, distinct⟩ := List.nodup_cons.mp distinct
      obtain ⟨booth, inside⟩ := same b (List.mem_cons_self ..)
      have record : x.passRecord b = s.passRecord b := by
        unfold State.passRecord
        rw [booth, inside, clock]
      have handed := h.changeLive b
      rw [record] at handed
      refine ih (x.changeLive b) _ distinct handed ((x.changeLive_only b .clock (by decide)).trans clock) (fun d hd => ?_)
      have other : d ≠ b := fun e => fresh (e ▸ hd)
      rw [State.changeLive_claimed, if_neg other, State.changeLive_inside, if_neg other]
      exact same d (List.mem_cons_of_mem _ hd)
  exact fold boothList s s (List.nodup_finRange 24) (State.logAs_refl law) rfl (fun _ _ => ⟨rfl, rfl⟩)

end

end Sys2Proof.Machine
end

section
/-!
SUPPORT. The tally log over a whole frame boundary (R63, R67, R82).
-/
namespace Sys2Proof.Machine

/-! ## The router's part leaves the log -/

section
variable {s t u x y z : State} {b : BoothId} {c : ChannelId} {n : ConsoleId}

/-- Order slots, and fields the log does not ask for, changed on the left. -/
theorem State.LogAs.slots (h : x.LogAs y) {l : List StateField} (only : x.onlyIn l z) (apart : ∀ f ∈ [StateField.header, .log, .clock], f ∉ l)
    {k : List Notice} (raises : x.raises k z) (quiet : Notice.log ∉ k) (law : z.memOk)
    (mem : ∀ a : Nat, a < 0x200 ∨ 0xA00 ≤ a → z.mem.read8 a = x.mem.read8 a) : z.LogAs y :=
  ⟨(only .log (apart _ (by decide))).trans h.log, (only .header (apart _ (by decide))).trans h.header,
    ((raises .log).2 quiet).trans h.pending, fun a ha => (mem a ha).trans (h.mem a ha), (only .clock (apart _ (by decide))).trans h.clock,
    law, h.sound.2⟩

/-- A standing order's end leaves the memory outside the order slots. -/
theorem State.endOwner_memory (law : s.memOk) (o : StandingOwner) (r : Result) : (s.endOwner o r).memOk
    ∧ ∀ a : Nat, a < 0x200 ∨ 0xA00 ≤ a → (s.endOwner o r).mem.read8 a = s.mem.read8 a := by
  cases h : s.standingOf o with
  | none =>
    rw [State.endOwner_of_none h]
    exact ⟨law, fun _ _ => rfl⟩
  | some x =>
    rw [State.endOwner_of_some h]
    refine ⟨State.complete_wf _ _ _ law, fun a ha => ?_⟩
    refine ((s.endStanding_facts x r).2 law).2 a fun inside => ?_
    have := resultByte_slots inside
    omega

theorem State.moveOwner_memory (law : t.memOk) (c : ChannelId) : (t.moveOwner c).memOk
    ∧ ∀ a : Nat, a < 0x200 ∨ 0xA00 ≤ a → (t.moveOwner c).mem.read8 a = t.mem.read8 a := by
  cases h : t.movesTo (t.channel c) with
  | none =>
    rw [State.moveOwner_of_none h]
    exact ⟨law, fun _ _ => rfl⟩
  | some r =>
    rw [State.moveOwner_of_some h]
    split
    · obtain ⟨w, hw⟩ : ∃ w, w = ((t.updChannel c (fun ch => ch.movedTo r)).raise .handover).rescheduled c none := ⟨_, rfl⟩
      have mem : w.mem = t.mem := by
        rw [hw]
        rfl
      rw [State.endSchedule_eq, ← hw, ← mem]
      exact State.endOwner_memory (s := w) (by rw [State.memOk, mem]; exact law) _ _
    · exact ⟨law, fun _ _ => rfl⟩

theorem State.routeChannel_memory (law : t.memOk) (c : ChannelId) : (t.routeChannel c).memOk
    ∧ ∀ a : Nat, a < 0x200 ∨ 0xA00 ≤ a → (t.routeChannel c).mem.read8 a = t.mem.read8 a := by
  unfold State.routeChannel
  split
  · rw [State.memOk, (t.moveOwner c).chooseSource_only c .mem (by decide)]
    exact State.moveOwner_memory law c
  · exact ⟨law, fun _ _ => rfl⟩

theorem State.LogAs.routedAll (h : x.LogAs y) : x.routedAll.LogAs y := by
  refine State.each_induct (P := fun t => t.LogAs y) (fun t c _ g => ?_) h
  obtain ⟨law, mem⟩ := State.routeChannel_memory g.sound.1 c
  exact g.slots (t.routeChannel_only c) (by decide) (t.routeChannel_raises c) (by decide) law mem

theorem State.LogAs.meteredPart (h : s.livened.LogAs y) : s.meteredPart.LogAs y := by
  have bracketed := h.routedAll.left (State.bracketAll_only _ s) (by decide)
    (State.raises_of_notices (l := []) (State.bracketAll_only _ s .notices (by decide))) (by decide)
  have fed := bracketed.left (State.fedAll_only _) (by decide) (State.raises_of_notices (l := []) (State.fedAll_only _ .notices (by decide))) (by decide)
  exact State.LogAs.left fed (State.meterAll_only s.routerPart s) (by decide)
    (State.raises_each (State.meterBooth_raises s) boothList s.routerPart) (by decide)

/-! ## The turns of former owners -/

/-- The record that a channel's loss hands, of a booth record of `u` (R67, R82). -/
def State.lossRecord (before u : State) (c : ChannelId) : Option TurnRecord :=
  (before.lossAt u c).bind (fun x => ((u.booth x.1).cons.console x.2).lastRecord x.1 x.2 .handover u.clock.run)

theorem State.LogAs.endFormers (h : u.LogAs y) (before : State)
    (alone : ∀ (c d : ChannelId) (b : BoothId) (n m : ConsoleId), before.lossAt u c = some (b, n) → before.lossAt u d = some (b, m) → c = d) :
    (u.endFormers before).LogAs (spokenChannels.foldl (fun y c => y.handAny (before.lossRecord u c)) y) := by
  have fold : ∀ (l : List ChannelId) (t y : State) (p : BoothId → Prop), l.Nodup → u.FormersOf t p →
      (∀ b c n, p b → c ∈ l → before.lossAt u c ≠ some (b, n)) → t.LogAs y →
      (t.each l (State.endFormer before)).LogAs (l.foldl (fun y c => y.handAny (before.lossRecord u c)) y) := by
    intro l
    induction l with
    | nil => exact fun _ _ _ _ _ _ h => h
    | cons c l ih =>
      intro t y p distinct formers free h
      obtain ⟨fresh, distinct⟩ := List.nodup_cons.mp distinct
      refine ih (State.endFormer before t c) _ _ distinct (formers.endFormer before c) (fun b d n ended hd => ?_) ?_
      · rintro loss
        rcases ended with was | ⟨m, now⟩
        · exact free b d n was (List.mem_cons_of_mem _ hd) loss
        · exact fresh (alone c d b m n now loss ▸ hd)
      · show State.LogAs _ (y.handAny (before.lossRecord u c))
        cases loss : before.lossAt u c with
        | none =>
          rw [State.endFormer_of_none ((formers.lossAt before c).trans loss), State.lossRecord, loss]
          exact h
        | some x =>
          obtain ⟨b, n⟩ := x
          have booth : t.booth b = u.booth b := formers.kept b (fun was => free b c n was (List.mem_cons_self ..) loss)
          have handed := h.endTurn b n .handover
          rw [booth, formers.clock] at handed
          rw [State.endFormer_of_some ((formers.lossAt before c).trans loss), State.lossRecord, loss, Option.bind_some]
          exact handed
  exact fold spokenChannels u y _ spokenChannels_nodup u.formersOf_refl (fun _ _ _ e => e.elim) h

/-- The record of a turn is the same once it has ended, whatever the lamp. -/
theorem ConsoleRec.finalRecord_ended (c : ConsoleRec) (l : ConsoleLamp) (b : BoothId) (n : ConsoleId) (cause : TurnEnd) (k : Nat) :
    ((c.ended k).withLamp l).finalRecord b n cause k = c.finalRecord b n cause k := by
  obtain ⟨_, _, _, _, _, turn, _⟩ := c
  cases turn <;> rfl

/-- The record of the turn that the loss of channel `c` ends, with what the boundary has left in its fields (R67, R82). -/
def State.moveRecord (s t : State) (c : ChannelId) : Option TurnRecord :=
  (s.channel c).ownerBooth.bind (fun b => (s.booth b).cons.claimed.bind (fun n =>
    if c ≠ 0 ∧ (s.channel c).defined = true ∧ s.moveDue c = true ∧ (s.booth b).link.state = .live
      ∧ ((s.booth b).cons.live ≠ some n ∨ ((s.booth b).cons.console n).turn ≠ .idle)
    then some (((t.booth b).cons.console n).finalRecord b n .handover s.clock.run) else none))

theorem State.handedOver_eq (s t : State) : s.handedOver t =
    (List.finRange 24).filterMap s.passRecord ++ (List.finRange 32).filterMap (s.moveRecord t) := rfl

theorem State.turnOf_open (claimed : (s.booth b).cons.claimed = some n) (fed : Option ChannelId) : (s.turnOf b fed n).turn ≠ .idle ↔
    (s.booth b).cons.live ≠ some n ∨ ((s.booth b).cons.console n).turn ≠ .idle := by
  by_cases live : (s.booth b).cons.live = some n
  · rw [State.turnOf_same ⟨fun _ => claimed, fun _ => live⟩]
    exact ⟨.inr, fun e => e.resolve_left (fun off => off live)⟩
  · rw [State.turnOf_came live claimed]
    refine ⟨fun _ => .inl live, fun _ => ?_⟩
    split
    · exact fun e => nomatch e
    · exact fun e => nomatch e

/-- The record that a loss hands is that of the turn's fields as the boundary leaves them. -/
theorem State.lossRecord_moved (real : c ≠ 0) (crossed : ∀ b, s.BoothCrossed t b)
    (fed : ∀ b, t.fedOf b = s.routerPart.fedOf b) : s.livened.lossRecord s.meteredPart c = s.moveRecord t c := by
  have seats := s.meteredPart_seats
  cases loss : s.livened.lossAt s.meteredPart c with
  | none =>
    rw [State.lossRecord, loss, Option.bind_none, State.moveRecord]
    symm
    cases owner : (s.channel c).ownerBooth with
    | none => rfl
    | some b =>
      rw [Option.bind_some]
      cases claimed : (s.booth b).cons.claimed with
      | none => rfl
      | some n =>
        rw [Option.bind_some]
        refine if_neg fun ⟨_, defined, due, link, _⟩ => ?_
        exact nomatch loss.symm.trans ((seats.lossAt real).mpr ⟨real, defined, due, owner, link, claimed⟩)
  | some x =>
    obtain ⟨b, n⟩ := x
    have losing := (seats.lossAt real).mp loss
    obtain ⟨-, defined, due, owner, link, claimed⟩ := losing
    obtain ⟨z, record⟩ := s.meteredPart_booth b
    have console : (s.meteredPart.booth b).cons.console n = (s.meteredRecord b (t.fedOf b)).cons.console n := by
      rw [record, fed]
    have turn : ((s.meteredRecord b (t.fedOf b)).cons.console n).turn = (s.turnOf b (t.fedOf b) n).turn := by
      rw [State.meteredRecord_console, ConsoleRec.measured_eq]
    have clock : s.meteredPart.clock = s.clock := s.meteredPart_only .clock (by decide)
    rw [State.lossRecord, loss, Option.bind_some, State.moveRecord, owner, Option.bind_some, claimed, Option.bind_some]
    rw [(crossed b).lost n c ⟨real, defined, due, owner, link, claimed⟩, ConsoleRec.finalRecord_ended]
    rw [console, clock, ConsoleRec.lastRecord, turn]
    have opens := State.turnOf_open claimed (t.fedOf b)
    by_cases idle : (s.turnOf b (t.fedOf b) n).turn = .idle
    · rw [if_pos idle, if_neg (fun e => opens.mpr e.2.2.2.2 idle)]
    · rw [if_neg idle, if_pos ⟨real, defined, due, link, opens.mp idle⟩]

end

end Sys2Proof.Machine
end

section
/-!
SUPPORT. The claimed consoles become live at a frame boundary (R56, R60, R61, R63, R65 to R68, R82, O35).
-/
namespace Sys2Proof.Machine

/-! ## The records handed -/

section
variable {s t u x y z : State} {b : BoothId} {c : ChannelId} {n k : ConsoleId}

theorem State.LogAs.trans (h : x.LogAs y) (g : y.LogAs z) : x.LogAs z :=
  ⟨h.log.trans g.log, h.header.trans g.header, h.pending.trans g.pending, fun a ha => (h.mem a ha).trans (g.mem a ha), h.clock.trans g.clock,
    h.sound.1, g.sound.2⟩

theorem State.LogAs.foldl (l : List TurnRecord) : ∀ {x y : State}, x.LogAs y → (l.foldl State.handTurn x).LogAs (l.foldl State.handTurn y) := by
  induction l with
  | nil => exact fun h => h
  | cons r l ih => exact fun h => ih (h.handTurn r)

/-- What a booth feeds after the boundary's work is what the router wrote (R79). -/
theorem State.boundaryWorked_fed (s : State) (b : BoothId) : s.boundaryWorked.fedOf b = s.routerPart.fedOf b := by
  have crossed := s.boundaryWorked_crossed b
  obtain ⟨w, router⟩ := s.routerPart_booth b
  refine State.fedOf_same (s.boundaryWorked_channels.trans s.routerPart_channels.symm) ?_ ?_
  · rw [crossed.role, router]
    rfl
  · rw [crossed.link, router]
    rfl

theorem State.moveRecord_zero (s t : State) : s.moveRecord t 0 = none := by
  unfold State.moveRecord
  cases (s.channel 0).ownerBooth with
  | none => rfl
  | some b =>
    rw [Option.bind_some]
    cases (s.booth b).cons.claimed with
    | none => rfl
    | some n =>
      rw [Option.bind_some]
      exact if_neg fun e => e.1 rfl

/-- Under the naming law a booth loses one channel at most. -/
theorem State.lossAt_alone (law : s.namingOk) (c d : ChannelId) (b : BoothId) (n m : ConsoleId) (hc : s.livened.lossAt u c = some (b, n))
    (hd : s.livened.lossAt u d = some (b, m)) : c = d := by
  have named (c : ChannelId) (n : ConsoleId) (h : s.livened.lossAt u c = some (b, n)) : (s.booth b).role.named = some c := by
    obtain ⟨o, same⟩ := s.livened_channel c
    obtain ⟨-, -, owner, -⟩ := State.lossAt_eq_some.mp h
    rw [same] at owner
    exact (State.names_iff law).mp (Channel.names_of_boothOf (c := s.channel c) owner)
  exact Option.some.inj ((named c n hc).symm.trans (named d m hd))

/-- The log after the boundary's work (R63, R67, R82). -/
theorem State.boundaryWorked_log (law : s.namingOk) (sound : s.memOk) :
    s.boundaryWorked.LogAs ((s.handedOver s.boundaryWorked).foldl State.handTurn s) := by
  have ended := (State.livened_log sound).meteredPart.endFormers s.livened (State.lossAt_alone law)
  have same : ∀ (l : List ChannelId), (∀ c ∈ l, c ≠ 0) → ∀ y : State, l.foldl (fun y c => y.handAny (s.livened.lossRecord s.meteredPart c)) y
      = (l.filterMap (s.moveRecord s.boundaryWorked)).foldl State.handTurn y := fun l real y => by
    rw [foldl_handTurn]
    refine List.foldl_ext _ _ _ fun y c hc => ?_
    rw [State.lossRecord_moved (real c hc) s.boundaryWorked_crossed s.boundaryWorked_fed]
  rw [same spokenChannels (fun c hc => mem_spoken_iff.mp hc)] at ended
  have first : (List.finRange 32).filterMap (s.moveRecord s.boundaryWorked) = spokenChannels.filterMap (s.moveRecord s.boundaryWorked) := by
    rw [show List.finRange 32 = 0 :: spokenChannels from rfl, List.filterMap_cons_none (s.moveRecord_zero _)]
  rw [State.handedOver_eq, List.foldl_append, first]
  exact ended.left (State.lightAll_only _ s) (by decide) (State.raises_of_notices (l := []) (State.lightAll_only _ s .notices (by decide))) (by decide)

theorem State.frameBoundary_log (ready : s.part = .ready) (law : s.namingOk) (sound : s.memOk) :
    s.frameBoundary.LogAs ((s.handedOver s.frameBoundary).foldl State.handTurn s) := by
  have only := State.frameBoundary_keeps ready rfl
  have booths : s.frameBoundary.booths = s.countFrame.boundaryWorked.booths := only .booths (by decide)
  have records : s.countFrame.handedOver s.countFrame.boundaryWorked = s.handedOver s.frameBoundary := by
    unfold State.handedOver State.booth
    rw [booths]
    rfl
  have worked := State.boundaryWorked_log (s := s.countFrame) law sound
  rw [records] at worked
  have counted : s.countFrame.LogAs s :=
    (State.logAs_refl sound).left s.countFrame_only (by decide) (State.raises_of_notices (l := []) rfl) (by decide)
  exact (worked.left only (by decide) (State.raises_of_notices (l := []) (only .notices (by decide))) (by decide)).trans
    (State.LogAs.foldl _ counted)

/-! ## The notices -/

/-- One booth's relief check raises RELIEF where a mark is due (R68). -/
theorem State.meterBooth_relief (booth : t.booth b = s.routerPart.booth b) (clock : t.clock = s.clock) (timers : t.timers = s.timers) :
    (State.meterBooth s t b).isPending .relief = true ↔ t.isPending .relief = true ∨ ∃ k, s.reliefMarks b k := by
  obtain ⟨w, router⟩ := s.routerPart_booth b
  rw [← booth] at router
  clear booth
  generalize s.routerPart.fedOf b = g at router
  unfold State.meterBooth
  extract_lets fed s1
  have only : t.onlyIn [.booths] s1 := (t.openTurn_only s b).next (State.updBooth_only _ b _) (by decide)
  have pending : s1.isPending .relief = t.isPending .relief :=
    congrArg (fun n : Notices => n.waiting.getLsbD Notice.relief.index) (only .notices (by decide))
  have console (k : ConsoleId) : (s1.booth b).cons.console k = (s.turnOf b g k).takeFed g := by
    have written : s1.booth b = ((t.openTurn s b).booth b).withEach (((t.openTurn s b).booth b).cons.each.map (fun c => c.takeFed fed)) :=
      ((t.openTurn s b).booth_updBooth b b _).trans (if_pos rfl)
    have value : fed = g := congrArg (fun r : Booth => r.role.fed) router
    rw [written, State.openTurn_booth, if_pos rfl]
    refine (Vector.getElem_map _ _).trans ?_
    rw [value, clock, router]
    exact congrArg (fun c : ConsoleRec => c.takeFed g) (Vector.getElem_ofFn _)
  have link : (s1.booth b).link = (s.booth b).link := by
    have written : s1.booth b = ((t.openTurn s b).booth b).withEach (((t.openTurn s b).booth b).cons.each.map (fun c => c.takeFed fed)) :=
      ((t.openTurn s b).booth_updBooth b b _).trans (if_pos rfl)
    rw [written, State.openTurn_booth, if_pos rfl]
    show (t.booth b).link = _
    exact (congrArg Booth.link router).trans rfl
  have due : (s1.isLive b = true ∧ s1.booths[b].cons.each.toList.any (fun c => c.reliefDue s1.clock.run s1.timers.relief) = true) ↔
      ∃ k, s.reliefMarks b k := by
    rw [State.isLive_iff, link, toList_eq_map, List.any_map, List.any_eq_true, only .clock (by decide), only .timers (by decide), clock, timers]
    constructor
    · rintro ⟨live, k, -, marks⟩
      replace marks : ((s1.booth b).cons.console k).reliefDue s.clock.run s.timers.relief = true := marks
      rw [console, ConsoleRec.reliefDue_takeFed] at marks
      exact ⟨k, (s.reliefDue_turnOf b _ k).mp ⟨live, marks⟩⟩
    · rintro ⟨k, marks⟩
      obtain ⟨live, due⟩ := (s.reliefDue_turnOf b g k).mpr marks
      refine ⟨live, k, List.mem_finRange k, ?_⟩
      show ((s1.booth b).cons.console k).reliefDue s.clock.run s.timers.relief = true
      rw [console, ConsoleRec.reliefDue_takeFed]
      exact due
  unfold State.checkRelief
  dsimp only
  split
  · rename_i h
    exact ⟨fun _ => .inr (due.mp h), fun _ => State.raise_isPending _ .relief⟩
  · rename_i h
    rw [pending]
    exact ⟨.inl, fun e => e.resolve_right (fun marks => h (due.mpr marks))⟩

theorem State.meteredPart_relief (s : State) : ((∃ b k, s.reliefMarks b k) → s.meteredPart.isPending .relief = true)
    ∧ ((∀ b k, ¬ s.reliefMarks b k) → s.meteredPart.isPending .relief = s.routerPart.isPending .relief) := by
  have clock : s.routerPart.clock = s.clock := s.routerPart_only .clock (by decide)
  have timers : s.routerPart.timers = s.timers := s.routerPart_only .timers (by decide)
  have next (t : State) (d : BoothId) (h : t.clock = s.clock ∧ t.timers = s.timers) :
      (State.meterBooth s t d).clock = s.clock ∧ (State.meterBooth s t d).timers = s.timers :=
    ⟨(State.meterBooth_only s t d .clock (by decide)).trans h.1, (State.meterBooth_only s t d .timers (by decide)).trans h.2⟩
  unfold State.meteredPart State.meterAll
  generalize hr : s.routerPart = start at clock timers
  refine ⟨fun ⟨b, marks⟩ => ?_, fun none => ?_⟩
  · refine State.each_reaches (A := fun t => t.booth b = start.booth b ∧ t.clock = s.clock ∧ t.timers = s.timers)
      (R := fun t => t.isPending .relief = true) (List.mem_finRange b) (List.nodup_finRange 24) (fun t d other h => ⟨?_, next t d h.2⟩)
      (fun t h => (State.meterBooth_relief (h.1.trans (congrArg (fun u : State => u.booth b) hr.symm)) h.2.1 h.2.2).mpr (.inr marks)) (fun t d h => (State.meterBooth_raises s t d .relief).1 h)
      ⟨rfl, clock, timers⟩
    rw [State.meterBooth_booth, if_neg (Ne.symm other)]
    exact h.1
  · have fold : ∀ (l : List BoothId) (t : State), l.Nodup → (∀ d ∈ l, t.booth d = start.booth d) → t.clock = s.clock ∧ t.timers = s.timers →
        (t.each l (State.meterBooth s)).isPending .relief = t.isPending .relief := by
      intro l
      induction l with
      | nil => exact fun _ _ _ _ => rfl
      | cons d l ih =>
        intro t distinct same h
        obtain ⟨fresh, distinct⟩ := List.nodup_cons.mp distinct
        refine (ih (State.meterBooth s t d) distinct (fun e he => ?_) (next t d h)).trans ?_
        · rw [State.meterBooth_booth, if_neg (fun i : e = d => fresh (i ▸ he))]
          exact same e (List.mem_cons_of_mem _ he)
        · have step := State.meterBooth_relief ((same d (List.mem_cons_self ..)).trans (congrArg (fun u : State => u.booth d) hr.symm)) h.1 h.2
          rw [Bool.eq_iff_iff]
          exact step.trans ⟨fun e => e.resolve_right (fun ⟨k, marks⟩ => none d k marks), .inl⟩
    exact fold boothList start (List.nodup_finRange 24) (fun _ _ => rfl) ⟨clock, timers⟩

/-- RELIEF at a boundary (R68). -/
theorem State.frameBoundary_relief (ready : s.part = .ready) : ((∃ b k, s.reliefMarks b k) → s.frameBoundary.isPending .relief = true)
    ∧ ((∀ b k, ¬ s.reliefMarks b k) → s.frameBoundary.isPending .relief = s.isPending .relief) := by
  have only := State.frameBoundary_keeps ready rfl
  obtain ⟨marked, unmarked⟩ := s.countFrame.meteredPart_relief
  have before : s.countFrame.routerPart.isPending .relief = s.isPending .relief := by
    have written : s.countFrame.routerPart.isPending .relief = s.countFrame.livened.routedAll.isPending .relief :=
      congrArg (fun n : Notices => n.waiting.getLsbD Notice.relief.index)
        (((State.fedAll_only _) .notices (by decide)).trans ((State.bracketAll_only s.countFrame.livened.routedAll s.countFrame) .notices (by decide)))
    exact written.trans (((s.countFrame.livened.routedAll_raises .relief).2 (by decide)).trans ((s.countFrame.livened_raises .relief).2 (by decide)))
  have after : s.frameBoundary.isPending .relief = s.countFrame.meteredPart.isPending .relief := by
    have lit : s.frameBoundary.isPending .relief = (s.countFrame.meteredPart.endFormers s.countFrame.livened).isPending .relief :=
      congrArg (fun n : Notices => n.waiting.getLsbD Notice.relief.index)
        ((only .notices (by decide)).trans (State.lightAll_only _ s.countFrame .notices (by decide)))
    exact lit.trans ((State.raises_each (State.endFormer_raises s.countFrame.livened) spokenChannels s.countFrame.meteredPart .relief).2 (by decide))
  rw [after]
  exact ⟨marked, fun none => (unmarked none).trans before⟩

/-- A console that becomes live by an acceptance raises HANDOVER (R63). -/
theorem State.livened_handover (live : (s.booth b).cons.live ≠ some n) (claimed : (s.booth b).cons.claimed = some n)
    (passed : (s.inside b).accepted = true) : s.livened.isPending .handover = true := by
  refine State.each_reaches (A := fun t => t.booth b = s.booth b ∧ t.inside b = s.inside b) (R := fun t => t.isPending .handover = true)
    (List.mem_finRange b) (List.nodup_finRange 24) (fun t d other h => ?_) (fun t h => ?_) (fun t d h => (t.changeLive_raises d .handover).1 h)
    ⟨rfl, rfl⟩
  · rw [State.changeLive_claimed, State.changeLive_inside, if_neg (Ne.symm other), if_neg (Ne.symm other)]
    exact h
  · obtain ⟨booth, inside⟩ := h
    rw [State.changeLive_of_some (n := n) (by rw [booth, claimed]; exact live) (by rw [booth, claimed]), inside, passed, if_pos rfl]
    exact State.raise_isPending _ .handover

theorem State.frameBoundary_passed (ready : s.part = .ready) (live : (s.booth b).cons.live ≠ some n)
    (claimed : (s.booth b).cons.claimed = some n) (passed : (s.inside b).accepted = true) : s.frameBoundary.isPending .handover = true :=
  State.frameBoundary_pending ready ((s.countFrame.livened.routedAll_raises .handover).1
    (State.livened_handover (s := s.countFrame) live claimed passed))

/-! ## The rest -/

theorem State.sendFrames_inside (u : State) (b : BoothId) : (u.sendFrames.inside b).accepted = (u.inside b).accepted := by
  have sent : u.sendFrames.inner = u.inner.map (fun i => { i with handed := none }) := by
    unfold State.sendFrames State.routeAudio
    rfl
  unfold State.inside
  rw [sent]
  exact (congrArg BoothInner.accepted (Vector.getElem_map _ _)).trans rfl

theorem State.frameBoundary_inside (ready : s.part = .ready) (b : BoothId) : (s.frameBoundary.inside b).accepted = false := by
  rw [State.frameBoundary_ready ready]
  have worked := s.countFrame.boundaryWorked_inside b
  generalize s.countFrame.boundaryWorked = u at worked
  have kept : u.sendFrames.sendOrDue.inside b = u.sendFrames.inside b :=
    congrArg (fun v : Vector BoothInner 24 => v[b]) (u.sendFrames.sendOrDue_only .inner (by decide))
  rw [kept, State.sendFrames_inside, worked]

theorem State.frameBoundary_frames (ready : s.part = .ready) : s.frameBoundary.framer.frames = s.framer.frames + 1 := by
  rw [State.frameBoundary_ready ready]
  have framer : s.countFrame.boundaryWorked.framer = s.countFrame.framer := s.countFrame.boundaryWorked_only .framer (by decide)
  generalize s.countFrame.boundaryWorked = u at framer
  have kept := u.sendFrames_framer.trans framer
  generalize u.sendFrames = w at kept
  have sent : w.sendOrDue.framer.frames = w.framer.frames := by
    unfold State.sendOrDue
    split <;> rfl
  rw [sent, kept]
  rfl

end

end Sys2Proof.Machine
end

section
/-!
SUPPORT. What a frame boundary does with the consoles (R56, R60, R61, R63, R65 to R68, R82, O35).
-/
namespace Sys2Proof.Machine

/-- Settles O35: each console is told of the state before the boundary by the form its booth's crossing leaves. -/
theorem boundaryMakesClaimsLive : Obligations.BoundaryMakesClaimsLive := by
  intro s ready
  have only := s.frameBoundary_only
  refine ⟨s.frameBoundary, rfl, only .clock (by decide), only .timers (by decide), State.frameBoundary_frames ready, only .accounts (by decide),
    only .hires (by decide), only .receivers (by decide), only .positions (by decide), ?_⟩
  intro now live claimed was is speaks moves loses due
  obtain ⟨marked, unmarked⟩ := State.frameBoundary_relief ready
  refine ⟨fun naming mem => ?_, marked, unmarked, fun b => ?_⟩
  · obtain ⟨log, header, pending, bytes, -, -⟩ := State.frameBoundary_log ready naming mem
    exact ⟨log, header, pending, bytes⟩
  have crossed := State.frameBoundary_crossed ready b
  have cons := crossed.cons
  refine ⟨by rw [cons], by rw [cons], crossed.link, State.frameBoundary_inside ready b, fun on off => ?_, fun stays => ?_, fun n other own => ?_,
    fun n own lost => ?_, fun n on own kept => ?_, fun n same => ?_, fun m on other running apart => ?_, fun m on other passed => ?_,
    fun k turn => ?_, fun k => ?_⟩
  · rw [cons]
    exact if_pos ⟨fun e => on (e.trans off), off⟩
  · rw [cons]
    exact if_neg fun e => stays.elim (fun none => e.1 (none.trans e.2.symm)) (fun some => some e.2)
  · obtain ⟨z, form⟩ := crossed.console n
    obtain ⟨since, running, idle, gap⟩ := form.came other own
    exact ⟨since, running, idle, gap, State.frameBoundary_passed ready other own⟩
  · obtain ⟨z, form⟩ := crossed.console n
    exact form.loses own lost
  · obtain ⟨z, form⟩ := crossed.console n
    exact (form.same ⟨fun _ => own, fun _ => on⟩).2 (fun e => kept e.2)
  · obtain ⟨z, form⟩ := crossed.console n
    obtain ⟨record, times⟩ := form.same same
    exact ⟨record, fun off => times (fun e => off (same.mpr e.1))⟩
  · obtain ⟨z, form⟩ := crossed.console m
    exact (form.left on other).1 running apart
  · obtain ⟨z, form⟩ := crossed.console m
    exact (form.left on other).2 passed
  · obtain ⟨z, form⟩ := crossed.console k
    exact form.marks turn
  · obtain ⟨z, form⟩ := crossed.console k
    exact form.lamp

end Sys2Proof.Machine
end
